-- ==== Sys2Proof/Word.lean ====
section
/-! DEFINITION. The word types of the device and the plainest arithmetic on them (00_scope.md R5-R7). -/

namespace Sys2Proof

/-- A byte of memory. -/
abbrev Byte := BitVec 8

/-- A 32-bit register of one lane. -/
abbrev W32 := BitVec 32

/-- A 64-bit register word or value. -/
abbrev W64 := BitVec 64

/-- One bit per lane of a group. -/
abbrev Mask := BitVec 32

/-- A device virtual address held as a program counter (11_translation.md R227). -/
abbrev Pc := BitVec 57

/-- A 128 B line; byte 0 is the least significant (00_scope.md R7). -/
abbrev Line := BitVec 1024

/-- The truth value as a number, for counts and register bits. -/
def b2n (b : Bool) : Nat := if b then 1 else 0

/-- Bits `[lo+wid-1 : lo]` of a number (00_scope.md R6). -/
def bitsOf (x lo wid : Nat) : Nat := (x >>> lo) % 2 ^ wid

/-- `x` raised to at most `m` (a counter that saturates). -/
def satTo (m x : Nat) : Nat := min m x

/-- Ceiling of `a / b`. -/
def cdiv (a b : Nat) : Nat := (a + b - 1) / b

end Sys2Proof
end

