-- ==== Sys2Proof/Syntax.lean ====
section
/-! DEFINITION. The commands of the block: one constructor for each row of opcode_table.json, in its order. A row's
operands are what the spec's text says its sender or the surroundings supply: the unit or object it acts on, the values an
instruction carries, and what a sensor, a link or a self-test found. -/

namespace Sys2Proof

/-- A group slot of a core: global core number 0-511 and slot 0-63 (00_scope.md R3, R4). -/
structure Gid where
  core : Nat
  slot : Nat
  deriving DecidableEq, Repr

/-- A command: context, submission number (12_shared_objects.md R255), and 0 for the packet itself or `k + 1` for node
`k` of a GRAPH_LAUNCH (12_shared_objects.md R264). -/
structure CmdId where
  ctx : Nat
  seq : Nat
  node : Nat
  deriving DecidableEq, Repr

/-- Memory scopes, Table 4.1 (04_memory_model.md R86). -/
inductive Scope where
  | grp | blk | dev | sys
  deriving DecidableEq, Repr

/-- Ordering qualifier of an ATOM (04_memory_model.md R92). -/
inductive MemOrd where
  | rlx | acq | rel | ar
  deriving DecidableEq, Repr

/-- The address space an access instruction names: a device virtual address or an offset in the block's scratch
(09_caches.md R187). -/
inductive Space where
  | dev | scr
  deriving DecidableEq, Repr

/-- Types an ATOM can name in its encoding, Table 4.4 (04_memory_model.md R92, R95). -/
inductive AtomTy where
  | int32 | uint32 | int64 | uint64 | f32 | b32 | b64
  deriving DecidableEq, Repr

/-- Types of an accumulate-on-write (08_berim_stacks.md R179). -/
inductive RedTy where
  | bf16 | f32 | i32
  deriving DecidableEq, Repr

/-- Operation of an accumulate-on-write (08_berim_stacks.md R179). -/
inductive RedOp where
  | add | max | min
  deriving DecidableEq, Repr

/-- Type of a MEW (05_matrix_engines.md R109). -/
inductive MewTy where
  | f32 | i32
  deriving DecidableEq, Repr

/-- Names SVAL can read, Table 3.5 (03_thread_execution.md R70). -/
inductive SvalName where
  | lane | tidx | ogrp | slot | core | block | active | live | rgcnt
  deriving DecidableEq, Repr

/-- The three pipes of a matrix engine (05_matrix_engines.md R113). -/
inductive Pipe where
  | feeder | array | side
  deriving DecidableEq, Repr

/-- What the checks of a unit found on the access a row stands for: nothing; a pipeline parity error
(17_fault_tolerance.md R344); a parity error of a cache entry, Table 9.2 (09_caches.md R206), in a clean line, a modified
line, or a tag or state entry; a parity error of the line that the access evicts; a scratch parity error; an uncorrectable register
error (RF_UE); or an error of the core's control state (CORE_CTL) or of the cluster's (CL_CTL, Table 17.1). -/
inductive Found where
  | none | pipe | clean | dirty | tag | victim | scratch | rfUe | coreCtl | clusterCtl
  deriving DecidableEq, Repr

/-- What the ECC checker of a stack found in a line, Table 8.3 (08_berim_stacks.md R168): the sector 0-3 of the error. -/
inductive Ecc where
  | ok | corrected (sector : Nat) | bad (sector : Nat)
  deriving DecidableEq, Repr

/-- Which half of an access sender: a UCIe host module 0-7 (2 x die + module), or the debug connector
(24_register_index.md R464, R465). -/
inductive Src where
  | host (mod : Nat) | connector
  deriving DecidableEq, Repr

/-- Kinds of shared object, in TYPE order of Table 12.1 (12_shared_objects.md R251). -/
inductive ObjKind where
  | ctx | swq | mem | note | timeline | graph
  deriving DecidableEq, Repr

/-- Element formats, in FMT order of Table 5.2 (05_matrix_engines.md R107), then OCP MXFP4 (06_number_formats.md R132). -/
inductive Fmt where
  | b32 | b16 | bf16 | e4m3 | e5m2 | q4 | int8 | int32 | mxfp4
  deriving DecidableEq, Repr

/-- Floating-point operations of the vector engine (07_arithmetic_rules.md R156-R158, R163). -/
inductive FOp where
  | add | sub | mul | div | sqrt | fma
  deriving DecidableEq, Repr

/-- Formats of vector floating-point arithmetic below binary64 (07_arithmetic_rules.md R156, R157). -/
inductive FFmt where
  | b32 | b16 | bf16
  deriving DecidableEq, Repr

/-- The ordinary vector-engine instructions that 07_arithmetic_rules.md R156-R158 and 06_number_formats.md R140-R144 give
a result: `float` and `double` are any operation of a format, of which `fadd`, `fmul`, `ffma` and `dfma` are the first named. `corpin`
is any other ordinary instruction (its result is the Corpin toolchain documentation's), and `jump` a branch that every active lane
takes. -/
inductive VecOp where
  | fadd | fmul | ffma | fmax | fmin
  | dfma
  | float (o : FOp) (f : FFmt)
  | double (o : FOp)
  | cvt (src dst : Fmt)
  | corpin (opc : Nat)
  | jump (target : Pc)
  deriving DecidableEq, Repr

/-- Packet types of the fabric, Table 16.4 (16_yorin_fabric.md). -/
inductive FabTyp where
  | bind | bindOk | bindFail | write | ack | fin | done | abort | reset | other (code : Nat)
  deriving DecidableEq, Repr

/-- A fabric packet, Table 16.3 (16_yorin_fabric.md R328); `payload` is its LEN bytes. -/
structure FabPkt where
  typ : FabTyp
  hops : Nat
  dst : Nat
  src : Nat
  dl : Bool
  part : Nat
  xfer : Nat
  pseq : Nat
  payload : List Byte
  deriving DecidableEq, Repr

/-- What a stamp SYNC message brings (16_yorin_fabric.md R340): the neighbour's stamp as the two-way exchange measures it
now, and its distance from the root. -/
structure SyncMsg where
  stamp : Nat
  dist : Nat
  deriving DecidableEq, Repr

/-- The answer of the host's translation unit (11_translation.md R236). -/
inductive HtuAns where
  | ok (host : Nat) (size : Nat) (r w : Bool)
  | fault
  deriving DecidableEq, Repr

/-- The commands, one constructor for each row of opcode_table.json. -/
inductive Instr where
  -- 00 Scope; 02 The Folio
  | registerWrite (src : Src) (off : Nat) (bytes : Nat) (val : W64)
  | folioLoad (force persist : Bool)
  | folioVerifyDone
  | folioDrainDone
  | folioSwitchDone
  | folioPersistDone
  | qosAdjWrite (cls part : Nat) (share : Byte)
  | wayAdjWrite (part cls : Nat) (mask : BitVec 16)
  -- 03 Thread groups
  | blockPlace (cmd : CmdId) (cores : List Nat)
  | scratchZeroDone (bid : Nat)
  | blockEnd (bid : Nat)
  | rpush (g : Gid) (target : Pc)
  | braDiv (g : Gid) (pd : Nat) (target : Pc)
  | rsync (g : Gid)
  | exit (g : Gid)
  | sval (g : Gid) (rd : Nat) (name : SvalName)
  | lvoteEvery (g : Gid) (pd ps : Nat)
  | lvoteSome (g : Gid) (pd ps : Nat)
  | lvoteNone (g : Gid) (pd ps : Nat)
  | lvoteSame (g : Gid) (pd ps : Nat)
  | lmask (g : Gid) (rd ps : Nat)
  | lcount (g : Gid) (rd ps : Nat)
  | lpeer (g : Gid) (rd rs : Nat)
  | xchSel (g : Gid) (rd pd rs ri s : Nat)
  | xchRup (g : Gid) (rd pd rs n s : Nat)
  | xchRdn (g : Gid) (rd pd rs n s : Nat)
  | xchSup (g : Gid) (rd pd rs n s : Nat)
  | xchSdn (g : Gid) (rd pd rs n s : Nat)
  | xchMir (g : Gid) (rd pd rs n s : Nat)
  | barBlk (g : Gid) (id : Nat)
  | barClu (g : Gid) (id : Nat)
  | lkgEnter (g : Gid) (sc : Scope) (sp : Space) (ra : Nat)
  | lkgBackoffExpire (g : Gid)
  | lkgExit (g : Gid) (sp : Space) (ra : Nat)
  | regroup (g : Gid) (w : Nat)
  | regroupWaitExpire (bid : Nat) (pc : Pc)
  | trap (g : Gid) (n : Byte)
  | trappedBlockEnd (bid : Nat)
  -- 04 Memory
  | ld (g : Gid) (rd ra size : Nat) (sp : Space) (found : Found)
  | st (g : Gid) (ra rs size : Nat) (sp : Space) (found : Found)
  | ldAcq (g : Gid) (sc : Scope) (rd ra size : Nat) (sp : Space)
  | stRel (g : Gid) (sc : Scope) (ra rs size : Nat) (sp : Space)
  | fence (g : Gid) (sc : Scope)
  | fenceSc (g : Gid) (sc : Scope)
  | atomAdd (g : Gid) (ty : AtomTy) (ord : MemOrd) (sc : Scope) (sp : Space) (rd ra rs : Nat)
  | atomMin (g : Gid) (ty : AtomTy) (ord : MemOrd) (sc : Scope) (sp : Space) (rd ra rs : Nat)
  | atomMax (g : Gid) (ty : AtomTy) (ord : MemOrd) (sc : Scope) (sp : Space) (rd ra rs : Nat)
  | atomAnd (g : Gid) (ty : AtomTy) (ord : MemOrd) (sc : Scope) (sp : Space) (rd ra rs : Nat)
  | atomOr (g : Gid) (ty : AtomTy) (ord : MemOrd) (sc : Scope) (sp : Space) (rd ra rs : Nat)
  | atomXor (g : Gid) (ty : AtomTy) (ord : MemOrd) (sc : Scope) (sp : Space) (rd ra rs : Nat)
  | atomExch (g : Gid) (ty : AtomTy) (ord : MemOrd) (sc : Scope) (sp : Space) (rd ra rs : Nat)
  | atomCas (g : Gid) (ty : AtomTy) (ord : MemOrd) (sc : Scope) (sp : Space) (rd ra rs rt : Nat)
  | hostWrite (mod key pa : Nat) (data : List Byte)
  | hostRead (mod key pa len : Nat)
  -- 05 Matrix engines
  | mlds (g : Gid) (mx sh ra : Nat)
  | mmaZ (g : Gid) (mx t sh ra : Nat)
  | mmaA (g : Gid) (mx t sh ra : Nat)
  | mmaZS3 (g : Gid) (mx t sh ra : Nat)
  | mmaAS3 (g : Gid) (mx t sh ra : Nat)
  | mmaZS6 (g : Gid) (mx t sh ra : Nat)
  | mmaAS6 (g : Gid) (mx t sh ra : Nat)
  | mldc (g : Gid) (mx t ra : Nat)
  | mstc (g : Gid) (mx t ra : Nat)
  | mewZero (g : Gid) (ty : MewTy) (mx t : Nat)
  | mewCopy (g : Gid) (ty : MewTy) (mx t u : Nat)
  | mewAdd (g : Gid) (ty : MewTy) (mx t u : Nat)
  | mewMul (g : Gid) (ty : MewTy) (mx t u : Nat)
  | mewAxpb (g : Gid) (ty : MewTy) (mx t rs rb : Nat)
  | mewBias (g : Gid) (ty : MewTy) (mx t ra : Nat)
  | mewMax (g : Gid) (ty : MewTy) (mx t rs : Nat)
  | mewMin (g : Gid) (ty : MewTy) (mx t rs : Nat)
  | mewCvt (g : Gid) (ty : MewTy) (mx t : Nat)
  | mwait (g : Gid) (m0 m1 : Bool)
  | mwaitSatisfied (g : Gid)
  | mxPipeStart (core mx : Nat) (p : Pipe)
  | mxAdvance (core mx : Nat)
  | mxRowAdd (core mx : Nat) (residueOk : Bool)
  | mxInstrComplete (core mx : Nat) (p : Pipe)
  | mxRampStepEnd (core mx : Nat)
  -- 08 Berim stacks
  | redAdd (g : Gid) (ty : RedTy) (sp : Space) (ra rs : Nat)
  | redMax (g : Gid) (ty : RedTy) (sp : Space) (ra rs : Nat)
  | redMin (g : Gid) (ty : RedTy) (sp : Space) (ra rs : Nat)
  | reductionApply (line : Nat) (ecc : Ecc)
  | combineBufferIdle (line : Nat)
  | stackRead (line : Nat) (ecc : Ecc)
  | stackWrite (line key : Nat) (mask : BitVec 128) (data : Line)
  | patrolScrub (line : Nat) (ecc : Ecc)
  | refreshTempSample (stack temp : Nat)
  | refreshCommand (stack : Nat)
  | stkRetireAck (stack : Nat)
  -- 09 Caches
  | streamEnd (core idx : Nat)
  | victimDrain (cluster line : Nat)
  -- 10 Coherence, level A
  | gets (core line : Nat) (found : Found)
  | getm (core line : Nat) (found : Found)
  | upg (core line : Nat)
  | pute (core line : Nat)
  | putm (core line : Nat)
  | rdata (core line : Nat)
  | datas (core line : Nat)
  | datae (core line : Nat)
  | datam (core line : Nat)
  | grant (core line : Nat)
  | putack (core line : Nat)
  | inv (core line : Nat)
  | recall (core line : Nat)
  | down (core line : Nat)
  | zLineExpire (core line : Nat)
  -- 10 Coherence, level B
  | rds (r line : Nat)
  | rdx (r line : Nat)
  | upx (r line : Nat)
  | rdn (r line : Nat)
  | wbm (r line : Nat)
  | wrf (r line : Nat)
  | wrp (r line : Nat)
  | redu (r line : Nat)
  | done (r line : Nat)
  | dats (cluster line : Nat)
  | datx (cluster line : Nat)
  | gntx (cluster line : Nat)
  | fwds (cluster line : Nat)
  | fwdx (cluster line : Nat)
  | wback (cluster line : Nat)
  | rddata (r line : Nat)
  | wrack (r line : Nat)
  | retry (r home : Nat)
  | crgnt (r home : Nat)
  | sninv (cluster line : Nat) (found : Found)
  | snfwds (cluster line : Nat)
  | snfwdx (cluster line : Nat)
  | snrcl (cluster line : Nat)
  | snack (cluster line : Nat)
  | snackd (cluster line : Nat)
  | snmiss (cluster line : Nat)
  | snwb (cluster line : Nat)
  | homeTimerExpire (line agent : Nat)
  | agentDeadSet (agent : Nat)
  | reclaimDone (home agent : Nat)
  -- 11 Translation
  | walkStep (die idx : Nat)
  | quireTimeout (ctx : Nat)
  | htuResponse (die idx : Nat) (ans : HtuAns)
  | htuInvalidate (pasid va pages tag : Nat)
  | invRange (ctx size count : Nat) (irq : Bool)
  | invContext (ctx : Nat) (irq : Bool)
  | invAll (irq : Bool)
  | invComplete
  | resolveRetry (ctx quire : Nat)
  | resolveAbort (ctx quire : Nat)
  | blotterTailWrite (ctx tail : Nat)
  | xltCtxDisable (ctx : Nat)
  -- 12 Shared objects
  | ctxCreate
  | swqCreate
  | memobjCreate
  | noteCreate
  | timelineCreate
  | graphCreate
  | graphPatch
  | ctxRelease
  | memobjRelease
  | graphRelease
  | objRelease
  | memobjFree (idx : Nat)
  | graphVersionFree (slot ver : Nat)
  | releasePointReached (kind : ObjKind) (idx : Nat)
  | ctxDestroy
  | objDestroy
  | destroyDone (kind : ObjKind) (idx : Nat)
  | ctxSave
  | ctxSaveDone (ctx : Nat)
  | ctxRestore (cores : List Nat)
  | ctxAborted (ctx : Nat)
  -- 13 Command submission
  | swqDoorbell (q : Nat) (v : W32)
  | queueMap (q slot : Nat)
  | queueUnmap (slot : Nat) (waited100us held1ms : Bool)
  | packetParse (q : Nat)
  | nop (cmd : CmdId)
  | launch (cmd : CmdId)
  | copy (cmd : CmdId) (found : Found)
  | fill (cmd : CmdId) (found : Found)
  | record (cmd : CmdId)
  | wait (cmd : CmdId)
  | signal (cmd : CmdId)
  | fencePacket (cmd : CmdId)
  | graphLaunch (cmd : CmdId)
  | dump (cmd : CmdId)
  | dumpCapture (cmd : CmdId) (found : Found)
  | qenq (g : Gid) (rd rq ra : Nat)
  | commandComplete (cmd : CmdId)
  | commandTimeout (cmd : CmdId)
  | swqResume (q : Nat)
  | swqCmplAck (q : Nat) (v : W32)
  | cmplFbClear (ctx : Nat)
  -- 14 Synchronisation
  | timelineSignalApply (die : Nat)
  | noteSignalApply (die : Nat)
  | waitRegister (die : Nat)
  | waitWake (cmd : CmdId)
  | waitWithdraw (die : Nat)
  | tlSig (src : Src) (tl : Nat) (v : W64)
  | noteSig (src : Src) (n : Nat) (c : W32)
  | watchArm (src : Src) (w : Nat)
  | watcherFire (w : Nat)
  | stocktakeDue (q : Nat)
  | stocktakeAlign (q : Nat)
  -- 15 Interrupts
  | intEvent (src : Nat)
  | intClaim (t : Nat)
  | intEoi (t src : Nat)
  | intSwi (s : Byte)
  | intTgtLoWrite (src : Nat) (v : W64)
  | intTgtHiWrite (src : Nat) (v : BitVec 17)
  | islandEdge (src : Nat)
  -- 16 Fabric
  | flitReceive (port : Nat) (flit : BitVec 2048)
  | flitAckTimeout (port : Nat)
  | portEnable (port : Nat)
  | portRetrain (port : Nat)
  | portTrainDone (port : Nat) (good : BitVec 8) (peer peerPort : Nat)
  | laneFail (port lane : Nat)
  | packetRoute
  | fabBind
  | fabBindOk
  | fabBindFail
  | fabWrite
  | fabAck
  | fabEnd
  | fabDone
  | fabAbort
  | fabReset
  | fabAckTimer (src xfer : Nat)
  | fabPacketResend (xfer pseq : Nat)
  | fabEndResend (xfer : Nat)
  | fabBindRetry (xfer : Nat)
  | fabXferStall (xfer : Nat)
  | fabRecvIdle (src xfer : Nat)
  | stampSyncTimer (port : Nat)
  | stampSync (port : Nat) (msg : SyncMsg)
  | cblPrsntChange (port : Nat) (high : Bool)
  -- 17 Fault tolerance
  | coreSelftestDone (core : Nat) (pass : Bool)
  | heartbeatTimeout (cluster : Nat)
  | quarantineWbTimeout (cluster : Nat)
  | repartition
  | clusterSelftestDone (cluster : Nat) (pass : Bool)
  | clerkWdt (clerk : Nat)
  | ucieDown (mod : Nat)
  | d2dDown (pair : Nat)
  | pkgWdt
  | snapEnable (ctx : Nat)
  | snapDisable (ctx : Nat)
  | snapPageCopy (ctx range va : Nat)
  | snapCutRequest (ctx : Nat)
  | snapCutTimer (ctx : Nat)
  | snapCutDeferExpire (ctx : Nat)
  | snapCutCopy (ctx : Nat)
  | snapCommit (ctx : Nat) (pauseUs : Nat)
  | snapPushGo (slot : Nat)
  | snapPushDone (slot : Nat)
  | snapAdoptGo (ctx handle off4k : Nat)
  | snapAdoptDone (ctx : Nat)
  -- 18 Reset
  | powerGoodRise
  | powerGoodFall
  | modResetAssert (ns : Nat)
  | modResetRelease
  | resetReleaseStep (ok : Bool)
  | rstPartAssert (bits : BitVec 16)
  | partResetWbTimeout (group : Nat)
  | partResetRelease (group : Nat)
  | rstCore (core : Nat)
  | rstUnitCluster (cluster : Nat)
  | rstUnitClerk (clerk : Nat)
  | rstUnitHome (home : Nat)
  | rstUnitPort (port : Nat)
  | rstUnitUcie (mod : Nat)
  | rstUnitDtc (die : Nat)
  | rstUnitCopy (die : Nat)
  | rstUnitSnap (die : Nat)
  | rstUnitLedger (die : Nat)
  | unitResetRelease (die bit : Nat)
  -- 19 Power and clocks
  | gateOff (target : Nat) (gang : Bool)
  | gateOn (target : Nat) (gang : Bool)
  | domainWakeDone (dom : Nat)
  | domainDrainDone (dom : Nat)
  | autoGateIdle (dom : Nat)
  | nocClockStop (die : Nat)
  | nocClockStart (die : Nat)
  | coreClockStop (core : Nat)
  | powerLoopRun
  | pwrSample (cv ci : Nat)
  | dieTempSample (die temp : Nat)
  | droopDetect (cluster : Nat)
  | droopTrimDecay (cluster : Nat)
  | pwrLimitWrite (watts clkMax : Nat)
  | ucieL1Entry (mod : Nat)
  | ucieL1Exit (mod : Nat)
  -- 20 Tally and ledger
  | counterWrap (die set ctr : Nat)
  | talrd (g : Gid) (rd n : Nat)
  | talmark (g : Gid) (rs : Nat)
  | sampleTag (g : Gid)
  | sampleOffer (core : Nat) (discarded : Bool) (source issueWait latency memLat segments : Nat)
  | ledgerIntervalSample (die : Nat)
  | ledgerRecordWrite (die : Nat)
  | ledgerGapTimer (die : Nat)
  | ledEnable (die : Nat)
  | ledDisable (die : Nat)
  | ledArm (die : Nat)
  | ledFire (die : Nat)
  -- 21 Debug
  | dbgAttach (src : Src) (ctx : Nat)
  | dbgDetach (src : Src) (ctx : Nat)
  | halt (ctx : Nat) (g : Gid)
  | resume (ctx : Nat) (g : Gid)
  | step (ctx : Nat) (g : Gid)
  | haltAll (ctx : Nat)
  | resumeAll (ctx : Nat)
  | haltedEvent (g : Gid)
  | stepDone (g : Gid)
  | dbgDataRead
  | dbgDataWrite (v : W64)
  | dbgEvtPcRead (ctx : Nat)
  | tokenSubmit
  | tokenVerifyDone
  | relock
  | dbgTransaction (op off : Nat) (data : W64)
  -- 22 Security and management
  | requestUpdate
  | fwImageVerify (image : List Byte)
  | fwFlashWriteDone
  | fwRecoveryFetch (image : List Byte)
  | fwRecoveryTimeout
  | getVersion
  | getCapabilities
  | negotiateAlgorithms (base hash : Nat)
  | getDigests
  | getCertificate (slot off len : Nat)
  | challenge (slot : Nat) (nonce : List Byte)
  | getMeasurements (nonce : List Byte)
  | mctpControl (typ : Nat) (body : List Byte)
  | pldmBase (cmd : Nat)
  | pldmSensorRead (sensor : Nat)
  | setModuleNumber (n : Nat)
  | moduleReset
  | mgmtResetExpire
  | readRetirement (stack : Nat)
  | readFuseMap
  | writeCalibration (body : List Byte) (interrupted : Bool)
  | readCalibration
  | readRecoveryLog
  | leakDetect
  -- rows that stand at the table's end
  | vectorEngineInstruction (g : Gid) (op : VecOp) (rd ra rb rc : Nat) (found : Found)
  | ucieLinkTrained (mod : Nat) (slow : Bool)
  | stampLockExpire
  | fabEndedEntryExpire (src xfer : Nat)
  | containWindowExpire (cluster : Nat)
  deriving DecidableEq, Repr

end Sys2Proof
end

