-- ==== Sys2Proof/Decode.lean ====
section
/-! DEFINITION. The commands a word spells. No row of opcode_table.json gives its command bits, so no word spells one. -/

namespace Sys2Proof

/-- The command that a word spells by the table's bits: the table gives none to any row (DESIGN CHOICE, log 4). -/
def decodeTableWord (_nbits _w : Nat) : Option Instr := none

end Sys2Proof
end

