-- ==== Sys2Proof/Machine/Maps.lean ====
section
/-! DEFINITION. Finite maps as lists: sorted by a number (memory), and by any key with decidable equality (registers and
tables). -/

namespace Sys2Proof.Machine

/-- The entry at a key of a sorted list. -/
def mget {α : Type} : List (Nat × α) → Nat → Option α
  | [], _ => none
  | (k, v) :: r, a => if k = a then some v else mget r a

/-- Put an entry at its place in a sorted list. -/
def mput {α : Type} : List (Nat × α) → Nat → α → List (Nat × α)
  | [], a, v => [(a, v)]
  | (k, w) :: r, a, v => if k = a then (a, v) :: r else if a < k then (a, v) :: (k, w) :: r else (k, w) :: mput r a v

/-- Remove the entry at a key. -/
def mdel {α : Type} (m : List (Nat × α)) (a : Nat) : List (Nat × α) := m.filter (fun e => e.1 != a)

/-- Keys strictly rise along the list. -/
def rising {α : Type} : List (Nat × α) → Bool
  | [] => true
  | [_] => true
  | (a, _) :: (b, w) :: r => decide (a < b) && rising ((b, w) :: r)

/-- The entry at a key. -/
def aget {κ α : Type} [DecidableEq κ] : List (κ × α) → κ → Option α
  | [], _ => none
  | (k, v) :: r, a => if k = a then some v else aget r a

/-- Put an entry, in place of the one at the same key. -/
def aput {κ α : Type} [DecidableEq κ] : List (κ × α) → κ → α → List (κ × α)
  | [], a, v => [(a, v)]
  | (k, w) :: r, a, v => if k = a then (a, v) :: r else (k, w) :: aput r a v

/-- Remove the entries at a key. -/
def adel {κ α : Type} [DecidableEq κ] (m : List (κ × α)) (a : κ) : List (κ × α) := m.filter (fun e => decide (e.1 ≠ a))

/-- Change the entry at a key, if there is one. -/
def amod {κ α : Type} [DecidableEq κ] (m : List (κ × α)) (a : κ) (f : α → α) : List (κ × α) :=
  match aget m a with
  | some v => aput m a (f v)
  | none => m

/-- Element `i` of a list replaced, if it is there. -/
def lset {α : Type} (l : List α) (i : Nat) (v : α) : List α := l.set i v

/-- Insertion into a list sorted by an order, behind its equals. -/
def insertBy {α : Type} (le : α → α → Bool) (x : α) : List α → List α
  | [] => [x]
  | y :: r => if le y x then y :: insertBy le x r else x :: y :: r

/-- A list sorted by an order; equals keep their places. -/
def isort {α : Type} (le : α → α → Bool) (l : List α) : List α := l.foldl (fun r x => insertBy le x r) []

/-- The little-endian number of a list of bytes (00_scope.md R7). -/
def leNat : List Byte → Nat
  | [] => 0
  | b :: r => b.toNat + 256 * leNat r

/-- `n` bytes of a number, little-endian. -/
def leBytes : Nat → Nat → List Byte
  | 0, _ => []
  | n + 1, x => BitVec.ofNat 8 x :: leBytes n (x / 256)

/-- Bytes `[off, off + n)` of an image as a number; bytes beyond the end count zero. -/
def leAt (l : List Byte) (off n : Nat) : Nat := leNat ((l.drop off).take n)

end Sys2Proof.Machine
end

