-- ==== Sys2Proof/Machine/Numbers.lean ====
section
/-! DEFINITION. Number formats and arithmetic (06_number_formats.md, 07_arithmetic_rules.md), exact on dyadic rationals: a
finite value is a sign, a natural significand and an integer exponent of two. -/

namespace Sys2Proof.Machine

open Sys2Proof

/-- Effective arithmetic mode of a launch (07 R146) with the partition's 4-bit reading (06 R133). -/
structure ArMode where
  strict : Bool
  sat : Bool
  mx : Bool
  deriving DecidableEq, Repr

/-- A value: finite `± m 2^e`, infinite, or NaN with its exact widening to binary32 (06 R140). -/
inductive V where
  | fin (neg : Bool) (m : Nat) (e : Int)
  | inf (neg : Bool)
  | nan (w : Nat)
  deriving DecidableEq, Repr

/-- Floor of the base-2 logarithm. -/
def flog (m : Nat) : Int := (Nat.log2 m : Int)

/-- `m 2^e` rounded to a multiple of `2^q`, to nearest, ties to even: the number of units. -/
def roundNE (m : Nat) (e q : Int) : Nat :=
  if q ≤ e then m <<< (e - q).toNat
  else
    let k := (q - e).toNat
    let f := m >>> k
    let r := m % 2 ^ k
    if 2 * r < 2 ^ k then f else if 2 ^ k < 2 * r then f + 1 else f + f % 2

/-- `m 2^e` truncated toward zero to a multiple of `2^q`: the number of units. -/
def truncTo (m : Nat) (e q : Int) : Nat := if q ≤ e then m <<< (e - q).toNat else m >>> (q - e).toNat

/-- Exponent of the smallest subnormal of a format with `t` trailing bits (06 R128). -/
def eminOf (t bias : Nat) : Int := 1 - (bias : Int) - (t : Int)

/-- Magnitude code of `m 2^e` rounded in a format, beyond its largest code where it overflows (06 R140). -/
def encMag (t bias m : Nat) (e : Int) : Nat :=
  if m = 0 then 0
  else
    let q := max (flog m + e - (t : Int)) (eminOf t bias)
    (q - eminOf t bias).toNat * 2 ^ t + roundNE m e q

/-- Magnitude code truncated toward zero. -/
def encTrunc (t bias m : Nat) (e : Int) : Nat :=
  if m = 0 then 0
  else
    let q := max (flog m + e - (t : Int)) (eminOf t bias)
    (q - eminOf t bias).toNat * 2 ^ t + truncTo m e q

/-- Significand and exponent of a magnitude code (06 R128). -/
def decMag (t bias c : Nat) : Nat × Int :=
  if c >>> t = 0 then (c, eminOf t bias) else (c % 2 ^ t + 2 ^ t, eminOf t bias + ((c >>> t : Nat) - 1 : Int))

/-- Trailing bits, bias, largest finite magnitude code, and code width of a format (Table 6.1). -/
def fmtParams : Fmt → Nat × Nat × Nat × Nat
  | .b32 => (23, 127, 0x7F7FFFFF, 32)
  | .b16 => (10, 15, 0x7BFF, 16)
  | .bf16 => (7, 127, 0x7F7F, 16)
  | .e5m2 => (2, 15, 0x7B, 8)
  | .e4m3 => (3, 7, 0x7E, 8)
  | .q4 => (1, 1, 7, 4)
  | .mxfp4 => (1, 1, 7, 4)
  | .int8 => (0, 0, 0, 8)
  | .int32 => (0, 0, 0, 32)

/-- A two's-complement code as an integer. -/
def sInt (w c : Nat) : Int := if c < 2 ^ (w - 1) then (c : Int) else (c : Int) - 2 ^ w

/-- An integer as a value. -/
def vInt (i : Int) : V := .fin (i < 0) i.natAbs 0

/-- The value of a code of a format (06 R128 to R135). A NaN of E4M3 brings no payload to a conversion: it is the quiet NaN of
its sign (DESIGN CHOICE, log 84). -/
def fmtDec (f : Fmt) (code : Nat) : V :=
  let (t, bias, big, w) := fmtParams f
  match f with
  | .int8 => vInt (sInt 8 (code % 256))
  | .int32 => vInt (sInt 32 (code % 2 ^ 32))
  | .q4 =>
    if code % 16 = 8 then .nan 0x7FC00000
    else .fin (8 ≤ code % 16) (decMag t bias (code % 8)).1 (decMag t bias (code % 8)).2
  | _ =>
    let c := code % 2 ^ (w - 1)
    let neg := code % 2 ^ w ≥ 2 ^ (w - 1)
    if c ≤ big then .fin neg (decMag t bias c).1 (decMag t bias c).2
    else match f with
      | .e4m3 => .nan (if neg then 0xFFC00000 else 0x7FC00000)
      | .b32 => if c = 0x7F800000 then .inf neg else .nan (code % 2 ^ 32)
      | .bf16 => if c = 0x7F80 then .inf neg else .nan (code % 2 ^ 16 * 2 ^ 16)
      | .b16 => if c = 0x7C00 then .inf neg
          else .nan ((if neg then 2 ^ 31 else 0) + 0x7F800000 + c % 2 ^ 10 * 2 ^ 13)
      | _ => if c = 0x7C then .inf neg else .nan ((if neg then 2 ^ 31 else 0) + 0x7F800000 + c % 4 * 2 ^ 21)

/-- A NaN's widening with its quiet bit set (Table 7.3). -/
def quiet (w : Nat) : Nat := w ||| 0x400000

/-- The canonical NaN of a format, Table 6.4. -/
def fmtCanon : Fmt → Nat
  | .b32 => 0x7FC00000
  | .b16 => 0x7E00
  | .bf16 => 0x7FC0
  | .e5m2 => 0x7E
  | .e4m3 => 0x7F
  | .q4 => 8
  | _ => 0

/-- A NaN source converted (06 R143, R144). -/
def fmtOfNan (f : Fmt) (md : ArMode) (w : Nat) : Nat :=
  let neg := 2 ^ 31 ≤ w % 2 ^ 32
  if !md.strict then fmtCanon f
  else match f with
    | .b32 => quiet w % 2 ^ 32
    | .bf16 => quiet w % 2 ^ 32 / 2 ^ 16
    | .b16 => (if neg then 0x8000 else 0) + 0x7C00 + quiet w % 2 ^ 23 / 2 ^ 13
    | .e5m2 => (if neg then 0x80 else 0) + 0x7C + quiet w % 2 ^ 23 / 2 ^ 21
    | .e4m3 => if neg then 0xFF else 0x7F
    | .q4 => 8
    | _ => 0

/-- The overflow result of a format, Table 6.6. -/
def fmtOver (f : Fmt) (md : ArMode) (neg : Bool) : Nat :=
  match f with
  | .b32 => if neg then 0xFF800000 else 0x7F800000
  | .b16 => if neg then 0xFC00 else 0x7C00
  | .bf16 => if neg then 0xFF80 else 0x7F80
  | .e5m2 => if neg then 0xFC else 0x7C
  | .e4m3 => if md.strict then (if neg then 0xFF else 0x7F) else if md.sat then (if neg then 0xFE else 0x7E) else 0x7F
  | .q4 => if !md.strict && md.sat then (if neg then 0xF else 7) else 8
  | .mxfp4 => if neg then 0xF else 7
  | _ => 0

/-- An integer saturated to `w` bits, as its code (06 R144). -/
def satInt (w : Nat) (i : Int) : Nat :=
  let lo : Int := -(2 ^ (w - 1))
  let hi : Int := 2 ^ (w - 1) - 1
  ((max lo (min hi i)) % (2 ^ w : Int)).toNat

/-- A conversion to a format (06 R140 to R144): one rounding to nearest, ties to even, no flush. -/
def fmtEnc (f : Fmt) (md : ArMode) (v : V) : Nat :=
  let (t, bias, big, w) := fmtParams f
  match f, v with
  | .int8, .nan _ => 0
  | .int32, .nan _ => 0
  | .int8, .inf neg => if neg then 0x80 else 0x7F
  | .int32, .inf neg => if neg then 0x80000000 else 0x7FFFFFFF
  | .int8, .fin neg m e => satInt 8 (if neg then -(roundNE m e 0 : Int) else roundNE m e 0)
  | .int32, .fin neg m e => satInt 32 (if neg then -(roundNE m e 0 : Int) else roundNE m e 0)
  | _, .nan x => fmtOfNan f md x
  | _, .inf neg => fmtOver f md neg
  | _, .fin neg m e =>
    let c := encMag t bias m e
    if big < c then fmtOver f md neg
    else if f = .q4 ∧ c = 0 then 0
    else (if neg then 2 ^ (w - 1) else 0) + c

/-! ### Sums and products -/

/-- A signed significand. -/
def sgn (neg : Bool) (m : Nat) : Int := if neg then -(m : Int) else (m : Int)

/-- Exact sum of two finite values; an exact zero is `-0` only where both are (07 R150, R156). -/
def addFin (n1 : Bool) (m1 : Nat) (e1 : Int) (n2 : Bool) (m2 : Nat) (e2 : Int) : V :=
  let e := min e1 e2
  let x := sgn n1 (m1 <<< (e1 - e).toNat) + sgn n2 (m2 <<< (e2 - e).toNat)
  if x = 0 then .fin (n1 && n2 && m1 == 0 && m2 == 0) 0 0 else .fin (x < 0) x.natAbs e

/-- A sum, `none` where it is invalid. NaN operands are decided before. -/
def vAdd (a b : V) : Option V :=
  match a, b with
  | .fin n1 m1 e1, .fin n2 m2 e2 => some (addFin n1 m1 e1 n2 m2 e2)
  | .inf n1, .inf n2 => if n1 = n2 then some (.inf n1) else none
  | .inf n, _ => some (.inf n)
  | _, .inf n => some (.inf n)
  | _, _ => none

/-- An exact product, `none` where it is infinity times zero (07 R149). -/
def vMul (a b : V) : Option V :=
  match a, b with
  | .fin n1 m1 e1, .fin n2 m2 e2 => some (.fin (n1 != n2) (m1 * m2) (e1 + e2))
  | .inf n1, .inf n2 => some (.inf (n1 != n2))
  | .inf n1, .fin n2 m2 _ => if m2 = 0 then none else some (.inf (n1 != n2))
  | .fin n1 m1 _, .inf n2 => if m1 = 0 then none else some (.inf (n1 != n2))
  | _, _ => none

/-- The NaN that no operand brings. -/
abbrev qnan32 : Nat := 0x7FC00000

/-- binary32 round32 of a value (07 R151). -/
def round32 (v : V) : Nat := fmtEnc .b32 ⟨true, false, false⟩ v

/-- flush: a nonzero magnitude below 2^-126 becomes a zero of the same sign (07 R151). -/
def flush32 (c : Nat) : Nat := if c % 2 ^ 31 < 0x00800000 then c / 2 ^ 31 % 2 * 2 ^ 31 else c

/-- A rounded binary32 result in a mode (07 R156). -/
def res32 (md : ArMode) (v : Option V) : Nat :=
  match v with
  | none => qnan32
  | some v => if md.strict then round32 v else flush32 (round32 v)

/-- The first NaN operand's widening, in order. -/
def firstNan : List V → Option Nat
  | [] => none
  | .nan w :: _ => some w
  | _ :: r => firstNan r

/-- A single binary32 operation on operands in order (07 R156): NaN operands first, else the exact result. -/
def op32 (md : ArMode) (ops : List V) (r : Option V) : Nat :=
  match firstNan ops with
  | some w => if md.strict then quiet w else qnan32
  | none => res32 md r

/-- binary32 codes as values. -/
def v32 (w : W32) : V := fmtDec .b32 w.toNat

def fadd (md : ArMode) (a b : W32) : W32 := BitVec.ofNat 32 (op32 md [v32 a, v32 b] (vAdd (v32 a) (v32 b)))
def fmul (md : ArMode) (a b : W32) : W32 := BitVec.ofNat 32 (op32 md [v32 a, v32 b] (vMul (v32 a) (v32 b)))

/-- Fused multiply-add: multiplicand, multiplier, addend (07 R156). -/
def ffma (md : ArMode) (a b c : W32) : W32 :=
  BitVec.ofNat 32 (op32 md [v32 a, v32 b, v32 c] ((vMul (v32 a) (v32 b)).bind (fun p => vAdd p (v32 c))))

/-- Order of two values that are not NaN, -0 below +0 (05_matrix_engines.md R110). -/
def vLt (a b : V) : Bool :=
  match a, b with
  | .inf n1, .inf n2 => n1 && !n2
  | .inf n, _ => n
  | _, .inf n => !n
  | .fin n1 m1 e1, .fin n2 m2 e2 =>
    let e := min e1 e2
    let x := sgn n1 (m1 <<< (e1 - e).toNat)
    let y := sgn n2 (m2 <<< (e2 - e).toNat)
    if x = 0 ∧ y = 0 then n1 && !n2 else decide (x < y)
  | _, _ => false

/-- maximumNumber or minimumNumber on codes of a format; the result is an operand, bit for bit (07 R156). -/
def numMaxMin (f : Fmt) (md : ArMode) (mx : Bool) (a b : Nat) : Nat :=
  match fmtDec f a, fmtDec f b with
  | .nan w, .nan _ => if md.strict then fmtOfNan f md w else fmtCanon f
  | .nan _, _ => b
  | _, .nan _ => a
  | x, y => if mx then (if vLt x y then b else a) else (if vLt y x then b else a)

/-- Addition in BF16: one rounding, never flushed (08_berim_stacks.md Table 8.6, 07 R157). -/
def bfAdd (md : ArMode) (a b : Nat) : Nat :=
  let x := fmtDec .bf16 a
  let y := fmtDec .bf16 b
  match firstNan [x, y] with
  | some w => fmtOfNan .bf16 md w
  | none => match vAdd x y with
    | none => 0x7FC0
    | some v => fmtEnc .bf16 md v

/-- binary64 as a value; a NaN keeps its own code. -/
def dec64 (c : Nat) : V :=
  let m := c % 2 ^ 63
  let neg := 2 ^ 63 ≤ c % 2 ^ 64
  if m < 0x7FF0000000000000 then .fin neg (decMag 52 1023 m).1 (decMag 52 1023 m).2
  else if m = 0x7FF0000000000000 then .inf neg else .nan (c % 2 ^ 64)

/-- A binary64 result. -/
def enc64 : V → Nat
  | .nan w => w
  | .inf neg => (if neg then 2 ^ 63 else 0) + 0x7FF0000000000000
  | .fin neg m e => (if neg then 2 ^ 63 else 0) + min (encMag 52 1023 m e) 0x7FF0000000000000

/-- binary64 fused multiply-add under strict rules in both modes (07 R157). -/
def dfma (a b c : W64) : W64 :=
  let x := dec64 a.toNat
  let y := dec64 b.toNat
  let z := dec64 c.toNat
  BitVec.ofNat 64 (match firstNan [x, y, z] with
    | some w => w ||| 0x8000000000000
    | none => match (vMul x y).bind (fun p => vAdd p z) with
      | none => 0x7FF8000000000000
      | some v => enc64 v)

/-! ### Every operation of a format (07 R156, R157, R163) -/

/-- A quotient, in enough bits with a sticky last one to be rounded once; `none` where it is invalid. -/
def vDiv (a b : V) : Option V :=
  match a, b with
  | .fin n1 m1 e1, .fin n2 m2 e2 =>
    if m2 = 0 then (if m1 = 0 then none else some (.inf (n1 != n2)))
    else
      let k := 130 + Nat.log2 m2
      let x := m1 <<< k
      some (.fin (n1 != n2) (2 * (x / m2) + (if x % m2 = 0 then 0 else 1)) (e1 - e2 - (k : Int) - 1))
  | .inf _, .inf _ => none
  | .inf n1, .fin n2 _ _ => some (.inf (n1 != n2))
  | .fin n1 _ _, .inf n2 => some (.fin (n1 != n2) 0 0)
  | _, _ => none

/-- The integer square root, bit by bit. -/
def rootBits (n : Nat) : Nat → Nat → Nat
  | 0, r => r
  | k + 1, r => rootBits n k (if (r + 2 ^ k) * (r + 2 ^ k) ≤ n then r + 2 ^ k else r)

/-- A square root, in enough bits with a sticky last one; `none` where it is invalid. -/
def vSqrt : V → Option V
  | .fin neg m e =>
    if m = 0 then some (.fin neg 0 0)
    else if neg then none
    else
      let odd : Nat := (e % 2).toNat
      let x := m <<< (128 + odd)
      let r := rootBits x 128 0
      some (.fin false (2 * r + (if r * r = x then 0 else 1)) ((e - 128 - (odd : Int)) / 2 - 1))
  | .inf neg => if neg then none else some (.inf false)
  | .nan _ => none

/-- A value with its sign changed. -/
def vNeg : V → V
  | .fin n m e => .fin (!n) m e
  | .inf n => .inf (!n)
  | .nan w => .nan w

/-- The exact result of an operation on operands that are not NaN, `none` where it is invalid. -/
def fopExact (o : FOp) (a b c : V) : Option V :=
  match o with
  | .add => vAdd a b
  | .sub => vAdd a (vNeg b)
  | .mul => vMul a b
  | .div => vDiv a b
  | .sqrt => vSqrt a
  | .fma => (vMul a b).bind (fun p => vAdd p c)

/-- The operands of an operation, in order. -/
def fopOps {α : Type} (o : FOp) (a b c : α) : List α :=
  match o with
  | .sqrt => [a]
  | .fma => [a, b, c]
  | _ => [a, b]

/-- The format of a vector operation. -/
def ffmtOf : FFmt → Fmt
  | .b32 => .b32
  | .b16 => .b16
  | .bf16 => .bf16

/-- One operation in a format: NaN operands first, else one rounding; only binary32 results are flushed, in fast mode (07
R156, R157). -/
def floatOp (md : ArMode) (o : FOp) (f : FFmt) (a b c : Nat) : Nat :=
  let x := fmtDec (ffmtOf f) a
  let y := fmtDec (ffmtOf f) b
  let z := fmtDec (ffmtOf f) c
  match firstNan (fopOps o x y z) with
  | some w => fmtOfNan (ffmtOf f) md w
  | none => match fopExact o x y z with
    | none => fmtCanon (ffmtOf f)
    | some v => if f == FFmt.b32 && !md.strict then flush32 (fmtEnc (ffmtOf f) md v) else fmtEnc (ffmtOf f) md v

/-- One operation in binary64, under strict rules in both modes (07 R157). -/
def doubleOp (o : FOp) (a b c : W64) : W64 :=
  let x := dec64 a.toNat
  let y := dec64 b.toNat
  let z := dec64 c.toNat
  BitVec.ofNat 64 (match firstNan (fopOps o x y z) with
    | some w => w ||| 0x8000000000000
    | none => match fopExact o x y z with
      | none => 0x7FF8000000000000
      | some v => enc64 v)

/-! ### Dot products (07 R149 to R155) -/

/-- One product of a dot product: `none` is infinity times zero. -/
abbrev Prod := Option V

/-- Exponent of the largest finite nonzero product of a chunk (R150). -/
def chunkTop (ps : List Prod) : Option Int :=
  ps.foldl (fun b p => match p with
    | some (.fin _ m e) => if m = 0 then b else match b with
      | none => some (flog m + e)
      | some x => some (max x (flog m + e))
    | _ => b) none

/-- A finite product truncated toward zero to a multiple of `2^q`, keeping its sign (R150). -/
def truncV (q : Int) : V → V
  | .fin n m e => if q ≤ e then .fin n m e else .fin n (truncTo m e q) q
  | v => v

/-- Sum of a list of products without rounding; `none` where a step is invalid. -/
def sumV : List Prod → Option V → Option V
  | [], acc => acc
  | none :: _, _ => none
  | some v :: r, some a => sumV r (vAdd a v)
  | _ :: _, none => none

/-- The exact sum of a chunk after truncation: zero is `-0` only if every product is (R150). -/
def chunkSum (ps : List Prod) : Option V :=
  let ps := match chunkTop ps with
    | none => ps
    | some x => ps.map (fun p => p.map (truncV (x - 47)))
  match ps with
  | [] => some (.fin false 0 0)
  | none :: _ => none
  | some v :: r => sumV r (some v)

/-- Lists of at most `n` elements in order; `fuel` is at least the number of chunks. -/
def chunksOf {α : Type} (n : Nat) : Nat → List α → List (List α)
  | 0, _ => []
  | fuel + 1, l => if l.isEmpty then [] else l.take n :: chunksOf n fuel (l.drop n)

/-- Fast mode (R151): the accumulator, `none` once a step was invalid. -/
def dotFast (acc : Option Nat) (ps : List Prod) : Option Nat :=
  (chunksOf 32 (ps.length + 1) ps).foldl (fun acc c => acc.bind (fun a => (chunkSum c).bind (fun s =>
    (vAdd (fmtDec .b32 a) s).map (fun v => flush32 (round32 v))))) acc

/-- Strict mode (R152). -/
def dotStrict (acc : Option Nat) (ps : List Prod) : Option Nat :=
  ps.foldl (fun acc p => acc.bind (fun a => p.bind (fun v => (vAdd (fmtDec .b32 a) v).map round32))) acc

/-- One element of a pass (Table 7.2): `c` is the tile element of MMA.A; `ab` the operand pairs in order. -/
def dotElem (md : ArMode) (c : Option W32) (ab : List (V × V)) : W32 :=
  let operands := (match c with | some w => [v32 w] | none => []) ++ ab.flatMap (fun p => [p.1, p.2])
  BitVec.ofNat 32 (match firstNan operands with
    | some w => if md.strict then quiet w else qnan32
    | none =>
      let ps := ab.map (fun p => vMul p.1 p.2)
      let acc := match c with | some w => w.toNat | none => 0
      (if md.strict then dotStrict (some acc) ps else dotFast (some acc) ps).getD qnan32)

/-- One element of an INT8 pass (R153). -/
def dotInt (c : W32) (ab : List (Nat × Nat)) : W32 :=
  ab.foldl (fun acc p => acc + BitVec.ofInt 32 (sInt 8 p.1 * sInt 8 p.2)) c

/-! ### Split pieces (07 R159 to R161) -/

/-- The hi, mid and lo pieces of a binary32 code, as BF16 codes (R159, R160) (DEDUCED, log 58). -/
def splitPieces (x : Nat) : Nat × Nat × Nat :=
  match fmtDec .b32 x with
  | .nan _ => (x / 2 ^ 16 ||| 0x40, 0, 0)
  | .inf _ => (x / 2 ^ 16, 0, 0)
  | .fin neg m e =>
    let hi := x / 2 ^ 16
    if m = 0 then (hi, 0, 0)
    else
      let sub := fun (n : Bool) (m : Nat) (e : Int) (c : Nat) => match fmtDec .bf16 c with
        | .fin n2 m2 e2 => addFin n m e (!n2) m2 e2
        | _ => V.fin false 0 0
      let code := fun (v : V) => match v with
        | .fin n m e => if m = 0 then 0 else (if n then 0x8000 else 0) + encTrunc 7 127 m e
        | _ => 0
      let r := sub neg m e hi
      let mid := code r
      let lo := match r with
        | .fin n m e => code (sub n m e mid)
        | _ => 0
      (hi, mid, lo)

/-- A binary32 code is infinite or NaN (DEDUCED, log 58). -/
def special32 (x : Nat) : Bool := 0x7F800000 ≤ x % 2 ^ 31

/-- A product of one sub-pass: outside hi times hi a product of an infinite or NaN element adds nothing (R160) (DEDUCED, log
58). -/
def splitProd (hh : Bool) (a b pa pb : Nat) : Prod :=
  if !hh && (special32 a || special32 b) then some (.fin false 0 0) else vMul (fmtDec .bf16 pa) (fmtDec .bf16 pb)

/-- Pieces in the order of Table 7.4: which piece of A and of B (0 hi, 1 mid, 2 lo). -/
def subPasses (split : Nat) : List (Nat × Nat) :=
  if split = 3 then [(1, 0), (0, 1), (0, 0)] else [(2, 0), (0, 2), (1, 1), (1, 0), (0, 1), (0, 0)]

/-- One of a code's pieces. -/
def pieceOf (x k : Nat) : Nat :=
  let (h, m, l) := splitPieces x
  if k = 0 then h else if k = 1 then m else l

/-- One element of a split pass: sub-passes in order into one accumulator (R161). -/
def dotSplit (md : ArMode) (split : Nat) (c : Option W32) (ab : List (Nat × Nat)) : W32 :=
  let his := ab.flatMap (fun p => [fmtDec .bf16 (pieceOf p.1 0), fmtDec .bf16 (pieceOf p.2 0)])
  let operands := (match c with | some w => [v32 w] | none => []) ++ his
  BitVec.ofNat 32 (match firstNan operands with
    | some w => if md.strict then quiet w else qnan32
    | none =>
      let acc := match c with | some w => w.toNat | none => 0
      ((subPasses split).foldl (fun acc k =>
        let ps := ab.map (fun p => splitProd (k == (0, 0)) p.1 p.2 (pieceOf p.1 k.1) (pieceOf p.2 k.2))
        if md.strict then dotStrict acc ps else dotFast acc ps) (some acc)).getD qnan32)

/-! ### Element updates of reductions and atomics -/

/-- A reduction's element update (08_berim_stacks.md Table 8.6) on codes: stored `x`, value `v`. -/
def redUpdate (md : ArMode) (op : RedOp) (ty : RedTy) (x v : Nat) : Nat :=
  match ty, op with
  | .f32, .add => (fadd md (BitVec.ofNat 32 x) (BitVec.ofNat 32 v)).toNat
  | .f32, .max => numMaxMin .b32 md true x v
  | .f32, .min => numMaxMin .b32 md false x v
  | .bf16, .add => bfAdd md x v
  | .bf16, .max => numMaxMin .bf16 md true x v
  | .bf16, .min => numMaxMin .bf16 md false x v
  | .i32, .add => (x + v) % 2 ^ 32
  | .i32, .max => if sInt 32 x < sInt 32 v then v else x
  | .i32, .min => if sInt 32 v < sInt 32 x then v else x

/-- Element size of a reduction's type in bytes (08_berim_stacks.md R179). -/
def redBytes : RedTy → Nat
  | .bf16 => 2
  | _ => 4

/-- The scale byte's exponent, `none` for the NaN scale (06 R137). -/
def scaleExp (s : Nat) : Option Int := if s % 256 = 0xFF then none else some ((s % 256 : Nat) - 127 : Int)

/-- An element's value under its block scale (06 R138). -/
def scaled (v : V) (s : Nat) : V :=
  match scaleExp s with
  | none => .nan qnan32
  | some x => match v with
    | .fin n m e => .fin n m (e + x)
    | v => v

end Sys2Proof.Machine
end

