-- ==== Sys2Proof/Config.lean ====
section
/-! DEFINITION. What an implementation fixes and the spec leaves open: free values, as constants without a body (nothing
can evaluate them), and the external algorithms the spec names but does not give. -/

namespace Sys2Proof

/-- A free value: what the spec calls undefined, random or unspecified. The first argument is the state's counter, the
second tells apart the values one command takes (DESIGN CHOICE, log 6). -/
opaque Config.freeNat : Nat → Nat → Nat

/-- Contents of memory that nothing has written, as a reader under the key of this serial sees them
(08_berim_stacks.md R177, R178). Arguments: key serial, address (DESIGN CHOICE, log 8). -/
opaque Config.openByte : Nat → Nat → Byte

/-- AES-256-XTS of a 128 B line (IEEE 1619; 08_berim_stacks.md R175), and its inverse. Arguments: serial of the key pair, tweak, line
(PRESUMED, log 64). -/
opaque Config.xtsEncrypt : Nat → BitVec 128 → BitVec 1024 → BitVec 1024
opaque Config.xtsDecrypt : Nat → BitVec 128 → BitVec 1024 → BitVec 1024

/-- Contents of T-die memory that nothing has written (the Tonan host die manual's) (DESIGN CHOICE, log 8). -/
opaque Config.openHostByte : Nat → Byte

/-- The address of the next instruction: Corpin instruction lengths are the toolchain documentation's (DESIGN CHOICE, log 13). -/
opaque Config.nextPc : Pc → Pc

/-- Result of an ordinary Corpin instruction whose meaning the toolchain documentation gives: opcode, arithmetic mode (strict, saturation,
MXFP4 reading) and operands (DESIGN CHOICE, log 13). -/
opaque Config.corpinResult : Nat → Bool → Bool → Bool → W32 → W32 → W32 → W32

/-- SHAKE256 (FIPS 202): output length in bytes, message (PRESUMED, log 64). -/
opaque Config.shake256 : Nat → List Byte → List Byte

/-- Ed448 verification in its pure form with an empty context (RFC 8032): public key, message, signature (PRESUMED, log 64). -/
opaque Config.ed448Verify : List Byte → List Byte → List Byte → Bool

/-- The Ed448 public key of a 57-byte private key (RFC 8032) (PRESUMED, log 64). -/
opaque Config.ed448Public : List Byte → List Byte

/-- Ed448 signature by a device key whose private half the spec never shows: key name, message (PRESUMED, log 64). -/
opaque Config.ed448Sign : Nat → List Byte → List Byte

/-- SHA3-512 (FIPS 202) (PRESUMED, log 64). -/
opaque Config.sha3 : List Byte → List Byte

/-- A public key or certificate of the device, by slot (22_security_and_management.md R434) (PRESUMED, log 64). -/
opaque Config.certChain : Nat → List Byte

/-- The code under which a debugger reads the kind of a mask-stack entry, by its place in SYNC, PEND, LOCK (21_debug.md R425)
(DEDUCED, log 52). -/
opaque Config.kindCode : Nat → Nat

/-- Voltage steps of a cluster up to its calibrated ceiling (19_power_and_clocks.md R392) (DEDUCED, log 49). -/
opaque Config.voltCeiling : Nat → Nat

/-- The line of the sync store that holds a timeline (false) or a note (true) (14_synchronisation.md R293) (DESIGN CHOICE, log 82). -/
opaque Config.syncLine : Bool → Nat → Nat

/-- Layout of an internal structure the spec does not give (a save area, a snapshot body, the Sync store): an image of
this many bytes made from a context's serial number (DESIGN CHOICE, log 44). -/
opaque Config.imageByte : Nat → Nat → Byte

end Sys2Proof
end

