-- ==== Sys2Proof/Machine/RegMap.lean ====
section
/-! DEFINITION. The host register aperture (24_register_index.md R461-R467): every register of Table 24.3 with
its window, offset, strides and field table. Offsets, strides, access codes and reset values are those of the field
tables of the chapters. -/

namespace Sys2Proof.Machine

/-- Access codes of Table 0.2 (00_scope.md R9). -/
inductive Access where
  | ro | rw | w1c | w1s | wo
  deriving DecidableEq, Repr

/-- One field of a field table: lowest bit, width, access code. Reserved fields are the bits no field covers. -/
structure Field where
  lo : Nat
  wid : Nat
  acc : Access
  deriving DecidableEq, Repr

/-- A register's place: `perDie` = 0 for a package window, otherwise the number of instances in each die's copy of
the window; `n1`, `s1` the instances (package-wide) and their stride; `n2`, `s2` the second index; `bytes` 4 or 8;
`reset` the Reset column (R11). -/
structure RegDesc where
  perDie : Nat
  base : Nat
  n1 : Nat
  s1 : Nat
  n2 : Nat
  s2 : Nat
  bytes : Nat
  reset : BitVec 64
  fields : List Field
  deriving DecidableEq, Repr

/-- The registers of Table 24.3 (24_register_index.md R467), under the spec's names. -/
inductive Reg where
  | FOLIO_CTL
  | FOLIO_STAT
  | FOLIO_STAGE
  | FOLIO_ID
  | QOS_ADJ
  | WAY_ADJ
  | PART_ARITH
  | STK_STAT
  | STK_ECC
  | STK_ELOG
  | STK_RETIRE
  | STK_REFRESH
  | KEY_GEN
  | CC_ELOG
  | CC_ECNT
  | VC_STAT
  | LS_SPLIT
  | HS_STAT
  | HS_CNT
  | HS_TLOG
  | AGENT_DEAD
  | XLT_CTX
  | XLT_PASID
  | XLT_BLOT
  | XLT_BLOT_PTR
  | XLT_RESOLVE
  | XLT_INV_ADDR
  | XLT_INV_CMD
  | XLT_INV_SEQ
  | XLT_INV_STAT
  | CAP
  | CAP_RET_SEL
  | CAP_RET_DATA
  | OBJ_CMD
  | OBJ_ARG
  | OBJ_SEQ
  | OBJ_ERR
  | OBJ_BASE
  | GRAPH_STORE
  | CTX_CFG
  | CTX_CSAVE
  | CTX_STAT
  | QSLOT_CTL
  | QSLOT_STAT
  | SWQ_DB
  | SWQ_CTL
  | SWQ_STAT
  | SWQ_CMPL
  | SWQ_ERRSEQ
  | CMPL_FB_CLR
  | SYNC_BASE
  | TL_VAL
  | TL_SIG
  | NOTE_VAL
  | NOTE_SIG
  | HOST_WATCH_CTL
  | HOST_WATCH_VAL
  | SWQ_PAIR
  | SWQ_STK
  | SYNC_ERR
  | INT_SRC_CTL
  | INT_TGT_LO
  | INT_TGT_HI
  | INT_CLAIM
  | INT_EOI
  | INT_SWI
  | INT_ERR
  | QIRQ_PEND
  | INT_ISL
  | FAB_MODULE
  | STAMP
  | FAB_STAMP_CTL
  | FAB_STAMP_STAT
  | FAB_RESET_CTL
  | FAB_CTX_ACL
  | FAB_PORT_CTL
  | FAB_PORT_STAT
  | FAB_PORT_CNT
  | REC_CTL
  | REC_HOLD
  | REC_LOG_BASE
  | REC_LOG_PTR
  | REC_CNT
  | REC_QPOL
  | SNAP_CFG
  | SNAP_DESC
  | SNAP_STAT
  | SNAP_STAT2
  | SNAP_ADOPT
  | SNAP_PUSH
  | SNAP_PUSH_CNT
  | RST_CAUSE
  | RST_PART
  | RST_ERR
  | RST_CORE
  | RST_UNIT
  | PWR_IN
  | PWR_AVG
  | PWR_LIMIT
  | PWR_CLK
  | PWR_TEMP
  | PWR_POLICY
  | PWR_GATE
  | PWR_GATE_STAT
  | PWR_DSTAT
  | EQ_CTL
  | UCIE_STAT
  | DROOP_CTL
  | DROOP_CNT
  | TAL_CTL
  | TAL_CYC
  | TAL_SMP
  | TAL_SEL
  | TAL_CNT
  | TAL_GLOBAL
  | LED_CFG
  | LED_BASE
  | LED_INT
  | LED_START
  | LED_END
  | LED_TRIG
  | LED_PTR
  | LED_STAT
  | LED_TAGQ
  | DBG_ATTACH
  | DBG_BP
  | DBG_WP
  | DBG_HALT
  | DBG_SEL
  | DBG_DATA
  | DBG_STAT
  | DBG_EVT
  | DBG_EVT_PC
  | DBG_LOCK
  | DBG_CHAL
  | DBG_TOK
  | SEC_FW
  | SEC_FW_MIN
  | SEC_FW_VER
  | SEC_DEVID
  | SEC_KEYHASH
  | SEC_CAL
  deriving DecidableEq, Repr

namespace RegTable

/-- FOLIO_CTL, folio load control (02_folio.md). -/
def FOLIO_CTL : RegDesc := ⟨0, 0x200, 1, 0x0, 1, 0, 8, 0x0#64,
  [⟨0,1,.wo⟩, ⟨1,1,.rw⟩, ⟨2,1,.rw⟩]⟩

/-- FOLIO_STAT, folio status (02_folio.md). -/
def FOLIO_STAT : RegDesc := ⟨0, 0x208, 1, 0x0, 1, 0, 8, 0x0#64,
  [⟨0,3,.ro⟩, ⟨8,4,.ro⟩, ⟨12,1,.ro⟩, ⟨13,1,.w1c⟩, ⟨14,1,.w1c⟩, ⟨15,1,.w1c⟩, ⟨16,1,.w1c⟩, ⟨32,32,.ro⟩]⟩

/-- FOLIO_STAGE, staged image address (02_folio.md). -/
def FOLIO_STAGE : RegDesc := ⟨0, 0x210, 1, 0x0, 1, 0, 8, 0x0#64,
  [⟨3,43,.rw⟩]⟩

/-- FOLIO_ID, folio identity (02_folio.md). -/
def FOLIO_ID : RegDesc := ⟨0, 0x220, 4, 0x8, 1, 0, 8, 0x0#64,
  [⟨0,64,.ro⟩]⟩

/-- QOS_ADJ, runtime QoS share (02_folio.md). -/
def QOS_ADJ : RegDesc := ⟨0, 0x400, 3, 0x40, 16, 4, 4, 0x0#64,
  [⟨0,8,.rw⟩, ⟨8,8,.ro⟩, ⟨16,8,.ro⟩]⟩

/-- WAY_ADJ, runtime way mask (02_folio.md). -/
def WAY_ADJ : RegDesc := ⟨0, 0x600, 16, 0x20, 8, 4, 4, 0x0#64,
  [⟨0,16,.rw⟩, ⟨16,16,.ro⟩]⟩

/-- PART_ARITH, partition arithmetic defaults (07_arithmetic_rules.md). -/
def PART_ARITH : RegDesc := ⟨0, 0x900, 16, 0x8, 1, 0, 8, 0x0#64,
  [⟨0,1,.ro⟩, ⟨1,1,.ro⟩, ⟨2,1,.ro⟩, ⟨8,1,.ro⟩]⟩

/-- STK_STAT, stack status (08_berim_stacks.md). -/
def STK_STAT : RegDesc := ⟨4, 0x20000, 16, 0x100, 1, 0, 8, 0x100#64,
  [⟨0,8,.ro⟩, ⟨8,2,.ro⟩, ⟨10,1,.ro⟩, ⟨11,1,.ro⟩, ⟨16,16,.ro⟩, ⟨32,1,.ro⟩]⟩

/-- STK_ECC, ECC counts (08_berim_stacks.md). -/
def STK_ECC : RegDesc := ⟨4, 0x20008, 16, 0x100, 1, 0, 8, 0x0#64,
  [⟨0,32,.rw⟩, ⟨32,16,.rw⟩]⟩

/-- STK_ELOG, first error since cleared (08_berim_stacks.md). -/
def STK_ELOG : RegDesc := ⟨4, 0x20010, 16, 0x100, 1, 0, 8, 0x0#64,
  [⟨0,37,.ro⟩, ⟨37,2,.ro⟩, ⟨39,1,.w1c⟩, ⟨40,1,.w1c⟩]⟩

/-- STK_RETIRE, pending retirement queue (08_berim_stacks.md). -/
def STK_RETIRE : RegDesc := ⟨4, 0x20018, 16, 0x100, 1, 0, 8, 0x0#64,
  [⟨0,25,.ro⟩, ⟨31,1,.ro⟩, ⟨32,1,.wo⟩]⟩

/-- STK_REFRESH, refresh floor (08_berim_stacks.md). -/
def STK_REFRESH : RegDesc := ⟨4, 0x20020, 16, 0x100, 1, 0, 8, 0x0#64,
  [⟨0,2,.rw⟩]⟩

/-- KEY_GEN, key generation count (08_berim_stacks.md). -/
def KEY_GEN : RegDesc := ⟨0, 0x21800, 17, 0x8, 1, 0, 8, 0x0#64,
  [⟨0,32,.ro⟩]⟩

/-- CC_ELOG, first cache parity error since cleared (09_caches.md). -/
def CC_ELOG : RegDesc := ⟨16, 0x22000, 64, 0x40, 1, 0, 8, 0x0#64,
  [⟨0,39,.ro⟩, ⟨39,4,.ro⟩, ⟨43,3,.ro⟩, ⟨46,3,.ro⟩, ⟨49,1,.ro⟩, ⟨50,1,.w1c⟩, ⟨51,1,.w1c⟩]⟩

/-- CC_ECNT, parity error counts (09_caches.md). -/
def CC_ECNT : RegDesc := ⟨16, 0x22008, 64, 0x40, 1, 0, 8, 0x0#64,
  [⟨0,32,.rw⟩, ⟨32,16,.rw⟩]⟩

/-- VC_STAT, victim cache occupancy (09_caches.md). -/
def VC_STAT : RegDesc := ⟨16, 0x22010, 64, 0x40, 1, 0, 8, 0x0#64,
  [⟨0,7,.ro⟩, ⟨8,7,.ro⟩, ⟨16,7,.ro⟩, ⟨24,8,.w1c⟩]⟩

/-- LS_SPLIT, local store split (09_caches.md). -/
def LS_SPLIT : RegDesc := ⟨16, 0x22020, 64, 0x40, 8, 4, 4, 0x804#64,
  [⟨0,3,.ro⟩, ⟨4,9,.ro⟩]⟩

/-- HS_STAT, home slice status (10_coherence.md). -/
def HS_STAT : RegDesc := ⟨4, 0x21000, 16, 0x100, 1, 0, 8, 0x0#64,
  [⟨0,9,.ro⟩, ⟨16,7,.ro⟩, ⟨32,1,.ro⟩]⟩

/-- HS_CNT, home slice counts (10_coherence.md). -/
def HS_CNT : RegDesc := ⟨4, 0x21008, 16, 0x100, 1, 0, 8, 0x0#64,
  [⟨0,32,.rw⟩, ⟨32,16,.rw⟩, ⟨48,16,.rw⟩]⟩

/-- HS_TLOG, first timeout or protocol error since cleared (10_coherence.md). -/
def HS_TLOG : RegDesc := ⟨4, 0x21010, 16, 0x100, 1, 0, 8, 0x0#64,
  [⟨0,39,.ro⟩, ⟨39,7,.ro⟩, ⟨46,1,.ro⟩, ⟨47,1,.ro⟩, ⟨48,1,.w1c⟩, ⟨49,1,.w1c⟩]⟩

/-- AGENT_DEAD, dead-agent declaration (10_coherence.md). -/
def AGENT_DEAD : RegDesc := ⟨0, 0x21900, 2, 0x8, 1, 0, 8, 0x0#64,
  [⟨0,64,.w1s⟩]⟩

/-- XLT_CTX, context translation root (11_translation.md). -/
def XLT_CTX : RegDesc := ⟨0, 0x10000, 64, 0x40, 1, 0, 8, 0x0#64,
  [⟨0,1,.rw⟩, ⟨12,34,.rw⟩]⟩

/-- XLT_PASID, host process identifier (11_translation.md). -/
def XLT_PASID : RegDesc := ⟨0, 0x10008, 64, 0x40, 1, 0, 8, 0x0#64,
  [⟨0,20,.rw⟩]⟩

/-- XLT_BLOT, blotter base (11_translation.md). -/
def XLT_BLOT : RegDesc := ⟨0, 0x10010, 64, 0x40, 1, 0, 8, 0x0#64,
  [⟨17,29,.rw⟩]⟩

/-- XLT_BLOT_PTR, blotter pointers (11_translation.md). -/
def XLT_BLOT_PTR : RegDesc := ⟨0, 0x10018, 64, 0x40, 1, 0, 8, 0x0#64,
  [⟨0,13,.ro⟩, ⟨16,13,.rw⟩, ⟨32,16,.rw⟩, ⟨48,1,.ro⟩, ⟨49,1,.w1c⟩, ⟨50,1,.w1c⟩]⟩

/-- XLT_RESOLVE, quire resolution (11_translation.md). -/
def XLT_RESOLVE : RegDesc := ⟨0, 0x10020, 64, 0x40, 1, 0, 8, 0x0#64,
  [⟨0,16,.wo⟩, ⟨16,1,.wo⟩, ⟨17,1,.wo⟩]⟩

/-- XLT_INV_ADDR, invalidation address (11_translation.md). -/
def XLT_INV_ADDR : RegDesc := ⟨0, 0x11000, 1, 0x0, 1, 0, 8, 0x0#64,
  [⟨12,45,.rw⟩]⟩

/-- XLT_INV_CMD, invalidation command (11_translation.md). -/
def XLT_INV_CMD : RegDesc := ⟨0, 0x11008, 1, 0x0, 1, 0, 8, 0x0#64,
  [⟨0,6,.wo⟩, ⟨6,2,.wo⟩, ⟨8,2,.wo⟩, ⟨10,1,.wo⟩, ⟨16,16,.wo⟩]⟩

/-- XLT_INV_SEQ, invalidation sequence (11_translation.md). -/
def XLT_INV_SEQ : RegDesc := ⟨0, 0x11010, 1, 0x0, 1, 0, 8, 0x0#64,
  [⟨0,32,.ro⟩, ⟨32,32,.ro⟩]⟩

/-- XLT_INV_STAT, invalidation queue status (11_translation.md). -/
def XLT_INV_STAT : RegDesc := ⟨0, 0x11018, 1, 0x0, 1, 0, 8, 0x0#64,
  [⟨0,7,.ro⟩, ⟨7,1,.w1c⟩]⟩

/-- CAP, capability table (12_shared_objects.md). -/
def CAP : RegDesc := ⟨0, 0x0, 32, 0x8, 1, 0, 8, 0x0#64,
  []⟩

/-- CAP_RET_SEL, retirement list select (12_shared_objects.md). -/
def CAP_RET_SEL : RegDesc := ⟨0, 0x100, 1, 0x0, 1, 0, 8, 0x0#64,
  [⟨0,4,.rw⟩, ⟨16,12,.rw⟩]⟩

/-- CAP_RET_DATA, retirement list entry (12_shared_objects.md). -/
def CAP_RET_DATA : RegDesc := ⟨0, 0x108, 1, 0x0, 1, 0, 8, 0x0#64,
  [⟨0,25,.ro⟩, ⟨31,1,.ro⟩]⟩

/-- OBJ_CMD, object operation (12_shared_objects.md). -/
def OBJ_CMD : RegDesc := ⟨0, 0x1000, 1, 0x0, 1, 0, 8, 0x0#64,
  [⟨0,3,.wo⟩, ⟨3,1,.wo⟩, ⟨4,3,.wo⟩, ⟨8,6,.wo⟩, ⟨32,20,.wo⟩, ⟨52,12,.wo⟩]⟩

/-- OBJ_ARG, operation address (12_shared_objects.md). -/
def OBJ_ARG : RegDesc := ⟨0, 0x1008, 1, 0x0, 1, 0, 8, 0x0#64,
  [⟨3,43,.rw⟩]⟩

/-- OBJ_SEQ, operation sequence (12_shared_objects.md). -/
def OBJ_SEQ : RegDesc := ⟨0, 0x1010, 1, 0x0, 1, 0, 8, 0x0#64,
  [⟨0,32,.ro⟩, ⟨32,32,.ro⟩]⟩

/-- OBJ_ERR, first refusal since cleared (12_shared_objects.md). -/
def OBJ_ERR : RegDesc := ⟨0, 0x1018, 1, 0x0, 1, 0, 8, 0x0#64,
  [⟨0,32,.ro⟩, ⟨32,4,.ro⟩, ⟨36,1,.w1c⟩, ⟨37,1,.w1c⟩]⟩

/-- OBJ_BASE, memory-object table (12_shared_objects.md). -/
def OBJ_BASE : RegDesc := ⟨0, 0x1020, 1, 0x0, 1, 0, 8, 0x0#64,
  [⟨25,21,.rw⟩]⟩

/-- GRAPH_STORE, graph store (12_shared_objects.md). -/
def GRAPH_STORE : RegDesc := ⟨0, 0x1028, 1, 0x0, 1, 0, 8, 0x0#64,
  [⟨16,30,.rw⟩, ⟨46,18,.rw⟩]⟩

/-- CTX_CFG, context configuration (12_shared_objects.md). -/
def CTX_CFG : RegDesc := ⟨0, 0x4000, 64, 0x20, 1, 0, 8, 0x0#64,
  [⟨0,4,.rw⟩, ⟨12,34,.rw⟩]⟩

/-- CTX_CSAVE, context save area (12_shared_objects.md). -/
def CTX_CSAVE : RegDesc := ⟨0, 0x4008, 64, 0x20, 1, 0, 8, 0x0#64,
  [⟨16,30,.rw⟩]⟩

/-- CTX_STAT, context state (12_shared_objects.md). -/
def CTX_STAT : RegDesc := ⟨0, 0x4010, 64, 0x20, 1, 0, 8, 0x0#64,
  [⟨0,3,.ro⟩, ⟨16,16,.ro⟩, ⟨32,32,.ro⟩]⟩

/-- QSLOT_CTL, queue slot control (13_command_submission.md). -/
def QSLOT_CTL : RegDesc := ⟨64, 0x100, 256, 0x40, 1, 0, 8, 0x1#64,
  [⟨0,1,.rw⟩]⟩

/-- QSLOT_STAT, queue slot status (13_command_submission.md). -/
def QSLOT_STAT : RegDesc := ⟨64, 0x108, 256, 0x40, 1, 0, 8, 0x0#64,
  [⟨0,12,.ro⟩, ⟨12,1,.ro⟩, ⟨16,4,.ro⟩]⟩

/-- SWQ_DB, doorbell (13_command_submission.md). -/
def SWQ_DB : RegDesc := ⟨0, 0x210000, 4096, 0x20, 1, 0, 8, 0x0#64,
  [⟨0,32,.wo⟩]⟩

/-- SWQ_CTL, queue control (13_command_submission.md). -/
def SWQ_CTL : RegDesc := ⟨0, 0x210008, 4096, 0x20, 1, 0, 8, 0x0#64,
  [⟨0,1,.wo⟩, ⟨32,32,.rw⟩]⟩

/-- SWQ_STAT, queue status (13_command_submission.md). -/
def SWQ_STAT : RegDesc := ⟨0, 0x210010, 4096, 0x20, 1, 0, 8, 0x0#64,
  [⟨0,32,.ro⟩, ⟨32,2,.ro⟩, ⟨34,1,.w1c⟩, ⟨35,1,.w1c⟩, ⟨48,16,.ro⟩]⟩

/-- SWQ_CMPL, completion counts (13_command_submission.md). -/
def SWQ_CMPL : RegDesc := ⟨0, 0x210018, 4096, 0x20, 1, 0, 8, 0x0#64,
  [⟨0,32,.rw⟩, ⟨32,32,.ro⟩]⟩

/-- SWQ_ERRSEQ, queue error command (13_command_submission.md). -/
def SWQ_ERRSEQ : RegDesc := ⟨0, 0x230000, 4096, 0x8, 1, 0, 8, 0x0#64,
  [⟨0,32,.ro⟩]⟩

/-- CMPL_FB_CLR, fallback clear (13_command_submission.md). -/
def CMPL_FB_CLR : RegDesc := ⟨0, 0x238000, 64, 0x8, 1, 0, 8, 0x0#64,
  [⟨0,1,.wo⟩, ⟨1,1,.w1c⟩]⟩

/-- SYNC_BASE, sync store (14_synchronisation.md). -/
def SYNC_BASE : RegDesc := ⟨0, 0x1040, 1, 0x0, 1, 0, 8, 0x0#64,
  [⟨21,25,.rw⟩]⟩

/-- TL_VAL, timeline value (14_synchronisation.md). -/
def TL_VAL : RegDesc := ⟨0, 0x240000, 4096, 0x8, 1, 0, 8, 0x0#64,
  [⟨0,64,.ro⟩]⟩

/-- TL_SIG, host timeline signal (14_synchronisation.md). -/
def TL_SIG : RegDesc := ⟨0, 0x250000, 4096, 0x8, 1, 0, 8, 0x0#64,
  [⟨0,64,.wo⟩]⟩

/-- NOTE_VAL, note count (14_synchronisation.md). -/
def NOTE_VAL : RegDesc := ⟨0, 0x280000, 65536, 0x8, 1, 0, 8, 0x0#64,
  [⟨0,32,.ro⟩, ⟨32,1,.ro⟩, ⟨33,1,.ro⟩]⟩

/-- NOTE_SIG, host note signal (14_synchronisation.md). -/
def NOTE_SIG : RegDesc := ⟨0, 0x300000, 65536, 0x8, 1, 0, 8, 0x0#64,
  [⟨0,32,.wo⟩]⟩

/-- HOST_WATCH_CTL, host watcher control (14_synchronisation.md). -/
def HOST_WATCH_CTL : RegDesc := ⟨0, 0x380000, 256, 0x10, 1, 0, 8, 0x0#64,
  [⟨0,1,.wo⟩, ⟨1,1,.rw⟩, ⟨2,1,.ro⟩, ⟨3,1,.w1c⟩, ⟨4,1,.w1c⟩, ⟨8,16,.rw⟩]⟩

/-- HOST_WATCH_VAL, host watcher value (14_synchronisation.md). -/
def HOST_WATCH_VAL : RegDesc := ⟨0, 0x380008, 256, 0x10, 1, 0, 8, 0x0#64,
  [⟨0,64,.rw⟩]⟩

/-- SWQ_PAIR, note pair (14_synchronisation.md). -/
def SWQ_PAIR : RegDesc := ⟨0, 0x390000, 4096, 0x20, 4, 8, 8, 0x0#64,
  [⟨0,16,.rw⟩, ⟨16,16,.rw⟩, ⟨32,1,.rw⟩, ⟨33,1,.rw⟩, ⟨34,30,.rw⟩]⟩

/-- SWQ_STK, stocktake status (14_synchronisation.md). -/
def SWQ_STK : RegDesc := ⟨0, 0x3B0000, 4096, 0x8, 1, 0, 8, 0x0#64,
  [⟨0,32,.ro⟩, ⟨32,4,.w1c⟩, ⟨36,4,.w1c⟩, ⟨40,1,.w1c⟩]⟩

/-- SYNC_ERR, host signal errors (14_synchronisation.md). -/
def SYNC_ERR : RegDesc := ⟨0, 0x3C0000, 1, 0x0, 1, 0, 8, 0x0#64,
  [⟨0,12,.ro⟩, ⟨12,1,.w1c⟩, ⟨13,1,.w1c⟩, ⟨14,1,.w1c⟩, ⟨32,16,.ro⟩]⟩

/-- INT_SRC_CTL, source control (15_interrupts.md). -/
def INT_SRC_CTL : RegDesc := ⟨0, 0x80000, 2047, 0x20, 1, 0, 8, 0x1F0080#64,
  [⟨0,1,.rw⟩, ⟨1,1,.ro⟩, ⟨2,1,.ro⟩, ⟨4,4,.rw⟩, ⟨8,7,.ro⟩, ⟨16,5,.ro⟩]⟩

/-- INT_TGT_LO, target mask, targets 0–63 (15_interrupts.md). -/
def INT_TGT_LO : RegDesc := ⟨0, 0x80008, 2047, 0x20, 1, 0, 8, 0x1#64,
  [⟨0,64,.rw⟩]⟩

/-- INT_TGT_HI, target mask, targets 64–127 (15_interrupts.md). -/
def INT_TGT_HI : RegDesc := ⟨0, 0x80010, 2047, 0x20, 1, 0, 8, 0x10000#64,
  [⟨0,17,.rw⟩]⟩

/-- INT_CLAIM, claim (15_interrupts.md). -/
def INT_CLAIM : RegDesc := ⟨0, 0x90000, 81, 0x10, 1, 0, 8, 0x7FF#64,
  [⟨0,11,.ro⟩]⟩

/-- INT_EOI, completion (15_interrupts.md). -/
def INT_EOI : RegDesc := ⟨0, 0x90008, 81, 0x10, 1, 0, 8, 0x0#64,
  [⟨0,11,.wo⟩]⟩

/-- INT_SWI, software source (15_interrupts.md). -/
def INT_SWI : RegDesc := ⟨0, 0xA0000, 1, 0x0, 1, 0, 8, 0x0#64,
  [⟨0,8,.wo⟩]⟩

/-- INT_ERR, controller errors (15_interrupts.md). -/
def INT_ERR : RegDesc := ⟨0, 0xA0008, 1, 0x0, 1, 0, 8, 0x0#64,
  [⟨0,1,.w1c⟩, ⟨1,1,.w1c⟩, ⟨8,11,.ro⟩]⟩

/-- QIRQ_PEND, queue interrupt bits (15_interrupts.md). -/
def QIRQ_PEND : RegDesc := ⟨0, 0xB0000, 64, 0x8, 1, 0, 8, 0x0#64,
  [⟨0,64,.w1c⟩]⟩

/-- INT_ISL, island latch status (15_interrupts.md). -/
def INT_ISL : RegDesc := ⟨1, 0x24000, 4, 0x0, 1, 0, 8, 0x0#64,
  [⟨0,1,.ro⟩, ⟨1,1,.ro⟩, ⟨16,16,.rw⟩]⟩

/-- FAB_MODULE, module number (16_yorin_fabric.md). -/
def FAB_MODULE : RegDesc := ⟨0, 0x22000, 1, 0x0, 1, 0, 8, 0x0#64,
  [⟨0,12,.ro⟩, ⟨12,1,.ro⟩]⟩

/-- STAMP, stamp (16_yorin_fabric.md). -/
def STAMP : RegDesc := ⟨0, 0x22008, 1, 0x0, 1, 0, 8, 0x0#64,
  [⟨0,64,.ro⟩]⟩

/-- FAB_STAMP_CTL, stamp root (16_yorin_fabric.md). -/
def FAB_STAMP_CTL : RegDesc := ⟨0, 0x22010, 1, 0x0, 1, 0, 8, 0x0#64,
  [⟨0,12,.rw⟩, ⟨12,1,.rw⟩]⟩

/-- FAB_STAMP_STAT, stamp status (16_yorin_fabric.md). -/
def FAB_STAMP_STAT : RegDesc := ⟨0, 0x22018, 1, 0x0, 1, 0, 8, 0x7C#64,
  [⟨0,1,.ro⟩, ⟨1,1,.ro⟩, ⟨2,5,.ro⟩, ⟨8,4,.ro⟩]⟩

/-- FAB_RESET_CTL, remote reset enable (16_yorin_fabric.md). -/
def FAB_RESET_CTL : RegDesc := ⟨0, 0x22020, 1, 0x0, 1, 0, 8, 0x0#64,
  [⟨0,1,.rw⟩]⟩

/-- FAB_CTX_ACL, transfer acceptance (16_yorin_fabric.md). -/
def FAB_CTX_ACL : RegDesc := ⟨0, 0x22100, 64, 0x8, 1, 0, 8, 0x0#64,
  [⟨0,1,.rw⟩, ⟨16,12,.rw⟩, ⟨32,12,.rw⟩]⟩

/-- FAB_PORT_CTL, port control (16_yorin_fabric.md). -/
def FAB_PORT_CTL : RegDesc := ⟨3, 0x28000, 12, 0x100, 1, 0, 8, 0x8#64,
  [⟨0,1,.rw⟩, ⟨1,1,.wo⟩, ⟨2,1,.rw⟩, ⟨3,1,.rw⟩]⟩

/-- FAB_PORT_STAT, port status (16_yorin_fabric.md). -/
def FAB_PORT_STAT : RegDesc := ⟨3, 0x28008, 12, 0x100, 1, 0, 8, 0x0#64,
  [⟨0,2,.ro⟩, ⟨2,1,.ro⟩, ⟨4,8,.ro⟩, ⟨12,12,.ro⟩, ⟨24,4,.ro⟩]⟩

/-- FAB_PORT_CNT, port counts (16_yorin_fabric.md). -/
def FAB_PORT_CNT : RegDesc := ⟨3, 0x28010, 12, 0x100, 1, 0, 8, 0x0#64,
  [⟨0,32,.rw⟩, ⟨32,16,.rw⟩, ⟨48,16,.rw⟩]⟩

/-- REC_CTL, recovery policy (17_fault_tolerance.md). -/
def REC_CTL : RegDesc := ⟨0, 0xC0000, 1, 0x0, 1, 0, 8, 0xE100023#64,
  [⟨0,4,.rw⟩, ⟨4,4,.rw⟩, ⟨16,16,.rw⟩]⟩

/-- REC_HOLD, clusters held out (17_fault_tolerance.md). -/
def REC_HOLD : RegDesc := ⟨0, 0xC0008, 1, 0x0, 1, 0, 8, 0x0#64,
  [⟨0,64,.rw⟩]⟩

/-- REC_LOG_BASE, recovery log (17_fault_tolerance.md). -/
def REC_LOG_BASE : RegDesc := ⟨0, 0xC0010, 1, 0x0, 1, 0, 8, 0x0#64,
  [⟨0,1,.rw⟩, ⟨14,32,.rw⟩]⟩

/-- REC_LOG_PTR, recovery log pointers (17_fault_tolerance.md). -/
def REC_LOG_PTR : RegDesc := ⟨0, 0xC0018, 1, 0x0, 1, 0, 8, 0x0#64,
  [⟨0,10,.ro⟩, ⟨16,10,.rw⟩, ⟨32,16,.rw⟩]⟩

/-- REC_CNT, cluster fault counts (17_fault_tolerance.md). -/
def REC_CNT : RegDesc := ⟨0, 0xC0100, 64, 0x8, 1, 0, 8, 0x0#64,
  [⟨0,8,.ro⟩, ⟨8,32,.rw⟩, ⟨40,8,.ro⟩, ⟨48,1,.ro⟩]⟩

/-- REC_QPOL, replay declaration (17_fault_tolerance.md). -/
def REC_QPOL : RegDesc := ⟨0, 0xD0000, 4096, 0x8, 1, 0, 8, 0x0#64,
  [⟨0,1,.rw⟩]⟩

/-- SNAP_CFG, snapshot control (17_fault_tolerance.md). -/
def SNAP_CFG : RegDesc := ⟨0, 0xE0000, 64, 0x40, 1, 0, 8, 0x32000000000000#64,
  [⟨0,1,.rw⟩, ⟨1,1,.wo⟩, ⟨16,32,.rw⟩, ⟨48,8,.rw⟩]⟩

/-- SNAP_DESC, snapshot descriptor (17_fault_tolerance.md). -/
def SNAP_DESC : RegDesc := ⟨0, 0xE0008, 64, 0x40, 1, 0, 8, 0x0#64,
  [⟨6,40,.rw⟩]⟩

/-- SNAP_STAT, snapshot status (17_fault_tolerance.md). -/
def SNAP_STAT : RegDesc := ⟨0, 0xE0010, 64, 0x40, 1, 0, 8, 0x0#64,
  [⟨0,32,.ro⟩, ⟨32,3,.ro⟩, ⟨36,4,.ro⟩, ⟨40,1,.w1c⟩]⟩

/-- SNAP_STAT2, snapshot sizes (17_fault_tolerance.md). -/
def SNAP_STAT2 : RegDesc := ⟨0, 0xE0018, 64, 0x40, 1, 0, 8, 0x0#64,
  [⟨0,24,.ro⟩, ⟨32,32,.ro⟩]⟩

/-- SNAP_ADOPT, image adoption (17_fault_tolerance.md). -/
def SNAP_ADOPT : RegDesc := ⟨0, 0xE0020, 64, 0x40, 1, 0, 8, 0x0#64,
  [⟨0,32,.wo⟩, ⟨32,1,.wo⟩, ⟨33,1,.ro⟩, ⟨34,1,.w1c⟩, ⟨36,4,.ro⟩, ⟨40,24,.wo⟩]⟩

/-- SNAP_PUSH, push control (17_fault_tolerance.md). -/
def SNAP_PUSH : RegDesc := ⟨0, 0xF0000, 16, 0x10, 1, 0, 8, 0x0#64,
  [⟨6,40,.rw⟩, ⟨46,1,.wo⟩, ⟨47,1,.ro⟩, ⟨48,1,.w1c⟩, ⟨49,4,.ro⟩]⟩

/-- SNAP_PUSH_CNT, push counts (17_fault_tolerance.md). -/
def SNAP_PUSH_CNT : RegDesc := ⟨0, 0xF0008, 16, 0x10, 1, 0, 8, 0x0#64,
  [⟨0,32,.ro⟩, ⟨32,32,.ro⟩]⟩

/-- RST_CAUSE, module reset cause (18_reset.md). -/
def RST_CAUSE : RegDesc := ⟨0, 0x23000, 1, 0x0, 1, 0, 8, 0x1#64,
  [⟨0,1,.ro⟩, ⟨1,1,.ro⟩, ⟨2,1,.ro⟩, ⟨3,1,.ro⟩, ⟨4,1,.ro⟩, ⟨8,1,.ro⟩, ⟨9,4,.ro⟩, ⟨32,32,.ro⟩]⟩

/-- RST_PART, partition reset (18_reset.md). -/
def RST_PART : RegDesc := ⟨0, 0x23010, 1, 0x0, 1, 0, 8, 0x0#64,
  [⟨0,16,.w1s⟩]⟩

/-- RST_ERR, reset errors (18_reset.md). -/
def RST_ERR : RegDesc := ⟨0, 0x23018, 1, 0x0, 1, 0, 8, 0x0#64,
  [⟨0,1,.w1c⟩]⟩

/-- RST_CORE, core reset (18_reset.md). -/
def RST_CORE : RegDesc := ⟨2, 0x27000, 8, 0x8, 1, 0, 8, 0x0#64,
  [⟨0,64,.w1s⟩]⟩

/-- RST_UNIT, unit reset (18_reset.md). -/
def RST_UNIT : RegDesc := ⟨1, 0x27010, 4, 0x0, 1, 0, 8, 0x0#64,
  [⟨0,16,.w1s⟩, ⟨16,4,.w1s⟩, ⟨20,4,.w1s⟩, ⟨24,3,.w1s⟩, ⟨27,2,.w1s⟩, ⟨29,1,.w1s⟩, ⟨30,1,.w1s⟩, ⟨31,1,.w1s⟩, ⟨32,1,.w1s⟩]⟩

/-- PWR_IN, input telemetry (19_power_and_clocks.md). -/
def PWR_IN : RegDesc := ⟨0, 0x28000, 1, 0x0, 1, 0, 8, 0x0#64,
  [⟨0,16,.ro⟩, ⟨16,16,.ro⟩, ⟨32,16,.ro⟩, ⟨48,1,.ro⟩]⟩

/-- PWR_AVG, mean input power (19_power_and_clocks.md). -/
def PWR_AVG : RegDesc := ⟨0, 0x28008, 1, 0x0, 1, 0, 8, 0x0#64,
  [⟨0,16,.ro⟩, ⟨16,16,.ro⟩]⟩

/-- PWR_LIMIT, power limit (19_power_and_clocks.md). -/
def PWR_LIMIT : RegDesc := ⟨0, 0x28010, 1, 0x0, 1, 0, 8, 0x5DC0BB8#64,
  [⟨0,12,.rw⟩, ⟨16,12,.rw⟩, ⟨28,1,.w1c⟩]⟩

/-- PWR_CLK, clock status (19_power_and_clocks.md). -/
def PWR_CLK : RegDesc := ⟨0, 0x28018, 1, 0x0, 1, 0, 8, 0x258#64,
  [⟨0,11,.ro⟩, ⟨11,1,.ro⟩, ⟨12,1,.ro⟩, ⟨13,1,.ro⟩, ⟨14,2,.ro⟩]⟩

/-- PWR_TEMP, die temperatures (19_power_and_clocks.md). -/
def PWR_TEMP : RegDesc := ⟨0, 0x28020, 1, 0x0, 1, 0, 8, 0x0#64,
  [⟨0,64,.ro⟩]⟩

/-- PWR_POLICY, automatic gating (19_power_and_clocks.md). -/
def PWR_POLICY : RegDesc := ⟨0, 0x28028, 1, 0x0, 1, 0, 8, 0x320001#64,
  [⟨0,1,.rw⟩, ⟨16,16,.rw⟩]⟩

/-- PWR_GATE, gate command (19_power_and_clocks.md). -/
def PWR_GATE : RegDesc := ⟨0, 0x28030, 1, 0x0, 1, 0, 8, 0x0#64,
  [⟨0,10,.rw⟩, ⟨10,1,.rw⟩, ⟨11,1,.rw⟩, ⟨12,1,.wo⟩]⟩

/-- PWR_GATE_STAT, gate command status (19_power_and_clocks.md). -/
def PWR_GATE_STAT : RegDesc := ⟨0, 0x28038, 1, 0x0, 1, 0, 8, 0x0#64,
  [⟨0,1,.ro⟩, ⟨1,2,.w1c⟩]⟩

/-- PWR_DSTAT, domain state (19_power_and_clocks.md). -/
def PWR_DSTAT : RegDesc := ⟨0, 0x29000, 640, 0x8, 1, 0, 8, 0x0#64,
  [⟨0,2,.ro⟩]⟩

/-- EQ_CTL, equalisation freeze (19_power_and_clocks.md). -/
def EQ_CTL : RegDesc := ⟨0, 0x28040, 1, 0x0, 1, 0, 8, 0x0#64,
  [⟨0,12,.rw⟩, ⟨12,8,.rw⟩]⟩

/-- UCIE_STAT, UCIe host module status (19_power_and_clocks.md). -/
def UCIE_STAT : RegDesc := ⟨2, 0x26000, 8, 0x8, 1, 0, 8, 0x0#64,
  [⟨0,4,.ro⟩, ⟨4,1,.ro⟩]⟩

/-- DROOP_CTL, droop settings (19_power_and_clocks.md). -/
def DROOP_CTL : RegDesc := ⟨16, 0x26100, 64, 0x10, 1, 0, 8, 0x1000#64,
  [⟨0,4,.rw⟩, ⟨8,8,.rw⟩]⟩

/-- DROOP_CNT, droop counts (19_power_and_clocks.md). -/
def DROOP_CNT : RegDesc := ⟨16, 0x26108, 64, 0x10, 1, 0, 8, 0x0#64,
  [⟨0,32,.rw⟩, ⟨32,16,.rw⟩, ⟨48,4,.ro⟩]⟩

/-- TAL_CTL, set control (20_tally_and_ledger.md). -/
def TAL_CTL : RegDesc := ⟨151, 0x10000, 604, 0x100, 1, 0, 8, 0x0#64,
  [⟨0,1,.rw⟩, ⟨1,1,.rw⟩, ⟨2,1,.rw⟩, ⟨3,1,.rw⟩, ⟨4,1,.rw⟩, ⟨5,1,.rw⟩, ⟨8,8,.w1c⟩]⟩

/-- TAL_CYC, cycle counter (20_tally_and_ledger.md). -/
def TAL_CYC : RegDesc := ⟨151, 0x10008, 604, 0x100, 1, 0, 8, 0x0#64,
  [⟨0,64,.rw⟩]⟩

/-- TAL_SMP, tagged sampling (20_tally_and_ledger.md). -/
def TAL_SMP : RegDesc := ⟨151, 0x10010, 604, 0x100, 1, 0, 8, 0x0#64,
  [⟨0,1,.rw⟩, ⟨4,4,.rw⟩, ⟨8,24,.rw⟩]⟩

/-- TAL_SEL, event selection (20_tally_and_ledger.md). -/
def TAL_SEL : RegDesc := ⟨151, 0x10040, 604, 0x100, 8, 8, 8, 0x0#64,
  [⟨0,12,.rw⟩, ⟨12,1,.rw⟩, ⟨16,6,.rw⟩, ⟨22,1,.rw⟩, ⟨24,4,.rw⟩, ⟨32,8,.rw⟩]⟩

/-- TAL_CNT, counter value (20_tally_and_ledger.md). -/
def TAL_CNT : RegDesc := ⟨151, 0x10080, 604, 0x100, 8, 8, 8, 0x0#64,
  [⟨0,48,.rw⟩, ⟨48,16,.rw⟩]⟩

/-- TAL_GLOBAL, shared sets (20_tally_and_ledger.md). -/
def TAL_GLOBAL : RegDesc := ⟨0, 0x24000, 1, 0x0, 1, 0, 8, 0x0#64,
  [⟨0,1,.rw⟩]⟩

/-- LED_CFG, ledger configuration (20_tally_and_ledger.md). -/
def LED_CFG : RegDesc := ⟨1, 0x25000, 4, 0x0, 1, 0, 8, 0x0#64,
  [⟨0,1,.rw⟩, ⟨1,2,.rw⟩, ⟨4,6,.rw⟩, ⟨16,5,.rw⟩, ⟨24,4,.rw⟩, ⟨32,32,.rw⟩]⟩

/-- LED_BASE, ledger address (20_tally_and_ledger.md). -/
def LED_BASE : RegDesc := ⟨1, 0x25008, 4, 0x0, 1, 0, 8, 0x0#64,
  [⟨16,30,.rw⟩]⟩

/-- LED_INT, sample period (20_tally_and_ledger.md). -/
def LED_INT : RegDesc := ⟨1, 0x25010, 4, 0x0, 1, 0, 8, 0x0#64,
  [⟨0,32,.rw⟩]⟩

/-- LED_START, window start (20_tally_and_ledger.md). -/
def LED_START : RegDesc := ⟨1, 0x25018, 4, 0x0, 1, 0, 8, 0x0#64,
  [⟨0,64,.rw⟩]⟩

/-- LED_END, window end (20_tally_and_ledger.md). -/
def LED_END : RegDesc := ⟨1, 0x25020, 4, 0x0, 1, 0, 8, 0x0#64,
  [⟨0,64,.rw⟩]⟩

/-- LED_TRIG, trigger (20_tally_and_ledger.md). -/
def LED_TRIG : RegDesc := ⟨1, 0x25028, 4, 0x0, 1, 0, 8, 0x0#64,
  [⟨0,1,.wo⟩, ⟨1,1,.wo⟩, ⟨2,1,.ro⟩, ⟨3,1,.ro⟩, ⟨4,2,.rw⟩, ⟨8,3,.rw⟩, ⟨16,8,.rw⟩]⟩

/-- LED_PTR, ledger pointer (20_tally_and_ledger.md). -/
def LED_PTR : RegDesc := ⟨1, 0x25030, 4, 0x0, 1, 0, 8, 0x0#64,
  [⟨0,32,.ro⟩, ⟨32,1,.ro⟩, ⟨33,1,.ro⟩, ⟨34,1,.ro⟩]⟩

/-- LED_STAT, ledger errors (20_tally_and_ledger.md). -/
def LED_STAT : RegDesc := ⟨1, 0x25038, 4, 0x0, 1, 0, 8, 0x0#64,
  [⟨0,32,.rw⟩, ⟨32,1,.w1c⟩]⟩

/-- LED_TAGQ, tag queue (20_tally_and_ledger.md). -/
def LED_TAGQ : RegDesc := ⟨1, 0x25040, 4, 0x0, 1, 0, 8, 0x0#64,
  [⟨0,12,.rw⟩, ⟨12,1,.rw⟩]⟩

/-- DBG_ATTACH, attachment (21_debug.md). -/
def DBG_ATTACH : RegDesc := ⟨0, 0x40000, 64, 0x40, 1, 0, 8, 0x0#64,
  [⟨0,1,.rw⟩, ⟨1,1,.rw⟩, ⟨2,1,.ro⟩, ⟨8,8,.rw⟩, ⟨16,4,.rw⟩]⟩

/-- DBG_BP, breakpoint (21_debug.md). -/
def DBG_BP : RegDesc := ⟨0, 0x50000, 64, 0x100, 8, 8, 8, 0x0#64,
  [⟨0,57,.rw⟩]⟩

/-- DBG_WP, watchpoint (21_debug.md). -/
def DBG_WP : RegDesc := ⟨0, 0x50040, 64, 0x100, 4, 8, 8, 0x600000000000000#64,
  [⟨0,57,.rw⟩, ⟨57,4,.rw⟩, ⟨61,1,.rw⟩, ⟨62,1,.rw⟩]⟩

/-- DBG_HALT, halt operation (21_debug.md). -/
def DBG_HALT : RegDesc := ⟨0, 0x42000, 1, 0x0, 1, 0, 8, 0x0#64,
  [⟨0,9,.wo⟩, ⟨9,6,.wo⟩, ⟨16,6,.wo⟩, ⟨22,3,.wo⟩]⟩

/-- DBG_SEL, inspection select (21_debug.md). -/
def DBG_SEL : RegDesc := ⟨0, 0x42008, 1, 0x0, 1, 0, 8, 0x0#64,
  [⟨0,9,.rw⟩, ⟨9,6,.rw⟩, ⟨15,5,.rw⟩, ⟨20,3,.rw⟩, ⟨23,16,.rw⟩]⟩

/-- DBG_DATA, inspection data (21_debug.md). -/
def DBG_DATA : RegDesc := ⟨0, 0x42010, 1, 0x0, 1, 0, 8, 0x0#64,
  [⟨0,64,.rw⟩]⟩

/-- DBG_STAT, debug errors (21_debug.md). -/
def DBG_STAT : RegDesc := ⟨0, 0x42018, 1, 0x0, 1, 0, 8, 0x0#64,
  [⟨0,3,.ro⟩, ⟨3,1,.w1c⟩]⟩

/-- DBG_EVT, event head (21_debug.md). -/
def DBG_EVT : RegDesc := ⟨0, 0x43000, 64, 0x10, 1, 0, 8, 0x0#64,
  [⟨0,3,.ro⟩, ⟨3,1,.ro⟩, ⟨4,1,.ro⟩, ⟨8,9,.ro⟩, ⟨17,6,.ro⟩, ⟨23,1,.ro⟩, ⟨24,8,.ro⟩, ⟨32,16,.rw⟩]⟩

/-- DBG_EVT_PC, event PC (21_debug.md). -/
def DBG_EVT_PC : RegDesc := ⟨0, 0x43008, 64, 0x10, 1, 0, 8, 0x0#64,
  [⟨0,57,.ro⟩]⟩

/-- DBG_LOCK, connector lock (21_debug.md). -/
def DBG_LOCK : RegDesc := ⟨0, 0x44000, 1, 0x0, 1, 0, 8, 0x0#64,
  [⟨0,2,.ro⟩, ⟨2,2,.ro⟩, ⟨4,1,.wo⟩, ⟨5,1,.wo⟩, ⟨16,16,.ro⟩, ⟨32,1,.ro⟩]⟩

/-- DBG_CHAL, unlock nonce (21_debug.md). -/
def DBG_CHAL : RegDesc := ⟨0, 0x44008, 2, 0x8, 1, 0, 8, 0x0#64,
  [⟨0,64,.ro⟩]⟩

/-- DBG_TOK, token buffer (21_debug.md). -/
def DBG_TOK : RegDesc := ⟨0, 0x44100, 21, 0x8, 1, 0, 8, 0x0#64,
  [⟨0,64,.wo⟩]⟩

/-- SEC_FW, firmware status (22_security_and_management.md). -/
def SEC_FW : RegDesc := ⟨0, 0x20000, 1, 0x0, 1, 0, 8, 0x0#64,
  [⟨0,2,.ro⟩, ⟨2,1,.ro⟩, ⟨3,1,.ro⟩, ⟨4,1,.ro⟩, ⟨32,32,.ro⟩]⟩

/-- SEC_FW_MIN, firmware rollback floor (22_security_and_management.md). -/
def SEC_FW_MIN : RegDesc := ⟨0, 0x20008, 1, 0x0, 1, 0, 8, 0x0#64,
  [⟨0,32,.ro⟩]⟩

/-- SEC_FW_VER, firmware version (22_security_and_management.md). -/
def SEC_FW_VER : RegDesc := ⟨0, 0x20010, 1, 0x0, 1, 0, 8, 0x0#64,
  [⟨0,64,.ro⟩]⟩

/-- SEC_DEVID, device identity (22_security_and_management.md). -/
def SEC_DEVID : RegDesc := ⟨0, 0x20020, 4, 0x8, 1, 0, 8, 0x0#64,
  [⟨0,64,.ro⟩]⟩

/-- SEC_KEYHASH, fused key digests (22_security_and_management.md). -/
def SEC_KEYHASH : RegDesc := ⟨0, 0x20100, 4, 0x40, 8, 8, 8, 0x0#64,
  [⟨0,64,.ro⟩]⟩

/-- SEC_CAL, calibration status (22_security_and_management.md). -/
def SEC_CAL : RegDesc := ⟨0, 0x20200, 1, 0x0, 1, 0, 8, 0x4#64,
  [⟨0,1,.ro⟩, ⟨1,2,.ro⟩]⟩

end RegTable

/-- The field table of each register. -/
def Reg.desc : Reg → RegDesc
  | .FOLIO_CTL => RegTable.FOLIO_CTL
  | .FOLIO_STAT => RegTable.FOLIO_STAT
  | .FOLIO_STAGE => RegTable.FOLIO_STAGE
  | .FOLIO_ID => RegTable.FOLIO_ID
  | .QOS_ADJ => RegTable.QOS_ADJ
  | .WAY_ADJ => RegTable.WAY_ADJ
  | .PART_ARITH => RegTable.PART_ARITH
  | .STK_STAT => RegTable.STK_STAT
  | .STK_ECC => RegTable.STK_ECC
  | .STK_ELOG => RegTable.STK_ELOG
  | .STK_RETIRE => RegTable.STK_RETIRE
  | .STK_REFRESH => RegTable.STK_REFRESH
  | .KEY_GEN => RegTable.KEY_GEN
  | .CC_ELOG => RegTable.CC_ELOG
  | .CC_ECNT => RegTable.CC_ECNT
  | .VC_STAT => RegTable.VC_STAT
  | .LS_SPLIT => RegTable.LS_SPLIT
  | .HS_STAT => RegTable.HS_STAT
  | .HS_CNT => RegTable.HS_CNT
  | .HS_TLOG => RegTable.HS_TLOG
  | .AGENT_DEAD => RegTable.AGENT_DEAD
  | .XLT_CTX => RegTable.XLT_CTX
  | .XLT_PASID => RegTable.XLT_PASID
  | .XLT_BLOT => RegTable.XLT_BLOT
  | .XLT_BLOT_PTR => RegTable.XLT_BLOT_PTR
  | .XLT_RESOLVE => RegTable.XLT_RESOLVE
  | .XLT_INV_ADDR => RegTable.XLT_INV_ADDR
  | .XLT_INV_CMD => RegTable.XLT_INV_CMD
  | .XLT_INV_SEQ => RegTable.XLT_INV_SEQ
  | .XLT_INV_STAT => RegTable.XLT_INV_STAT
  | .CAP => RegTable.CAP
  | .CAP_RET_SEL => RegTable.CAP_RET_SEL
  | .CAP_RET_DATA => RegTable.CAP_RET_DATA
  | .OBJ_CMD => RegTable.OBJ_CMD
  | .OBJ_ARG => RegTable.OBJ_ARG
  | .OBJ_SEQ => RegTable.OBJ_SEQ
  | .OBJ_ERR => RegTable.OBJ_ERR
  | .OBJ_BASE => RegTable.OBJ_BASE
  | .GRAPH_STORE => RegTable.GRAPH_STORE
  | .CTX_CFG => RegTable.CTX_CFG
  | .CTX_CSAVE => RegTable.CTX_CSAVE
  | .CTX_STAT => RegTable.CTX_STAT
  | .QSLOT_CTL => RegTable.QSLOT_CTL
  | .QSLOT_STAT => RegTable.QSLOT_STAT
  | .SWQ_DB => RegTable.SWQ_DB
  | .SWQ_CTL => RegTable.SWQ_CTL
  | .SWQ_STAT => RegTable.SWQ_STAT
  | .SWQ_CMPL => RegTable.SWQ_CMPL
  | .SWQ_ERRSEQ => RegTable.SWQ_ERRSEQ
  | .CMPL_FB_CLR => RegTable.CMPL_FB_CLR
  | .SYNC_BASE => RegTable.SYNC_BASE
  | .TL_VAL => RegTable.TL_VAL
  | .TL_SIG => RegTable.TL_SIG
  | .NOTE_VAL => RegTable.NOTE_VAL
  | .NOTE_SIG => RegTable.NOTE_SIG
  | .HOST_WATCH_CTL => RegTable.HOST_WATCH_CTL
  | .HOST_WATCH_VAL => RegTable.HOST_WATCH_VAL
  | .SWQ_PAIR => RegTable.SWQ_PAIR
  | .SWQ_STK => RegTable.SWQ_STK
  | .SYNC_ERR => RegTable.SYNC_ERR
  | .INT_SRC_CTL => RegTable.INT_SRC_CTL
  | .INT_TGT_LO => RegTable.INT_TGT_LO
  | .INT_TGT_HI => RegTable.INT_TGT_HI
  | .INT_CLAIM => RegTable.INT_CLAIM
  | .INT_EOI => RegTable.INT_EOI
  | .INT_SWI => RegTable.INT_SWI
  | .INT_ERR => RegTable.INT_ERR
  | .QIRQ_PEND => RegTable.QIRQ_PEND
  | .INT_ISL => RegTable.INT_ISL
  | .FAB_MODULE => RegTable.FAB_MODULE
  | .STAMP => RegTable.STAMP
  | .FAB_STAMP_CTL => RegTable.FAB_STAMP_CTL
  | .FAB_STAMP_STAT => RegTable.FAB_STAMP_STAT
  | .FAB_RESET_CTL => RegTable.FAB_RESET_CTL
  | .FAB_CTX_ACL => RegTable.FAB_CTX_ACL
  | .FAB_PORT_CTL => RegTable.FAB_PORT_CTL
  | .FAB_PORT_STAT => RegTable.FAB_PORT_STAT
  | .FAB_PORT_CNT => RegTable.FAB_PORT_CNT
  | .REC_CTL => RegTable.REC_CTL
  | .REC_HOLD => RegTable.REC_HOLD
  | .REC_LOG_BASE => RegTable.REC_LOG_BASE
  | .REC_LOG_PTR => RegTable.REC_LOG_PTR
  | .REC_CNT => RegTable.REC_CNT
  | .REC_QPOL => RegTable.REC_QPOL
  | .SNAP_CFG => RegTable.SNAP_CFG
  | .SNAP_DESC => RegTable.SNAP_DESC
  | .SNAP_STAT => RegTable.SNAP_STAT
  | .SNAP_STAT2 => RegTable.SNAP_STAT2
  | .SNAP_ADOPT => RegTable.SNAP_ADOPT
  | .SNAP_PUSH => RegTable.SNAP_PUSH
  | .SNAP_PUSH_CNT => RegTable.SNAP_PUSH_CNT
  | .RST_CAUSE => RegTable.RST_CAUSE
  | .RST_PART => RegTable.RST_PART
  | .RST_ERR => RegTable.RST_ERR
  | .RST_CORE => RegTable.RST_CORE
  | .RST_UNIT => RegTable.RST_UNIT
  | .PWR_IN => RegTable.PWR_IN
  | .PWR_AVG => RegTable.PWR_AVG
  | .PWR_LIMIT => RegTable.PWR_LIMIT
  | .PWR_CLK => RegTable.PWR_CLK
  | .PWR_TEMP => RegTable.PWR_TEMP
  | .PWR_POLICY => RegTable.PWR_POLICY
  | .PWR_GATE => RegTable.PWR_GATE
  | .PWR_GATE_STAT => RegTable.PWR_GATE_STAT
  | .PWR_DSTAT => RegTable.PWR_DSTAT
  | .EQ_CTL => RegTable.EQ_CTL
  | .UCIE_STAT => RegTable.UCIE_STAT
  | .DROOP_CTL => RegTable.DROOP_CTL
  | .DROOP_CNT => RegTable.DROOP_CNT
  | .TAL_CTL => RegTable.TAL_CTL
  | .TAL_CYC => RegTable.TAL_CYC
  | .TAL_SMP => RegTable.TAL_SMP
  | .TAL_SEL => RegTable.TAL_SEL
  | .TAL_CNT => RegTable.TAL_CNT
  | .TAL_GLOBAL => RegTable.TAL_GLOBAL
  | .LED_CFG => RegTable.LED_CFG
  | .LED_BASE => RegTable.LED_BASE
  | .LED_INT => RegTable.LED_INT
  | .LED_START => RegTable.LED_START
  | .LED_END => RegTable.LED_END
  | .LED_TRIG => RegTable.LED_TRIG
  | .LED_PTR => RegTable.LED_PTR
  | .LED_STAT => RegTable.LED_STAT
  | .LED_TAGQ => RegTable.LED_TAGQ
  | .DBG_ATTACH => RegTable.DBG_ATTACH
  | .DBG_BP => RegTable.DBG_BP
  | .DBG_WP => RegTable.DBG_WP
  | .DBG_HALT => RegTable.DBG_HALT
  | .DBG_SEL => RegTable.DBG_SEL
  | .DBG_DATA => RegTable.DBG_DATA
  | .DBG_STAT => RegTable.DBG_STAT
  | .DBG_EVT => RegTable.DBG_EVT
  | .DBG_EVT_PC => RegTable.DBG_EVT_PC
  | .DBG_LOCK => RegTable.DBG_LOCK
  | .DBG_CHAL => RegTable.DBG_CHAL
  | .DBG_TOK => RegTable.DBG_TOK
  | .SEC_FW => RegTable.SEC_FW
  | .SEC_FW_MIN => RegTable.SEC_FW_MIN
  | .SEC_FW_VER => RegTable.SEC_FW_VER
  | .SEC_DEVID => RegTable.SEC_DEVID
  | .SEC_KEYHASH => RegTable.SEC_KEYHASH
  | .SEC_CAL => RegTable.SEC_CAL

/-- Registers of Table 24.3, part 1. -/
def Reg.all1 : List Reg :=
  [Reg.FOLIO_CTL, Reg.FOLIO_STAT, Reg.FOLIO_STAGE, Reg.FOLIO_ID, Reg.QOS_ADJ, Reg.WAY_ADJ, Reg.PART_ARITH, Reg.STK_STAT, Reg.STK_ECC, Reg.STK_ELOG, Reg.STK_RETIRE, Reg.STK_REFRESH, Reg.KEY_GEN, Reg.CC_ELOG, Reg.CC_ECNT, Reg.VC_STAT, Reg.LS_SPLIT, Reg.HS_STAT, Reg.HS_CNT, Reg.HS_TLOG, Reg.AGENT_DEAD, Reg.XLT_CTX, Reg.XLT_PASID, Reg.XLT_BLOT]

/-- Registers of Table 24.3, part 2. -/
def Reg.all2 : List Reg :=
  [Reg.XLT_BLOT_PTR, Reg.XLT_RESOLVE, Reg.XLT_INV_ADDR, Reg.XLT_INV_CMD, Reg.XLT_INV_SEQ, Reg.XLT_INV_STAT, Reg.CAP, Reg.CAP_RET_SEL, Reg.CAP_RET_DATA, Reg.OBJ_CMD, Reg.OBJ_ARG, Reg.OBJ_SEQ, Reg.OBJ_ERR, Reg.OBJ_BASE, Reg.GRAPH_STORE, Reg.CTX_CFG, Reg.CTX_CSAVE, Reg.CTX_STAT, Reg.QSLOT_CTL, Reg.QSLOT_STAT, Reg.SWQ_DB, Reg.SWQ_CTL, Reg.SWQ_STAT, Reg.SWQ_CMPL]

/-- Registers of Table 24.3, part 3. -/
def Reg.all3 : List Reg :=
  [Reg.SWQ_ERRSEQ, Reg.CMPL_FB_CLR, Reg.SYNC_BASE, Reg.TL_VAL, Reg.TL_SIG, Reg.NOTE_VAL, Reg.NOTE_SIG, Reg.HOST_WATCH_CTL, Reg.HOST_WATCH_VAL, Reg.SWQ_PAIR, Reg.SWQ_STK, Reg.SYNC_ERR, Reg.INT_SRC_CTL, Reg.INT_TGT_LO, Reg.INT_TGT_HI, Reg.INT_CLAIM, Reg.INT_EOI, Reg.INT_SWI, Reg.INT_ERR, Reg.QIRQ_PEND, Reg.INT_ISL, Reg.FAB_MODULE, Reg.STAMP, Reg.FAB_STAMP_CTL]

/-- Registers of Table 24.3, part 4. -/
def Reg.all4 : List Reg :=
  [Reg.FAB_STAMP_STAT, Reg.FAB_RESET_CTL, Reg.FAB_CTX_ACL, Reg.FAB_PORT_CTL, Reg.FAB_PORT_STAT, Reg.FAB_PORT_CNT, Reg.REC_CTL, Reg.REC_HOLD, Reg.REC_LOG_BASE, Reg.REC_LOG_PTR, Reg.REC_CNT, Reg.REC_QPOL, Reg.SNAP_CFG, Reg.SNAP_DESC, Reg.SNAP_STAT, Reg.SNAP_STAT2, Reg.SNAP_ADOPT, Reg.SNAP_PUSH, Reg.SNAP_PUSH_CNT, Reg.RST_CAUSE, Reg.RST_PART, Reg.RST_ERR, Reg.RST_CORE, Reg.RST_UNIT]

/-- Registers of Table 24.3, part 5. -/
def Reg.all5 : List Reg :=
  [Reg.PWR_IN, Reg.PWR_AVG, Reg.PWR_LIMIT, Reg.PWR_CLK, Reg.PWR_TEMP, Reg.PWR_POLICY, Reg.PWR_GATE, Reg.PWR_GATE_STAT, Reg.PWR_DSTAT, Reg.EQ_CTL, Reg.UCIE_STAT, Reg.DROOP_CTL, Reg.DROOP_CNT, Reg.TAL_CTL, Reg.TAL_CYC, Reg.TAL_SMP, Reg.TAL_SEL, Reg.TAL_CNT, Reg.TAL_GLOBAL, Reg.LED_CFG, Reg.LED_BASE, Reg.LED_INT, Reg.LED_START, Reg.LED_END]

/-- Registers of Table 24.3, part 6. -/
def Reg.all6 : List Reg :=
  [Reg.LED_TRIG, Reg.LED_PTR, Reg.LED_STAT, Reg.LED_TAGQ, Reg.DBG_ATTACH, Reg.DBG_BP, Reg.DBG_WP, Reg.DBG_HALT, Reg.DBG_SEL, Reg.DBG_DATA, Reg.DBG_STAT, Reg.DBG_EVT, Reg.DBG_EVT_PC, Reg.DBG_LOCK, Reg.DBG_CHAL, Reg.DBG_TOK, Reg.SEC_FW, Reg.SEC_FW_MIN, Reg.SEC_FW_VER, Reg.SEC_DEVID, Reg.SEC_KEYHASH, Reg.SEC_CAL]

/-- Every register, in chapter order. -/
def Reg.all : List Reg := List.flatten [Reg.all1, Reg.all2, Reg.all3, Reg.all4, Reg.all5, Reg.all6]

/-- A named field of a register. -/
structure Fld where
  reg : Reg
  lo : Nat
  wid : Nat
  deriving DecidableEq, Repr

namespace F

@[reducible] def FOLIO_CTL_LOAD : Fld := ⟨.FOLIO_CTL, 0, 1⟩
@[reducible] def FOLIO_CTL_FORCE : Fld := ⟨.FOLIO_CTL, 1, 1⟩
@[reducible] def FOLIO_CTL_PERSIST : Fld := ⟨.FOLIO_CTL, 2, 1⟩
@[reducible] def FOLIO_STAT_PHASE : Fld := ⟨.FOLIO_STAT, 0, 3⟩
@[reducible] def FOLIO_STAT_ERR : Fld := ⟨.FOLIO_STAT, 8, 4⟩
@[reducible] def FOLIO_STAT_SAFE : Fld := ⟨.FOLIO_STAT, 12, 1⟩
@[reducible] def FOLIO_STAT_ADJ_REJ : Fld := ⟨.FOLIO_STAT, 13, 1⟩
@[reducible] def FOLIO_STAT_ADJ_DROP : Fld := ⟨.FOLIO_STAT, 14, 1⟩
@[reducible] def FOLIO_STAT_DONE : Fld := ⟨.FOLIO_STAT, 15, 1⟩
@[reducible] def FOLIO_STAT_BUSY_HIT : Fld := ⟨.FOLIO_STAT, 16, 1⟩
@[reducible] def FOLIO_STAT_SVN_MIN : Fld := ⟨.FOLIO_STAT, 32, 32⟩
@[reducible] def FOLIO_STAGE_ADDR : Fld := ⟨.FOLIO_STAGE, 3, 43⟩
@[reducible] def FOLIO_ID_ID : Fld := ⟨.FOLIO_ID, 0, 64⟩
@[reducible] def QOS_ADJ_SHARE : Fld := ⟨.QOS_ADJ, 0, 8⟩
@[reducible] def QOS_ADJ_MIN : Fld := ⟨.QOS_ADJ, 8, 8⟩
@[reducible] def QOS_ADJ_MAX : Fld := ⟨.QOS_ADJ, 16, 8⟩
@[reducible] def WAY_ADJ_MASK : Fld := ⟨.WAY_ADJ, 0, 16⟩
@[reducible] def WAY_ADJ_PERMIT : Fld := ⟨.WAY_ADJ, 16, 16⟩
@[reducible] def PART_ARITH_STRICT : Fld := ⟨.PART_ARITH, 0, 1⟩
@[reducible] def PART_ARITH_MXFP4_READ : Fld := ⟨.PART_ARITH, 1, 1⟩
@[reducible] def PART_ARITH_SAT : Fld := ⟨.PART_ARITH, 2, 1⟩
@[reducible] def PART_ARITH_EXISTS : Fld := ⟨.PART_ARITH, 8, 1⟩
@[reducible] def STK_STAT_TEMP : Fld := ⟨.STK_STAT, 0, 8⟩
@[reducible] def STK_STAT_LEVEL : Fld := ⟨.STK_STAT, 8, 2⟩
@[reducible] def STK_STAT_THROTTLE : Fld := ⟨.STK_STAT, 10, 1⟩
@[reducible] def STK_STAT_TRIP : Fld := ⟨.STK_STAT, 11, 1⟩
@[reducible] def STK_STAT_RETIRED : Fld := ⟨.STK_STAT, 16, 16⟩
@[reducible] def STK_STAT_LIST_FULL : Fld := ⟨.STK_STAT, 32, 1⟩
@[reducible] def STK_ECC_CE : Fld := ⟨.STK_ECC, 0, 32⟩
@[reducible] def STK_ECC_UE : Fld := ⟨.STK_ECC, 32, 16⟩
@[reducible] def STK_ELOG_ADDR : Fld := ⟨.STK_ELOG, 0, 37⟩
@[reducible] def STK_ELOG_KIND : Fld := ⟨.STK_ELOG, 37, 2⟩
@[reducible] def STK_ELOG_VALID : Fld := ⟨.STK_ELOG, 39, 1⟩
@[reducible] def STK_ELOG_OVF : Fld := ⟨.STK_ELOG, 40, 1⟩
@[reducible] def STK_RETIRE_GRANULE : Fld := ⟨.STK_RETIRE, 0, 25⟩
@[reducible] def STK_RETIRE_PENDING : Fld := ⟨.STK_RETIRE, 31, 1⟩
@[reducible] def STK_RETIRE_ACK : Fld := ⟨.STK_RETIRE, 32, 1⟩
@[reducible] def STK_REFRESH_MIN_LEVEL : Fld := ⟨.STK_REFRESH, 0, 2⟩
@[reducible] def KEY_GEN_GEN : Fld := ⟨.KEY_GEN, 0, 32⟩
@[reducible] def CC_ELOG_ADDR : Fld := ⟨.CC_ELOG, 0, 39⟩
@[reducible] def CC_ELOG_WAY : Fld := ⟨.CC_ELOG, 39, 4⟩
@[reducible] def CC_ELOG_CORE : Fld := ⟨.CC_ELOG, 43, 3⟩
@[reducible] def CC_ELOG_UNIT : Fld := ⟨.CC_ELOG, 46, 3⟩
@[reducible] def CC_ELOG_DIRTY : Fld := ⟨.CC_ELOG, 49, 1⟩
@[reducible] def CC_ELOG_VALID : Fld := ⟨.CC_ELOG, 50, 1⟩
@[reducible] def CC_ELOG_OVF : Fld := ⟨.CC_ELOG, 51, 1⟩
@[reducible] def CC_ECNT_CLEAN : Fld := ⟨.CC_ECNT, 0, 32⟩
@[reducible] def CC_ECNT_DIRTY : Fld := ⟨.CC_ECNT, 32, 16⟩
@[reducible] def VC_STAT_OCC0 : Fld := ⟨.VC_STAT, 0, 7⟩
@[reducible] def VC_STAT_OCC1 : Fld := ⟨.VC_STAT, 8, 7⟩
@[reducible] def VC_STAT_OCC2 : Fld := ⟨.VC_STAT, 16, 7⟩
@[reducible] def VC_STAT_FULLWAIT : Fld := ⟨.VC_STAT, 24, 8⟩
@[reducible] def LS_SPLIT_L1_STEPS : Fld := ⟨.LS_SPLIT, 0, 3⟩
@[reducible] def LS_SPLIT_SCR_FREE : Fld := ⟨.LS_SPLIT, 4, 9⟩
@[reducible] def HS_STAT_TRK_USED : Fld := ⟨.HS_STAT, 0, 9⟩
@[reducible] def HS_STAT_CRED_OWED : Fld := ⟨.HS_STAT, 16, 7⟩
@[reducible] def HS_STAT_RECLAIM : Fld := ⟨.HS_STAT, 32, 1⟩
@[reducible] def HS_CNT_RETRY : Fld := ⟨.HS_CNT, 0, 32⟩
@[reducible] def HS_CNT_TMO : Fld := ⟨.HS_CNT, 32, 16⟩
@[reducible] def HS_CNT_LOST : Fld := ⟨.HS_CNT, 48, 16⟩
@[reducible] def HS_TLOG_ADDR : Fld := ⟨.HS_TLOG, 0, 39⟩
@[reducible] def HS_TLOG_AGENT : Fld := ⟨.HS_TLOG, 39, 7⟩
@[reducible] def HS_TLOG_CTL : Fld := ⟨.HS_TLOG, 46, 1⟩
@[reducible] def HS_TLOG_PROTO : Fld := ⟨.HS_TLOG, 47, 1⟩
@[reducible] def HS_TLOG_VALID : Fld := ⟨.HS_TLOG, 48, 1⟩
@[reducible] def HS_TLOG_OVF : Fld := ⟨.HS_TLOG, 49, 1⟩
@[reducible] def AGENT_DEAD_DEAD : Fld := ⟨.AGENT_DEAD, 0, 64⟩
@[reducible] def XLT_CTX_EN : Fld := ⟨.XLT_CTX, 0, 1⟩
@[reducible] def XLT_CTX_ROOT : Fld := ⟨.XLT_CTX, 12, 34⟩
@[reducible] def XLT_PASID_PASID : Fld := ⟨.XLT_PASID, 0, 20⟩
@[reducible] def XLT_BLOT_BASE : Fld := ⟨.XLT_BLOT, 17, 29⟩
@[reducible] def XLT_BLOT_PTR_HEAD : Fld := ⟨.XLT_BLOT_PTR, 0, 13⟩
@[reducible] def XLT_BLOT_PTR_TAIL : Fld := ⟨.XLT_BLOT_PTR, 16, 13⟩
@[reducible] def XLT_BLOT_PTR_OVF : Fld := ⟨.XLT_BLOT_PTR, 32, 16⟩
@[reducible] def XLT_BLOT_PTR_FULL : Fld := ⟨.XLT_BLOT_PTR, 48, 1⟩
@[reducible] def XLT_BLOT_PTR_RES_ERR : Fld := ⟨.XLT_BLOT_PTR, 49, 1⟩
@[reducible] def XLT_BLOT_PTR_PTR_ERR : Fld := ⟨.XLT_BLOT_PTR, 50, 1⟩
@[reducible] def XLT_RESOLVE_QUIRE : Fld := ⟨.XLT_RESOLVE, 0, 16⟩
@[reducible] def XLT_RESOLVE_RETRY : Fld := ⟨.XLT_RESOLVE, 16, 1⟩
@[reducible] def XLT_RESOLVE_ABORT : Fld := ⟨.XLT_RESOLVE, 17, 1⟩
@[reducible] def XLT_INV_ADDR_VA : Fld := ⟨.XLT_INV_ADDR, 12, 45⟩
@[reducible] def XLT_INV_CMD_CTX : Fld := ⟨.XLT_INV_CMD, 0, 6⟩
@[reducible] def XLT_INV_CMD_SCOPE : Fld := ⟨.XLT_INV_CMD, 6, 2⟩
@[reducible] def XLT_INV_CMD_SIZE : Fld := ⟨.XLT_INV_CMD, 8, 2⟩
@[reducible] def XLT_INV_CMD_IRQ : Fld := ⟨.XLT_INV_CMD, 10, 1⟩
@[reducible] def XLT_INV_CMD_COUNT : Fld := ⟨.XLT_INV_CMD, 16, 16⟩
@[reducible] def XLT_INV_SEQ_ISSUED : Fld := ⟨.XLT_INV_SEQ, 0, 32⟩
@[reducible] def XLT_INV_SEQ_DONE : Fld := ⟨.XLT_INV_SEQ, 32, 32⟩
@[reducible] def XLT_INV_STAT_PENDING : Fld := ⟨.XLT_INV_STAT, 0, 7⟩
@[reducible] def XLT_INV_STAT_DROP : Fld := ⟨.XLT_INV_STAT, 7, 1⟩
@[reducible] def CAP_RET_SEL_STACK : Fld := ⟨.CAP_RET_SEL, 0, 4⟩
@[reducible] def CAP_RET_SEL_INDEX : Fld := ⟨.CAP_RET_SEL, 16, 12⟩
@[reducible] def CAP_RET_DATA_GRANULE : Fld := ⟨.CAP_RET_DATA, 0, 25⟩
@[reducible] def CAP_RET_DATA_VALID : Fld := ⟨.CAP_RET_DATA, 31, 1⟩
@[reducible] def OBJ_CMD_TYPE : Fld := ⟨.OBJ_CMD, 0, 3⟩
@[reducible] def OBJ_CMD_IRQ : Fld := ⟨.OBJ_CMD, 3, 1⟩
@[reducible] def OBJ_CMD_OP : Fld := ⟨.OBJ_CMD, 4, 3⟩
@[reducible] def OBJ_CMD_CTX : Fld := ⟨.OBJ_CMD, 8, 6⟩
@[reducible] def OBJ_CMD_INDEX : Fld := ⟨.OBJ_CMD, 32, 20⟩
@[reducible] def OBJ_CMD_GEN : Fld := ⟨.OBJ_CMD, 52, 12⟩
@[reducible] def OBJ_ARG_ADDR : Fld := ⟨.OBJ_ARG, 3, 43⟩
@[reducible] def OBJ_SEQ_ISSUED : Fld := ⟨.OBJ_SEQ, 0, 32⟩
@[reducible] def OBJ_SEQ_DONE : Fld := ⟨.OBJ_SEQ, 32, 32⟩
@[reducible] def OBJ_ERR_SEQ : Fld := ⟨.OBJ_ERR, 0, 32⟩
@[reducible] def OBJ_ERR_CODE : Fld := ⟨.OBJ_ERR, 32, 4⟩
@[reducible] def OBJ_ERR_VALID : Fld := ⟨.OBJ_ERR, 36, 1⟩
@[reducible] def OBJ_ERR_DROP : Fld := ⟨.OBJ_ERR, 37, 1⟩
@[reducible] def OBJ_BASE_BASE : Fld := ⟨.OBJ_BASE, 25, 21⟩
@[reducible] def GRAPH_STORE_BASE : Fld := ⟨.GRAPH_STORE, 16, 30⟩
@[reducible] def GRAPH_STORE_SIZE : Fld := ⟨.GRAPH_STORE, 46, 18⟩
@[reducible] def CTX_CFG_PART : Fld := ⟨.CTX_CFG, 0, 4⟩
@[reducible] def CTX_CFG_STATUS : Fld := ⟨.CTX_CFG, 12, 34⟩
@[reducible] def CTX_CSAVE_BASE : Fld := ⟨.CTX_CSAVE, 16, 30⟩
@[reducible] def CTX_STAT_STATE : Fld := ⟨.CTX_STAT, 0, 3⟩
@[reducible] def CTX_STAT_ABORT_STATUS : Fld := ⟨.CTX_STAT, 16, 16⟩
@[reducible] def CTX_STAT_NEXT_SEQ : Fld := ⟨.CTX_STAT, 32, 32⟩
@[reducible] def QSLOT_CTL_EN : Fld := ⟨.QSLOT_CTL, 0, 1⟩
@[reducible] def QSLOT_STAT_SWQ : Fld := ⟨.QSLOT_STAT, 0, 12⟩
@[reducible] def QSLOT_STAT_MAPPED : Fld := ⟨.QSLOT_STAT, 12, 1⟩
@[reducible] def QSLOT_STAT_CLERK : Fld := ⟨.QSLOT_STAT, 16, 4⟩
@[reducible] def SWQ_DB_TAIL : Fld := ⟨.SWQ_DB, 0, 32⟩
@[reducible] def SWQ_CTL_RESUME : Fld := ⟨.SWQ_CTL, 0, 1⟩
@[reducible] def SWQ_CTL_TMO_MS : Fld := ⟨.SWQ_CTL, 32, 32⟩
@[reducible] def SWQ_STAT_HEAD : Fld := ⟨.SWQ_STAT, 0, 32⟩
@[reducible] def SWQ_STAT_STATE : Fld := ⟨.SWQ_STAT, 32, 2⟩
@[reducible] def SWQ_STAT_DB_ERR : Fld := ⟨.SWQ_STAT, 34, 1⟩
@[reducible] def SWQ_STAT_BADPKT : Fld := ⟨.SWQ_STAT, 35, 1⟩
@[reducible] def SWQ_STAT_ERR : Fld := ⟨.SWQ_STAT, 48, 16⟩
@[reducible] def SWQ_CMPL_ACK : Fld := ⟨.SWQ_CMPL, 0, 32⟩
@[reducible] def SWQ_CMPL_WRITTEN : Fld := ⟨.SWQ_CMPL, 32, 32⟩
@[reducible] def SWQ_ERRSEQ_ERR_SEQ : Fld := ⟨.SWQ_ERRSEQ, 0, 32⟩
@[reducible] def CMPL_FB_CLR_CLEAR : Fld := ⟨.CMPL_FB_CLR, 0, 1⟩
@[reducible] def CMPL_FB_CLR_REFUSED : Fld := ⟨.CMPL_FB_CLR, 1, 1⟩
@[reducible] def SYNC_BASE_BASE : Fld := ⟨.SYNC_BASE, 21, 25⟩
@[reducible] def TL_VAL_VALUE : Fld := ⟨.TL_VAL, 0, 64⟩
@[reducible] def TL_SIG_VALUE : Fld := ⟨.TL_SIG, 0, 64⟩
@[reducible] def NOTE_VAL_COUNT : Fld := ⟨.NOTE_VAL, 0, 32⟩
@[reducible] def NOTE_VAL_SAT : Fld := ⟨.NOTE_VAL, 32, 1⟩
@[reducible] def NOTE_VAL_HELD : Fld := ⟨.NOTE_VAL, 33, 1⟩
@[reducible] def NOTE_SIG_COUNT : Fld := ⟨.NOTE_SIG, 0, 32⟩
@[reducible] def HOST_WATCH_CTL_ARM : Fld := ⟨.HOST_WATCH_CTL, 0, 1⟩
@[reducible] def HOST_WATCH_CTL_KIND : Fld := ⟨.HOST_WATCH_CTL, 1, 1⟩
@[reducible] def HOST_WATCH_CTL_ARMED : Fld := ⟨.HOST_WATCH_CTL, 2, 1⟩
@[reducible] def HOST_WATCH_CTL_FIRED : Fld := ⟨.HOST_WATCH_CTL, 3, 1⟩
@[reducible] def HOST_WATCH_CTL_TERMINAL : Fld := ⟨.HOST_WATCH_CTL, 4, 1⟩
@[reducible] def HOST_WATCH_CTL_INDEX : Fld := ⟨.HOST_WATCH_CTL, 8, 16⟩
@[reducible] def HOST_WATCH_VAL_VALUE : Fld := ⟨.HOST_WATCH_VAL, 0, 64⟩
@[reducible] def SWQ_PAIR_A : Fld := ⟨.SWQ_PAIR, 0, 16⟩
@[reducible] def SWQ_PAIR_B : Fld := ⟨.SWQ_PAIR, 16, 16⟩
@[reducible] def SWQ_PAIR_EN : Fld := ⟨.SWQ_PAIR, 32, 1⟩
@[reducible] def SWQ_PAIR_ALIGN : Fld := ⟨.SWQ_PAIR, 33, 1⟩
@[reducible] def SWQ_PAIR_CAP : Fld := ⟨.SWQ_PAIR, 34, 30⟩
@[reducible] def SWQ_STK_COUNT : Fld := ⟨.SWQ_STK, 0, 32⟩
@[reducible] def SWQ_STK_EXCESS : Fld := ⟨.SWQ_STK, 32, 4⟩
@[reducible] def SWQ_STK_BADPAIR : Fld := ⟨.SWQ_STK, 36, 4⟩
@[reducible] def SWQ_STK_OVERRUN : Fld := ⟨.SWQ_STK, 40, 1⟩
@[reducible] def SYNC_ERR_TL : Fld := ⟨.SYNC_ERR, 0, 12⟩
@[reducible] def SYNC_ERR_REGRESS : Fld := ⟨.SYNC_ERR, 12, 1⟩
@[reducible] def SYNC_ERR_NOTE_SAT : Fld := ⟨.SYNC_ERR, 13, 1⟩
@[reducible] def SYNC_ERR_BAD_HOST : Fld := ⟨.SYNC_ERR, 14, 1⟩
@[reducible] def SYNC_ERR_NOTE : Fld := ⟨.SYNC_ERR, 32, 16⟩
@[reducible] def INT_SRC_CTL_EN : Fld := ⟨.INT_SRC_CTL, 0, 1⟩
@[reducible] def INT_SRC_CTL_PEND : Fld := ⟨.INT_SRC_CTL, 1, 1⟩
@[reducible] def INT_SRC_CTL_ACTIVE : Fld := ⟨.INT_SRC_CTL, 2, 1⟩
@[reducible] def INT_SRC_CTL_PRIO : Fld := ⟨.INT_SRC_CTL, 4, 4⟩
@[reducible] def INT_SRC_CTL_CLAIMER : Fld := ⟨.INT_SRC_CTL, 8, 7⟩
@[reducible] def INT_SRC_CTL_OWNER : Fld := ⟨.INT_SRC_CTL, 16, 5⟩
@[reducible] def INT_TGT_LO_TGT : Fld := ⟨.INT_TGT_LO, 0, 64⟩
@[reducible] def INT_TGT_HI_TGT : Fld := ⟨.INT_TGT_HI, 0, 17⟩
@[reducible] def INT_CLAIM_SRC : Fld := ⟨.INT_CLAIM, 0, 11⟩
@[reducible] def INT_EOI_SRC : Fld := ⟨.INT_EOI, 0, 11⟩
@[reducible] def INT_SWI_S : Fld := ⟨.INT_SWI, 0, 8⟩
@[reducible] def INT_ERR_PERMIT : Fld := ⟨.INT_ERR, 0, 1⟩
@[reducible] def INT_ERR_EOI : Fld := ⟨.INT_ERR, 1, 1⟩
@[reducible] def INT_ERR_SRC : Fld := ⟨.INT_ERR, 8, 11⟩
@[reducible] def QIRQ_PEND_Q : Fld := ⟨.QIRQ_PEND, 0, 64⟩
@[reducible] def INT_ISL_STOPPED : Fld := ⟨.INT_ISL, 0, 1⟩
@[reducible] def INT_ISL_WAKING : Fld := ⟨.INT_ISL, 1, 1⟩
@[reducible] def INT_ISL_CAUGHT : Fld := ⟨.INT_ISL, 16, 16⟩
@[reducible] def FAB_MODULE_MODULE : Fld := ⟨.FAB_MODULE, 0, 12⟩
@[reducible] def FAB_MODULE_VALID : Fld := ⟨.FAB_MODULE, 12, 1⟩
@[reducible] def STAMP_NS : Fld := ⟨.STAMP, 0, 64⟩
@[reducible] def FAB_STAMP_CTL_ROOT_MOD : Fld := ⟨.FAB_STAMP_CTL, 0, 12⟩
@[reducible] def FAB_STAMP_CTL_EN : Fld := ⟨.FAB_STAMP_CTL, 12, 1⟩
@[reducible] def FAB_STAMP_STAT_LOCKED : Fld := ⟨.FAB_STAMP_STAT, 0, 1⟩
@[reducible] def FAB_STAMP_STAT_ROOT : Fld := ⟨.FAB_STAMP_STAT, 1, 1⟩
@[reducible] def FAB_STAMP_STAT_DIST : Fld := ⟨.FAB_STAMP_STAT, 2, 5⟩
@[reducible] def FAB_STAMP_STAT_PARENT : Fld := ⟨.FAB_STAMP_STAT, 8, 4⟩
@[reducible] def FAB_RESET_CTL_EN : Fld := ⟨.FAB_RESET_CTL, 0, 1⟩
@[reducible] def FAB_CTX_ACL_EN : Fld := ⟨.FAB_CTX_ACL, 0, 1⟩
@[reducible] def FAB_CTX_ACL_FIRST : Fld := ⟨.FAB_CTX_ACL, 16, 12⟩
@[reducible] def FAB_CTX_ACL_LAST : Fld := ⟨.FAB_CTX_ACL, 32, 12⟩
@[reducible] def FAB_PORT_CTL_EN : Fld := ⟨.FAB_PORT_CTL, 0, 1⟩
@[reducible] def FAB_PORT_CTL_RETRAIN : Fld := ⟨.FAB_PORT_CTL, 1, 1⟩
@[reducible] def FAB_PORT_CTL_DATELINE : Fld := ⟨.FAB_PORT_CTL, 2, 1⟩
@[reducible] def FAB_PORT_CTL_HALF_OK : Fld := ⟨.FAB_PORT_CTL, 3, 1⟩
@[reducible] def FAB_PORT_STAT_STATE : Fld := ⟨.FAB_PORT_STAT, 0, 2⟩
@[reducible] def FAB_PORT_STAT_HALF_SEL : Fld := ⟨.FAB_PORT_STAT, 2, 1⟩
@[reducible] def FAB_PORT_STAT_LANE_FAIL : Fld := ⟨.FAB_PORT_STAT, 4, 8⟩
@[reducible] def FAB_PORT_STAT_PEER : Fld := ⟨.FAB_PORT_STAT, 12, 12⟩
@[reducible] def FAB_PORT_STAT_PEER_PORT : Fld := ⟨.FAB_PORT_STAT, 24, 4⟩
@[reducible] def FAB_PORT_CNT_REPLAY : Fld := ⟨.FAB_PORT_CNT, 0, 32⟩
@[reducible] def FAB_PORT_CNT_RETRAINS : Fld := ⟨.FAB_PORT_CNT, 32, 16⟩
@[reducible] def FAB_PORT_CNT_DROP : Fld := ⟨.FAB_PORT_CNT, 48, 16⟩
@[reducible] def REC_CTL_QUAR_THRESH : Fld := ⟨.REC_CTL, 0, 4⟩
@[reducible] def REC_CTL_REPLAY_MAX : Fld := ⟨.REC_CTL, 4, 4⟩
@[reducible] def REC_CTL_QUAR_WINDOW_S : Fld := ⟨.REC_CTL, 16, 16⟩
@[reducible] def REC_HOLD_HOLD : Fld := ⟨.REC_HOLD, 0, 64⟩
@[reducible] def REC_LOG_BASE_EN : Fld := ⟨.REC_LOG_BASE, 0, 1⟩
@[reducible] def REC_LOG_BASE_BASE : Fld := ⟨.REC_LOG_BASE, 14, 32⟩
@[reducible] def REC_LOG_PTR_HEAD : Fld := ⟨.REC_LOG_PTR, 0, 10⟩
@[reducible] def REC_LOG_PTR_TAIL : Fld := ⟨.REC_LOG_PTR, 16, 10⟩
@[reducible] def REC_LOG_PTR_DROPPED : Fld := ⟨.REC_LOG_PTR, 32, 16⟩
@[reducible] def REC_CNT_CONTAIN : Fld := ⟨.REC_CNT, 0, 8⟩
@[reducible] def REC_CNT_REPLAY : Fld := ⟨.REC_CNT, 8, 32⟩
@[reducible] def REC_CNT_QUARS : Fld := ⟨.REC_CNT, 40, 8⟩
@[reducible] def REC_CNT_QUAR : Fld := ⟨.REC_CNT, 48, 1⟩
@[reducible] def REC_QPOL_REPLAY : Fld := ⟨.REC_QPOL, 0, 1⟩
@[reducible] def SNAP_CFG_EN : Fld := ⟨.SNAP_CFG, 0, 1⟩
@[reducible] def SNAP_CFG_CUT : Fld := ⟨.SNAP_CFG, 1, 1⟩
@[reducible] def SNAP_CFG_CUT_MS : Fld := ⟨.SNAP_CFG, 16, 32⟩
@[reducible] def SNAP_CFG_MAX_PAUSE_MS : Fld := ⟨.SNAP_CFG, 48, 8⟩
@[reducible] def SNAP_DESC_ADDR : Fld := ⟨.SNAP_DESC, 6, 40⟩
@[reducible] def SNAP_STAT_EPOCH : Fld := ⟨.SNAP_STAT, 0, 32⟩
@[reducible] def SNAP_STAT_PHASE : Fld := ⟨.SNAP_STAT, 32, 3⟩
@[reducible] def SNAP_STAT_ERR : Fld := ⟨.SNAP_STAT, 36, 4⟩
@[reducible] def SNAP_STAT_DEFER : Fld := ⟨.SNAP_STAT, 40, 1⟩
@[reducible] def SNAP_STAT2_PAUSE_US : Fld := ⟨.SNAP_STAT2, 0, 24⟩
@[reducible] def SNAP_STAT2_CIMG_KIB : Fld := ⟨.SNAP_STAT2, 32, 32⟩
@[reducible] def SNAP_ADOPT_HANDLE : Fld := ⟨.SNAP_ADOPT, 0, 32⟩
@[reducible] def SNAP_ADOPT_GO : Fld := ⟨.SNAP_ADOPT, 32, 1⟩
@[reducible] def SNAP_ADOPT_BUSY : Fld := ⟨.SNAP_ADOPT, 33, 1⟩
@[reducible] def SNAP_ADOPT_DONE : Fld := ⟨.SNAP_ADOPT, 34, 1⟩
@[reducible] def SNAP_ADOPT_CODE : Fld := ⟨.SNAP_ADOPT, 36, 4⟩
@[reducible] def SNAP_ADOPT_OFF4K : Fld := ⟨.SNAP_ADOPT, 40, 24⟩
@[reducible] def SNAP_PUSH_DESC : Fld := ⟨.SNAP_PUSH, 6, 40⟩
@[reducible] def SNAP_PUSH_GO : Fld := ⟨.SNAP_PUSH, 46, 1⟩
@[reducible] def SNAP_PUSH_BUSY : Fld := ⟨.SNAP_PUSH, 47, 1⟩
@[reducible] def SNAP_PUSH_DONE : Fld := ⟨.SNAP_PUSH, 48, 1⟩
@[reducible] def SNAP_PUSH_ERR : Fld := ⟨.SNAP_PUSH, 49, 4⟩
@[reducible] def SNAP_PUSH_CNT_SENT : Fld := ⟨.SNAP_PUSH_CNT, 0, 32⟩
@[reducible] def SNAP_PUSH_CNT_SKIPPED : Fld := ⟨.SNAP_PUSH_CNT, 32, 32⟩
@[reducible] def RST_CAUSE_PGOOD : Fld := ⟨.RST_CAUSE, 0, 1⟩
@[reducible] def RST_CAUSE_PIN : Fld := ⟨.RST_CAUSE, 1, 1⟩
@[reducible] def RST_CAUSE_WARDEN : Fld := ⟨.RST_CAUSE, 2, 1⟩
@[reducible] def RST_CAUSE_PKG_WDT : Fld := ⟨.RST_CAUSE, 3, 1⟩
@[reducible] def RST_CAUSE_FABRIC : Fld := ⟨.RST_CAUSE, 4, 1⟩
@[reducible] def RST_CAUSE_READY : Fld := ⟨.RST_CAUSE, 8, 1⟩
@[reducible] def RST_CAUSE_FAIL_STEP : Fld := ⟨.RST_CAUSE, 9, 4⟩
@[reducible] def RST_CAUSE_COUNT : Fld := ⟨.RST_CAUSE, 32, 32⟩
@[reducible] def RST_PART_ASSERT : Fld := ⟨.RST_PART, 0, 16⟩
@[reducible] def RST_ERR_REFUSED : Fld := ⟨.RST_ERR, 0, 1⟩
@[reducible] def RST_CORE_CORE : Fld := ⟨.RST_CORE, 0, 64⟩
@[reducible] def RST_UNIT_CLUSTER : Fld := ⟨.RST_UNIT, 0, 16⟩
@[reducible] def RST_UNIT_CLERK : Fld := ⟨.RST_UNIT, 16, 4⟩
@[reducible] def RST_UNIT_HOME : Fld := ⟨.RST_UNIT, 20, 4⟩
@[reducible] def RST_UNIT_PORT : Fld := ⟨.RST_UNIT, 24, 3⟩
@[reducible] def RST_UNIT_UCIE : Fld := ⟨.RST_UNIT, 27, 2⟩
@[reducible] def RST_UNIT_DTC : Fld := ⟨.RST_UNIT, 29, 1⟩
@[reducible] def RST_UNIT_COPY : Fld := ⟨.RST_UNIT, 30, 1⟩
@[reducible] def RST_UNIT_SNAP : Fld := ⟨.RST_UNIT, 31, 1⟩
@[reducible] def RST_UNIT_LEDGER : Fld := ⟨.RST_UNIT, 32, 1⟩
@[reducible] def PWR_IN_VOLT : Fld := ⟨.PWR_IN, 0, 16⟩
@[reducible] def PWR_IN_CURR : Fld := ⟨.PWR_IN, 16, 16⟩
@[reducible] def PWR_IN_WATTS : Fld := ⟨.PWR_IN, 32, 16⟩
@[reducible] def PWR_IN_PGOOD : Fld := ⟨.PWR_IN, 48, 1⟩
@[reducible] def PWR_AVG_W10MS : Fld := ⟨.PWR_AVG, 0, 16⟩
@[reducible] def PWR_AVG_W1S : Fld := ⟨.PWR_AVG, 16, 16⟩
@[reducible] def PWR_LIMIT_WATTS : Fld := ⟨.PWR_LIMIT, 0, 12⟩
@[reducible] def PWR_LIMIT_CLK_MAX : Fld := ⟨.PWR_LIMIT, 16, 12⟩
@[reducible] def PWR_LIMIT_REJ : Fld := ⟨.PWR_LIMIT, 28, 1⟩
@[reducible] def PWR_CLK_TARGET : Fld := ⟨.PWR_CLK, 0, 11⟩
@[reducible] def PWR_CLK_LIMITED : Fld := ⟨.PWR_CLK, 11, 1⟩
@[reducible] def PWR_CLK_THERMAL : Fld := ⟨.PWR_CLK, 12, 1⟩
@[reducible] def PWR_CLK_NOCAL : Fld := ⟨.PWR_CLK, 13, 1⟩
@[reducible] def PWR_CLK_MX_CAP : Fld := ⟨.PWR_CLK, 14, 2⟩
@[reducible] def PWR_TEMP_TEMP : Fld := ⟨.PWR_TEMP, 0, 64⟩
@[reducible] def PWR_POLICY_AUTO : Fld := ⟨.PWR_POLICY, 0, 1⟩
@[reducible] def PWR_POLICY_IDLE_US : Fld := ⟨.PWR_POLICY, 16, 16⟩
@[reducible] def PWR_GATE_TARGET : Fld := ⟨.PWR_GATE, 0, 10⟩
@[reducible] def PWR_GATE_GANG : Fld := ⟨.PWR_GATE, 10, 1⟩
@[reducible] def PWR_GATE_OP : Fld := ⟨.PWR_GATE, 11, 1⟩
@[reducible] def PWR_GATE_GO : Fld := ⟨.PWR_GATE, 12, 1⟩
@[reducible] def PWR_GATE_STAT_BUSY : Fld := ⟨.PWR_GATE_STAT, 0, 1⟩
@[reducible] def PWR_GATE_STAT_ERR : Fld := ⟨.PWR_GATE_STAT, 1, 2⟩
@[reducible] def PWR_DSTAT_STATE : Fld := ⟨.PWR_DSTAT, 0, 2⟩
@[reducible] def EQ_CTL_PORT : Fld := ⟨.EQ_CTL, 0, 12⟩
@[reducible] def EQ_CTL_UCIE : Fld := ⟨.EQ_CTL, 12, 8⟩
@[reducible] def UCIE_STAT_STATE : Fld := ⟨.UCIE_STAT, 0, 4⟩
@[reducible] def UCIE_STAT_SLOW : Fld := ⟨.UCIE_STAT, 4, 1⟩
@[reducible] def DROOP_CTL_MARGIN : Fld := ⟨.DROOP_CTL, 0, 4⟩
@[reducible] def DROOP_CTL_TRIM_COUNT : Fld := ⟨.DROOP_CTL, 8, 8⟩
@[reducible] def DROOP_CNT_DETECT : Fld := ⟨.DROOP_CNT, 0, 32⟩
@[reducible] def DROOP_CNT_TRIMS : Fld := ⟨.DROOP_CNT, 32, 16⟩
@[reducible] def DROOP_CNT_STEPS : Fld := ⟨.DROOP_CNT, 48, 4⟩
@[reducible] def TAL_CTL_EN : Fld := ⟨.TAL_CTL, 0, 1⟩
@[reducible] def TAL_CTL_LEDGER : Fld := ⟨.TAL_CTL, 1, 1⟩
@[reducible] def TAL_CTL_RESET_CMD : Fld := ⟨.TAL_CTL, 2, 1⟩
@[reducible] def TAL_CTL_SAMPLE_ON_RESET : Fld := ⟨.TAL_CTL, 3, 1⟩
@[reducible] def TAL_CTL_USER : Fld := ⟨.TAL_CTL, 4, 1⟩
@[reducible] def TAL_CTL_OVF_IRQ : Fld := ⟨.TAL_CTL, 5, 1⟩
@[reducible] def TAL_CTL_OVF : Fld := ⟨.TAL_CTL, 8, 8⟩
@[reducible] def TAL_CYC_COUNT : Fld := ⟨.TAL_CYC, 0, 64⟩
@[reducible] def TAL_SMP_EN : Fld := ⟨.TAL_SMP, 0, 1⟩
@[reducible] def TAL_SMP_JITTER : Fld := ⟨.TAL_SMP, 4, 4⟩
@[reducible] def TAL_SMP_PERIOD : Fld := ⟨.TAL_SMP, 8, 24⟩
@[reducible] def TAL_SEL_EVENT : Fld := ⟨.TAL_SEL, 0, 12⟩
@[reducible] def TAL_SEL_EDGE : Fld := ⟨.TAL_SEL, 12, 1⟩
@[reducible] def TAL_SEL_CTX : Fld := ⟨.TAL_SEL, 16, 6⟩
@[reducible] def TAL_SEL_CTX_EN : Fld := ⟨.TAL_SEL, 22, 1⟩
@[reducible] def TAL_SEL_PORTS : Fld := ⟨.TAL_SEL, 24, 4⟩
@[reducible] def TAL_SEL_CLASS : Fld := ⟨.TAL_SEL, 32, 8⟩
@[reducible] def TAL_CNT_VALUE : Fld := ⟨.TAL_CNT, 0, 48⟩
@[reducible] def TAL_CNT_WRAP : Fld := ⟨.TAL_CNT, 48, 16⟩
@[reducible] def TAL_GLOBAL_SHARED : Fld := ⟨.TAL_GLOBAL, 0, 1⟩
@[reducible] def LED_CFG_EN : Fld := ⟨.LED_CFG, 0, 1⟩
@[reducible] def LED_CFG_MODE : Fld := ⟨.LED_CFG, 1, 2⟩
@[reducible] def LED_CFG_CTX : Fld := ⟨.LED_CFG, 4, 6⟩
@[reducible] def LED_CFG_SIZE_LOG : Fld := ⟨.LED_CFG, 16, 5⟩
@[reducible] def LED_CFG_WM_LOG : Fld := ⟨.LED_CFG, 24, 4⟩
@[reducible] def LED_CFG_POST : Fld := ⟨.LED_CFG, 32, 32⟩
@[reducible] def LED_BASE_BASE : Fld := ⟨.LED_BASE, 16, 30⟩
@[reducible] def LED_INT_PERIOD_NS : Fld := ⟨.LED_INT, 0, 32⟩
@[reducible] def LED_START_STAMP : Fld := ⟨.LED_START, 0, 64⟩
@[reducible] def LED_END_STAMP : Fld := ⟨.LED_END, 0, 64⟩
@[reducible] def LED_TRIG_FIRE : Fld := ⟨.LED_TRIG, 0, 1⟩
@[reducible] def LED_TRIG_ARM : Fld := ⟨.LED_TRIG, 1, 1⟩
@[reducible] def LED_TRIG_ARMED : Fld := ⟨.LED_TRIG, 2, 1⟩
@[reducible] def LED_TRIG_FIRED : Fld := ⟨.LED_TRIG, 3, 1⟩
@[reducible] def LED_TRIG_SRC : Fld := ⟨.LED_TRIG, 4, 2⟩
@[reducible] def LED_TRIG_CTR : Fld := ⟨.LED_TRIG, 8, 3⟩
@[reducible] def LED_TRIG_SET : Fld := ⟨.LED_TRIG, 16, 8⟩
@[reducible] def LED_PTR_HEAD : Fld := ⟨.LED_PTR, 0, 32⟩
@[reducible] def LED_PTR_FULL : Fld := ⟨.LED_PTR, 32, 1⟩
@[reducible] def LED_PTR_DONE : Fld := ⟨.LED_PTR, 33, 1⟩
@[reducible] def LED_PTR_BUSY : Fld := ⟨.LED_PTR, 34, 1⟩
@[reducible] def LED_STAT_DROPPED : Fld := ⟨.LED_STAT, 0, 32⟩
@[reducible] def LED_STAT_ERR : Fld := ⟨.LED_STAT, 32, 1⟩
@[reducible] def LED_TAGQ_SWQ : Fld := ⟨.LED_TAGQ, 0, 12⟩
@[reducible] def LED_TAGQ_EN : Fld := ⟨.LED_TAGQ, 12, 1⟩
@[reducible] def DBG_ATTACH_EN : Fld := ⟨.DBG_ATTACH, 0, 1⟩
@[reducible] def DBG_ATTACH_HALT_TRAP : Fld := ⟨.DBG_ATTACH, 1, 1⟩
@[reducible] def DBG_ATTACH_ORIGIN : Fld := ⟨.DBG_ATTACH, 2, 1⟩
@[reducible] def DBG_ATTACH_BP_EN : Fld := ⟨.DBG_ATTACH, 8, 8⟩
@[reducible] def DBG_ATTACH_WP_EN : Fld := ⟨.DBG_ATTACH, 16, 4⟩
@[reducible] def DBG_BP_PC : Fld := ⟨.DBG_BP, 0, 57⟩
@[reducible] def DBG_WP_VA : Fld := ⟨.DBG_WP, 0, 57⟩
@[reducible] def DBG_WP_SIZE_LOG : Fld := ⟨.DBG_WP, 57, 4⟩
@[reducible] def DBG_WP_R : Fld := ⟨.DBG_WP, 61, 1⟩
@[reducible] def DBG_WP_W : Fld := ⟨.DBG_WP, 62, 1⟩
@[reducible] def DBG_HALT_CORE : Fld := ⟨.DBG_HALT, 0, 9⟩
@[reducible] def DBG_HALT_SLOT : Fld := ⟨.DBG_HALT, 9, 6⟩
@[reducible] def DBG_HALT_CTX : Fld := ⟨.DBG_HALT, 16, 6⟩
@[reducible] def DBG_HALT_OP : Fld := ⟨.DBG_HALT, 22, 3⟩
@[reducible] def DBG_SEL_CORE : Fld := ⟨.DBG_SEL, 0, 9⟩
@[reducible] def DBG_SEL_SLOT : Fld := ⟨.DBG_SEL, 9, 6⟩
@[reducible] def DBG_SEL_LANE : Fld := ⟨.DBG_SEL, 15, 5⟩
@[reducible] def DBG_SEL_KIND : Fld := ⟨.DBG_SEL, 20, 3⟩
@[reducible] def DBG_SEL_INDEX : Fld := ⟨.DBG_SEL, 23, 16⟩
@[reducible] def DBG_DATA_DATA : Fld := ⟨.DBG_DATA, 0, 64⟩
@[reducible] def DBG_STAT_ERR : Fld := ⟨.DBG_STAT, 0, 3⟩
@[reducible] def DBG_STAT_VALID : Fld := ⟨.DBG_STAT, 3, 1⟩
@[reducible] def DBG_EVT_KIND : Fld := ⟨.DBG_EVT, 0, 3⟩
@[reducible] def DBG_EVT_PENDING : Fld := ⟨.DBG_EVT, 3, 1⟩
@[reducible] def DBG_EVT_REGROUP_SKIP : Fld := ⟨.DBG_EVT, 4, 1⟩
@[reducible] def DBG_EVT_CORE : Fld := ⟨.DBG_EVT, 8, 9⟩
@[reducible] def DBG_EVT_SLOT : Fld := ⟨.DBG_EVT, 17, 6⟩
@[reducible] def DBG_EVT_VALID : Fld := ⟨.DBG_EVT, 23, 1⟩
@[reducible] def DBG_EVT_AUX : Fld := ⟨.DBG_EVT, 24, 8⟩
@[reducible] def DBG_EVT_LOST : Fld := ⟨.DBG_EVT, 32, 16⟩
@[reducible] def DBG_EVT_PC_PC : Fld := ⟨.DBG_EVT_PC, 0, 57⟩
@[reducible] def DBG_LOCK_STATE : Fld := ⟨.DBG_LOCK, 0, 2⟩
@[reducible] def DBG_LOCK_FAILS : Fld := ⟨.DBG_LOCK, 2, 2⟩
@[reducible] def DBG_LOCK_SUBMIT : Fld := ⟨.DBG_LOCK, 4, 1⟩
@[reducible] def DBG_LOCK_RELOCK : Fld := ⟨.DBG_LOCK, 5, 1⟩
@[reducible] def DBG_LOCK_PMASK : Fld := ⟨.DBG_LOCK, 16, 16⟩
@[reducible] def DBG_LOCK_FULL : Fld := ⟨.DBG_LOCK, 32, 1⟩
@[reducible] def DBG_CHAL_NONCE : Fld := ⟨.DBG_CHAL, 0, 64⟩
@[reducible] def DBG_TOK_TOKEN : Fld := ⟨.DBG_TOK, 0, 64⟩
@[reducible] def SEC_FW_STATE : Fld := ⟨.SEC_FW, 0, 2⟩
@[reducible] def SEC_FW_PENDING : Fld := ⟨.SEC_FW, 2, 1⟩
@[reducible] def SEC_FW_KEYS_OK : Fld := ⟨.SEC_FW, 3, 1⟩
@[reducible] def SEC_FW_FABKEY_OK : Fld := ⟨.SEC_FW, 4, 1⟩
@[reducible] def SEC_FW_SVN : Fld := ⟨.SEC_FW, 32, 32⟩
@[reducible] def SEC_FW_MIN_SVN_MIN : Fld := ⟨.SEC_FW_MIN, 0, 32⟩
@[reducible] def SEC_FW_VER_VERSION : Fld := ⟨.SEC_FW_VER, 0, 64⟩
@[reducible] def SEC_DEVID_ID : Fld := ⟨.SEC_DEVID, 0, 64⟩
@[reducible] def SEC_KEYHASH_HASH : Fld := ⟨.SEC_KEYHASH, 0, 64⟩
@[reducible] def SEC_CAL_VALID : Fld := ⟨.SEC_CAL, 0, 1⟩
@[reducible] def SEC_CAL_SOURCE : Fld := ⟨.SEC_CAL, 1, 2⟩

end F

end Sys2Proof.Machine
end

