-- ==== Sys2Proof/Machine/State.lean ====
section
/-! DEFINITION. The state of the block as plain data: the register aperture, memory, and one record per chapter of the
spec. `State.reset` is the module under module reset (18_reset.md R366, R368): power good, MOD_RESET_N asserted. -/

namespace Sys2Proof.Machine

open Sys2Proof

/-- Reasons a step stops. -/
inductive Fault where
  /-- Raised by a host read or write that is delivered and names a device physical address at or above 0x012A_05F2_0000, which
  Table 11.1 of 11_translation.md (R228) reserves: the address does not exist, and no rule gives such an access an effect. Safe. -/
  | reservedAddress
  deriving DecidableEq, Repr

/-- Reasons a command has no meaning. -/
inductive Refusal where
  /-- The arm of `exec` for a row not modelled yet, under its mnemonic. Safe. -/
  | notModelled (mnemonic : String)
  deriving DecidableEq, Repr

/-- A register instance: first and second index (24_register_index.md R467). -/
structure RegKey where
  reg : Reg
  i : Nat
  j : Nat
  deriving DecidableEq, Repr

/-- Poison kind of a line (08_berim_stacks.md R167). -/
inductive Poison where
  | none | poison | lost
  deriving DecidableEq, Repr

/-- What a 128 B line is stored with besides its data: its poison kind, and the serial of the key that wrote it
(08_berim_stacks.md R167, R178). -/
structure LineMeta where
  poison : Poison
  wser : Nat
  deriving DecidableEq, Repr

/-- What the block sends to the outside: messages and answers, newest last. `via` is the UCIe host module that carries one; an HTU
request leaves by its die's (01_five_levels.md R20). -/
inductive Out where
  | level (target : Nat) (high : Bool) (via : Option Nat)
  | hostData (mod pa : Nat) (data : List Byte) (pk : Poison)
  | hostAck (mod pa : Nat) (error : Bool)
  | regData (src : Src) (val : W64)
  | claimed (target src : Nat)
  | htuRequest (die ctx pasid page : Nat) (write : Bool)
  | htuInvDone (tag : Nat)
  | htuAtomic (via host : Nat)
  | flit (port : Nat) (flit : BitVec 2048)
  | debug (ack : Nat) (val : W64)
  | mgmt (code : Nat) (body : List Byte)
  | i3cIbi
  deriving DecidableEq, Repr

/-! ### Interrupts (15_interrupts.md) -/

/-- Interrupt controller state beside its registers: set island latches (R317), staged low halves (R310), the request level
last sent to each target (R313), and the sources cleared while active, with the former claimer whose EOI is silent (R311). -/
structure IntSt where
  latch : List Nat
  staged : List (Nat × W64)
  high : BitVec 128
  dropped : List (Nat × Nat)
  deriving DecidableEq, Repr

/-! ### The folio (02_folio.md) -/

/-- A PART_DEF payload, Table 2.3 (R39). -/
structure PartDef where
  permit : BitVec 128
  dflt : BitVec 128
  arith : Byte
  group : Nat
  deriving DecidableEq, Repr

/-- The structure a folio defines (R37-R44): cluster map, partition definitions, (SHARE, MIN, MAX) by class and
partition, (default, permitted) masks by partition and class, victim counts, nonzero routes, gang entries. -/
structure Folio where
  clusters : List Nat
  defs : List (Nat × PartDef)
  qos : List (List (Nat × Nat × Nat))
  ways : List (Nat × List (BitVec 16 × BitVec 16))
  victim : List Nat
  route : List (Nat × BitVec 12)
  gang : List (Nat × Nat × Nat)
  svn : Nat
  raise : Bool
  ident : List Byte
  deriving DecidableEq, Repr

/-- Folio state: the folio in force, K0's private image, the accepted folio that waits for its switch, FORCE and PERSIST as the
load latched them, the clusters quarantined before the load (R55), the warden's two slots (an empty one cannot be read), which
of them boots (R52), the recorded minimum SVN, and the stepping as CAP.STEP encodes it. -/
structure FolioSt where
  cur : Folio
  img : List Byte
  next : Option Folio
  force : Bool
  persist : Bool
  quarAt : List Nat
  slot0 : List Byte
  slot1 : List Byte
  boot : Option Bool
  svnMin : Nat
  step : Nat
  deriving DecidableEq, Repr

/-! ### Contexts, objects and graphs (12_shared_objects.md) -/

/-- A context slot that is not FREE (R254-R256): next submission number, release point, and whether its deferral or
destruction ends in FREE. -/
structure Ctx where
  part : Nat
  next : Nat
  rel : Option Nat
  relIrq : Bool
  deriving DecidableEq, Repr

/-- An operation in K0's queue (R252). -/
structure ObjOp where
  seq : Nat
  typ : Nat
  op : Nat
  irq : Bool
  ctx : Nat
  index : Nat
  gen : Nat
  arg : Nat
  deriving DecidableEq, Repr

/-- A version of a graph slot (R263-R266): number, packets, edges, submission number at which it became current and the one at
which it ceased to be, the objects it holds, and the nodes whose objects did not bind. -/
structure GVer where
  ver : Nat
  nodes : List (List Byte)
  edges : List (Nat × Nat)
  start : Nat
  stop : Option Nat
  refs : List (ObjKind × Nat)
  nobind : List Nat
  deriving DecidableEq, Repr

/-- A graph slot in use: versions oldest first; `released` after its RELEASE (R266). -/
structure Graph where
  ctx : Nat
  vers : List GVer
  released : Bool
  irq : Bool
  deriving DecidableEq, Repr

/-! ### Commands and queues (13_command_submission.md) -/

/-- A stocktake in progress: SWQ_PAIR of the enabled pairs as it stood when the stocktake fell due, and whether the holds of their
notes have gone to the owning units (14_synchronisation.md R305, R306). -/
structure Taking where
  pairs : List (Nat × W64)
  asked : Bool
  deriving DecidableEq, Repr

/-- A software queue (R271, Table 13.1), beside its registers. `tail` is T of R273; `elig` its place in the mapping order
while it is eligible and unmapped; `since` the commands started since mapping (R274); `taking` a stocktake in progress. -/
structure Swq where
  ctx : Nat
  ringVa : Nat
  cmplVa : Nat
  stockUs : Nat
  ringLog : Nat
  cmplLog : Nat
  die : Nat
  prio : Nat
  devEnq : Bool
  tail : Nat
  elig : Option Nat
  since : Nat
  taking : Option Taking
  rel : Option Nat
  relIrq : Bool
  deriving DecidableEq, Repr

/-- How far a command has come (R277, R278). `ending` has finished or was aborted and waits for its record. -/
inductive CmdPh where
  | unparsed | parsed | started | ending
  deriving DecidableEq, Repr

/-- A WAIT at its owning unit (14_synchronisation.md R300, R301); `saved` with its context (R307). -/
inductive WaitPh where
  | idle | registering | registered | satisfied (status : Nat) | withdrawing | saved | done
  deriving DecidableEq, Repr

/-- A command (R255, R276-R286). `pre` is the status with which it completes at its start without running; `fail` the first
failing condition recorded (R286); `refs` the objects it holds; `blocks` placed, `ended` ended, `again` lost and to place
again (17_fault_tolerance.md R352); `done` its own work is over; `noRing` the HTU refused its record's place
(R288); `replay` its queue declared it replayable when it started (R352); `began` it has started; `turn` when a block of it was
placed last (R275); `pos` how far its engine has got, `outs` the serials of that engine's writes that no home has acknowledged
(04_memory_model.md R97), `sent` whether it has sent its last. -/
structure Cmd where
  q : Nat
  pkt : List Byte
  ph : CmdPh
  refs : List (ObjKind × Nat)
  gver : Option (Nat × Nat)
  pre : Option Nat
  fail : Option Nat
  replayed : Bool
  blocks : Nat
  ended : Nat
  again : List Nat
  replays : List (Nat × Nat)
  noMore : Bool
  trapped : Bool
  wait : WaitPh
  sig : Bool
  done : Bool
  strict : Bool
  sat : Bool
  mxfp4 : Bool
  noRing : Bool
  replay : Bool
  xfer : Option Nat
  began : Bool
  turn : Nat
  pos : Nat
  outs : List Nat
  sent : Bool
  deriving DecidableEq, Repr

/-- Command state: queues, commands, the counter that orders eligibility (R274), and by context and number the opcode, status
and queue of the commands that have completed (for the header of a late capture, 21_debug.md R428). -/
structure CmdSt where
  swqs : List (Nat × Swq)
  cmds : List (CmdId × Cmd)
  order : Nat
  past : List ((Nat × Nat) × (Nat × Nat × Nat))
  deriving DecidableEq, Repr

/-! ### Fences, notes and the stocktake (14_synchronisation.md) -/

/-- An operation waiting at an owning unit (R294). A hold of a queue's stocktake stays first until the stocktake ends; a
destruction stays until its object is freed, and `applied` once it has had its effect. An arming sets a watcher's condition.
-/
inductive SyncOp where
  | signal (note : Bool) (idx : Nat) (v : Nat) (cmd : CmdId)
  | host (note : Bool) (idx : Nat) (v : Nat)
  | register (note : Bool) (idx : Nat) (v : Nat) (cmd : CmdId)
  | withdraw (note : Bool) (idx : Nat) (cmd : CmdId)
  | hold (idx : Nat) (q : Nat)
  | destroy (note : Bool) (idx : Nat) (applied : Bool)
  | arm (note : Bool) (idx : Nat) (v : Nat) (w : Nat)
  deriving DecidableEq, Repr

/-- A created timeline or note (its value is its register's): owner and release point. -/
structure SyncObj where
  ctx : Nat
  rel : Option Nat
  relIrq : Bool
  deriving DecidableEq, Repr

/-- A registered waiter, in order of registration: object, amount, command, die of its wait table (R298, R300). -/
structure Waiter where
  note : Bool
  idx : Nat
  v : Nat
  cmd : CmdId
  die : Nat
  deriving DecidableEq, Repr

/-- Synchronisation state. `ops` is each owning unit's queue, `waiters` the registered waits, oldest first; `armed` the
conditions of armed watchers as ARM took them (note, index, value), `firing` the watchers whose condition holds, with whether
it was terminal (R303); `saved` the waits of saved contexts. -/
structure SyncSt where
  tls : List (Nat × SyncObj)
  notes : List (Nat × SyncObj)
  ops : List (Nat × SyncOp)
  waiters : List Waiter
  armed : List (Nat × (Bool × Nat × Nat))
  firing : List (Nat × Bool)
  saved : List Waiter
  deriving DecidableEq, Repr

/-! ### Threads (03_thread_execution.md) -/

/-- Kinds of mask-stack entry (R67). -/
inductive SKind where
  | sync | pend | lock
  deriving DecidableEq, Repr

/-- A mask-stack entry; `pset` and `scope` are a LOCK entry's pending set and scope (R77). -/
structure SEntry where
  kind : SKind
  mask : Mask
  pc : Pc
  pset : Mask
  scope : Scope
  deriving DecidableEq, Repr

/-- Why a group is not ready (R72, R73, R77, R81, 05_matrix_engines.md R116). `mem` waits on an LKG operation or a QENQ. -/
inductive GWait where
  | ready
  | bar (id : Nat)
  | cbar (id : Nat)
  | regroup (pc : Pc) (order : Nat) (w : Nat)
  | backoff (len : Nat)
  | mwait (m0 m1 : Bool) (upto : Nat)
  | repack
  | mem
  deriving DecidableEq, Repr

/-- A group slot in use. `wait` is why it is not ready, `lastLen` the last backoff. `halt` is 0 while it runs, else why a
debugger holds it: 1 HALT, 2 STEP, 3 BREAK, 4 WATCH, 5 a trap (21_debug.md R420-R424); `bpSkip`: the PC at which its next
issue matches no breakpoint; `stepping` 1 before and 2 after a stepped issue (3: a skipped REGROUP); `evt` a HALTED event
owed: 1 the first, 2 the one after PENDING. `pfails` counts the pipeline parity failures of the instruction at PC; `gone`:
emptied by a regroup; `irt` is its row of the IRT (R80); `preds` and `rg` belong to the threads whose home slot this is. -/
structure Group where
  bid : Nat
  ogrp : Nat
  pc : Pc
  live : Mask
  active : Mask
  stack : List SEntry
  pages : List Nat
  wait : GWait
  halt : Nat
  lastLen : Nat
  bpSkip : Option Pc
  stepping : Nat
  evt : Nat
  pfails : Nat
  gone : Bool
  irt : List Nat
  preds : List (BitVec 16)
  rg : List Nat
  deriving DecidableEq, Repr

/-- A resident block (R60, R62, R84): its launch, index, core, slots in group order, scratch granules in order, engines
held, cohort (cluster, number), whether scratch is zeroed, and whether a trap halts it. -/
structure Block where
  cmd : CmdId
  index : Nat
  core : Nat
  slots : List Nat
  gran : List Nat
  m0 : Bool
  m1 : Bool
  cohort : Option (Nat × Nat)
  zeroed : Bool
  trapped : Bool
  deriving DecidableEq, Repr

/-- A 32-bit register of one lane of a page (R59). -/
structure RfKey where
  core : Nat
  page : Nat
  reg : Nat
  lane : Nat
  deriving DecidableEq, Repr

/-- Operation of an access of the load/store unit. -/
inductive AccOp where
  | ld | st
  | atom (op : Nat) (ty : AtomTy)
  | red (op : RedOp) (ty : RedTy)
  | lock | unlock | fence
  deriving DecidableEq, Repr

/-- Where one lane's access stands: to be translated and performed, waiting on a quire, stalled on a full blotter with the
cause and level of its fault, sent on as a message of level B for a line, or done with a value (11_translation.md R244,
R249). -/
inductive LanePh where
  | need | quire (n cause : Nat) | stalled (cause level : Nat) | sent (line : Nat) | done (v : Nat)
  deriving DecidableEq, Repr

/-- One lane's access; `home` is the slot whose pages hold the lane's registers (R80); `half` is 1 for the upper 8 bytes of a
16-byte access, which is two accesses (04_memory_model.md R88). -/
structure LaneAcc where
  lane : Nat
  home : Nat
  half : Nat
  va : Nat
  a : Nat
  b : Nat
  ph : LanePh
  deriving DecidableEq, Repr

/-- An access in flight of a group: its order among all accesses, operation, scope, ordering, destination register
(256: none), width of each lane's access, space, the worst poison kind an access of it met (13_command_submission.md R286), and
its lanes. -/
structure MemOp where
  ser : Nat
  g : Gid
  cmd : CmdId
  bid : Nat
  op : AccOp
  sc : Scope
  acq : Bool
  rel : Bool
  rd : Nat
  size : Nat
  sp : Space
  bad : Poison
  lanes : List LaneAcc
  deriving DecidableEq, Repr

/-- Arbitration pointers of a core (R63-R65, 09_caches.md R194); `refused`: slots whose group the load/store unit has refused. -/
structure CorePtr where
  ports : List Nat
  lsu : Nat
  mx : List Nat
  path : Nat
  refused : List Nat
  deriving DecidableEq, Repr

/-- A store stream of a core (09_caches.md R200): next line, lines so far, order of last extension. -/
structure Stream where
  next : Nat
  len : Nat
  last : Nat
  deriving DecidableEq, Repr

/-- Thread state: slots, blocks by serial, registers, scratch bytes (core x 2^20 + byte of the local store), accesses in
flight, pointers, streams; `serial` numbers blocks, accesses and arrivals. -/
structure ThrSt where
  groups : List (Gid × Group)
  blocks : List (Nat × Block)
  rf : List (RfKey × W32)
  scr : List (Nat × Byte)
  ops : List MemOp
  ptrs : List (Nat × CorePtr)
  streams : List (Nat × List Stream)
  serial : Nat
  deriving DecidableEq, Repr

/-! ### Matrix engines (05_matrix_engines.md) -/

/-- A tile descriptor, Table 5.2. -/
structure TDesc where
  scr : Bool
  base : Nat
  stride : Nat
  rows : Nat
  cols : Nat
  fmt : Nat
  scaled : Bool
  sscr : Bool
  sbase : Nat
  sstride : Nat
  deriving DecidableEq, Repr

/-- Matrix instructions, Table 5.3. `mma` has the split (0, 3 or 6) and whether it accumulates. -/
inductive MxOp where
  | lds (sh : Nat) (d : TDesc)
  | mma (acc : Bool) (split : Nat) (t sh : Nat) (d : TDesc)
  | ldc (t : Nat) (d : TDesc)
  | stc (t : Nat) (d : TDesc)
  | ew (op : Nat) (ty : MewTy) (t u : Nat) (s b : W32) (d : TDesc)
  deriving DecidableEq, Repr

/-- An accepted instruction: serial, group, launch. -/
structure MxIns where
  ser : Nat
  g : Gid
  cmd : CmdId
  bid : Nat
  op : MxOp
  deriving DecidableEq, Repr

/-- A shadow slot (R103, R109): runs of bytes and scale bytes; `fmt` none is an empty slot. -/
structure MxSlot where
  fmt : Option Nat
  rows : Nat
  cols : Nat
  runs : List (List Byte)
  scales : List (List Byte)
  poison : Bool
  deriving DecidableEq, Repr

/-- An MMA in the array pipe: the stationary it committed, the A rows that have entered the array and are not added yet (row,
element bytes, scale bytes), advances made, rows added, whether its pass has been repeated (R126), and the marks of what it has
read (R125). -/
structure MxRun where
  ins : MxIns
  cells : MxSlot
  rows : List (Nat × List Byte × List Byte)
  advanced : Nat
  added : List Nat
  again : Bool
  poison : Bool
  deriving DecidableEq, Repr

/-- One matrix engine that a block holds: its queue, the instructions in its pipes (those of the array oldest first), and the
accumulator memory by element index 1024 t + 32 i + j, an unlisted element being zero. `got` holds the lines that the instruction
in progress of a pipe has obtained from the cluster cache, or written to it. -/
structure Engine where
  bid : Nat
  queue : List MxIns
  feeder : Option MxIns
  array : List MxRun
  side : Option MxIns
  acc : List (Nat × W32)
  marks : List Nat
  slot0 : MxSlot
  slot1 : MxSlot
  got : List (Pipe × List Nat)
  deriving DecidableEq, Repr

/-- Key of an engine. -/
structure MxKey where
  core : Nat
  mx : Nat
  deriving DecidableEq, Repr

/-- Matrix state. `level` is the ramp level in quarters of the engines whose array is not gated (R123); `calm` the ramp steps
for which a droop still keeps an engine's level from rising (19_power_and_clocks.md R393); `made` the advances and dummy
operations of the ramp step in progress (Table 5.7). -/
structure MxSt where
  eng : List (MxKey × Engine)
  level : List (MxKey × Nat)
  calm : List (MxKey × Nat)
  made : List (MxKey × Nat)
  deriving DecidableEq, Repr

/-! ### Contexts saved (12_shared_objects.md R258), and object state -/

/-- A saved block: its serial, record, groups, register values by (slot, page position, register, lane), scratch bytes by
offset, accesses in flight, engines (R258, 05_matrix_engines.md R127). -/
structure SavedBlk where
  bid : Nat
  blk : Block
  groups : List Group
  regs : List (RfKey × W32)
  scr : List (Nat × Byte)
  ops : List MemOp
  engs : List (Nat × Engine)
  deriving DecidableEq, Repr

/-- Object state beside the registers and the memory-object table in memory. `busy` is set while the effect of the first
operation is in progress; `mos` are the memory objects that are not FREE, `relIrq` those released with IRQ; `saved` the
resident blocks of saved contexts; `saving` are the contexts whose save is in progress, `restoring` those that the snapshot engine
restores (17_fault_tolerance.md R359). -/
structure ObjSt where
  ctxs : List (Nat × Ctx)
  ops : List ObjOp
  busy : Bool
  mos : List Nat
  relIrq : List Nat
  graphs : List (Nat × Graph)
  saved : List (Nat × SavedBlk)
  saving : List Nat
  restoring : List Nat
  deriving DecidableEq, Repr

/-! ### Stacks (08_berim_stacks.md) -/

/-- A line of a combine buffer (R184), under its line number, in order of use. -/
structure Comb where
  line : Nat
  key : Nat
  deriving DecidableEq, Repr

/-- An accumulate-on-write on its way to a reduction unit (R179-R185). -/
structure RedUpd where
  line : Nat
  off : Nat
  op : RedOp
  ty : RedTy
  v : W32
  key : Nat
  strict : Bool
  cmd : Option CmdId
  deriving DecidableEq, Repr

/-- Stack state: serial of each of the 17 keys, pending and persistent retirement lists, stacks whose persistent list has
overflowed (R172), sectors corrected per granule since module reset (stack, granule, sector), level to take effect at the next
refresh command, combine buffers, updates queued at reduction units. -/
structure StkSt where
  keys : List Nat
  keyNext : Nat
  pend : List (Nat × Nat)
  retired : List (Nat × Nat)
  full : List Nat
  fixed : List (Nat × Nat × Nat)
  nextLevel : List (Nat × Nat)
  comb : List Comb
  upd : List RedUpd
  deriving DecidableEq, Repr

/-! ### Caches and coherence (09_caches.md, 10_coherence.md) -/

/-- Level-A states of an L1 line (10 R208). -/
inductive ASt where
  | I | S | Z | E | M | IR | IM | SM | WI
  deriving DecidableEq, Repr

/-- Level-B states of a cluster-cache line (10 R215). -/
inductive BSt where
  | I | S | O | ISb | IXb | SXb | OIb
  deriving DecidableEq, Repr

/-- A unit and a line: a core's or a cluster's. -/
structure UL where
  unit : Nat
  line : Nat
  deriving DecidableEq, Repr

/-- An L1 line: state, way, NRU bit, in state Z the stale data it serves (10 R211), a streaming fill, and a line whose fill's own
access has not used it yet (09 R191). -/
structure L1Line where
  st : ASt
  way : Nat
  nru : Bool
  old : Option Line
  stream : Bool
  fresh : Bool
  deriving DecidableEq, Repr

/-- Level-A requests and Rdata, L1 to cluster cache (10 Table 10.1). -/
inductive AReq where
  | getS | getM | upg | putE | putM
  deriving DecidableEq, Repr

/-- Level-A messages, cluster cache to L1. -/
inductive AMsg where
  | dataS | dataE | dataM | grant | putAck | inv | recall | down
  deriving DecidableEq, Repr

/-- Snoops (10 Table 10.5) with the receiver of a forward (84: the home). -/
inductive Snoop where
  | inv | fwdS | fwdX | rcl
  deriving DecidableEq, Repr

/-- What a cluster-cache line waits for while it handles a request (10 R212). -/
inductive CcWait where
  | none | down | recall | levelB
  deriving DecidableEq, Repr

/-- A cluster-cache line: level-B state, modified, presence mask, E/M owner, way, age, class, the request in hand with its
core, what it waits for, a snoop that waits on an Rdata with its receiver, a place in the victim cache, the poison kind of its
data (09 R193), the data it holds while its L1 owner's is newer (05_matrix_engines.md R115), and whether an agent asked for it
and has not used it yet. -/
structure CcLine where
  st : BSt
  dirty : Bool
  pres : BitVec 8
  own : Option Nat
  way : Nat
  age : Nat
  cls : Nat
  cur : Option (Nat × AReq)
  wait : CcWait
  snoop : Option (Snoop × Nat)
  victim : Bool
  pk : Poison
  stale : Option Line
  fresh : Bool
  deriving DecidableEq, Repr

/-- Level-B requests to a home (10 Table 10.5). -/
inductive BReq where
  | rdS | rdX | upX | rdN | wrF | wrP | redU
  deriving DecidableEq, Repr

/-- A level-B request message: requester, line, class, whether it carries a credit, and what it brings: key, the bytes of a
write or a read by mask, data, updates, the access it serves (serial of a `MemOp`, of an engine's write; 0: none), and the
poison kind of the data written (08_berim_stacks.md R469). -/
structure BMsg where
  req : BReq
  r : Nat
  line : Nat
  cls : Nat
  credit : Bool
  key : Nat
  mask : BitVec 128
  data : Line
  upd : List RedUpd
  op : Nat
  pk : Poison
  deriving DecidableEq, Repr

/-- A host access that has arrived on a UCIe host module and not begun: a register write, or a line request of a memory
access (18_reset.md R373; 04_memory_model.md R98). -/
inductive HeldOp where
  | reg (off bytes : Nat) (val : W64)
  | mem (m : BMsg)
  deriving DecidableEq, Repr

/-- The accesses of all modules, in order of arrival. -/
structure HeldAcc where
  mod : Nat
  op : HeldOp
  deriving DecidableEq, Repr

/-- Level-B messages other than requests, in flight in no order (10 R215). -/
inductive BNote where
  | wbM (c line : Nat)
  | done (r line : Nat)
  | datS (c line : Nat) (pk : Poison) | datX (c line : Nat) (pk : Poison) | gntX (c line : Nat) (pk : Poison)
  | fwdS (c line : Nat) (pk : Poison) | fwdX (c line : Nat) (pk : Poison)
  | rdData (r line : Nat) (pk : Poison) (pa : Nat) (data : List Byte)
  | wrAck (r line : Nat) (pk : Poison) (op : Nat)
  | wbAck (c line : Nat)
  | retry (m : BMsg) (home : Nat) | crGnt (r home : Nat)
  | sn (k : Snoop) (c line rcv : Nat)
  | snAck (c line : Nat) | snAckD (c line : Nat) (pk : Poison) | snMiss (c line : Nat) | snWb (c line : Nat)
  deriving DecidableEq, Repr

/-- A directory entry (10 R216): sharers, or owner. -/
structure Dir where
  sharers : BitVec 64
  own : Option Nat
  ctl : Bool
  nru : Bool
  deriving DecidableEq, Repr

/-- A transaction at a home (10 R217): the request, its tracker entry (256: none), the clusters whose reply is awaited with
their snoop, from whom a Done is awaited, whether the request has been answered, whether it restarts once the owner's WbM
arrives, an eviction of a directory entry (10 R216), a requester that died, a line lost to a dead agent (10 R226). -/
structure Txn where
  msg : BMsg
  trk : Nat
  snoops : List (Nat × Snoop)
  needDone : Option Nat
  replied : Bool
  again : Bool
  evict : Bool
  gone : Bool
  lost : Bool
  deriving DecidableEq, Repr

/-- Caches and coherence state. `aq` is each core's requests to its cluster cache; `ar` the Rdata in flight with the dirty
flag; `am` the channel to each core; `bq` requests to homes; `bn` the other level-B messages; `queued` accepted requests that
wait for a line; `credq` the homes' credit queues (home, requester); `aside` tracker entries set aside (home, requester,
entry); `want` requests held under Retry; `held` the WbM a home holds (cluster, line); `reclaim` reclaims in progress (home,
agent); `late` replies to be discarded (holder, line); `vc` the victim-cache entries of all clusters, oldest first; `flush`
clusters whose lines are being written back (09 R205); `cred` credits that overtook their Retry (requester, home); `vwait`
fills that wait on a full allotment (cluster, line); `orphans` engine writes that wait until a cluster returns to service (09
R196). -/
structure CohSt where
  l1 : List (UL × L1Line)
  cc : List (UL × CcLine)
  aq : List (Nat × Nat × AReq)
  ar : List (Nat × Nat × Bool)
  am : List (Nat × Nat × AMsg)
  bq : List BMsg
  bn : List BNote
  dir : List (Nat × Dir)
  txns : List Txn
  queued : List Txn
  credq : List (Nat × Nat)
  aside : List (Nat × Nat × Nat)
  want : List BMsg
  held : List (Nat × Nat)
  reclaim : List (Nat × Nat)
  late : List (Nat × Nat)
  vc : List (Nat × Nat)
  flush : List Nat
  cred : List (Nat × Nat)
  vwait : List (Nat × Nat)
  orphans : List BMsg
  deriving DecidableEq, Repr

/-! ### Translation (11_translation.md) -/

/-- Where a translation is cached, Table 11.5. -/
inductive TlbPlace where
  | micro (core : Nat) | cluster (c : Nat) | die (d : Nat)
  deriving DecidableEq, Repr

/-- A cached translation: first page, pages covered, physical or host page address of the first, permissions, host, leaf
pages whose D is recorded set, level of the leaf (R235, R236). -/
structure Tlb where
  place : TlbPlace
  ctx : Nat
  vpn : Nat
  pages : Nat
  ppn : Nat
  r : Bool
  w : Bool
  a : Bool
  host : Bool
  dirty : List Nat
  level : Nat
  deriving DecidableEq, Repr

/-- A walk-cache entry: table of `level` for the region of `va`. -/
structure WalkC where
  die : Nat
  walker : Nat
  ctx : Nat
  level : Nat
  tag : Nat
  table : Nat
  deriving DecidableEq, Repr

/-- Who made an access (Table 11.8), with its command, the pipe of a matrix engine that it holds (05_matrix_engines.md R125),
or the transfer that receives it. SOURCE 6 is the write of a completion record, 7 the read of an aborted packet and 8 the read
of a graph node's handle list: none reaches the blotter (13_command_submission.md R288, R291; 12_shared_objects.md R263). -/
structure AccSrc where
  source : Nat
  unit : Nat
  cmd : Option CmdId
  pipe : Option (MxKey × Pipe)
  xfer : Option (Nat × Nat)
  deriving DecidableEq, Repr

/-- What a walk does next. -/
inductive WalkPh where
  | table | dirty | htu
  deriving DecidableEq, Repr

/-- A walk in flight (R230, R235, R236): `acc` the ACCESS bits of Table 11.8. -/
structure Walk where
  die : Nat
  ctx : Nat
  va : Nat
  acc : Nat
  setD : Bool
  level : Nat
  table : Nat
  leaf : W64
  leafPa : Nat
  ph : WalkPh
  stale : Bool
  src : AccSrc
  place : TlbPlace
  walker : Nat
  deriving DecidableEq, Repr

/-- A record of an unresolved quire (R245, R246): its place in the ring, and what merges with it. -/
structure BRec where
  quire : Nat
  pos : Nat
  page : Nat
  cause : Nat
  acc : Nat
  status : Nat
  count : Nat
  deriving DecidableEq, Repr

/-- An access of an engine, a clerk or a fabric transfer that waits on a quire (`none`: stalled on a full blotter), with what its
record says (R244, R249). -/
structure BWait where
  quire : Option Nat
  va : Nat
  cause : Nat
  level : Nat
  acc : Nat
  src : AccSrc
  deriving DecidableEq, Repr

/-- Blotter state of a context (R246-R249): next quire number, open quire, records written, records of unresolved quires,
closed unresolved quires, accesses of engines and clerks that wait. -/
structure Blot where
  nextQ : Nat
  openQ : Option Nat
  wr : Nat
  recs : List BRec
  closed : List Nat
  waiting : List BWait
  deriving DecidableEq, Repr

/-- An invalidation in the queue (R240-R243): HTU tag or driver, contexts, range, and the accesses in flight when the cached
translations were removed. -/
structure InvOp where
  host : Option Nat
  ctxs : List Nat
  lo : Nat
  hi : Nat
  irq : Bool
  flight : List Nat
  deriving DecidableEq, Repr

/-- Translation state. `htuHeld` holds HTU invalidations that found no free entry (R237). -/
structure XltSt where
  tlbs : List Tlb
  walkc : List WalkC
  walks : List Walk
  blots : List (Nat × Blot)
  invs : List InvOp
  htuHeld : List InvOp
  deriving DecidableEq, Repr

/-! ### The fabric (16_yorin_fabric.md) -/

/-- A fabric port beside its registers (R322-R331): retry buffer of (SEQ, flit) oldest first, next SEQ to send, SEQ expected,
whether a NAK is out, failures of the oldest flit in a row, credits held per virtual channel (REQ0, REQ1, RSP0, RSP1), bytes
of a packet that has begun with the flits it took, packets that wait to leave (a transit packet with its arrival port and the
flits it holds in that port's receive buffer; none: of this module), whose turn is next on REQ0 and on REQ1, deficits and turn
of the partitions, and whether a training may end at full width. -/
structure Port where
  retry : List (Nat × BitVec 2048)
  next : Nat
  expect : Nat
  nak : Bool
  fails : Nat
  credits : List Nat
  rx : List Byte
  egress : List (Option (Nat × Nat × Nat) × FabPkt)
  ownTurn : List Bool
  deficit : List Nat
  ptr : Nat
  full : Bool
  deriving DecidableEq, Repr

/-- A packet that waits to be routed: its arrival port (none: this module's own), the die it is on, and the flits it holds in
the port's receive buffer. -/
structure Arr where
  port : Option Nat
  die : Nat
  flits : Nat
  pkt : FabPkt
  deriving DecidableEq, Repr

/-- What a transfer of this module serves. -/
inductive XOwner where
  | cmd (id : CmdId) | snap (ctx : Nat) | push (slot : Nat) | adopt (ctx : Nat)
  deriving DecidableEq, Repr

/-- Where a transfer's bytes come from: a context's space, read as packets are sent, or bytes read before. -/
inductive XSrc where
  | va (ctx va : Nat) | bytes (l : List Byte)
  deriving DecidableEq, Repr

/-- A transfer this module sends, by XFER (R332-R335): what BIND carries, its source, whether it is bound, refused for want of
an entry, packets sent and acknowledged, and whether END was sent. -/
structure SendX where
  owner : XOwner
  dst : Nat
  die : Nat
  part : Nat
  ctx : Nat
  handle : Nat
  off : Nat
  len : Nat
  red : Nat
  strict : Bool
  src : XSrc
  bound : Bool
  refused : Bool
  sent : Nat
  acked : Nat
  endSent : Bool
  deriving DecidableEq, Repr

/-- A transfer this module receives, by sender and XFER (R332-R335): arrival port and its die, bound object and its number as
a command, destination, count of packets performed in a row, packets marked, packets performed beyond the count, writes out
(number, packet, line), lines performed of packets that are not performed whole, END's total, whether DONE was sent, and the
count last acknowledged. -/
structure RecvX where
  port : Option Nat
  die : Nat
  ctx : Nat
  obj : Nat
  seq : Nat
  va : Nat
  len : Nat
  red : Nat
  strict : Bool
  count : Nat
  got : List Nat
  perf : List Nat
  outs : List (Nat × Nat × Nat)
  lines : List (Nat × Nat)
  total : Option Nat
  ended : Bool
  told : Nat
  deriving DecidableEq, Repr

/-- Fabric state: ports, packets to be routed, packets delivered here with the arrival port and die, transfers, the next XFER,
each port's neighbour's distance from the root as last reported (R340), whether the stamp has been measured once, and within
the last 10 ms (R341), cable presence per port (low: `true`), the warden's stored counter (R338), the latest stamp read
(04_memory_model.md R101), and the latest that each reader has read (R339). -/
structure FabSt where
  ports : List (Nat × Port)
  arrivals : List Arr
  here : List Arr
  send : List (Nat × SendX)
  recv : List ((Nat × Nat) × RecvX)
  nextXfer : Nat
  dists : List (Nat × Nat)
  stepped : Bool
  measured : Bool
  seated : BitVec 12
  counter : Nat
  seen : Nat
  reads : List (Nat × Nat)
  deriving DecidableEq, Repr

/-! ### Fault tolerance and snapshots (17_fault_tolerance.md) -/

/-- A target field of a descriptor (R356). -/
structure Tgt where
  handle : Nat
  mod : Nat
  ctx : Nat
  peer : Bool
  deriving DecidableEq, Repr

/-- A range of a snapshot, Table 17.5. -/
structure SnapRange where
  va : Nat
  len : Nat
  tgt : Tgt
  off : Nat
  deriving DecidableEq, Repr

/-- An enabled snapshot beside its registers (R356-R361): the descriptor as read; the open epoch; leaves copied so far in the
first epoch; the scan in progress (address, size, dirty bytes); dirty bytes of the last full scan; the slot last written and
its epoch, by range and granule; the body slot the header names, once known; deferrals of this cut and whether it waits out
one; the step of a cut in progress (0 none; 1 waiting for copies; 2 saving; 3 copying; 4 header on its way); whether the cut
saved the context; EN written 0; the range and address of a leaf whose D has been cleared and whose read goes on, with the
granules of it sent already (R358). -/
structure Snap where
  img : Tgt
  imgOff : Nat
  ranges : List SnapRange
  first : Nat
  epoch : Nat
  once : List Nat
  scanned : List (Nat × Nat × Nat)
  dirty : Nat
  tags : List ((Nat × Nat) × (Nat × Nat))
  body : Option Nat
  deferred : Nat
  waiting : Bool
  step : Nat
  mine : Bool
  stopping : Bool
  leaf : Option (Nat × Nat × Nat)
  deriving DecidableEq, Repr

/-- A cut is in progress. -/
def Snap.cutting (x : Snap) : Bool := x.step != 0

/-- A push in progress (R361): its descriptor, the next granule, and the error met. -/
structure Push where
  src : Nat
  image : Bool
  ctx : Nat
  off : Nat
  len : Nat
  epoch : Nat
  dst : Tgt
  dstOff : Nat
  next : Nat
  err : Nat
  deriving DecidableEq, Repr

/-- What the body of a context image records (R359 step 5): submission number, timelines, notes, queues (index, T, and the
words of SWQ_STAT, SWQ_CMPL, SWQ_ERRSEQ, SWQ_STK), memory objects (index, GEN, VA, BYTES), commands, and the save area. -/
structure Image where
  seq : Nat
  tls : List (Nat × W64)
  notes : List (Nat × W64)
  queues : List (Nat × Nat × List W64)
  mos : List (Nat × Nat × Nat × Nat)
  cmds : List (CmdId × Cmd)
  blks : List SavedBlk
  waits : List Waiter
  deriving DecidableEq, Repr, Inhabited

/-- Bytes that the snapshot engine of a die has still to write, within one line of a context's space. -/
structure EngWrite where
  own : XOwner
  die : Nat
  ctx : Nat
  va : Nat
  bytes : List Byte
  deriving DecidableEq, Repr

/-- A recovery-log record of a response in progress, Table 17.4. -/
structure Rec where
  cause : Nat
  action : Nat
  unit : Nat
  part : Nat
  replayed : Nat
  failed : Nat
  lost : Nat
  aborted : BitVec 64
  stamp : Nat
  deriving DecidableEq, Repr

/-- Recovery state beside its registers: records of responses in progress, cores under containment (R345), clusters whose
write-back (R346), re-partition (R347) or self-test (R348) is in progress, lines lost so far to each agent's reclaim (R349),
UCIe modules out of service (R350), snapshots (R356-R360), pushes (R361), ADOPTs in progress (context, handle, OFF4K) and
adopted contexts with blocks still to be placed (R362), the context images that bodies written by this module stand for (a
body's layout is internal, so its bytes name an entry here), and of the snapshot engine: the lines that the read in progress
has obtained, the writes still to be sent, and the serials of those not acknowledged. -/
structure RcvSt where
  logs : List Rec
  cores : List Nat
  wb : List Nat
  repart : List Nat
  testing : List Nat
  lost : List (Nat × Nat)
  ucie : List Nat
  snaps : List (Nat × Snap)
  push : List (Nat × Push)
  adopt : List (Nat × Nat × Nat)
  adopted : List Nat
  images : List (Nat × Image)
  reads : List (XOwner × List Nat)
  writes : List EngWrite
  outs : List (Nat × XOwner)
  deriving DecidableEq, Repr

/-! ### Reset, power, clocks (18_reset.md, 19_power_and_clocks.md) -/

/-- Reset state beside its registers: power-good, module reset asserted, held by the warden until the dies have cooled (19
R380), the step of Table 18.3 last ended, partitions under reset, with the RESET_GROUP that each had at the assertion and the
clusters whose wrappers it closed (R372), home slices under a unit reset with the requesters to be granted at release (R371),
clusters under a unit reset whose self-test is still to come, a module fault to be reported, MOD_FAULT_N driven low (23 R452).
-/
structure RstSt where
  power : Bool
  asserted : Bool
  hot : Bool
  step : Nat
  parts : List Nat
  groups : List (Nat × Nat)
  closed : List (Nat × Nat)
  homes : List (Nat × List Nat)
  fault : Bool
  faultN : Bool
  deriving DecidableEq, Repr

/-- Power state beside its registers: the temperatures the dies reported last (R380), input power samples of the last second,
newest first (R378), samples in a row out of the range of PWR_INPUT (R398), loop runs since the last change of the clock or
the cap, and since the cap was last lowered (R388, R389), droop detections of each cluster in the window of R392, clock trims
of each cluster, the domains that a gate command in progress waits for, its operation and whether one of them went elsewhere
(R384), and the cores whose issue and vector clock is stopped (R387). -/
structure PwrSt where
  temps : List Nat
  samples : List Nat
  outOf : Nat
  since : Nat
  sinceCap : Nat
  droops : List (Nat × Nat)
  slow : List (Nat × Nat)
  gate : List Nat
  gateOff : Bool
  gateErr : Bool
  stopped : List Nat
  deriving DecidableEq, Repr

/-! ### Tally, debug, security (20 to 22) -/

/-- A tagged instruction in flight (20_tally_and_ledger.md R406). -/
structure TagIns where
  core : Nat
  slot : Nat
  pc : Pc
  active : Mask
  stamp : Nat
  tag : CmdId
  deriving DecidableEq, Repr

/-- What a ledger's write in flight is (20_tally_and_ledger.md R409): the trigger record, a GAP record, an ordinary record, the
closing GAP record. -/
inductive LedWrite where
  | trig | gap | record | closing
  deriving DecidableEq, Repr

/-- A die's ledger writer beside its registers (20_tally_and_ledger.md R407-R409, R415): queued records, the trigger records
not yet sent and the gap entry (stamps of the first and last record dropped and their count), records still to follow the
trigger, whether it has stopped or is finishing after EN = 0, the next sample's number, the serial of its write that no home
has acknowledged, and the ordinary records written since EN was set. -/
structure Led where
  queue : List (List Byte)
  trig : List (List Byte)
  gap : Option (Nat × Nat × Nat)
  post : Option Nat
  stopped : Bool
  closing : Bool
  k : Option Nat
  out : Option (Nat × LedWrite)
  n : Nat
  deriving DecidableEq, Repr

/-- Tally and ledger state beside its registers: the tag of each core set, and the command most recently started on each queue
(R413), tagged instructions in flight, the ledger writers, each set's counters that wrapped since its last sample (R412), by
group the instruction a port issued last, with its active mask, and by core the instructions counted since its last tag and
the reload value (R406); the counters of a set that have had an event since its EN became 1 (R400), the slots that a core has
issued since its cycles were last counted (R403), and the sets whose interval sample a reset has taken already (R414). -/
structure TalSt where
  tags : List (Nat × CmdId)
  starts : List (Nat × CmdId)
  inflight : List TagIns
  leds : List (Nat × Led)
  wrapped : List (Nat × Nat)
  last : List (Gid × Pc × Mask)
  smp : List (Nat × Nat × Nat)
  edge : List (Nat × Nat)
  slots : List (Nat × Nat)
  merged : List Nat
  deriving DecidableEq, Repr

/-- A debug event (21_debug.md R426). -/
structure DbgEvt where
  kind : Nat
  pending : Bool
  skip : Bool
  core : Nat
  slot : Nat
  aux : Nat
  pc : Pc
  deriving DecidableEq, Repr

/-- An armed capture of a DUMP (R427): the number of its step and the step's queue once they are known, the step's status and
the stamp once it has completed, and LATE. -/
structure Armed where
  dump : CmdId
  step : Option Nat
  q : Option Nat
  got : Option (Nat × Nat)
  late : Bool
  deriving DecidableEq, Repr

/-- Debug state beside its registers: event queues and armed captures. -/
structure DbgSt where
  evts : List (Nat × List DbgEvt)
  armed : List Armed
  deriving DecidableEq, Repr

/-- The calibration set in the warden's flash (22_security_and_management.md R442): its bytes, CRC-64 and SOURCE; `torn` when its
last write was interrupted. -/
structure Cal where
  data : List Byte
  crc : W64
  source : Byte
  torn : Bool
  deriving DecidableEq, Repr

/-- Security and management state beside its registers: the fuses (Table 22.1), the image in the warden's flash, the image it
runs, the image received by an update and its flash write (0 none, 1 waiting for a folio write, 2 in progress: Table 22.3), a
recovery fetch that waits for its answer, FW_SVN_MIN, the stages of SPDM negotiation reached, the messages of the exchange so
far, the calibration set, the endpoint ID, the module number assigned for the next module reset, ModuleReset accepted, the
leak sensor. -/
structure SecSt where
  keyHash : List (List Byte)
  idSeed : List Byte
  fuseMap : List Nat
  image : List Byte
  running : List Byte
  received : Option (List Byte)
  writing : Nat
  fetching : Bool
  svnMin : Nat
  spdm : Nat
  transcript : List Byte
  cal : Option Cal
  eid : Nat
  number : Option Nat
  mgmtReset : Bool
  leak : Bool
  deriving DecidableEq, Repr

/-- A unit that checks what it reads (17_fault_tolerance.md Table 17.1): a core's registers, control and pipes, the
accumulators of a core, an L1, a cluster cache, a home's directory, a TLB. -/
inductive FUnit where
  | core (k : Nat) | acc (k : Nat) | l1 (k : Nat) | cache (cl : Nat) | dir (h : Nat) | tlb (p : TlbPlace)
  deriving DecidableEq, Repr

/-- The block. `pending` is the queue of commands; `free` counts the free values taken; `regs` holds every register that
differs from its reset value (its fields live nowhere else); `mem` the bytes of stack memory that anything has written, as
every observer would read them, `lines` what their lines are stored with; `hostMem` the T-die memory reached through HOST
pages. `finds` are the errors that checks of units are still to find, in order: the model's own field, by which a command
whose row names no finding meets one (DESIGN CHOICE, log 93). -/
structure State where
  pending : List Instr
  free : Nat
  finds : List (FUnit × Found)
  regs : List (RegKey × W64)
  held : List HeldAcc
  out : List Out
  mem : List Host.Cell
  lines : List (Nat × LineMeta)
  hostMem : List Host.Cell
  int : IntSt
  fol : FolioSt
  obj : ObjSt
  cmd : CmdSt
  syn : SyncSt
  thr : ThrSt
  mx : MxSt
  stk : StkSt
  coh : CohSt
  xlt : XltSt
  fab : FabSt
  rcv : RcvSt
  rst : RstSt
  pwr : PwrSt
  tal : TalSt
  dbg : DbgSt
  sec : SecSt
  deriving DecidableEq, Repr

/-! ### Reset -/

/-- No folio: nothing is applied before step 9 of the release (18_reset.md Table 18.3) (DESIGN CHOICE, log 2). -/
def Folio.none : Folio where
  clusters := List.replicate 64 255
  defs := []
  qos := []
  ways := []
  victim := []
  route := []
  gang := []
  svn := 0
  raise := false
  ident := List.replicate 32 0

/-- The fuse map as shipped, Table 23.6 (23_connectors.md R457), by signal: I3C_SDA, MOD_FAULT_N, MOD_READY, the transmit lanes of
F0 to F11, FAB_LINK_N of F0 to F11, DBG_DIO0 to DBG_DIO3 (DESIGN CHOICE, log 2). -/
def shippedFuseMap : List Nat := [0x0, 0x0, 0x9] ++ List.replicate 12 0x0 ++ List.replicate 12 0x0 ++ List.replicate 4 0x3

/-- The module with power-good high and MOD_RESET_N asserted after power-good (18_reset.md R366, R368): every register at its
reset value, nothing in memory, nothing in flight. DESIGN CHOICE (log 2): the fuses hold zeros apart from the shipped fuse
map, the warden's flash is empty, and no cable is seated. The stepping is A1, which this edition describes (00_scope.md R1).
-/
def State.reset : State where
  pending := []
  free := 0
  finds := []
  regs := []
  held := []
  out := []
  mem := []
  lines := []
  hostMem := []
  int := ⟨[], [], 0, []⟩
  fol := ⟨Folio.none, [], Option.none, false, false, [], [], [], Option.none, 0, 1⟩
  obj := ⟨[], [], false, [], [], [], [], [], []⟩
  cmd := ⟨[], [], 0, []⟩
  syn := ⟨[], [], [], [], [], [], []⟩
  thr := ⟨[], [], [], [], [], [], [], 0⟩
  mx := ⟨[], [], [], []⟩
  stk := ⟨List.range 17, 17, [], [], [], [], [], [], []⟩
  coh := ⟨[], [], [], [], [], [], [], [], [], [], [], [], [], [], [], [], [], [], [], [], []⟩
  xlt := ⟨[], [], [], [], [], []⟩
  fab := ⟨[], [], [], [], [], 0, [], false, false, 0, 0, 0, []⟩
  rcv := ⟨[], [], [], [], [], [], [], [], [], [], [], [], [], [], []⟩
  rst := ⟨true, true, false, 0, [], [], [], [], false, false⟩
  pwr := ⟨[], [], 0, 10, 10, [], [], [], false, false, []⟩
  tal := ⟨[], [], [], [], [], [], [], [], [], []⟩
  dbg := ⟨[], []⟩
  sec := ⟨List.replicate 4 (List.replicate 64 0), List.replicate 32 0, shippedFuseMap, [], [], Option.none, 0, false, 0, 0, [],
    Option.none, 0, Option.none, false, false⟩

end Sys2Proof.Machine
end

