-- ==== Sys2Proof/Machine/Ops.lean ====
section
/-! DEFINITION. The named operations over the register aperture, interrupts and memory that every family uses. -/

namespace Sys2Proof.Machine

open Sys2Proof

/-! ### Registers -/

/-- The numbers of the bits set in a value, below `n`. -/
def bitNumbers (n : Nat) (a : Nat) : List Nat := (List.range n).filter (fun k => a.testBit k)

/-- A register's value: what it holds, else its reset value (00_scope.md R11). -/
def State.reg (s : State) (r : Reg) (i j : Nat) : W64 := (aget s.regs ⟨r, i, j⟩).getD r.desc.reset

/-- A whole register written by the device. -/
def State.setReg (s : State) (r : Reg) (i j : Nat) (v : W64) : State := { s with regs := aput s.regs ⟨r, i, j⟩ v }

/-- `x` with bits `[lo + wid - 1 : lo]` replaced. -/
def insNat (x lo wid v : Nat) : Nat := x / 2 ^ (lo + wid) * 2 ^ (lo + wid) + v % 2 ^ wid * 2 ^ lo + x % 2 ^ lo

/-- The value of a field (first index `i`, second `j`). -/
def State.rd (s : State) (f : Fld) (i : Nat := 0) (j : Nat := 0) : Nat := bitsOf (s.reg f.reg i j).toNat f.lo f.wid

/-- A field written by the device. -/
def State.wr (s : State) (f : Fld) (v : Nat) (i : Nat := 0) (j : Nat := 0) : State :=
  s.setReg f.reg i j (BitVec.ofNat 64 (insNat (s.reg f.reg i j).toNat f.lo f.wid v))

/-- A one-bit field as a truth value. -/
def State.on (s : State) (f : Fld) (i : Nat := 0) (j : Nat := 0) : Bool := s.rd f i j == 1

/-- A count that wraps at its width. -/
def State.inc (s : State) (f : Fld) (i : Nat := 0) (j : Nat := 0) : State := s.wr f (s.rd f i j + 1) i j

/-- A count that saturates at its width. -/
def State.incSat (s : State) (f : Fld) (i : Nat := 0) (j : Nat := 0) : State :=
  s.wr f (satTo (2 ^ f.wid - 1) (s.rd f i j + 1)) i j

/-- The command takes free values: the counter goes on (DESIGN CHOICE, log 6). -/
def State.bump (s : State) : State := { s with free := s.free + 1 }

/-- The `n`-th free value of this command, below `2 ^ w` (DESIGN CHOICE, log 6). -/
def State.freeVal (s : State) (n w : Nat) : Nat := Config.freeNat s.free n % 2 ^ w

/-- A stamp (16_yorin_fabric.md R339) read now: time is not modelled, so it is a free value, which no earlier read passes by
more than the 8 ns by which two readers may differ (04_memory_model.md R101) (DEDUCED, log 51). -/
def State.stamp (s : State) : Nat := max (s.fab.seen - 8) (s.freeVal 1000 64)

/-- A stamp has been read. -/
def State.stampRead (s : State) : State := { s with fab := { s.fab with seen := max s.fab.seen s.stamp } }.bump

/-- A stamp that one reader reads: its own earlier reads never pass it (R340). Reader 0 is the STAMP register, 1 + n is core n. -/
def State.stampOf (s : State) (r : Nat) : Nat := max s.stamp ((aget s.fab.reads r).getD 0)

/-- A reader has read its stamp. -/
def State.stampReadBy (s : State) (r : Nat) : State :=
  { s with fab := { s.fab with
    seen := max s.fab.seen (s.stampOf r)
    reads := aput s.fab.reads r (s.stampOf r) } }.bump

/-- An arrival at stopped network-on-chip clocks starts them (19_power_and_clocks.md R386). -/
def State.wakeDies (s : State) (ds : List Nat) : State :=
  ds.foldl (fun s d => if s.on F.INT_ISL_STOPPED d then s.wr F.INT_ISL_WAKING 1 d else s) s

/-- A message to the outside (DESIGN CHOICE, log 7). -/
def State.send (s : State) (o : Out) : State := { s with out := s.out ++ [o] }

/-! ### Status codes, Table 13.8 (13_command_submission.md R292) -/

abbrev stOk : Nat := 0x0000
abbrev stAborted : Nat := 0x0001
abbrev stTimeout : Nat := 0x0002
abbrev stFaultXlate : Nat := 0x0010
abbrev stFaultPerm : Nat := 0x0011
abbrev stObjGone : Nat := 0x0020
abbrev stPoison : Nat := 0x0030
abbrev stLost : Nat := 0x0031
abbrev stBarrier : Nat := 0x0040
abbrev stRegress : Nat := 0x0050
abbrev stNoteSat : Nat := 0x0051
abbrev stUnwritable : Nat := 0x0060
abbrev stQuarantined : Nat := 0x0070
abbrev stReplayed : Nat := 0x0071

/-- Status of data read with a poison kind (08_berim_stacks.md R168). -/
def Poison.status : Poison → Nat
  | .none => stOk
  | .poison => stPoison
  | .lost => stLost

/-- The worse of two kinds: the lower status code counts (13_command_submission.md R286). -/
def Poison.worse : Poison → Poison → Poison
  | .poison, _ => .poison
  | _, .poison => .poison
  | .lost, _ => .lost
  | _, p => p

/-! ### Context states, Table 12.3, and states of a source -/

abbrev ctxFree : Nat := 0
abbrev ctxLive : Nat := 1
abbrev ctxReleasing : Nat := 2
abbrev ctxAborting : Nat := 3
abbrev ctxAborted : Nat := 4
abbrev ctxSaved : Nat := 5
abbrev ctxDestroying : Nat := 6

/-- State of a context slot (12_shared_objects.md R254). -/
def State.ctxState (s : State) (c : Nat) : Nat := s.rd F.CTX_STAT_STATE c

/-- A save of a context is in progress, or its cut holds its commands (12_shared_objects.md R258; 17_fault_tolerance.md R359). -/
def State.isSaving (s : State) (c : Nat) : Bool := s.obj.saving.contains c
def State.isCutting (s : State) (c : Nat) : Bool :=
  match aget s.rcv.snaps c with
  | some x => x.cutting
  | none => false

/-! ### Interrupt sources (15_interrupts.md) -/

/-- The home die of a source, Table 15.1 (R308). -/
def srcHome (n : Nat) : Nat :=
  if 0x040 ≤ n ∧ n < 0x080 then (n - 0x040) / 16
  else if 0x080 ≤ n ∧ n < 0x090 then (n - 0x080) / 4
  else if 0x090 ≤ n ∧ n < 0x0A0 then (n - 0x090) / 4
  else if 0x0A0 ≤ n ∧ n < 0x0AC then (n - 0x0A0) / 3
  else if 0x0AC ≤ n ∧ n < 0x0B4 then (n - 0x0AC) / 2
  else if 0x0B4 ≤ n ∧ n < 0x0C4 then (n - 0x0B4) / 4
  else if 0x100 ≤ n ∧ n < 0x3C0 then n % 4
  else if 0x410 ≤ n ∧ n < 0x4E0 then n % 4
  else 0

/-- Numbers of Table 15.1, and of the tables of the chapters it names, that are never raised (R308). -/
def srcReserved (n : Nat) : Bool :=
  (0x004 ≤ n && n < 0x010) || (0x014 ≤ n && n < 0x020) || (0x023 ≤ n && n < 0x030) || (0x033 ≤ n && n < 0x040)
  || (0x0C4 ≤ n && n < 0x100) || (0x314 ≤ n && n < 0x380) || (0x3C1 ≤ n && n < 0x400) || (0x402 ≤ n && n < 0x410)
  || (0x4E0 ≤ n && n < 0x600) || 0x700 ≤ n

/-- The context of a context source, Table 15.1, Table 17.10 and the table of 21_debug.md. -/
def srcCtx (n : Nat) : Option Nat :=
  if 0x100 ≤ n ∧ n < 0x200 then some (n % 64)
  else if 0x380 ≤ n ∧ n < 0x3C0 then some (n % 64)
  else if 0x410 ≤ n ∧ n < 0x490 then some ((n - 0x410) % 64)
  else if 0x4A0 ≤ n ∧ n < 0x4E0 then some (n - 0x4A0)
  else none

/-- The 128-bit committed target mask of a source (R309). -/
def State.srcMask (s : State) (n : Nat) : BitVec 128 :=
  BitVec.ofNat 128 (s.rd F.INT_TGT_LO_TGT n + s.rd F.INT_TGT_HI_TGT n * 2 ^ 64)

/-- A source is offered to a target (R313). -/
def State.offered (s : State) (n t : Nat) : Bool :=
  s.on F.INT_SRC_CTL_PEND n && !s.on F.INT_SRC_CTL_ACTIVE n && s.on F.INT_SRC_CTL_EN n && (s.srcMask n).getLsbD t

/-- The sources whose control register differs from reset; a source at reset is not pending. -/
def State.touched (s : State) : List Nat := (s.regs.filter (fun e => e.1.reg == .INT_SRC_CTL)).map (fun e => e.1.i)

/-- The sources offered to a target. -/
def State.offers (s : State) (t : Nat) : List Nat := s.touched.filter (fun n => s.offered n t)

/-- The request level of a target: high while at least one source is offered to it (R313). -/
def State.level (s : State) (t : Nat) : Bool := !(s.offers t).isEmpty

/-- The UCIe host module that a die's requests leave by: U0, or U1 while U0 is out of service (01_five_levels.md R20;
17_fault_tolerance.md R350). -/
def State.viaDie (s : State) (d : Nat) : Nat := if s.rcv.ucie.contains (2 * d) then 2 * d + 1 else 2 * d

/-- The way of a level message (R313): a T-die core's through a host module of die 0, a clerk's or the warden's on its private
input. -/
def State.levelVia (s : State) (t : Nat) : Option Nat := if t < 64 then some (s.viaDie 0) else none

/-- One target's level message, sent when its level has changed (R313). -/
def State.syncLevel (s : State) (t : Nat) : State :=
  if s.level t == s.int.high.getLsbD t then s
  else { s with out := s.out ++ [.level t (s.level t) (s.levelVia t)], int := { s.int with high := s.int.high ^^^ (1#128 <<< t) } }

/-- Level messages of every target, 0 to 80. -/
def State.syncLevels (s : State) : State := (List.range 81).foldl State.syncLevel s

/-- A source discards its events: it is reserved, or a context source of a FREE context (R311), or its owner's partition is
under partition reset (R318). -/
def State.srcMuted (s : State) (n : Nat) : Bool :=
  srcReserved n || (match srcCtx n with | some c => s.ctxState c == ctxFree | none => false)
    || s.rst.parts.contains (s.rd F.INT_SRC_CTL_OWNER n)

/-- An edge caught by a latch of the always-on island while the die's clock is stopped: it starts the clock (R317). -/
def State.caught (s : State) (n : Nat) : State :=
  let d := srcHome n
  let s := { s with int := { s.int with latch := if s.int.latch.contains n then s.int.latch else n :: s.int.latch } }
  (s.incSat F.INT_ISL_CAUGHT d).wr F.INT_ISL_WAKING 1 d

/-- An event fires on a source: it moves to pending or merges (R312, Table 15.2), with the level messages that follow. -/
def State.raise (s : State) (n : Nat) : State :=
  if s.srcMuted n then s
  else if s.on F.INT_ISL_STOPPED (srcHome n) then s.caught n
  else (s.wr F.INT_SRC_CTL_PEND 1 n).syncLevels

/-- A request on a UCIe host module in L1, from either side, returns it to ACTIVE (19_power_and_clocks.md R396). -/
def State.useModule (s : State) (m : Nat) : State :=
  if s.rd F.UCIE_STAT_STATE m == 8 then (s.wr F.UCIE_STAT_STATE 5 m).raise (0x0AC + m) else s

/-- A die's request to the T-die leaves by one of its modules. -/
def State.useLink (s : State) (d : Nat) : State := s.useModule (s.viaDie d)

/-! ### Memory (08_berim_stacks.md) -/

/-- First device physical address beyond stack memory (R165) (DESIGN CHOICE, log 60). -/
abbrev stackTop : Nat := 0x012A05F20000

/-- The device key (R175). -/
abbrev devKey : Nat := 16

/-- The canonical form of memory: addresses strictly rise. An unlisted address holds no value; a read of it is a free
value. -/
def Memory.wf (m : List Host.Cell) : Bool := rising m

/-- The stack of a device physical address and its stack-local address (R165, R166). -/
def stackOf (pa : Nat) : Nat × Nat :=
  let d := pa / 320000000000
  let o := pa - d * 320000000000
  let g := o / 4096
  let n := (g % 4) ^^^ (g / 4 % 4) ^^^ (g / 16 % 4) ^^^ (g / 64 % 4)
  (4 * d + n, g / 4 * 4096 + o % 4096)

/-- The home slice of a line (00_scope.md R3, 08 R166). -/
def homeOf (ln : Nat) : Nat := (stackOf (128 * ln)).1

/-- The stack of a line has stopped (R173; 17_fault_tolerance.md R349). -/
def State.tripped (s : State) (ln : Nat) : Bool := s.on F.STK_STAT_TRIP (homeOf ln)

/-- Serial of the key now at an index (R175, R177). -/
def State.keySer (s : State) (k : Nat) : Nat := s.stk.keys.getD k 0

/-- The poison kind of a line (R167); a stopped stack answers every read as LOST (17_fault_tolerance.md R349). -/
def State.linePoison (s : State) (ln : Nat) : Poison :=
  if s.tripped ln then .lost
  else match mget s.lines ln with
  | some m => m.poison
  | none => .none

/-- The tweak of a line (R175): its stack-local byte address, and the number of its stack. -/
def xtsTweak (ln : Nat) : BitVec 128 := BitVec.ofNat 128 ((stackOf (128 * ln)).2 % 2 ^ 37 + (stackOf (128 * ln)).1 * 2 ^ 64)

/-- A line as its writer's key, of serial `w`, reads it; bytes that nothing has written are open. -/
def State.plainLine (s : State) (w ln : Nat) : Line :=
  BitVec.ofNat 1024 (leNat ((List.range 128).map (fun i => (mget s.mem (128 * ln + i)).getD (Config.openByte w (128 * ln + i)))))

/-- A line as its stack stores it, encrypted under its writer's key (R175). -/
def State.cipherLine (s : State) (w ln : Nat) : Line := Config.xtsEncrypt w (xtsTweak ln) (s.plainLine w ln)

/-- One byte as a requester under key `k` reads it (R175-R178): under the key that wrote the line, what was written; under
another, what that key makes of the ciphertext, a value that nothing defines (DESIGN CHOICE, log 8). -/
def State.rdByte (s : State) (k pa : Nat) : Byte :=
  match mget s.lines (pa / 128) with
  | none => Config.openByte (s.keySer k) pa
  | some m =>
    if m.wser = s.keySer k then (mget s.mem pa).getD (Config.openByte m.wser pa)
    else (Config.xtsDecrypt (s.keySer k) (xtsTweak (pa / 128)) (s.cipherLine m.wser (pa / 128))).extractLsb' (8 * (pa % 128)) 8

/-- `n` bytes. -/
def State.rdBytes (s : State) (k pa n : Nat) : List Byte := (List.range n).map (fun i => s.rdByte k (pa + i))

/-- A little-endian number (00_scope.md R7). -/
def State.rdNat (s : State) (k pa n : Nat) : Nat := leNat (s.rdBytes k pa n)

/-- Lines that a range of bytes touches. -/
def linesOf (pa n : Nat) : List Nat :=
  if n = 0 then [] else (List.range ((pa + n - 1) / 128 + 1 - pa / 128)).map (fun i => pa / 128 + i)

/-- What a read of a range meets: POISON before LOST (R168; 13_command_submission.md R286) (DEDUCED, log 55). -/
def State.poisonOf (s : State) (pa n : Nat) : Poison :=
  if (linesOf pa n).any (fun l => s.linePoison l == .poison) then .poison
  else if (linesOf pa n).any (fun l => s.linePoison l == .lost) then .lost
  else .none

/-- Bytes put from an address on. -/
def putBytes (m : List Host.Cell) (pa : Nat) : List Byte → List Host.Cell
  | [] => m
  | b :: r => putBytes (mput m pa b) (pa + 1) r

/-- Memory before a line is written under a key: bytes written under another key are no longer held (R178). -/
def State.memFor (s : State) (k ln : Nat) : List Host.Cell :=
  match mget s.lines ln with
  | some m => if m.wser = s.keySer k then s.mem else s.mem.filter (fun c => c.1 / 128 != ln)
  | none => s.mem

/-- Bytes of one line written at byte `off` under key `k`. A write of the whole line clears a poison kind; a partial write
to a poisoned line changes nothing (R169). -/
def State.wrLine (s : State) (k ln off : Nat) (bs : List Byte) : State :=
  if s.tripped ln || (bs.length < 128 && s.linePoison ln != .none) then s
  else { s with mem := putBytes (s.memFor k ln) (128 * ln + off) bs, lines := mput s.lines ln ⟨.none, s.keySer k⟩ }

/-- Bytes written line by line; `fuel` is at least the number of lines. -/
def State.wrLines (k : Nat) : Nat → State → Nat → List Byte → State
  | 0, s, _, _ => s
  | n + 1, s, pa, bs =>
    if bs.isEmpty then s
    else State.wrLines k n (s.wrLine k (pa / 128) (pa % 128) (bs.take (128 - pa % 128))) (128 * (pa / 128 + 1))
      (bs.drop (128 - pa % 128))

/-- Bytes written under a key. -/
def State.wrBytes (s : State) (k pa : Nat) (bs : List Byte) : State :=
  State.wrLines k (bs.length / 128 + 2) s pa bs

/-- A little-endian number of `n` bytes written. -/
def State.wrNat (s : State) (k pa n v : Nat) : State := s.wrBytes k pa (leBytes n v)

/-- A line stored with a poison kind (R169; 10_coherence.md R226). -/
def State.setPoison (s : State) (ln : Nat) (p : Poison) : State :=
  let w := match mget s.lines ln with
    | some m => m.wser
    | none => s.keySer devKey
  { s with lines := mput s.lines ln ⟨p, w⟩ }

/-- A line's data reaches its stack with a poison kind (10_coherence.md R217, R219; 08_berim_stacks.md R169). -/
def State.storeLine (s : State) (ln : Nat) (p : Poison) : State :=
  if s.tripped ln then s
  else if p == .none && (mget s.lines ln).isNone then s else s.setPoison ln p

/-- Bytes written into a cached copy of a line: the kind that the stack holds stays (09_caches.md R193). -/
def State.wrCached (s : State) (k pa : Nat) (bs : List Byte) : State :=
  let p := match mget s.lines (pa / 128) with
    | some m => m.poison
    | none => .none
  { s with mem := putBytes (s.memFor k (pa / 128)) pa bs, lines := mput s.lines (pa / 128) ⟨p, s.keySer k⟩ }

/-- The bytes of a line by mask. -/
def maskBytes (mask : BitVec 128) (data : Line) (m : List Host.Cell) (ln : Nat) : Nat → List Host.Cell
  | 0 => m
  | i + 1 =>
    let m := maskBytes mask data m ln i
    if mask.getLsbD i then mput m (128 * ln + i) (data.extractLsb' (8 * i) 8) else m

/-- A write of the bytes of a line that a mask names (DEDUCED, log 9). -/
def State.wrMask (s : State) (k ln : Nat) (mask : BitVec 128) (data : Line) : State :=
  if s.tripped ln || (mask != BitVec.allOnes 128 && s.linePoison ln != .none) then s
  else { s with
    mem := maskBytes mask data (s.memFor k ln) ln 128
    lines := mput s.lines ln ⟨.none, s.keySer k⟩ }

/-- Memory of a range is open again: something internal to the device lies there (DEDUCED, log 39). -/
def State.openRange (s : State) (pa n : Nat) : State :=
  { s with
    mem := s.mem.filter (fun c => c.1 < pa || pa + n ≤ c.1)
    lines := s.lines.filter (fun l => (l.1 + 1) * 128 ≤ pa || pa + n ≤ l.1 * 128) }

/-- A whole line as one number. -/
def State.lineData (s : State) (k ln : Nat) : Line := BitVec.ofNat 1024 (s.rdNat k (128 * ln) 128)

/-- A byte of T-die memory (the Tonan host die manual's) (DESIGN CHOICE, log 8). -/
def State.rdHost (s : State) (a : Nat) : Byte := (mget s.hostMem a).getD (Config.openHostByte a)

/-- Bytes of T-die memory written. -/
def State.wrHost (s : State) (a : Nat) (bs : List Byte) : State := { s with hostMem := putBytes s.hostMem a bs }

/-! ### Partitions -/

/-- A partition's definition in the folio in force (02_folio.md R39). -/
def State.partDef (s : State) (p : Nat) : Option PartDef := aget s.fol.cur.defs p

/-- The partition that owns a cluster, 255 where none does (02_folio.md R38). -/
def State.clusterPart (s : State) (c : Nat) : Nat := s.fol.cur.clusters.getD c 255

/-- The next error that a unit's check finds, taken (17_fault_tolerance.md R343) (DESIGN CHOICE, log 93). -/
def State.takeFind (s : State) (u : FUnit) : Option (Found × State) :=
  (s.finds.find? (fun e => e.1 == u)).map (fun e => (e.2, { s with finds := s.finds.erase e }))

/-- A cluster is held powered off: it is quarantined (R32), or in no partition (R38). -/
def State.heldOff (s : State) (c : Nat) : Bool := s.on F.REC_CNT_QUAR c || s.clusterPart c == 255

/-- The partition of a context: its CTX_CFG (12_shared_objects.md R254). -/
def State.ctxPart (s : State) (c : Nat) : Nat :=
  match aget s.obj.ctxs c with
  | some x => x.part
  | none => s.rd F.CTX_CFG_PART c

/-- Clusters of a partition of a folio. -/
def Folio.clustersOf (f : Folio) (p : Nat) : List Nat := (List.range 64).filter (fun n => f.clusters.getD n 255 == p)

/-- A partition that a new folio affects (02_folio.md R48). -/
def affected (old new : Folio) (p : Nat) : Bool :=
  old.victim != new.victim || old.gang != new.gang || old.clustersOf p != new.clustersOf p || aget old.defs p != aget new.defs p
  || aget old.ways p != aget new.ways p

/-- New work to a partition is held: SWITCH is in progress and affects it (02_folio.md Table 2.6). -/
def State.switchHolds (s : State) (p : Nat) : Bool :=
  s.rd F.FOLIO_STAT_PHASE == 3 && (match s.fol.next with
    | some f => affected s.fol.cur f p
    | none => false)

/-- The QoS share of a partition in a class, in 1/256: zero while the partition is under reset (02_folio.md R57; 18_reset.md
R369). -/
def State.share (s : State) (cls p : Nat) : Nat := if s.rst.parts.contains p then 0 else s.rd F.QOS_ADJ_SHARE cls p

/-! ### Power domains (02_folio.md R44; 19_power_and_clocks.md R381-R384) -/

abbrev domOff : Nat := 0
abbrev domWaking : Nat := 1
abbrev domOn : Nat := 2
abbrev domDraining : Nat := 3

/-- State of a domain, and a domain set to a state. -/
def State.dom (s : State) (d : Nat) : Nat := s.rd F.PWR_DSTAT_STATE d
def State.setDom (s : State) (st d : Nat) : State := s.wr F.PWR_DSTAT_STATE st d

/-- A gate command in progress ends once its last domain has left WAKING and DRAINING; a domain that went elsewhere, by a
placement or a quarantine, is reported as ERR 3. -/
def State.gateSettle (s : State) : State :=
  if s.pwr.gate.isEmpty then s
  else
    let (go, over_) := s.pwr.gate.partition (fun d => s.dom d == domWaking || s.dom d == domDraining)
    let err := s.pwr.gateErr || over_.any (fun d => s.dom d != (if s.pwr.gateOff then domOff else domOn))
    let s := { s with pwr := { s.pwr with gate := go, gateErr := err } }
    if !go.isEmpty then s
    else
      let s := if err then s.wr F.PWR_GATE_STAT_ERR 3 else s
      (s.wr F.PWR_GATE_STAT_BUSY 0).raise 0x013

/-- A clerk that is awake and not under a unit reset (18_reset.md R371). -/
def State.clerkIn (s : State) (k : Nat) : Bool := s.dom (604 + k) == domOn && bitsOf (s.rd F.RST_UNIT_CLERK (k / 4)) (k % 4) 1 == 0

/-- The clerk that serves the slots of clerk `k`: itself, or the lowest-numbered clerk of its die that is in service
(17_fault_tolerance.md R351) (DESIGN CHOICE, log 92). -/
def State.clerkServing (s : State) (k : Nat) : Nat :=
  if s.clerkIn k then k
  else match (List.range 4).find? (fun i => s.clerkIn (k / 4 * 4 + i)) with
    | some i => k / 4 * 4 + i
    | none => k

/-- A clerk is reset: the others of its die take its slots. -/
def State.passSlots (s : State) (k next : Nat) : State :=
  (List.range 256).foldl (fun s n =>
    if s.on F.QSLOT_STAT_MAPPED n && s.rd F.QSLOT_STAT_CLERK n == k then s.wr F.QSLOT_STAT_CLERK next n else s) s

/-- A clerk serves a mapped slot. -/
def State.clerkServes (s : State) (k : Nat) : Bool :=
  (List.range 256).any (fun n => s.on F.QSLOT_STAT_MAPPED n && s.rd F.QSLOT_STAT_CLERK n == k)

/-- A clerk of a die is awake; where none is, the lowest-numbered one that is OFF is woken (R383). -/
def State.clerkAwake (s : State) (die : Nat) : Bool := (List.range 4).any (fun k => s.dom (604 + 4 * die + k) == domOn)
def State.wakeClerk (s : State) (die : Nat) : State :=
  if (List.range 4).any (fun k => s.dom (604 + 4 * die + k) == domOn || s.dom (604 + 4 * die + k) == domWaking) then s
  else match (List.range 4).find? (fun k => s.dom (604 + 4 * die + k) == domOff) with
    | some k => s.setDom domWaking (604 + 4 * die + k)
    | none => s

/-- A cluster is under a unit reset (18_reset.md R371). -/
def State.clusterReset (s : State) (cl : Nat) : Bool := bitsOf (s.rd F.RST_UNIT_CLUSTER (cl / 16)) (cl % 16) 1 == 1

/-- A cluster's wrapper was closed by a partition reset that is not over (18_reset.md R369). -/
def State.inPartReset (s : State) (cl : Nat) : Bool :=
  s.rst.parts.contains (s.clusterPart cl) || s.rst.closed.any (fun e => e.1 == cl)

/-- The key of a context's accesses (08_berim_stacks.md R176). -/
def State.ctxKey (s : State) (c : Nat) : Nat := s.ctxPart c

end Sys2Proof.Machine
end

