-- ==== Sys2Proof/Machine/Interrupts.lean ====
section
/-! DEFINITION. Interrupts (15_interrupts.md): claims, completion, target masks, context sources, partition reset, latches. -/

namespace Sys2Proof.Machine

open Sys2Proof

/-- The offered source a claim of target `t` takes: highest PRIO, then lowest number (R314). -/
def State.best (s : State) (t : Nat) : Option Nat :=
  (s.offers t).foldl (fun b n => match b with
    | none => some n
    | some m => if s.rd F.INT_SRC_CTL_PRIO m < s.rd F.INT_SRC_CTL_PRIO n
        || (s.rd F.INT_SRC_CTL_PRIO m == s.rd F.INT_SRC_CTL_PRIO n && n < m) then some n else some m) none

/-- A read of INT_CLAIM of target `t` (R314). -/
def State.claim (s : State) (t : Nat) : State :=
  match s.best t with
  | none => s.send (.claimed t 0x7FF)
  | some n =>
    let s := { s with int := { s.int with dropped := s.int.dropped.erase (n, t) } }
    ((((s.wr F.INT_SRC_CTL_PEND 0 n).wr F.INT_SRC_CTL_ACTIVE 1 n).wr F.INT_SRC_CTL_CLAIMER t n).syncLevels).send (.claimed t n)

/-- A controller error: its flag, and the source of the first error since both flags were clear. -/
def State.intErr (s : State) (f : Fld) (n : Nat) : State :=
  let s := if !s.on F.INT_ERR_PERMIT && !s.on F.INT_ERR_EOI then s.wr F.INT_ERR_SRC n else s
  s.wr f 1

/-- An EOI of source `n` by target `t` (R315, R312); a former claimer's late one is ignored (R311, R318). -/
def State.eoi (s : State) (t n : Nat) : State :=
  if s.on F.INT_SRC_CTL_ACTIVE n && s.rd F.INT_SRC_CTL_CLAIMER n == t then (s.wr F.INT_SRC_CTL_ACTIVE 0 n).syncLevels
  else if s.int.dropped.contains (n, t) then s
  else s.intErr F.INT_ERR_EOI n

/-- The targets a source may name (R310). -/
def State.permit (s : State) (n : Nat) : BitVec 128 :=
  if s.rd F.INT_SRC_CTL_OWNER n == 0x1F then BitVec.ofNat 128 (2 ^ 81 - 1)
  else match s.partDef (s.rd F.INT_SRC_CTL_OWNER n) with
    | some d => d.permit
    | none => 0

/-- A write to INT_TGT_LO is staged (R310). -/
def State.stageLo (s : State) (n : Nat) (v : W64) : State :=
  { s with int := { s.int with staged := aput s.int.staged n v } }

/-- A target mask committed. -/
def State.setMask (s : State) (n : Nat) (m : BitVec 128) : State :=
  ((s.wr F.INT_TGT_LO_TGT (m.toNat % 2 ^ 64) n).wr F.INT_TGT_HI_TGT (m.toNat / 2 ^ 64) n).syncLevels

/-- A write to INT_TGT_HI commits both halves, or is refused; the stage empties (R310). -/
def State.commitMask (s : State) (n hi : Nat) : State :=
  let lo := match aget s.int.staged n with
    | some v => v.toNat
    | none => s.rd F.INT_TGT_LO_TGT n
  let m := BitVec.ofNat 128 (lo + hi % 2 ^ 17 * 2 ^ 64)
  let s := { s with int := { s.int with staged := adel s.int.staged n } }
  if m &&& ~~~ s.permit n == 0 then s.setMask n m else s.intErr F.INT_ERR_PERMIT n

/-- The sources of a context: Table 15.1, Table 17.10, and DBG_EVT of 21_debug.md. -/
def ctxSrcs (c : Nat) : List Nat :=
  [0x100 + c, 0x140 + c, 0x180 + c, 0x1C0 + c, 0x380 + c, 0x410 + c, 0x450 + c, 0x4A0 + c]

/-- A context source at CREATE (R311). -/
def State.srcCreate (s : State) (p n : Nat) : State :=
  let m := match s.partDef p with
    | some d => d.dflt
    | none => 0
  let s := (((s.wr F.INT_SRC_CTL_OWNER p n).wr F.INT_SRC_CTL_PRIO 8 n).wr F.INT_SRC_CTL_EN 1 n).wr F.INT_SRC_CTL_PEND 0 n
  (s.wr F.INT_SRC_CTL_ACTIVE 0 n).setMask n m

/-- A source returned to idle and masked: its context became FREE (R311), or its partition is reset (R318). -/
def State.srcClear (s : State) (n : Nat) : State :=
  let e := (n, s.rd F.INT_SRC_CTL_CLAIMER n)
  let s := if s.on F.INT_SRC_CTL_ACTIVE n then { s with int := { s.int with dropped := e :: s.int.dropped.erase e } } else s
  (((s.wr F.INT_SRC_CTL_PEND 0 n).wr F.INT_SRC_CTL_ACTIVE 0 n).wr F.INT_SRC_CTL_EN 0 n).syncLevels

/-- Every source a partition owns, cleared by its reset (R318). -/
def State.partSrcClear (s : State) (p : Nat) : State :=
  (s.touched.filter (fun n => s.rd F.INT_SRC_CTL_OWNER n == p)).foldl State.srcClear s

/-- Set latches of a die moved into PEND, once its clock runs (R317). -/
def State.moveLatches (s : State) (d : Nat) : State :=
  let l := s.int.latch.filter (fun n => srcHome n == d)
  let s := { s with int := { s.int with latch := s.int.latch.filter (fun n => srcHome n != d) } }
  l.foldl State.raise s

/-- INT_EVENT (R312, R317). -/
def execIntEvent (n : Nat) (s : State) : Host.Outcome State Fault Refusal := .next (s.raise n)

/-- INT_CLAIM (R314): a target beyond 80 has no register (24_register_index.md R463). -/
def execIntClaim (t : Nat) (s : State) : Host.Outcome State Fault Refusal := .next (if t ≤ 80 then s.claim t else s)

/-- INT_EOI (R315). -/
def execIntEoi (t n : Nat) (s : State) : Host.Outcome State Fault Refusal := .next (if t ≤ 80 then s.eoi t (n % 2048) else s)

/-- INT_SWI (R319): raises source 0x600 + s. -/
def execIntSwi (b : Byte) (s : State) : Host.Outcome State Fault Refusal := .next (s.raise (0x600 + b.toNat))

/-- INT_TGT_LO_WRITE (R310). -/
def execIntTgtLoWrite (n : Nat) (v : W64) (s : State) : Host.Outcome State Fault Refusal :=
  .next (if n < 2047 then s.stageLo n v else s)

/-- INT_TGT_HI_WRITE (R310). -/
def execIntTgtHiWrite (n : Nat) (v : BitVec 17) (s : State) : Host.Outcome State Fault Refusal :=
  .next (if n < 2047 then s.commitMask n v.toNat else s)

/-- ISLAND_EDGE (R317): an event edge at a latch; with the clock running it moves into PEND at once. -/
def execIslandEdge (n : Nat) (s : State) : Host.Outcome State Fault Refusal := .next (s.raise n)

end Sys2Proof.Machine
end

