-- ==== Sys2Proof/Machine/Counters.lean ====
section
/-! DEFINITION. Tally counters (20_tally_and_ledger.md R399-R403): sets, events and filters, wraps, and the trigger that a wrap
fires (R415). Counters count the events that commands of the model make; the cycles of a clock are not modelled, and what a counter
counts of them is free. -/

namespace Sys2Proof.Machine

open Sys2Proof

/-! ### Sets (R399) -/

/-- Counters of a set of index `i` in its die, Table 20.1. -/
def setCounters (i : Nat) : Nat := if i < 148 then 8 else if i < 151 then 4 else 0

/-- Register instance of set `i` of die `d`. -/
def talSet (d i : Nat) : Nat := 151 * d + i

/-- The set of a core. -/
def coreSet (core : Nat) : Nat := talSet (core / 128) (core % 128)

/-- The cluster of a core's or cluster cache's set; none for other sets. -/
def setCluster (d i : Nat) : Option Nat :=
  if i < 128 then some (16 * d + i / 8) else if i < 144 then some (16 * d + (i - 128)) else none

/-! ### A die's ledger and its trigger (R409, R413, R415) -/

/-- A die's writer; fresh after EN was set (DEDUCED, log 51). -/
def State.led (s : State) (d : Nat) : Led := (aget s.tal.leds d).getD ⟨[], [], none, none, false, false, none, none, 0⟩
def State.setLed (s : State) (d : Nat) (l : Led) : State := { s with tal := { s.tal with leds := aput s.tal.leds d l } }

/-- N of R407. -/
def State.ledSlots (s : State) (d : Nat) : Nat := 2 ^ (min 16 (s.rd F.LED_CFG_SIZE_LOG d) + 10)

/-- BUSY: the writer holds records (R408). -/
def State.ledBusy (s : State) (d : Nat) : State :=
  let l := s.led d
  s.wr F.LED_PTR_BUSY (b2n (!l.queue.isEmpty || !l.trig.isEmpty || l.gap.isSome || l.closing || l.out.isSome)) d

/-- The tag of a set, with its context: none is zero (R413). -/
def State.tagOf (s : State) (d i : Nat) : Nat × Nat :=
  match if i < 128 then aget s.tal.tags (128 * d + i)
    else if s.on F.LED_TAGQ_EN d then aget s.tal.starts (s.rd F.LED_TAGQ_SWQ d) else none with
  | some id => (id.ctx, id.seq)
  | none => (0, 0)

/-- A trigger fires (R415): ARMED clears and the TRIGGER record is taken, which is admitted while EN is 1 (R410). FIRED is
set, and LED_TRIG raised, as the record is written (R417; FIRED's text). -/
def State.ledFire (s : State) (d : Nat) : State :=
  if !s.on F.LED_TRIG_ARMED d then s
  else
    let i := s.rd F.LED_TRIG_SET d
    let (c, seq) := s.tagOf d i
    let r := leBytes 1 3 ++ leBytes 1 (s.rd F.LED_TRIG_SRC d) ++ leBytes 2 i ++ leBytes 1 (s.rd F.LED_TRIG_CTR d) ++ leBytes 1 0
      ++ leBytes 1 c ++ leBytes 1 0 ++ leBytes 8 s.stamp ++ leBytes 8 seq ++ leBytes 4 (s.rd F.LED_PTR_HEAD d) ++ leBytes 36 0
    let l := s.led d
    let post := if s.rd F.LED_CFG_MODE d = 2 then some (min (s.rd F.LED_CFG_POST d) (s.ledSlots d - 2)) else none
    let s := s.bump.wr F.LED_TRIG_ARMED 0 d
    if !s.on F.LED_CFG_EN d then s
    else
      let s := (s.setLed d { l with
        trig := l.trig ++ [r], post := post.filter (fun p => p != 0), stopped := l.stopped || post == some 0 }).ledBusy d
      if post == some 0 then (s.wr F.LED_PTR_DONE 1 d).raise (0x304 + d) else s

/-! ### Counters (R399-R401) -/

/-- A counter's VALUE wraps (R401). -/
def State.counterWrap (s : State) (d i j : Nat) : State :=
  let n := talSet d i
  let s := (s.inc F.TAL_CNT_WRAP n j).wr F.TAL_CTL_OVF (s.rd F.TAL_CTL_OVF n ||| 2 ^ j) n
  let s := { s with tal := { s.tal with wrapped := aput s.tal.wrapped n ((aget s.tal.wrapped n).getD 0 ||| 2 ^ j) } }
  let s := if s.on F.TAL_CTL_OVF_IRQ n then s.raise (0x310 + d) else s
  if s.rd F.LED_TRIG_SRC d == 1 && s.rd F.LED_TRIG_SET d == i && s.rd F.LED_TRIG_CTR d == j then s.ledFire d else s

/-- What a counted event belongs to: the context and the port of the group that made it, the class of the request (TAL_SEL). -/
structure Ev where
  ctx : Option Nat
  port : Option Nat
  cls : Option Nat
  deriving DecidableEq, Repr

/-- An event code listed for a set of index `i`, Tables 20.2 and 20.3; the others are reserved (R402). -/
def eventListed (i code : Nat) : Bool :=
  code == 1
  || (i < 128 && [0x010, 0x011, 0x012, 0x013, 0x020, 0x021, 0x022, 0x023, 0x030, 0x031, 0x032, 0x033, 0x034, 0x035, 0x036,
    0x040, 0x041, 0x042, 0x043, 0x044, 0x045, 0x046, 0x047, 0x048].contains code)
  || (128 ≤ i && i < 144 && 0x101 ≤ code && code ≤ 0x109)
  || (144 ≤ i && i < 148 && 0x201 ≤ code && code ≤ 0x209)
  || (148 ≤ i && 0x301 ≤ code && code ≤ 0x305)

/-- A counter of a set selects an event (R402; TAL_SEL): context and port filters are of core sets, the class filter of cluster
caches. An event that names no port or class passes those filters (DEDUCED, log 51). -/
def State.selects (s : State) (n i j code : Nat) (e : Ev) : Bool :=
  s.rd F.TAL_SEL_EVENT n j == code && eventListed i code
  && (128 ≤ i || ((!s.on F.TAL_SEL_CTX_EN n j || e.ctx == some (s.rd F.TAL_SEL_CTX n j))
    && (s.rd F.TAL_SEL_PORTS n j == 0 || e.port.all (fun p => (s.rd F.TAL_SEL_PORTS n j).testBit p))))
  && (i < 128 || 144 ≤ i || s.rd F.TAL_SEL_CLASS n j == 0 || e.cls.all (fun c => (s.rd F.TAL_SEL_CLASS n j).testBit c))

/-- The domain of a set (01_five_levels.md R44). -/
def talDomain (d i : Nat) : Nat :=
  if i < 128 then 128 * d + i else if i < 144 then 512 + 16 * d + (i - 128) else if i < 148 then 576 + 4 * d + (i - 144)
  else 592 + 3 * d + (i - 148)

/-- A set counts: EN is 1 and its domain is ON (R400, R401). -/
def State.counts (s : State) (d i : Nat) : Bool := s.on F.TAL_CTL_EN (talSet d i) && s.dom (talDomain d i) == domOn

/-- An amount is added to a counter. -/
def State.addCount (s : State) (d i j v : Nat) : State :=
  let x := s.rd F.TAL_CNT_VALUE (talSet d i) j + v
  let s := s.wr F.TAL_CNT_VALUE x (talSet d i) j
  if 2 ^ 48 ≤ x then s.counterWrap d i j else s

/-- What a counter adds for an event of `v`: in edge mode 1 for the first event after EN became 1, when the previous value counts
as zero. Whether a later one found zero in the cycle before is not known, and is a free value (R400). -/
def State.edgeCount (s : State) (n j v : Nat) : State × Nat :=
  if !s.on F.TAL_SEL_EDGE n j then (s, v)
  else if s.tal.edge.contains (n, j) then (s.bump, s.freeVal 1001 1)
  else ({ s with tal := { s.tal with edge := (n, j) :: s.tal.edge } }, 1)

/-- An event of `v` counts in the counters of a set that select it (R400); issued slots are noted for R403. -/
def State.tally (s : State) (d i code v : Nat) (e : Ev) : State :=
  let n := talSet d i
  if !s.counts d i || v = 0 then s
  else
    let s := if i < 128 && code == 0x010 then
        { s with tal := { s.tal with slots := aput s.tal.slots n ((aget s.tal.slots n).getD 0 + v) } } else s
    ((List.range (setCounters i)).filter (fun j => s.selects n i j code e)).foldl (fun s j =>
      let (s, v) := s.edgeCount n j v
      s.addCount d i j v) s

/-- An event of a core (Table 20.2), that no group makes or that a group of a context makes. -/
def State.tallyCore (s : State) (core code v : Nat) : State := s.tally (core / 128) (core % 128) code v ⟨none, none, none⟩
def State.tallyCtx (s : State) (core c code v : Nat) : State := s.tally (core / 128) (core % 128) code v ⟨some c, none, none⟩

/-- An event of a cluster cache for a request of a class, of a home slice, and of a fabric port (Table 20.3). -/
def State.tallyCc (s : State) (cl code cls : Nat) : State := s.tally (cl / 16) (128 + cl % 16) code 1 ⟨none, none, some cls⟩
def State.tallyHome (s : State) (h code v : Nat) : State := s.tally (h / 4) (144 + h % 4) code v ⟨none, none, none⟩

/-! ### Counting cycles -/

/-- An event whose count grows with the cycles of its set's clock, or with flits that no command of the model stands for:
cycles, slots of no issue, waiting and resident groups, tracker occupancy, refresh, and every flit of a port (Tables 20.2 and
20.3). -/
def timedEvent (i code : Nat) : Bool :=
  code == 1
  || (i < 128 && [0x012, 0x013, 0x040, 0x041, 0x042, 0x044, 0x045].contains code)
  || (144 ≤ i && i < 148 && [0x204, 0x209].contains code)
  || (148 ≤ i && [0x301, 0x302, 0x303, 0x304, 0x305].contains code)

/-- Cycles of a set's clock since its counters were last looked at: a free amount, but enough for the slots it issued, 4 in a
cycle (R403). -/
def State.cyclesOf (s : State) (d i : Nat) : Nat := s.freeVal 1110 40 + cdiv ((aget s.tal.slots (talSet d i)).getD 0) 4

/-- What an event of time amounts to in those cycles: CYCLES counts each of them, a slot that did not issue is front-starved or
back-starved (R403), and any other event is a free amount. In edge mode CYCLES rises once, as EN becomes 1. -/
def State.timeOf (s : State) (d i j : Nat) : Nat :=
  let n := talSet d i
  let c := s.cyclesOf d i
  let idle := 4 * c - (aget s.tal.slots n).getD 0
  let front := s.freeVal 1109 42 % (idle + 1)
  let code := s.rd F.TAL_SEL_EVENT n j
  let free := s.freeVal (1100 + j) 48
  if s.on F.TAL_SEL_EDGE n j then (if code == 1 then b2n (!s.tal.edge.contains (n, j)) else free % (c + 1))
  else if code == 1 then c
  else if i < 128 && code == 0x012 then front
  else if i < 128 && code == 0x013 then idle - front
  else free

/-- What a set's counters have counted of time since they were last looked at (R400, R403) (DESIGN CHOICE, log 81). -/
def State.catchUp (s : State) (d i : Nat) : State :=
  let n := talSet d i
  if !s.counts d i then s
  else
    let js := (List.range (setCounters i)).filter (fun j => timedEvent i (s.rd F.TAL_SEL_EVENT n j))
    let s1 := js.foldl (fun (t : State) j => t.addCount d i j (s.timeOf d i j)) s
    let s1 := { s1 with tal := { s1.tal with
      slots := adel s1.tal.slots n
      edge := js.map (fun j => (n, j)) ++ s1.tal.edge.filter (fun (e : Nat × Nat) => !(e.1 == n && js.contains e.2)) } }
    (if i < 128 then s1.wr F.TAL_CYC_COUNT ((s.rd F.TAL_CYC_COUNT n + s.cyclesOf d i) % 2 ^ 64) n else s1).bump

/-- The 64-bit value of a counter (R399). -/
def State.counter (s : State) (n j : Nat) : Nat := s.rd F.TAL_CNT_WRAP n j * 2 ^ 48 + s.rd F.TAL_CNT_VALUE n j

end Sys2Proof.Machine
end

