-- ==== Sys2Proof/Machine/Coh.lean ====
section
/-! DEFINITION. The lines of L1s and cluster caches, and the home slices (09_caches.md, 10_coherence.md): what the rows of the
two protocols do to them. Memory (`State.mem`) holds the coherent value of every line; the caches hold states, and an L1 line
that was sent an Inv holds the old data it may still serve (10_coherence.md R210, R211). -/

namespace Sys2Proof.Machine

open Sys2Proof

/-! ### L1 lines (09_caches.md R191, R192) -/

/-- An L1 line that is not I. -/
def State.l1 (s : State) (core ln : Nat) : Option L1Line := aget s.coh.l1 ⟨core, ln⟩

/-- State of an L1 line (10_coherence.md R208). -/
def State.l1St (s : State) (core ln : Nat) : ASt :=
  match s.l1 core ln with
  | none => .I
  | some x => x.st

/-- An L1 line replaced; an L1 line that becomes I. -/
def State.setL1 (s : State) (core ln : Nat) (x : L1Line) : State :=
  { s with coh := { s.coh with l1 := aput s.coh.l1 ⟨core, ln⟩ x } }
def State.delL1 (s : State) (core ln : Nat) : State := { s with coh := { s.coh with l1 := adel s.coh.l1 ⟨core, ln⟩ } }

/-- A request of an L1, and a message to one (10_coherence.md Table 10.1, R209). -/
def State.reqA (s : State) (core ln : Nat) (r : AReq) : State :=
  { s with coh := { s.coh with aq := s.coh.aq ++ [(core, ln, r)] } }
def State.msgA (s : State) (core ln : Nat) (m : AMsg) : State :=
  { s with coh := { s.coh with am := s.coh.am ++ [(core, ln, m)] } }

/-- The lines of a core's set that hold a way (a line in WI is in the write-back buffer). -/
def State.l1Ways (s : State) (core set : Nat) : List (Nat × L1Line) :=
  (s.coh.l1.filter (fun e => e.1.unit == core && e.1.line % 128 == set && e.2.st != .WI)).map (fun e => (e.1.line, e.2))

/-- L1 steps of a core (09_caches.md R186). -/
def State.l1Steps (s : State) (core : Nat) : Nat := s.rd F.LS_SPLIT_L1_STEPS (core / 8) (core % 8)

/-- Once every NRU bit of a set is clear, those of all its lines but one are set (09_caches.md R191). -/
def State.nruSet (s : State) (core ln : Nat) : State :=
  let set := s.l1Ways core (ln % 128)
  if set.any (fun e => e.2.nru) then s
  else { s with coh := { s.coh with l1 := s.coh.l1.map (fun e =>
    if e.1.unit == core && e.1.line % 128 == ln % 128 && e.2.st != .WI && e.1.line != ln then (e.1, { e.2 with nru := true })
    else e) } }

/-- A line is used: a hit clears its NRU bit. The access that its fill served is no hit, and leaves a streaming fill's bit set
(09_caches.md R191). -/
def State.useL1 (s : State) (core ln : Nat) : State :=
  { s with coh := { s.coh with l1 := amod s.coh.l1 ⟨core, ln⟩ (fun x =>
    if x.fresh then { x with nru := x.stream, fresh := false, stream := false } else { x with nru := false }) } }.nruSet core ln

/-- A stable line of an L1 is evicted (Table 10.2). -/
def State.evictL1 (s : State) (core ln : Nat) : State :=
  match s.l1 core ln with
  | none => s
  | some x =>
    match x.st with
    | .S | .Z => s.delL1 core ln
    | .E => (s.setL1 core ln { x with st := .WI }).reqA core ln .putE
    | .M => (s.setL1 core ln { x with st := .WI }).reqA core ln .putM
    | _ => s

/-- A stable state. -/
def ASt.stable : ASt → Bool
  | .S | .Z | .E | .M => true
  | _ => false

/-- The way a miss takes in its set, with the line to be evicted from it: the lowest invalid way, or the lowest way whose bit
is set (09_caches.md R191); where no line that may be evicted has its bit set, the lowest of their ways (DESIGN CHOICE, log
87); none while every way is in transit. -/
def State.l1Way (s : State) (core set : Nat) : Option (Nat × Option Nat) :=
  let ls := s.l1Ways core set
  match (List.range (4 * s.l1Steps core)).find? (fun w => ls.all (fun e => e.2.way != w)) with
  | some w => some (w, none)
  | none =>
    let ways := fun (p : L1Line → Bool) =>
      (List.range (4 * s.l1Steps core)).find? (fun w => ls.any (fun e => e.2.way == w && e.2.st.stable && p e.2))
    match (ways (fun x => x.nru)).orElse (fun _ => ways (fun _ => true)) with
    | some w => (ls.find? (fun e => e.2.way == w)).map (fun e => (w, some e.1))
    | none => none

/-- A load or store miss allocates (09_caches.md R192): a victim is evicted and the request is sent. -/
def State.missL1 (s : State) (core ln : Nat) (st : ASt) (r : AReq) (stream : Bool) : State :=
  match s.l1Way core (ln % 128) with
  | none => s
  | some (w, v) =>
    let s := match v with
      | none => s
      | some l => s.evictL1 core l
    ((s.setL1 core ln ⟨st, w, stream, none, stream, true⟩).nruSet core ln).reqA core ln r

/-- A load or a store at the L1: what Table 10.2 sends where it does not hit. -/
def State.wantLoad (s : State) (core ln : Nat) (stream : Bool) : State :=
  match s.l1St core ln with
  | .I => s.missL1 core ln .IR .getS stream
  | _ => s
def State.wantStore (s : State) (core ln : Nat) (stream : Bool) : State :=
  match s.l1 core ln with
  | none => s.missL1 core ln .IM .getM stream
  | some x =>
    match x.st with
    | .S => (s.setL1 core ln { x with st := .SM, fresh := true }).reqA core ln .upg
    | .Z => (s.setL1 core ln { x with st := .IM, old := none, stream := stream, fresh := true }).reqA core ln .getM
    | .E => s.setL1 core ln { x with st := .M }
    | _ => s

/-- An L1 line serves loads (Table 10.2). -/
def ASt.loads : ASt → Bool
  | .S | .Z | .E | .M | .SM => true
  | _ => false

/-- Every Z line of a core becomes I: an acquire at DEV or SYS scope (10_coherence.md R211). -/
def State.dropZ (s : State) (core : Nat) : State :=
  { s with coh := { s.coh with l1 := s.coh.l1.filter (fun e => !(e.1.unit == core && e.2.st == .Z)) } }

/-- An Inv in the channel to a core stands behind another message: an acquire waits until that has arrived, since messages of
a channel arrive in the order they were sent (10_coherence.md R209). -/
def State.invBlocked (s : State) (core : Nat) : Bool :=
  ((s.coh.am.filter (fun x => x.1 == core)).dropWhile (fun x => x.2.2 == AMsg.inv)).any (fun x => x.2.2 == AMsg.inv)

/-- FENCE.DEV has each modified line of the core at the cluster cache, where the matrix feeders read it (05_matrix_engines.md
R115). -/
def State.freshen (s : State) (core : Nat) : State :=
  { s with coh := { s.coh with cc := s.coh.cc.map (fun e =>
    if e.1.unit == core / 8 && e.2.own == some core then (e.1, { e.2 with stale := none }) else e) } }

/-- An acquire at DEV or SYS scope applies the invalidations queued for its core's L1 (Table 4.3; 10_coherence.md R211). -/
def State.applyInvs (s : State) (core : Nat) : State :=
  let q := (s.coh.am.filter (fun m => m.1 == core && m.2.2 == AMsg.inv)).map (fun m => m.2.1)
  let am := s.coh.am.filter (fun m => !(m.1 == core && m.2.2 == AMsg.inv))
  let l1 : List (UL × L1Line) := s.coh.l1.filterMap (fun e =>
    if e.1.unit == core && q.contains e.1.line then
      (if e.2.st == ASt.S || e.2.st == ASt.Z then none
       else if e.2.st == ASt.SM then some (e.1, { e.2 with st := ASt.IM, old := none })
       else some e)
    else some e)
  let s := { s with coh := { s.coh with am := am, l1 := l1 } }
  s.dropZ core

/-! ### Cluster-cache lines (09_caches.md R193-R204) -/

/-- A line of a cluster cache, or of its victim cache. -/
def State.ccLine (s : State) (cl ln : Nat) : Option CcLine := aget s.coh.cc ⟨cl, ln⟩

/-- A cluster-cache line replaced; one that becomes I. -/
def State.setCc (s : State) (cl ln : Nat) (x : CcLine) : State :=
  { s with coh := { s.coh with cc := aput s.coh.cc ⟨cl, ln⟩ x } }
def State.delCc (s : State) (cl ln : Nat) : State :=
  { s with coh := { s.coh with cc := adel s.coh.cc ⟨cl, ln⟩, vc := s.coh.vc.filter (fun e => e != (cl, ln)) } }

/-- The set of a line (09_caches.md R193). -/
def ccSet (ln : Nat) : Nat := (ln % 8192) ^^^ (ln / 8192 % 8192)

/-- The cores of a cluster. -/
def coresOf (cl : Nat) : List Nat := (List.range 8).map (fun k => 8 * cl + k)

/-- A message is on its way between a cluster cache and one of its L1s for a line. -/
def State.moving (s : State) (cl ln : Nat) : Bool :=
  s.coh.am.any (fun m => m.1 / 8 == cl && m.2.1 == ln) || s.coh.ar.any (fun m => m.1 / 8 == cl && m.2.1 == ln)

/-- A cluster-cache line in transit: it is never a victim (09_caches.md R198). -/
def State.inTransit (s : State) (cl ln : Nat) (x : CcLine) : Bool :=
  (x.st != .S && x.st != .O) || x.cur.isSome || x.snoop.isSome || s.moving cl ln

/-- The current mask of a class in the partition that owns a cluster (09_caches.md R196; 02_folio.md R42, R57). -/
def State.wayMask (s : State) (cl cls : Nat) : Nat := s.rd F.WAY_ADJ_MASK (s.clusterPart cl) cls

/-- The lines of a set of a cluster cache that hold a way. -/
def State.ccWays (s : State) (cl set : Nat) : List (Nat × CcLine) :=
  (s.coh.cc.filter (fun e => e.1.unit == cl && ccSet e.1.line == set && !e.2.victim)).map (fun e => (e.1.line, e.2))

/-- The poison kind of a line as a cluster holds it, or as its stack stores it (09_caches.md R193, R195). -/
def State.kindIn (s : State) (cl ln : Nat) : Poison :=
  match s.ccLine cl ln with
  | some x => if x.st == .S || x.st == .O || x.st == .SXb then x.pk else s.linePoison ln
  | none => s.linePoison ln

/-- The poison kind of the data that a cluster writes back or forwards. -/
def State.sentKind (s : State) (cl ln : Nat) : Poison :=
  match s.ccLine cl ln with
  | some x => x.pk
  | none => .none

/-- The key under which a cluster's threads read (08_berim_stacks.md R176). -/
def State.clusterKey (s : State) (cl : Nat) : Nat := s.clusterPart cl

/-- Inv to the present L1s of a line but one (Table 10.3). Each of them may serve the data it holds until the Inv has arrived
and the Z window is over, so it keeps that data. -/
def State.sendInvs (s : State) (cl ln : Nat) (pres : BitVec 8) (but : Option Nat) : State :=
  ((coresOf cl).filter (fun c => pres.getLsbD (c % 8) && some c != but)).foldl (fun s c =>
    let holds : Bool := match s.l1 c ln with
      | none => false
      | some x => x.st == .S || x.st == .SM || (x.st == .IR && s.coh.am.any (fun m => m == (c, ln, .dataS)))
    let s := if holds then { s with coh := { s.coh with l1 := amod s.coh.l1 ⟨c, ln⟩ (fun x =>
      { x with old := if x.old.isSome || s.kindIn cl ln != .none then x.old else some (s.lineData (s.clusterKey cl) ln) }) } } else s
    s.msgA c ln .inv) s

/-- The L1 copies of a line that its cluster cache gives up: shared copies are sent Inv, the owner's data is taken back
(DEDUCED, log 23). -/
def State.takeBack (s : State) (cl ln : Nat) (x : CcLine) : State × Bool :=
  let dirty := match x.own with
    | none => false
    | some k => s.l1St k ln == .M || s.coh.aq.any (fun e => e == (k, ln, .putM))
  let s := match x.own with
    | none => s
    | some k => if (s.l1St k ln).stable then s.delL1 k ln else s
  (s.sendInvs cl ln x.pres x.own, x.dirty || dirty)

/-- Write-backs that a cluster has outstanding to a home (10_coherence.md R219). -/
def State.wbOut (s : State) (cl h : Nat) : Nat :=
  (s.coh.cc.filter (fun e => e.1.unit == cl && e.2.st == .OIb && homeOf e.1.line == h)).length

/-- A message of level B other than a request. -/
def State.note (s : State) (n : BNote) : State := { s with coh := { s.coh with bn := s.coh.bn ++ [n] } }

/-- The entries of a class's allotment of a victim cache (09_caches.md R203). -/
def State.vcCount (s : State) (cl cls : Nat) : Nat :=
  (s.coh.cc.filter (fun e => e.1.unit == cl && e.2.victim && e.2.cls == cls)).length

/-- A stable line of a cluster cache gives up its way to a fill of a class (09_caches.md R202, R203): a clean line is dropped;
a modified one goes to the victim cache or is written back (DEDUCED, log 23). -/
def State.evictCc (s : State) (cl ln cls : Nat) : State :=
  match s.ccLine cl ln with
  | none => s
  | some x =>
    let (s, dirty) := s.takeBack cl ln x
    if !dirty then s.delCc cl ln
    else
      let x := { x with dirty := true, pres := 0, own := none, stale := none }
      if cls ≤ 2 then
        let s := s.setCc cl ln { x with victim := true, cls := cls }
        { s with coh := { s.coh with vc := s.coh.vc ++ [(cl, ln)] } }
      else ((s.setCc cl ln { x with st := .OIb }).note (.wbM cl ln)).tallyCc cl 0x103 cls

/-- Lines of a cluster cache grow older. -/
def State.ageCc (s : State) (cl : Nat) (lines : List Nat) (add : Nat) : State :=
  { s with coh := { s.coh with cc := s.coh.cc.map (fun e =>
    if e.1.unit == cl && lines.contains e.1.line then (e.1, { e.2 with age := e.2.age + add }) else e) } }

/-- What a fill finds in its set (09_caches.md R198): a way, with the line to be evicted from it and how much the free lines
`free` of the mask age; or every way of the mask holds a line in transit. -/
inductive CcPick where
  | empty (w : Nat)
  | evict (w v add : Nat) (free : List Nat)
  | busy
  deriving DecidableEq, Repr

/-- The way a fill of a class takes (09_caches.md R198): the lowest invalid way of the mask, or the lowest of age 3 after
ageing. A line in transit does not age (DESIGN CHOICE, log 88). -/
def State.ccPick (s : State) (cl ln cls : Nat) : CcPick :=
  let ls := s.ccWays cl (ccSet ln)
  let ways := (List.range 16).filter (fun w => bitsOf (s.wayMask cl cls) w 1 == 1)
  match ways.find? (fun w => ls.all (fun e => e.2.way != w)) with
  | some w => .empty w
  | none =>
    let free := ls.filter (fun e => ways.contains e.2.way && !s.inTransit cl e.1 e.2)
    let add := 3 - free.foldl (fun m e => max m e.2.age) 0
    match ways.findSome? (fun w => free.find? (fun e => e.2.way == w && e.2.age + add == 3)) with
    | none => .busy
    | some v => .evict v.2.way v.1 add (free.map (fun e => e.1))

/-- A line is modified, in its cluster cache or in the L1 that owns it. -/
def State.ccDirty (s : State) (cl ln : Nat) : Bool :=
  match s.ccLine cl ln with
  | none => false
  | some x => (s.takeBack cl ln x).2

/-- The victim of a fill of classes 0 to 2 finds its class's allotment full (09_caches.md R203). -/
def State.vcFull (s : State) (cl ln cls : Nat) : Bool :=
  match s.ccPick cl ln cls with
  | .evict _ v _ _ => cls ≤ 2 && s.ccDirty cl v && decide (s.fol.cur.victim.getD cls 0 ≤ s.vcCount cl cls)
  | _ => false

/-- The way for a fill, its victim evicted. None while every way of the mask holds a line in transit, the class's allotment is
full (09_caches.md R203) or the victim's home has eight of the cluster's write-backs outstanding (10_coherence.md R219). -/
def State.ccWay (s : State) (cl ln cls : Nat) : Option (State × Nat) :=
  match s.ccPick cl ln cls with
  | .empty w => some (s, w)
  | .busy => none
  | .evict w v add free =>
    if s.vcFull cl ln cls || (2 < cls && s.ccDirty cl v && 8 ≤ s.wbOut cl (homeOf v)) then none
    else some ((s.ageCc cl free add).evictCc cl v cls, w)

/-- A fill waits: one that a full allotment keeps waiting is counted once (VC_STAT.FULLWAIT). -/
def State.fillWaits (s : State) (cl ln cls : Nat) : State :=
  if s.vcFull cl ln cls && !s.coh.vwait.contains (cl, ln) then
    ({ s.incSat F.VC_STAT_FULLWAIT cl with coh := { s.coh with vwait := s.coh.vwait ++ [(cl, ln)] } }).tallyCc cl 0x108 cls
  else s

/-- A fill of a class is asked for (20_tally_and_ledger.md Table 20.3): a lookup missed; a fill with age 3 is a streaming one. -/
def State.ccFilled (s : State) (cl cls age : Nat) : State :=
  let s := s.tallyCc cl 0x102 cls
  if age == 3 then s.tallyCc cl 0x104 cls else s

/-- A hit sets the line's age to 0 (09_caches.md R198). -/
def State.hitCc (s : State) (cl ln : Nat) : State :=
  { s with coh := { s.coh with cc := amod s.coh.cc ⟨cl, ln⟩ (fun x => { x with age := 0 }) } }

/-- Every copy of a line, and the data of it on its way, takes the kind POISON: a later access from any cluster meets it, and no
write-back of an owner clears it (09_caches.md R207). -/
def State.poisonCopies (s : State) (ln : Nat) : State :=
  { s with coh := { s.coh with
    cc := s.coh.cc.map (fun e => if e.1.line == ln then (e.1, { e.2 with pk := .poison }) else e)
    bn := s.coh.bn.map (fun n => match n with
      | .datS c l p => .datS c l (if l = ln then .poison else p)
      | .datX c l p => .datX c l (if l = ln then .poison else p)
      | .gntX c l p => .gntX c l (if l = ln then .poison else p)
      | .fwdS c l p => .fwdS c l (if l = ln then .poison else p)
      | .fwdX c l p => .fwdX c l (if l = ln then .poison else p)
      | .snAckD c l p => .snAckD c l (if l = ln then .poison else p)
      | n => n) } }

/-- A line stored as POISON on an error. -/
def State.poisonLine (s : State) (ln : Nat) : State := (s.setPoison ln .poison).poisonCopies ln

/-! ### Requests to a home (10_coherence.md R215, R220, R221) -/

/-- A requester sends a request; while it is under Retry at that home, it holds the request (10_coherence.md R221). -/
def State.sendB (s : State) (m : BMsg) : State :=
  if s.coh.want.any (fun w => w.r == m.r && homeOf w.line == homeOf m.line) then
    { s with coh := { s.coh with want := s.coh.want ++ [m] } }
  else { s with coh := { s.coh with bq := s.coh.bq ++ [m] } }

/-- A write or update of a cluster to a line is under way: the cluster fetches the line again only after it (R201, R217;
08_berim_stacks.md R183). -/
def State.ownWrite (s : State) (cl ln : Nat) : Bool :=
  let w := fun (m : BMsg) => m.r == cl && m.line == ln && (m.req == .wrF || m.req == .wrP || m.req == .redU)
  s.coh.bq.any w || s.coh.want.any w || (s.coh.txns ++ s.coh.queued).any (fun t => w t.msg) || s.coh.bn.any (fun n => match n with
    | .retry m _ => w m
    | .wrAck r l _ _ => r == cl && l == ln
    | _ => false)

/-- A request of a cluster cache. -/
def ccReq (cl ln cls : Nat) (q : BReq) : BMsg := ⟨q, cl, ln, cls, false, 0, 0, 0, [], 0, .none⟩

/-- A cluster-cache line in hand goes on with its request (Table 10.3): it recalls another L1's copy, asks its home, or
replies (DEDUCED, log 23). -/
def State.serveCc (s : State) (cl ln : Nat) : State :=
  match s.ccLine cl ln with
  | none => s
  | some x =>
    match x.cur with
    | none => s
    | some (k, q) =>
      let other := match x.own with
        | some j => if j == k then none else some j
        | none => none
      match other with
      | some j => (s.setCc cl ln { x with wait := if q == .getS then .down else .recall }).msgA j ln
        (if q == .getS then .down else .recall)
      | none =>
        if x.st == .I then
          (s.setCc cl ln { x with st := if q == .getS then .ISb else .IXb, wait := .levelB }).sendB
            (ccReq cl ln 3 (if q == .getS then .rdS else .rdX))
        else if q == .getS then
          let alone := x.st == .O && x.pres &&& ~~~(1#8 <<< (k % 8)) == 0
          let own := if alone then some k else x.own
          let x := { x with cur := none, wait := .none, pres := x.pres ||| (1#8 <<< (k % 8)), own := own }
          (s.setCc cl ln x).msgA k ln (if alone then .dataE else .dataS)
        else if x.st == .O then
          (s.setCc cl ln { x with cur := none, wait := .none, pres := 1#8 <<< (k % 8), own := some k }).msgA k ln
            (if q == .upg then .grant else .dataM)
        else (s.setCc cl ln { x with st := .SXb, wait := .levelB }).sendB (ccReq cl ln 3 .upX)

/-- An entry of the victim cache is freed (09_caches.md R204): its L1 copies are sent Inv, and a request in hand is taken
again as the first of its line. -/
def State.freeVictim (s : State) (cl ln : Nat) (x : CcLine) : State :=
  let s := (s.sendInvs cl ln x.pres none).delCc cl ln
  match x.cur with
  | some (k, q) => { s with coh := { s.coh with aq := (k, ln, q) :: s.coh.aq } }
  | none => s

/-- A snoop answered by a line whose L1 owner has returned its data, Table 10.7: as a modified or clean O line. A line of the
victim cache is freed (09_caches.md R204). Receiver 84 is the home. -/
def State.answerSnoop (s : State) (cl ln : Nat) (x : CcLine) (k : Snoop) (rcv : Nat) : State :=
  let x := { x with snoop := none, own := none, dirty := false, stale := none }
  let stay := fun (s : State) (st : BSt) (pres : BitVec 8) =>
    if x.victim then s.freeVictim cl ln { x with pres := pres }
    else if st == .I && x.cur.isNone then s.delCc cl ln
    else s.setCc cl ln { x with st := st, pres := pres }
  match k with
  | .fwdS => (if rcv < 84 then (stay s .S x.pres).note (.fwdS rcv ln x.pk) else stay s .S x.pres).note (.snAckD cl ln x.pk)
  | .fwdX =>
    let s := stay (s.sendInvs cl ln x.pres none) .I 0
    (if rcv < 84 then s.note (.fwdX rcv ln x.pk) else s).note (.snAck cl ln)
  | .rcl => (stay (s.sendInvs cl ln x.pres none) .I 0).note (.snAckD cl ln x.pk)
  | .inv => (stay (s.sendInvs cl ln x.pres none) .I 0).note (.snAck cl ln)

/-- The Rdata of an L1 has come: the data counts as the line's, a waiting snoop is answered before the request in hand goes on
(Table 10.3; 10_coherence.md R218). -/
def State.gotRdata (s : State) (cl ln : Nat) (x : CcLine) (core : Nat) (dirty : Bool) : State :=
  let down := x.wait == .down
  let x := { x with dirty := x.dirty || dirty, own := none, wait := .none, stale := none }
  let x := if down then x else { x with pres := x.pres &&& ~~~(1#8 <<< (core % 8)) }
  match x.snoop with
  | some (k, rcv) => (s.answerSnoop cl ln x k rcv).serveCc cl ln
  | none => (s.setCc cl ln x).serveCc cl ln

/-! ### Home slices (10_coherence.md R216-R222) -/

/-- The directory entry of a line; without one it is U. -/
def State.dirOf (s : State) (ln : Nat) : Option Dir := mget s.coh.dir ln
def State.setDir (s : State) (ln : Nat) (d : Dir) : State := { s with coh := { s.coh with dir := mput s.coh.dir ln d } }
def State.delDir (s : State) (ln : Nat) : State := { s with coh := { s.coh with dir := mdel s.coh.dir ln } }

/-- The directory set of a line: home slice, and bits [22:7] of the stack-local address (10_coherence.md R216). -/
def dirSet (ln : Nat) : Nat × Nat := ((stackOf (128 * ln)).1, (stackOf (128 * ln)).2 / 128 % 65536)

/-- The entries of a directory set. -/
def State.dirWays (s : State) (ln : Nat) : List (Nat × Dir) := s.coh.dir.filter (fun e => dirSet e.1 == dirSet ln)

/-- An entry is used: it counts as recently used (10_coherence.md R216). Once every other entry of the set is, they are marked not
recently used (DESIGN CHOICE, log 89). -/
def State.useDir (s : State) (ln : Nat) : State :=
  { s with coh := { s.coh with dir := s.coh.dir.map (fun e =>
    if e.1 == ln then (e.1, { e.2 with nru := false })
    else if (s.dirWays ln).all (fun f => f.1 == ln || !f.2.nru) && dirSet e.1 == dirSet ln then (e.1, { e.2 with nru := true })
    else e) } }

/-- A line is busy (10_coherence.md R217). -/
def State.lineBusy (s : State) (ln : Nat) : Bool :=
  s.coh.txns.any (fun t => t.msg.line == ln) || s.coh.queued.any (fun t => t.msg.line == ln)

/-- Tracker entries of a home in use or set aside (10_coherence.md R220, R221). -/
def State.trkUsed (s : State) (h : Nat) : List Nat :=
  (((s.coh.txns ++ s.coh.queued).filter (fun t => homeOf t.msg.line == h)).map (fun t => t.trk)).filter (fun e => e < 256)
    ++ (s.coh.aside.filter (fun a => a.1 == h)).map (fun a => a.2.2)

/-- A free shared entry. -/
def State.sharedFree (s : State) (h : Nat) : Option Nat :=
  ((List.range 172).map (fun i => 84 + i)).find? (fun e => !(s.trkUsed h).contains e)

/-- The head of a credit queue is served where its reserved entry or a shared one is free (10_coherence.md R221). -/
def State.grantCredit (s : State) (h : Nat) : State :=
  match s.coh.credq.find? (fun c => c.1 == h) with
  | none => s
  | some (_, r) =>
    match if (s.trkUsed h).contains r then s.sharedFree h else some r with
    | none => s
    | some e => { s with coh := { s.coh with
        credq := s.coh.credq.erase (h, r), aside := s.coh.aside ++ [(h, r, e)], bn := s.coh.bn ++ [.crGnt r h] } }

/-- A transaction replaced in the list, by line (a line has at most one). -/
def State.setTxn (s : State) (t : Txn) : State :=
  { s with coh := { s.coh with txns := s.coh.txns.map (fun x => if x.msg.line == t.msg.line then t else x) } }

/-- Snoops sent to holders (Table 10.5). -/
def State.sendSnoops (s : State) (k : Snoop) (ln rcv : Nat) (dst : List Nat) : State :=
  (dst.foldl (fun s c => s.note (.sn k c ln rcv)) s).tallyHome (homeOf ln) 0x203 dst.length

/-- A home reads or writes a line of its stack (20_tally_and_ledger.md Table 20.3). -/
def State.stkRead (s : State) (ln : Nat) : State := s.tallyHome (homeOf ln) 0x205 1
def State.stkWrote (s : State) (ln : Nat) : State := s.tallyHome (homeOf ln) 0x206 1

/-- The clusters of a sharer mask. -/
def sharersOf (m : BitVec 64) : List Nat := (List.range 64).filter (fun c => m.getLsbD c)

/-- A write or update reaches its stack (Table 10.6; 08_berim_stacks.md R169): what the requester is told. -/
def State.performB (s : State) (m : BMsg) : State × Poison :=
  match m.req with
  | .redU => ({ s with stk := { s.stk with upd := s.stk.upd ++ m.upd } }, .none)
  | _ =>
    if s.tripped m.line then (s, .none)
    else if m.pk != .none then ((s.setPoison m.line m.pk).stkWrote m.line, .none)
    else
      ((s.stkWrote m.line).wrMask m.key m.line m.mask m.data, if m.mask == BitVec.allOnes 128 then .none else s.linePoison m.line)

/-- The bytes of a line that a read names, as the line stands (10_coherence.md R222). -/
def State.readB (s : State) (m : BMsg) : BNote :=
  let off := ((List.range 128).find? (fun i => m.mask.getLsbD i)).getD 0
  let n := ((List.range 128).filter (fun i => m.mask.getLsbD i)).length
  .rdData m.r m.line (s.linePoison m.line) (128 * m.line + off) (s.rdBytes m.key (128 * m.line + off) n)

/-- The request of a transaction is answered: every snoop it needed has been (Table 10.6). -/
def State.answer (s : State) (t : Txn) : State :=
  let m := t.msg
  let ctl := match s.dirOf m.line with
    | some d => d.ctl
    | none => false
  if t.evict then (s.delDir m.line).setTxn { t with replied := true }
  else if t.gone then s.setTxn { t with replied := true }
  else match m.req with
  | .rdS | .rdX => (((s.stkRead m.line).setDir m.line ⟨0, some m.r, ctl || m.cls ≤ 2, false⟩).note (.datX m.r m.line (s.linePoison m.line))).setTxn
      { t with replied := true, needDone := some m.r }
  | .upX =>
    let had := match s.dirOf m.line with
      | some d => d.own.isNone && d.sharers.getLsbD m.r
      | none => false
    (((if had then s else s.stkRead m.line).setDir m.line ⟨0, some m.r, ctl || m.cls ≤ 2, false⟩).note (if had then .gntX m.r m.line .none
      else .datX m.r m.line (s.linePoison m.line))).setTxn
      { t with replied := true, needDone := some m.r }
  | .rdN => ((s.stkRead m.line).note (s.readB m)).setTxn { t with replied := true }
  | .redU => ((s.performB m).1.delDir m.line).setTxn { t with replied := true }
  | _ =>
    let (s, p) := s.performB m
    ((s.delDir m.line).note (.wrAck m.r m.line (if t.lost && p == .none then .lost else p) m.op)).setTxn { t with replied := true }

/-- Every copy of a line goes, its data discarded: L1 copies are sent Inv, a request in hand asks the home again. -/
def State.dropCopies (s : State) (ln : Nat) : State :=
  let s := { s with coh := { s.coh with
    aq := s.coh.aq.filter (fun e => !(e.2.1 == ln && (e.2.2 == AReq.putE || e.2.2 == AReq.putM)))
    ar := s.coh.ar.filter (fun e => e.2.1 != ln)
    am := s.coh.am.filter (fun e => !(e.2.1 == ln && (e.2.2 == AMsg.recall || e.2.2 == AMsg.down)))
    bn := s.coh.bn.filter (fun n => match n with
      | .wbM _ l => l != ln
      | _ => true)
    held := s.coh.held.filter (fun e => e.2 != ln) } }
  (s.coh.cc.filter (fun e => e.1.line == ln)).foldl (fun s (k, x) =>
    let cl := k.unit
    let s := match x.own with
      | some j => s.delL1 j ln
      | none => s
    let s := s.sendInvs cl ln x.pres x.own
    let x := { x with pres := 0, own := none, dirty := false, stale := none, snoop := none }
    if x.st == .ISb || x.st == .IXb then s
    else if x.st == .SXb then s.setCc cl ln { x with st := .IXb, cur := x.cur.map (fun e => (e.1, AReq.getM)) }
    else if x.cur.isSome && !x.victim then (s.setCc cl ln { x with st := .I, wait := .none, pk := .none }).serveCc cl ln
    else s.freeVictim cl ln x) s

/-- DIR_UE, an uncorrectable error of the directory entry that a home reads (17_fault_tolerance.md Table 17.1): the line is
stored as POISON, and SnInv takes every copy of the 64 cluster caches, whose data is discarded, in one step (DEDUCED, log 96).
-/
def State.dirCheck (s : State) (ln : Nat) : State :=
  if (s.dirOf ln).isNone then s
  else match s.takeFind (.dir (homeOf ln)) with
  | none => s
  | some (_, s) => (((s.setPoison ln .poison).delDir ln).dropCopies ln).tallyHome (homeOf ln) 0x203 64

/-- The row of Table 10.6 for a transaction in the list, from the directory state that holds now. -/
def State.rowB (s0 : State) (t : Txn) : State :=
  let m := t.msg
  let s := (s0.dirCheck m.line).useDir m.line
  match s.dirOf m.line with
  | none => s.answer t
  | some d =>
    let s := if m.cls ≤ 2 then s.setDir m.line { d with ctl := true } else s
    match d.own with
    | none =>
      match m.req with
      | .rdS => (((s.stkRead m.line).setDir m.line { d with sharers := d.sharers ||| (1#64 <<< m.r), ctl := d.ctl || m.cls ≤ 2 }).note
          (.datS m.r m.line (s.linePoison m.line))).setTxn { t with replied := true, needDone := some m.r }
      | .rdN => s.answer t
      | _ =>
        let dst := (sharersOf d.sharers).filter (fun c => c != m.r || !(m.req == .rdX || m.req == .upX))
        if dst.isEmpty then s.answer t
        else (s.sendSnoops .inv m.line 84 dst).setTxn { t with snoops := dst.map (fun c => (c, .inv)) }
    | some q =>
      if q == m.r then (s.delDir m.line).answer t
      else match m.req with
        | .rdS => (s.sendSnoops .fwdS m.line m.r [q]).setTxn { t with snoops := [(q, .fwdS)], replied := true, needDone := some m.r }
        | .rdN => (s.sendSnoops .fwdS m.line 84 [q]).setTxn { t with snoops := [(q, .fwdS)] }
        | .rdX => (s.sendSnoops .fwdX m.line m.r [q]).setTxn { t with snoops := [(q, .fwdX)], replied := true, needDone := some m.r }
        | .upX => (s.sendSnoops .fwdX m.line m.r [q]).setTxn { t with snoops := [(q, .fwdX)], replied := true, needDone := some m.r }
        | _ => (s.sendSnoops .rcl m.line 84 [q]).setTxn { t with snoops := [(q, .rcl)] }

/-- Updates of a line that its reduction unit has not applied. -/
def State.updPending (s : State) (ln : Nat) : Bool := s.stk.upd.any (fun u => u.line == ln)

/-- A transaction is answered once no snoop is out and no write-back is awaited; it ends once it is answered, no Done is awaited,
and its updates are applied (10_coherence.md R217, R222). Its tracker entry is free (R221). -/
def State.settleTxn (s : State) (ln : Nat) : State :=
  match s.coh.txns.find? (fun t => t.msg.line == ln && !t.again) with
  | none => s
  | some t =>
    let s := if t.snoops.isEmpty && !t.replied then s.answer t else s
    match s.coh.txns.find? (fun t => t.msg.line == ln) with
    | none => s
    | some t =>
      if t.snoops.isEmpty && t.replied && t.needDone.isNone && !(t.msg.req == .redU && s.updPending ln) then
        let s := { s with coh := { s.coh with txns := s.coh.txns.filter (fun x => x.msg.line != ln) } }
        (if t.msg.req == .redU && !t.gone then s.note (.wrAck t.msg.r ln t.msg.pk t.msg.op) else s).grantCredit (homeOf ln)
      else s

/-- A directory entry's eviction begins: SnRcl to the owner, or SnInv to every sharer (10_coherence.md R216). -/
def State.evictEntry (s : State) (v : Nat) (d : Dir) : State :=
  let (k, dst) := match d.own with
    | some q => (Snoop.rcl, [q])
    | none => (Snoop.inv, sharersOf d.sharers)
  let s := s.sendSnoops k v 84 dst
  let t : Txn := ⟨ccReq 84 v 3 .rdN, 256, dst.map (fun c => (c, k)), none, false, false, true, false, false⟩
  { s with coh := { s.coh with txns := s.coh.txns ++ [t] } }.settleTxn v

/-- A request that needs an entry in a full set evicts a not recently used entry whose line is not busy (10_coherence.md
R216): the first by line number, or the first that is not busy where none is marked (DESIGN CHOICE, log 89). -/
def State.evictDir (s : State) (ln : Nat) : State :=
  let free := (s.dirWays ln).filter (fun e => !s.lineBusy e.1)
  match (free.find? (fun e => e.2.nru)).orElse (fun _ => free.head?) with
  | none => s
  | some (v, d) => s.evictEntry v d

/-- A transaction may start: its line has no other, and its set has room for the entry it needs. -/
def State.dirRoom (s : State) (m : BMsg) : Bool :=
  !(m.req == .rdS || m.req == .rdX || m.req == .upX) || (s.dirOf m.line).isSome || (s.dirWays m.line).length < 16

/-- Accepted requests that are the first of their line, none of whose transactions is in progress (10_coherence.md R221). -/
def State.heads (s : State) : List Txn :=
  s.coh.queued.filter (fun t => s.coh.txns.all (fun x => x.msg.line != t.msg.line)
    && (s.coh.queued.find? (fun x => x.msg.line == t.msg.line)) == some t)

/-- A set has more requests that wait for an entry than evictions in progress, and an entry to evict (10_coherence.md R216). -/
def State.dirWants (s : State) (ln : Nat) : Bool :=
  decide ((s.coh.txns.filter (fun x => x.evict && dirSet x.msg.line == dirSet ln)).length
    < (s.heads.filter (fun t => dirSet t.msg.line == dirSet ln && !s.dirRoom t.msg)).length)
    && (s.dirWays ln).any (fun e => !s.lineBusy e.1)

/-- Accepted requests start in acceptance order, each at the head of its line (10_coherence.md R221); one whose directory set is
full evicts an entry first (R216). -/
def State.pump : Nat → State → State
  | 0, s => s
  | n + 1, s =>
    match s.heads.find? (fun t => s.dirRoom t.msg) with
    | some t => State.pump n (({ s with coh := { s.coh with
        queued := s.coh.queued.erase t, txns := s.coh.txns ++ [t] } }.rowB t).settleTxn t.msg.line)
    | none =>
      match s.heads.find? (fun t => s.dirWants t.msg.line) with
      | some t => State.pump n (s.evictDir t.msg.line)
      | none => s

/-- Requests that wait may start. -/
def State.pumpAll (s : State) : State := State.pump (2 * s.coh.queued.length + 1) s

/-- A transaction goes on after a reply (10_coherence.md R217), and requests that wait may start. -/
def State.advance (s : State) (ln : Nat) : State := (s.settleTxn ln).pumpAll

/-- A refused requester takes its place in the credit queue. -/
def State.oweB (s : State) (m : BMsg) (h : Nat) : State :=
  { s with coh := { s.coh with credq := if s.coh.credq.contains (h, m.r) then s.coh.credq else s.coh.credq ++ [(h, m.r)] } }

/-- A requester answered Retry by a home under unit reset, to be granted at its release (18_reset.md R371). -/
def State.oweReset (s : State) (h r : Nat) : State :=
  { s with rst := { s.rst with homes := amod s.rst.homes h (fun l => if l.contains r then l else l ++ [r]) } }

/-- A request reaches its home: accepted, or answered Retry (10_coherence.md R220; 18_reset.md R371). -/
def State.arriveB (s : State) (m : BMsg) : State :=
  let h := homeOf m.line
  let no := fun (s : State) => ((s.incSat F.HS_CNT_RETRY h).tallyHome h 0x202 1).note (.retry m h)
  if (aget s.rst.homes h).isSome then (no s).oweReset h m.r
  else
    let go := fun (s : State) (e : Nat) =>
      let t : Txn := ⟨{ m with credit := false }, e, [], none, false, false, false, false, false⟩
      (({ s with coh := { s.coh with queued := s.coh.queued ++ [t] } }.tallyHome h 0x201 1).pumpAll).advance m.line
    match m.credit, s.coh.aside.find? (fun a => a.1 == h && a.2.1 == m.r) with
    | true, some a => go { s with coh := { s.coh with aside := s.coh.aside.erase a } } a.2.2
    | _, _ =>
      match s.sharedFree h with
      | some e =>
        if !s.lineBusy m.line && s.coh.credq.all (fun c => c.1 != h) then go s e
        else (no s).oweB m h
      | none => (no s).oweB m h

/-- A home applies the WbM of a line's owner (10_coherence.md R219): the stack takes it, the line becomes U, and WbAck is sent. -/
def State.applyWb (s : State) (c ln : Nat) : State :=
  let s := ((s.storeLine ln (s.sentKind c ln)).stkWrote ln).note (.wbAck c ln)
  match s.dirOf ln with
  | some d => if d.own == some c then s.delDir ln else s
  | none => s

/-- The O column starts again with the line U (Table 10.6). -/
def State.restart (s : State) (t : Txn) : State :=
  let t := { t with snoops := [], needDone := none, replied := false, again := false }
  let s := (s.delDir t.msg.line).setTxn t
  (if t.evict then s.answer t else s.rowB t).advance t.msg.line

/-! ### Agents of a context, and writes past the caches -/

/-- A cluster in service (09_caches.md R196): assigned, not quarantined, not gated for quarantine. -/
def State.inService (s : State) (cl : Nat) : Bool :=
  s.clusterPart cl != 255 && !s.on F.REC_CNT_QUAR cl && !s.rcv.testing.contains cl

/-- The cache of a cluster serves die-level requesters: its wrapper is not closed by a reset (18_reset.md R369, R371). -/
def State.ccServes (s : State) (cl : Nat) : Bool := s.inService cl && !s.clusterReset cl && !s.inPartReset cl

/-- The service cluster of a partition for a requester's die, among the clusters that a test allows (09_caches.md R196). -/
def State.svcOf (s : State) (p die : Nat) (ok : Nat → Bool) : Option Nat :=
  let all := (List.range 64).filter (fun cl => s.ccServes cl && ok cl)
  let own := all.filter (fun cl => s.clusterPart cl == p)
  ((own.find? (fun cl => cl / 16 == die)).orElse (fun _ => own.head?)).orElse
    (fun _ => (all.find? (fun cl => cl / 16 == die)).orElse (fun _ => all.head?))

/-- The service cluster of a context for a requester's die. -/
def State.svcCluster (s : State) (c die : Nat) : Option Nat := s.svcOf (s.ctxPart c) die (fun _ => true)

/-- A transaction or message is under way for a line. -/
def State.underWay (s : State) (ln : Nat) : Bool :=
  s.lineBusy ln || s.coh.am.any (fun m => m.2.1 == ln) || s.coh.ar.any (fun m => m.2.1 == ln)
  || s.coh.aq.any (fun m => m.2.1 == ln) || s.coh.cc.any (fun e => e.1.line == ln && s.inTransit e.1.unit ln e.2)
  || s.coh.bq.any (fun m => m.line == ln)

/-- Every copy of a line is given up at once, where nothing is under way for it: what a change at its home leaves (10_coherence.md
R222). -/
def State.purge (s : State) (ln : Nat) : State :=
  if s.underWay ln then s
  else { s with coh := { s.coh with
    l1 := s.coh.l1.filter (fun e => e.1.line != ln)
    cc := s.coh.cc.filter (fun e => e.1.line != ln)
    vc := s.coh.vc.filter (fun e => e.2 != ln)
    dir := mdel s.coh.dir ln } }

/-- A cluster cache gives up its copies of a line before it sends a write or update of it to the home, which then finds none
of them; a modified copy reaches the stack first (10_coherence.md R222; 08_berim_stacks.md R183). `some core` loses its own
copy at once, so that its later loads miss (09_caches.md R201). None while a request or message for the line is under way in
the cluster. -/
def State.giveUp (s : State) (cl ln : Nat) (core : Option Nat) : Option State :=
  let mine := match core with
    | some k => s.l1 k ln
    | none => none
  if s.coh.aq.any (fun e => e.1 / 8 == cl && e.2.1 == ln) || s.coh.ar.any (fun e => e.1 / 8 == cl && e.2.1 == ln)
      || mine.any (fun x => !x.st.stable) then none
  else match s.ccLine cl ln with
    | none => some (match core with
      | some k => s.delL1 k ln
      | none => s)
    | some x =>
      if s.inTransit cl ln x then none
      else
        let s := match core with
          | some k => if x.own == some k then s else s.delL1 k ln
          | none => s
        let (s, dirty) := s.takeBack cl ln x
        some ((if dirty then (s.storeLine ln x.pk).stkWrote ln else s).delCc cl ln)

/-- The copies that a core kept of a line while its own write was on its way are gone once it is acknowledged (09_caches.md R201;
04_memory_model.md R89). -/
def State.dropOld (s : State) (core ln : Nat) : State :=
  match s.l1 core ln with
  | none => s
  | some x =>
    if x.st == .S || x.st == .Z then s.delL1 core ln
    else s.setL1 core ln { x with old := none }

/-! ### Agents at a cluster cache (09_caches.md R194-R202; 10_coherence.md R214, R218) -/

/-- A request of a class finds a line: a lookup, unless it is the one that its fill served (20_tally_and_ledger.md Table 20.3). -/
def State.looked (s : State) (cl cls : Nat) (x : CcLine) : State := if x.fresh then s else s.tallyCc cl 0x101 cls

/-- The service cluster's cache is awake; where it is OFF, a request wakes it and waits (19_power_and_clocks.md R383). -/
def State.svcOn (s : State) (c die : Nat) : Bool :=
  match s.svcCluster c die with
  | none => false
  | some cl => s.dom (512 + cl) == domOn
def State.svcWake (s : State) (c die : Nat) : State :=
  match s.svcCluster c die with
  | none => s
  | some cl => if s.dom (512 + cl) == domOff then s.setDom domWaking (512 + cl) else s

/-- The kind of a line as the service cluster of a context holds it. -/
def State.svcKind (s : State) (c die ln : Nat) : Poison :=
  match s.svcCluster c die with
  | some cl => s.kindIn cl ln
  | none => s.linePoison ln

/-- Bytes of one line written where a cluster holds it in O: a partial write of a poisoned line is not applied, a whole line
clears the kind (09_caches.md R195). The answer is the kind that the write met. -/
def State.ccWrite (s : State) (cl key pa : Nat) (bs : List Byte) : State × Poison :=
  if bs.length < 128 && s.kindIn cl (pa / 128) != .none then (s, s.kindIn cl (pa / 128))
  else
    let s := s.wrCached key pa bs
    (match s.ccLine cl (pa / 128) with
      | some x => if bs.length < 128 then s else s.setCc cl (pa / 128) { x with pk := .none }
      | none => s, .none)

/-- Bytes of one line that a die-level agent writes through its service cluster's cache, which holds the line in O. -/
def State.svcPut (s : State) (c die key pa : Nat) (bs : List Byte) : State × Poison :=
  match s.svcCluster c die with
  | some cl => s.ccWrite cl key pa bs
  | none => (s, .none)

/-- The first store of an L1 to a line it owns leaves the cluster cache with the data it had (05_matrix_engines.md R115). -/
def State.keepStale (s : State) (cl key ln : Nat) : State :=
  match s.ccLine cl ln with
  | some x => if x.stale.isSome then s else s.setCc cl ln { x with stale := some (s.lineData key ln) }
  | none => s

/-- A write or update of an agent that does not cache goes to the home in the name of its service cluster (04_memory_model.md
R97; 10_coherence.md R214, R222), under the next serial. None while no cluster serves, its cache must wake, or its own copy of
the line is under way. -/
def State.svcSend (s : State) (c die ln : Nat) (f : Nat → Nat → BMsg) : Option (State × Nat) :=
  match s.svcCluster c die with
  | none => none
  | some cl =>
    if s.dom (512 + cl) != domOn then none
    else
      let n := s.thr.serial
      (s.giveUp cl ln none).map (fun s => (({ s with thr := { s.thr with serial := n + 1 } }).sendB (f cl n), n))

/-- Such a write of some bytes of one line: a whole line as WrF, part of one as WrP; with a kind, the whole line takes it
(08_berim_stacks.md R469) (DEDUCED, log 12). -/
def State.svcWrite (s : State) (c die cls key pa : Nat) (bs : List Byte) (pk : Poison) : Option (State × Nat) :=
  let mask : BitVec 128 := if pk != .none then BitVec.allOnes 128 else BitVec.ofNat 128 ((2 ^ bs.length - 1) * 2 ^ (pa % 128))
  s.svcSend c die (pa / 128) (fun cl n => ⟨if mask == BitVec.allOnes 128 then .wrF else .wrP, cl, pa / 128, cls, false, key, mask,
    BitVec.ofNat 1024 (leNat bs * 2 ^ (8 * (pa % 128))), [], n, pk⟩)

end Sys2Proof.Machine
end

