-- ==== Sys2Proof/Machine/Tally.lean ====
section
/-! DEFINITION. Tally counters and the ledger (20_tally_and_ledger.md). The counters themselves are in
Counters.lean. Rows that read a thread's registers are in ThreadTally.lean. -/

namespace Sys2Proof.Machine

open Sys2Proof

/-! ### The ledger writer (R407-R410, R415, R416) -/

/-- A record dropped (R409). -/
def State.ledDrop (s : State) (d stamp : Nat) : State :=
  let l := s.led d
  let g := match l.gap with
    | none => (stamp, stamp, 1)
    | some (a, _, n) => (a, stamp, n + 1)
  ((s.incSat F.LED_STAT_DROPPED d).setLed d { l with gap := some g }).ledBusy d

/-- A record of stamp `stamp` offered to a die's ledger (R409, R410). `cl` is the cluster it comes from, if any (DEDUCED, log
51). -/
def State.ledOffer (s : State) (d stamp : Nat) (cl : Option Nat) (rec_ : List Byte) : State :=
  let l := s.led d
  let part := s.ctxPart (s.rd F.LED_CFG_CTX d)
  let from_ := match cl with
    | some c => s.clusterPart c == part
    | none => s.on F.TAL_GLOBAL_SHARED
  let inWin := s.rd F.LED_START_STAMP d ≤ stamp && (s.rd F.LED_END_STAMP d == 0 || stamp < s.rd F.LED_END_STAMP d)
  if !s.on F.LED_CFG_EN d || !inWin || !from_ then s
  else if s.on F.LED_PTR_FULL d then s.ledDrop d stamp
  else if l.stopped then s
  else if 256 ≤ l.queue.length then s.ledDrop d stamp
  else (s.setLed d { l with queue := l.queue ++ [rec_] }).ledBusy d

/-- A record goes to the home of its slot's line, as class 7 through the owning context's service cluster, under the key of that
context's partition (R407; 09_caches.md R196, R197). None where no cluster is in service or its cache must wake. -/
def State.ledSend (s : State) (d slot : Nat) (rec_ : List Byte) (what : LedWrite) : Option State :=
  let c := s.rd F.LED_CFG_CTX d
  (s.svcWrite c d 7 (s.ctxKey c) (s.rd F.LED_BASE_BASE d * 65536 + 64 * slot) rec_ .none).map (fun (s, n) =>
    s.setLed d { s.led d with out := some (n, what) })

/-- The slot of ordinary record `n`, Table 20.4. -/
def State.ledSlot (s : State) (d n : Nat) : Nat :=
  if s.rd F.LED_CFG_MODE d = 0 then 1 + n else 1 + n % (s.ledSlots d - 1)

/-- A GAP record, Table 20.6. -/
def gapRec (g : Nat × Nat × Nat) : List Byte :=
  leBytes 8 4 ++ leBytes 8 g.1 ++ leBytes 8 g.2.1 ++ leBytes 8 g.2.2 ++ leBytes 32 0

/-- An ordinary record's write is performed: HEAD, the watermark, and the end of Table 20.4 (R408). -/
def State.ledOrd (s : State) (d : Nat) : State :=
  let n := (s.led d).n
  let s := (s.wr F.LED_PTR_HEAD ((n + 1) % 2 ^ 32) d).setLed d { s.led d with n := n + 1 }
  let wm := s.rd F.LED_CFG_WM_LOG d
  let s := if wm != 0 && (n + 1) % 2 ^ (wm + 9) == 0 then s.raise (0x30C + d) else s
  let l := s.led d
  if s.rd F.LED_CFG_MODE d == 0 && s.ledSlot d n == s.ledSlots d - 2 then
    let s := (s.wr F.LED_PTR_FULL 1 d).setLed d { l with stopped := true, queue := [] }
    let s := l.queue.foldl (fun s r => s.ledDrop d (leAt r 8 8)) s
    s.raise (0x304 + d)
  else match l.post with
    | none => s
    | some p =>
      if p ≤ 1 then ((s.wr F.LED_PTR_DONE 1 d).setLed d { l with post := none, stopped := true, queue := [] }).raise (0x304 + d)
      else s.setLed d { l with post := some (p - 1) }

/-- A requester in service wakes for the writer. -/
def State.ledWake (s : State) (d : Nat) : State := s.svcWake (s.rd F.LED_CFG_CTX d) d

/-- The closing GAP record of fill-stop goes to slot N - 1 (R409). -/
def State.ledClosingGap (s : State) (d : Nat) : State :=
  match s.on F.LED_PTR_FULL d, (s.led d).gap with
  | true, some g => (s.ledSend d (s.ledSlots d - 1) (gapRec g) .closing).getD (s.ledWake d)
  | _, _ => s

/-- LEDGER_RECORD_WRITE: with no write of its on the way, the writer sends what it holds, in order: trigger records, a GAP
record once an entry of the queue has freed, the oldest record; after EN = 0 it finishes and clears BUSY (R408, R409)
(DEDUCED, log 51). -/
def State.ledWrite (s : State) (d : Nat) : State :=
  let l := s.led d
  if l.out.isSome then s
  else match l.trig with
  | r :: rs =>
    match s.ledSend d 0 r .trig with
    | none => s.ledWake d
    | some s => s.setLed d { s.led d with trig := rs }
  | [] =>
    match l.stopped, l.gap.filter (fun _ => l.queue.length < 256), l.queue with
    | false, some g, _ =>
      match s.ledSend d (s.ledSlot d l.n) (gapRec g) .gap with
      | none => s.ledWake d
      | some s => s.setLed d { s.led d with gap := none }
    | false, none, r :: q =>
      match s.ledSend d (s.ledSlot d l.n) r .record with
      | none => s.ledWake d
      | some s => s.setLed d { s.led d with queue := q }
    | _, _, _ =>
      if !l.closing then s
      else if s.on F.LED_PTR_FULL d && l.gap.isSome then s.ledClosingGap d
      else (s.setLed d { l with closing := false, gap := none, queue := [] }).ledBusy d

/-- The write of a ledger's record has been performed (R408). -/
def State.ledAck (s : State) (d : Nat) (what : LedWrite) : State :=
  let s := s.setLed d { s.led d with out := none }
  let s := match what with
    | .trig => (s.wr F.LED_TRIG_FIRED 1 d).raise (0x300 + d)
    | .gap => (s.ledOrd d).raise (0x308 + d)
    | .record => s.ledOrd d
    | .closing =>
      let l := s.led d
      (if l.closing then s.setLed d { l with closing := false, gap := none, queue := [] } else s).raise (0x308 + d)
  s.ledBusy d

/-- LEDGER_GAP_TIMER: fill-stop has stopped, and its closing GAP record is written with the totals so far (R409). -/
def State.ledGapTimer (s : State) (d : Nat) : State :=
  if s.on F.LED_CFG_EN d && (s.led d).out.isNone then s.ledClosingGap d else s

/-- EN set: n counts from 0 (R407). -/
def State.ledEnable (s : State) (d : Nat) : State :=
  if 4 ≤ d || s.on F.LED_CFG_EN d then s
  else
    let s := (((s.wr F.LED_CFG_EN 1 d).wr F.LED_PTR_HEAD 0 d).wr F.LED_PTR_FULL 0 d).wr F.LED_PTR_DONE 0 d
    (s.setLed d ⟨[], [], none, none, false, false, none, none, 0⟩).ledBusy d

/-- EN written 0, or the owning context left LIVE: the writer finishes (R408). -/
def State.ledDisable (s : State) (d : Nat) : State :=
  if s.on F.LED_CFG_EN d then ((s.wr F.LED_CFG_EN 0 d).setLed d { s.led d with closing := true }).ledBusy d else s

/-- The ledgers of a context stop when it leaves LIVE (R408). -/
def State.ledCtxGone (s : State) (c : Nat) : State :=
  ((List.range 4).filter (fun d => s.on F.LED_CFG_EN d && s.rd F.LED_CFG_CTX d == c)).foldl
    (fun s d => (s.ledDisable d).wr F.LED_STAT_ERR 1 d) s

/-- A trigger is armed: FIRED clears (R415). -/
def State.ledArm (s : State) (d : Nat) : State := (s.wr F.LED_TRIG_ARMED 1 d).wr F.LED_TRIG_FIRED 0 d

/-- The recovery log took a record: triggers of SRC 2 fire (R415). -/
def State.trigLog (s : State) : State :=
  ((List.range 4).filter (fun d => s.rd F.LED_TRIG_SRC d == 2)).foldl State.ledFire s

/-- A COUNTS record, Table 20.5. -/
def State.countsRec (s : State) (d i group flags stamp k : Nat) : List Byte :=
  let n := talSet d i
  let (c, seq) := s.tagOf d i
  let w := (aget s.tal.wrapped n).getD 0
  let entries := if group = 2 then leBytes 8 (s.rd F.TAL_CYC_COUNT n) ++ leBytes 24 0
    else (List.range 4).flatMap (fun j => leBytes 8 (if 4 * group + j < setCounters i then s.counter n (4 * group + j) else 0))
  leBytes 1 1 ++ leBytes 1 flags ++ leBytes 2 i ++ leBytes 1 group ++ leBytes 1 (if group = 2 then 0 else bitsOf w (4 * group) 4)
    ++ leBytes 1 c ++ leBytes 1 0 ++ leBytes 8 stamp ++ leBytes 8 seq ++ leBytes 4 k ++ leBytes 4 0 ++ entries

/-- A sample of one set (R412): its records are offered, and its wrapped bits start anew. -/
def State.sampleSet (s : State) (d i stamp k edge : Nat) : State :=
  let groups := if i < 128 then 3 else if i < 148 then 2 else 1
  let s := s.catchUp d i
  let s := (List.range groups).foldl (fun s g =>
    s.ledOffer d stamp (setCluster d i) (s.countsRec d i g (b2n (g == 0) + 2 * b2n (g + 1 == groups) + 4 * edge) stamp k)) s
  { s with tal := { s.tal with wrapped := adel s.tal.wrapped (talSet d i) } }

/-- The number of the next interval sample of a die: after EN, or a change of LED_START or LED_INT, that of the first `t_k`
not before the stamp then read. Its stamp `t_k`. -/
def State.nextK (s : State) (d : Nat) : Nat :=
  match (s.led d).k with
  | some k => k
  | none => cdiv (s.stamp - s.rd F.LED_START_STAMP d) (max 1000 (s.rd F.LED_INT_PERIOD_NS d))
def State.tAt (s : State) (d k : Nat) : Nat := s.rd F.LED_START_STAMP d + k * max 1000 (s.rd F.LED_INT_PERIOD_NS d)

/-- LEDGER_INTERVAL_SAMPLE: the sets of a die with LEDGER are sampled at `t_k` (R411, R412), but for those that a reset has
sampled in that cycle (R414). -/
def State.intervalSample (s : State) (d : Nat) : State :=
  if s.rd F.LED_INT_PERIOD_NS d = 0 then s
  else
    let k := s.nextK d
    let s := (List.range 151).foldl (fun s i =>
      if s.on F.TAL_CTL_LEDGER (talSet d i) && !s.tal.merged.contains (talSet d i) then s.sampleSet d i (s.tAt d k) (k % 2 ^ 32) 0
      else s) s.bump
    ({ s with tal := { s.tal with merged := s.tal.merged.filter (fun n => n / 151 != d) } }).setLed d { s.led d with k := some (k + 1) }

/-- The window or the period of a die's samples is written: `k` is counted anew (R411). -/
def State.newWindow (s : State) (d : Nat) : State := s.setLed d { s.led d with k := none }

/-- The sample that a set makes as it is reset (R414): where an interval sample falls in that cycle, which is free, one sample
with its stamp and `k`; else one where SAMPLE_ON_RESET asks for it. -/
def State.resetSample (s : State) (d i : Nat) : State :=
  let n := talSet d i
  if s.on F.TAL_CTL_LEDGER n && s.rd F.LED_INT_PERIOD_NS d != 0 && !s.tal.merged.contains n && s.freeVal 1005 1 == 1 then
    let k := s.nextK d
    let t := (s.bump.setLed d { s.led d with k := some k }).sampleSet d i (s.tAt d k) (k % 2 ^ 32) 1
    { t with tal := { t.tal with merged := n :: t.tal.merged } }
  else if s.on F.TAL_CTL_SAMPLE_ON_RESET n then (s.bump.sampleSet d i s.stamp 0xFFFFFFFF 1).bump else s.bump

/-- A set's tag changes: with RESET_CMD its counters clear, after its sample (R414). -/
def State.tagReset (s : State) (d i : Nat) : State :=
  let n := talSet d i
  if !s.on F.TAL_CTL_RESET_CMD n then s
  else
    let s := s.resetSample d i
    let s := (List.range (setCounters i)).foldl (fun s j => s.setReg .TAL_CNT n j 0) s
    (s.wr F.TAL_CTL_OVF 0 n).setReg .TAL_CYC n 0 0

/-- The tag of a core set: the launch whose block was most recently placed on it, by its submission number (R413). -/
def State.coreTag (s : State) (core : Nat) (id : CmdId) : State :=
  if (aget s.tal.tags core).any (fun t => t.ctx == id.ctx && t.seq == id.seq) then s
  else
    let s := s.tagReset (core / 128) (core % 128)
    { s with tal := { s.tal with tags := aput s.tal.tags core id } }

/-- The tag of a die's sets other than cores' becomes that of a state to come: they are reset first, under the tag they had
(R414). -/
def State.dieSetsReset (s next : State) (d : Nat) : State :=
  if s.tagOf d 128 == next.tagOf d 128 then s
  else ((List.range 23).map (fun i => 128 + i)).foldl (fun s i => s.tagReset d i) s

/-- A command starts on a queue: it is the tag of the sets, other than cores', of each die whose LED_TAGQ names the queue
(R413). -/
def State.dieTag (s : State) (q : Nat) (id : CmdId) : State :=
  let next := fun (s : State) => { s with tal := { s.tal with starts := aput s.tal.starts q id } }
  next ((List.range 4).foldl (fun t d => t.dieSetsReset (next s) d) s)

/-- COUNTER_WRAP (R401): a counter that counts passes from its largest value to 0. -/
def execCounterWrap (d i j : Nat) (s : State) : Host.Outcome State Fault Refusal :=
  .next (if d < 4 && j < setCounters i && s.counts d i && eventListed i (s.rd F.TAL_SEL_EVENT (talSet d i) j) then
    (s.wr F.TAL_CNT_VALUE 0 (talSet d i) j).counterWrap d i j else s)

/-- LEDGER_INTERVAL_SAMPLE (R411, R412). -/
def execLedgerIntervalSample (d : Nat) (s : State) : Host.Outcome State Fault Refusal :=
  .next (if d < 4 then s.intervalSample d else s)

/-- LEDGER_RECORD_WRITE (R408, R409). -/
def execLedgerRecordWrite (d : Nat) (s : State) : Host.Outcome State Fault Refusal := .next (s.ledWrite d)

/-- LEDGER_GAP_TIMER (R409). -/
def execLedgerGapTimer (d : Nat) (s : State) : Host.Outcome State Fault Refusal := .next (s.ledGapTimer d)

/-- LED_ENABLE (R407). -/
def execLedEnable (d : Nat) (s : State) : Host.Outcome State Fault Refusal := .next (s.ledEnable d)

/-- LED_DISABLE (R408). -/
def execLedDisable (d : Nat) (s : State) : Host.Outcome State Fault Refusal := .next (s.ledDisable d)

/-- LED_ARM (R415). -/
def execLedArm (d : Nat) (s : State) : Host.Outcome State Fault Refusal := .next (if d < 4 then s.ledArm d else s)

/-- LED_FIRE (R415). -/
def execLedFire (d : Nat) (s : State) : Host.Outcome State Fault Refusal := .next (s.ledFire d)

end Sys2Proof.Machine
end

