-- ==== Sys2Proof/Machine/Caps.lean ====
section
/-! DEFINITION. The capability table (12_shared_objects.md R270, Table 12.8): a view of the device, with CAP_GEN as its only
word of its own. -/

namespace Sys2Proof.Machine

open Sys2Proof

/-- Bits of a word by a test on their numbers. -/
def bitsBy (n : Nat) (p : Nat → Bool) : Nat := ((List.range n).map (fun i => if p i then 2 ^ i else 0)).sum

/-- The clusters in service, and their cores: a core under containment or a unit reset is not in service until its self-test has
passed (17_fault_tolerance.md R345). -/
def State.active (s : State) : Nat := bitsBy 64 s.inService
def State.coresInService (s : State) : Nat :=
  8 * ((List.range 64).filter s.inService).length - (s.rcv.cores.dedup.filter (fun k => s.inService (k / 8))).length

/-- A port state is UP. -/
def State.portUp (s : State) (p : Nat) : Bool := 2 ≤ s.rd F.FAB_PORT_STAT_STATE p

/-- Word `w` of the capability table; CAP_GEN is word 1. -/
def State.capWord (s : State) (w : Nat) : Nat :=
  if w = 0 then 1 + s.fol.step * 2 ^ 16
  else if w = 1 then (s.reg .CAP 1 0).toNat
  else if w = 2 then 16 + 64 * 2 ^ 8 + 256 * 2 ^ 16 + 4096 * 2 ^ 32 + 1024 * 2 ^ 48
  else if w = 3 then 1048576 + 65536 * 2 ^ 32
  else if w = 4 then 4096 + s.coresInService * 2 ^ 16 + s.rd F.PWR_CLK_TARGET * 2 ^ 32 + 1500 * 2 ^ 48
  else if w = 5 then s.active
  else if w = 6 then bitsBy 64 (fun n => s.on F.REC_CNT_QUAR n)
  else if w = 7 then bitsBy 64 (fun n => s.clusterPart n == 255)
  else if w = 8 then bitsBy 16 (fun p => (s.partDef p).isSome) + bitsBy 16 (fun n => !s.on F.STK_STAT_TRIP n) * 2 ^ 16
    + s.rd F.FOLIO_STAT_SAFE * 2 ^ 32 + s.rd F.SEC_CAL_VALID * 2 ^ 33
  else if w = 9 then s.rd F.FAB_MODULE_MODULE + bitsBy 12 s.portUp * 2 ^ 12
    + bitsBy 12 (fun p => s.rd F.FAB_PORT_STAT_STATE p == 3) * 2 ^ 24
  else if w = 10 then 1572864 + 65536 * 2 ^ 32
  else if w = 11 then 80000000000
  else if w < 16 then s.rd F.FOLIO_ID_ID (w - 12)
  else if w < 32 then s.rd F.STK_STAT_RETIRED (w - 16) + s.rd F.STK_STAT_LIST_FULL (w - 16) * 2 ^ 16
  else 0

/-- The words that CAP_GEN follows. -/
def State.capView (s : State) : List Nat := ((List.range 32).filter (fun w => w != 1)).map s.capWord

/-- CAP_GEN advances where another word has changed since `old` (R270). -/
def State.capFrom (s old : State) : State :=
  if s.capView == old.capView then s
  else s.setReg .CAP 1 0 (BitVec.ofNat 64 ((s.capWord 1 + 1) % 2 ^ 32))

end Sys2Proof.Machine
end

