-- ==== Sys2Proof/Machine/Walk.lean ====
section
/-! DEFINITION. Translation and the blotter (11_translation.md R227-R249): permissions, the translation caches and what an access finds
in them, the walks it starts, faults and quires. The walks themselves are the rows of Translation.lean. -/

namespace Sys2Proof.Machine

open Sys2Proof

/-- Fault causes, Table 11.9. -/
abbrev caNotValid : Nat := 1
abbrev caMalformed : Nat := 2
abbrev caBadPa : Nat := 3
abbrev caNonCanon : Nat := 4
abbrev caPerm : Nat := 5
abbrev caHtuFault : Nat := 6
abbrev caHtuPerm : Nat := 7
abbrev caWalkPoison : Nat := 8
abbrev caHostOp : Nat := 9

/-- STATUS of a cause, Table 11.9. -/
def causeStatus (c : Nat) : Nat :=
  if c = caPerm ∨ c = caHtuPerm ∨ c = caHostOp then stFaultPerm else if c = caWalkPoison then stPoison else stFaultXlate

/-- ACCESS bits (Table 11.8), which name the permissions of Table 11.4: read 1 (R), write 2 (W), atomic or accumulate 4 (A),
fetch 8 (R). A read of the snapshot engine, which needs none, is a read with bit 4 besides. -/
abbrev accRead : Nat := 1
abbrev accWrite : Nat := 2
abbrev accAtomic : Nat := 7
abbrev accRed : Nat := 6
abbrev accFetch : Nat := 9
abbrev accSnap : Nat := 17

/-- An access sets D (Table 11.4). -/
def accSetsD (acc : Nat) : Bool := bitsOf acc 1 1 == 1

/-- Permissions hold for an access (Table 11.4). -/
def permOk (r w a : Bool) (acc : Nat) : Bool :=
  acc == accSnap || (bitsOf acc 0 1 == 0 || r) && (bitsOf acc 1 1 == 0 || w) && (bitsOf acc 2 1 == 0 || a)

/-- Bytes that one entry at a level covers, Table 11.2. -/
def levelSize (l : Nat) : Nat := 2 ^ (12 + 9 * l)

/-- Index of an address in the table of a level, Table 11.2. -/
def levelIndex (va l : Nat) : Nat := bitsOf va (12 + 9 * l) 9

/-- Fields of an entry, Table 11.3. -/
def pteV (e : Nat) : Bool := bitsOf e 0 1 == 1
def pteLeaf (e : Nat) : Bool := bitsOf e 1 1 == 1
def pteR (e : Nat) : Bool := bitsOf e 2 1 == 1
def pteW (e : Nat) : Bool := bitsOf e 3 1 == 1
def pteA (e : Nat) : Bool := bitsOf e 4 1 == 1
def pteD (e : Nat) : Bool := bitsOf e 5 1 == 1
def pteHost (e : Nat) : Bool := bitsOf e 6 1 == 1
def pteCont (e : Nat) : Nat := bitsOf e 8 3
def ptePa (e : Nat) : Nat := bitsOf e 12 34 * 4096

/-- A valid entry that is malformed (R231). -/
def pteBad (e l : Nat) : Bool :=
  bitsOf e 7 1 != 0 || bitsOf e 11 1 != 0 || bitsOf e 46 10 != 0
  || (pteLeaf e && 3 ≤ l) || (!pteLeaf e && l == 0)
  || (!pteLeaf e && bitsOf e 2 9 != 0)
  || (pteLeaf e && 4 < pteCont e)
  || (pteLeaf e && !pteHost e && ptePa e % levelSize l != 0)
  || (pteLeaf e && (pteW e || pteA e) && !pteR e)

/-- What reading one entry gives. -/
inductive PteRes where
  | fault (cause : Nat)
  | table (pa : Nat)
  | leaf (e : Nat)
  deriving DecidableEq, Repr

/-- Read and check the entry at `pa` of a level, in a line that arrives with a kind (R228, R230, R231, R239). -/
def State.readPte (s : State) (key pa l : Nat) (pk : Poison) : PteRes :=
  if stackTop ≤ pa then .fault caBadPa
  else if pk != .none then .fault caWalkPoison
  else
    let e := s.rdNat key pa 8
    if !pteV e then .fault caNotValid
    else if pteBad e l then .fault caMalformed
    else if !pteLeaf e then .table (ptePa e)
    else if !pteHost e && stackTop < ptePa e + levelSize l then .fault caBadPa
    else .leaf e

/-- A walk's end: a fault with the level it ended at, or a leaf with its level and place. -/
inductive WalkEnd where
  | fault (cause level : Nat)
  | leaf (e level pa : Nat)
  deriving DecidableEq, Repr

/-- The walk from a table of level `l` down as the tables now stand (R230). -/
def State.walkFrom (s : State) (key va : Nat) : Nat → Nat → WalkEnd
  | l, table =>
    let pa := table + 8 * levelIndex va l
    match s.readPte key pa l (s.linePoison (pa / 128)), l with
    | .fault c, _ => .fault c l
    | .leaf e, _ => .leaf e l pa
    | .table t, l + 1 => State.walkFrom s key va l t
    | .table _, 0 => .fault caMalformed 0

/-- The root table of a context (R230). -/
def State.xltRoot (s : State) (c : Nat) : Nat := s.rd F.XLT_CTX_ROOT c * 4096

/-- The walker sets D in a leaf, from 0 to 1 (R234, R235). -/
def pteDirty (e : Nat) : Nat := e ||| 0x20

/-! ### Translation caches (R238, Table 11.5) -/

/-- A translation covers an address of a context. -/
def Tlb.covers (t : Tlb) (c va : Nat) : Bool := t.ctx == c && t.vpn ≤ va / 4096 && va / 4096 < t.vpn + t.pages

/-- An entry of a place that covers an address. -/
def State.tlbHit (s : State) (p : TlbPlace) (c va : Nat) : Option Tlb :=
  s.xlt.tlbs.find? (fun t => t.place == p && t.covers c va)

/-- Sets and ways of a place, Table 11.5. -/
def tlbSets : TlbPlace → Nat
  | .micro _ => 1
  | .cluster _ => 256
  | .die _ => 2048
def tlbWays : TlbPlace → Nat
  | .micro _ => 64
  | .cluster _ => 8
  | .die _ => 16

/-- The set of an entry: its page number, counted in its own pages (DESIGN CHOICE, log 25). -/
def Tlb.set (t : Tlb) : Nat := t.vpn / t.pages % tlbSets t.place

/-- An entry installed, in place of one for the same page and of the oldest of a full set (DESIGN CHOICE, log 25). -/
def State.installTlb (s : State) (t : Tlb) : State :=
  let l := s.xlt.tlbs.filter (fun x => !(x.place == t.place && x.ctx == t.ctx && x.vpn == t.vpn && x.pages == t.pages))
  let own := l.filter (fun x => x.place == t.place && x.set == t.set)
  let l := match own.head? with
    | some x => if tlbWays t.place ≤ own.length then l.erase x else l
    | none => l
  { s with xlt := { s.xlt with tlbs := l ++ [t] } }

/-- A lookup of a TLB: an entry that fails its parity is invalidated (17_fault_tolerance.md Table 17.1). Of its count the spec
names no register, and it is not kept (DESIGN CHOICE, log 97). -/
def State.tlbCheck (s : State) (p : TlbPlace) (c va : Nat) : State :=
  match s.takeFind (.tlb p) with
  | none => s
  | some (_, s) => { s with xlt := { s.xlt with tlbs := s.xlt.tlbs.filter (fun t => !(t.place == p && t.covers c va)) } }

/-- The caches above a core's micro TLB are asked, and what they hold is installed on the way back. -/
def State.tlbFill (s0 : State) (core c va : Nat) : State :=
  let s := (s0.tlbCheck (.micro core) c va).tlbCheck (.cluster (core / 8)) c va
  if (s.tlbHit (.micro core) c va).isSome then s
  else
    let new := s.xlt.walks.all (fun w => !(w.place == .micro core && w.ctx == c && w.va / 4096 == va / 4096))
    let s := if new then s.tallyCtx core c 0x046 1 else s
    match s.tlbHit (.cluster (core / 8)) c va with
    | some t => s.installTlb { t with place := .micro core }
    | none =>
      let s := if new then s.tallyCc (core / 8) 0x109 3 else s
      match s.tlbHit (.die (core / 128)) c va with
      | some t => (s.installTlb { t with place := .cluster (core / 8) }).installTlb { t with place := .micro core }
      | none => s

/-- What an access finds: a physical address; a host address with its leaf's level; a fault; nothing that serves it, so that a
walk is needed; a context that does not translate (R470). -/
inductive Xlate where
  | pa (a : Nat)
  | host (a level : Nat)
  | fault (cause level : Nat)
  | walk
  | off
  deriving DecidableEq, Repr

/-- What an access finds in some translation caches (R227, R233, R235, R236). A cached host translation that does not permit it is
walked again, since the HTU may have widened it (DEDUCED, log 26); so is one whose D is not known to be set. -/
def State.xlateAt (s : State) (ps : List TlbPlace) (c va acc : Nat) : Xlate :=
  if !s.on F.XLT_CTX_EN c then .off
  else if 2 ^ 57 ≤ va then .fault caNonCanon 0xFF
  else match ps.findSome? (fun p => s.tlbHit p c va) with
    | none => .walk
    | some t =>
      let a := t.ppn * 4096 + (va - t.vpn * 4096)
      if !permOk t.r t.w t.a acc then (if t.host then .walk else .fault caPerm t.level)
      else if accSetsD acc && !t.dirty.contains (va / levelSize t.level) then .walk
      else if !t.host then .pa a
      else if acc == accRed then .fault caHostOp t.level
      else .host a t.level

/-- What an access of a copy engine, a clerk, the snapshot engine or DUMP finds in the cache of its die (Table 11.5). -/
def State.xlate (s : State) (die c va acc : Nat) : Xlate := s.xlateAt [.die die] c va acc

/-- What an access of a matrix feeder finds. -/
def State.xlateMx (s : State) (core c va acc : Nat) : Xlate :=
  s.xlateAt [.micro core, .cluster (core / 8), .die (core / 128)] c va acc

/-- The place in memory that an address of a context names, as its tables stand; `true` for host memory (04_memory_model.md
R89). -/
def State.placeOf (s : State) (die c va : Nat) : Option (Bool × Nat) :=
  match s.walkFrom (s.ctxKey c) va 4 (s.xltRoot c) with
  | .fault _ _ => none
  | .leaf e l _ =>
    if !pteHost e then some (false, ptePa e + va % levelSize l)
    else (s.xlt.tlbs.find? (fun t => t.host && t.place == .die die && t.covers c va)).map (fun t => (true, t.ppn * 4096 + (va - t.vpn * 4096)))

/-! ### The start of a walk (R230) -/

/-- Where a walk begins: at the lowest table that its walker's cache holds, else at the root. -/
def State.walkStart (s : State) (die n c va : Nat) : Nat × Nat :=
  match (List.range 4).findSome? (fun l =>
    (s.xlt.walkc.find? (fun w => w.die == die && w.walker == n && w.ctx == c && w.level == l && w.tag == va / levelSize (l + 1))).map
      (fun w => (l, w.table))) with
  | some r => r
  | none => (4, s.xltRoot c)

/-- A walk for an access, unless one for it is under way; it waits while each of the die's 4 walkers has 16 walks in flight (Table
11.5). The lowest-numbered free walker takes it (DESIGN CHOICE, log 25). -/
def State.startWalk (s : State) (die c va acc : Nat) (src : AccSrc) (place : TlbPlace) : State :=
  if s.xlt.walks.any (fun w => w.die == die && w.ctx == c && w.va / 4096 == va / 4096 && w.acc == acc && w.place == place
      && w.src.source == src.source && w.src.pipe == src.pipe && w.src.xfer == src.xfer
      && (src.source == 0 || w.src.cmd == src.cmd)) then s
  else match (List.range 4).find? (fun n => (s.xlt.walks.filter (fun w => w.die == die && w.walker == n)).length < 16) with
    | none => s
    | some n =>
      let (l, t) := s.walkStart die n c va
      { s with xlt := { s.xlt with walks := s.xlt.walks ++ [⟨die, c, va, acc, accSetsD acc, l, t, 0, 0, .table, false, src, place, n⟩] } }

/-- An access needs a walk: a cached host translation that does not permit it is dropped. -/
def State.needWalk (s : State) (die c va acc : Nat) (src : AccSrc) (place : TlbPlace) : State :=
  ({ s with xlt := { s.xlt with
    tlbs := s.xlt.tlbs.filter (fun t => !(t.host && t.covers c va && !permOk t.r t.w t.a acc)) } }).startWalk die c va acc src place

/-- The source of a thread's access (Table 11.8). -/
def thrSrc (core : Nat) (cmd : CmdId) : AccSrc := ⟨0, core, some cmd, none, none⟩

/-- Translation of one access of a thread, in its core's micro TLB (R227, R233, R235, R236). -/
def State.xlateThread (s : State) (core c va acc : Nat) (cmd : CmdId) : State × Xlate :=
  if !s.on F.XLT_CTX_EN c || 2 ^ 57 ≤ va then (s, s.xlateAt [] c va acc)
  else
    let s := s.tlbFill core c va
    match s.xlateAt [.micro core] c va acc with
    | .walk => (s.needWalk (core / 128) c va acc (thrSrc core cmd) (.micro core), .walk)
    | x => (s, x)

/-! ### The blotter -/

/-- Blotter state of a context; fresh after EN is set (R246). -/
def State.blot (s : State) (c : Nat) : Blot := (aget s.xlt.blots c).getD ⟨0, none, 0, [], [], []⟩

/-- Blotter state replaced. -/
def State.setBlot (s : State) (c : Nat) (b : Blot) : State := { s with xlt := { s.xlt with blots := aput s.xlt.blots c b } }

/-- Physical address of record `n` of a context's ring (R245). -/
def State.blotAt (s : State) (c n : Nat) : Nat := s.rd F.XLT_BLOT_BASE c * 2 ^ 17 + n % 4096 * 32

/-- The ring is full (R248): records written and not consumed. -/
def State.blotFull (s : State) (c : Nat) : Bool :=
  ((s.blot c).wr + 8192 - s.rd F.XLT_BLOT_PTR_TAIL c) % 8192 == 4096

/-- The open quire closes (R246): LAST in its final record, HEAD past it, the source raised where `irq`. -/
def State.closeQuire (s : State) (c : Nat) (irq : Bool) : State :=
  match (s.blot c).openQ with
  | none => s
  | some q =>
    let b := s.blot c
    let s := s.wrNat devKey (s.blotAt c (b.wr + 8191) + 20) 1 1
    let s := s.setBlot c { b with openQ := none, closed := b.closed ++ [q] }
    let s := s.wr F.XLT_BLOT_PTR_HEAD b.wr c
    let s := s.wr F.XLT_BLOT_PTR_FULL (b2n (s.blotFull c)) c
    if irq then s.raise (0x100 + c) else s

/-- The 32 bytes of a record, Table 11.8. -/
def blotBytes (va cause level acc : Nat) (src : AccSrc) (quire stamp : Nat) : List Byte :=
  leBytes 8 va ++ leBytes 2 (causeStatus cause) ++ leBytes 1 cause ++ leBytes 1 level ++ leBytes 1 acc
    ++ leBytes 1 src.source ++ leBytes 2 src.unit ++ leBytes 2 1 ++ leBytes 2 quire ++ leBytes 4 0 ++ leBytes 8 stamp

/-- A faulted access goes to the blotter (R244-R249): it merges, appends to the open quire, or stalls on a full ring. The
answer is the quire it waits on, or none where it stalls. -/
def State.blotFault (s : State) (c va cause level acc : Nat) (src : AccSrc) : State × Option Nat :=
  let b := s.blot c
  let acc := acc % 16
  match b.recs.find? (fun r => r.page == va / 4096 && r.cause == cause && r.acc == acc) with
  | some r =>
    let n := satTo 0xFFFF (r.count + 1)
    ((s.wrNat devKey (s.blotAt c r.pos + 16) 2 n).setBlot c
      { b with recs := b.recs.map (fun x => if x.pos == r.pos then { x with count := n } else x) }, some r.quire)
  | none =>
    if s.blotFull c then (s.incSat F.XLT_BLOT_PTR_OVF c, none)
    else
      let q := b.openQ.getD b.nextQ
      let s1 := (s.wrBytes devKey (s.blotAt c b.wr) (blotBytes va cause level acc src q s.stamp)).bump
      let s2 := s1.setBlot c { b with
        openQ := some q
        nextQ := if b.openQ.isSome then b.nextQ else (b.nextQ + 1) % 0x10000
        wr := (b.wr + 1) % 8192
        recs := b.recs ++ [⟨q, b.wr, va / 4096, cause, acc, causeStatus cause, 1⟩] }
      (if ((s2.blot c).recs.filter (fun r => r.quire == q)).length == 64 || s2.blotFull c then s2.closeQuire c true else s2,
        some q)

/-- A faulted access of an engine, a clerk or a transfer waits on the quire of its record, or stalls on a full blotter (R244). -/
def State.blotWait (s : State) (c va cause level acc : Nat) (src : AccSrc) : State :=
  let (s, q) := s.blotFault c va cause level acc src
  s.setBlot c { s.blot c with waiting := (s.blot c).waiting ++ [⟨q, va, cause, level, acc, src⟩] }

/-- A command waits on the blotter (R244). -/
def State.cmdWaits (s : State) (id : CmdId) : Bool :=
  (s.blot id.ctx).waiting.any (fun w => w.src.cmd == some id && w.src.pipe.isNone)

/-- The snapshot engine waits on a context's blotter (R244). -/
def State.snapWaits (s : State) (c : Nat) : Bool := (s.blot c).waiting.any (fun w => w.src.source == 4)

/-- Every cached translation and walk of a context removed (12_shared_objects.md R256, R470). -/
def State.dropXlt (s : State) (c : Nat) : State :=
  { s with xlt := { s.xlt with
    tlbs := s.xlt.tlbs.filter (fun t => t.ctx != c)
    walkc := s.xlt.walkc.filter (fun t => t.ctx != c)
    walks := s.xlt.walks.filter (fun t => t.ctx != c) } }

/-- The accesses waiting on a context's blotter are discarded, its open quire closes silently (R250), its quires end. -/
def State.dropQuires (s : State) (c : Nat) : State :=
  let s := s.closeQuire c false
  s.setBlot c { s.blot c with recs := [], closed := [], waiting := [] }

end Sys2Proof.Machine
end

