-- ==== Sys2Proof/Machine/CmdBase.lean ====
section
/-! DEFINITION. Commands as every family needs them (13_command_submission.md, 12_shared_objects.md R256-R269): packet
fields, statuses, references, blocks that end, and the abort of commands and contexts. -/

namespace Sys2Proof.Machine

open Sys2Proof

/-! ### Packet fields (Tables 13.2, 13.4) -/

def opNop : Nat := 0x00
def opLaunch : Nat := 0x01
def opCopy : Nat := 0x02
def opFill : Nat := 0x03
def opRecord : Nat := 0x04
def opWait : Nat := 0x05
def opSignal : Nat := 0x06
def opFence : Nat := 0x07
def opGraph : Nat := 0x08
def opDump : Nat := 0x09

/-- OPCODE, FLAGS.IRQ, FLAGS.QUIET and USER of a packet. -/
def pkOp (p : List Byte) : Nat := leAt p 0 1
def pkIrq (p : List Byte) : Bool := bitsOf (leAt p 1 1) 0 1 == 1
def pkQuiet (p : List Byte) : Bool := bitsOf (leAt p 1 1) 1 1 == 1
def pkUser (p : List Byte) : Nat := leAt p 8 8

/-- LAUNCH fields. -/
def lnEntry (p : List Byte) : Nat := leAt p 16 8
def lnArgs (p : List Byte) : Nat := leAt p 24 8
def lnObjList (p : List Byte) : Nat := leAt p 32 8
def lnBlocks (p : List Byte) : Nat := leAt p 40 4
def lnThreads (p : List Byte) : Nat := leAt p 44 2
def lnRegs (p : List Byte) : Nat := leAt p 46 1
def lnMode (p : List Byte) : Nat := leAt p 47 1
def lnScratch (p : List Byte) : Nat := leAt p 48 2
def lnCohort (p : List Byte) : Nat := leAt p 50 1
def lnObjCnt (p : List Byte) : Nat := leAt p 51 1
def lnSteps (p : List Byte) : Nat := bitsOf (lnMode p) 0 3
def lnM0 (p : List Byte) : Bool := bitsOf (lnMode p) 3 1 == 1
def lnM1 (p : List Byte) : Bool := bitsOf (lnMode p) 4 1 == 1
def lnArith (p : List Byte) : Nat := bitsOf (lnMode p) 5 2
def lnGroups (p : List Byte) : Nat := cdiv (lnThreads p) 32
def lnPages (p : List Byte) : Nat := cdiv (lnRegs p) 8

/-- COPY fields. -/
def cpSrc (p : List Byte) : Nat := leAt p 16 4
def cpDst (p : List Byte) : Nat := leAt p 20 4
def cpSrcOff (p : List Byte) : Nat := leAt p 24 8
def cpDstOff (p : List Byte) : Nat := leAt p 32 8
def cpLen (p : List Byte) : Nat := leAt p 40 8
def cpRed (p : List Byte) : Nat := leAt p 48 1
def cpPeer (p : List Byte) : Bool := bitsOf (leAt p 49 1) 0 1 == 1
def cpMod (p : List Byte) : Nat := leAt p 50 2
def cpCtx (p : List Byte) : Nat := leAt p 52 1

/-- Element size of a RED field of COPY: BF16 2, F32 and I32 4. -/
def redSize (r : Nat) : Nat := if bitsOf r 2 2 = 0 then 2 else 4

/-- FILL, RECORD, WAIT and SIGNAL, GRAPH_LAUNCH and DUMP fields. -/
def flDst (p : List Byte) : Nat := leAt p 16 4
def flOff (p : List Byte) : Nat := leAt p 24 8
def flLen (p : List Byte) : Nat := leAt p 32 8
def flPattern (p : List Byte) : Nat := leAt p 40 8
def rcTl (p : List Byte) : Nat := leAt p 16 2
def rcVal (p : List Byte) : Nat := leAt p 24 8
def wtNote (p : List Byte) : Bool := leAt p 16 1 == 1
def wtIdx (p : List Byte) : Nat := leAt p 18 2
def glSlot (p : List Byte) : Nat := leAt p 16 2
def dpTensor (p : List Byte) : Nat := leAt p 16 4
def dpDst (p : List Byte) : Nat := leAt p 20 4
def dpOff (p : List Byte) : Nat := leAt p 24 8
def dpStep (p : List Byte) : Nat := leAt p 32 8
def dpName (p : List Byte) : Nat := leAt p 40 8

/-! ### Command records -/

/-- A command of the block. -/
def State.cmdOf (s : State) (id : CmdId) : Option Cmd := aget s.cmd.cmds id

/-- A command replaced. -/
def State.setCmd (s : State) (id : CmdId) (c : Cmd) : State := { s with cmd := { s.cmd with cmds := aput s.cmd.cmds id c } }

/-- A command removed. -/
def State.delCmd (s : State) (id : CmdId) : State := { s with cmd := { s.cmd with cmds := adel s.cmd.cmds id } }

/-- A command changed, if it is there. -/
def State.modCmd (s : State) (id : CmdId) (f : Cmd → Cmd) : State :=
  { s with cmd := { s.cmd with cmds := amod s.cmd.cmds id f } }

/-- A failing condition recorded for a command: the first stands (R286). -/
def Cmd.note (c : Cmd) (st : Nat) : Cmd := { c with fail := if c.fail.isSome then c.fail else some st }

/-- A failing condition of a command's access. -/
def State.failCmd (s : State) (id : CmdId) (st : Nat) : State := if st = stOk then s else s.modCmd id (fun c => c.note st)

/-- A failing condition that aborts the context of the command that met it: where a node met it, its GRAPH_LAUNCH completes
with the same status (12_shared_objects.md R256, R264). -/
def State.failWhole (s : State) (id : CmdId) (st : Nat) : State := (s.failCmd id st).failCmd ⟨id.ctx, id.seq, 0⟩ st

/-- Conditions of accesses that fail in one cycle: of those of one command the lower code wins (R286). -/
def State.failAll (s : State) (l : List (CmdId × Nat)) : State :=
  (isort (fun a b => a.2 ≤ b.2) l).foldl (fun s e => s.failWhole e.1 e.2) s

/-- The status a command completes with (R286). -/
def Cmd.status (c : Cmd) : Nat :=
  match c.pre, c.fail with
  | some st, _ => st
  | none, some st => st
  | none, none => if c.replayed then stReplayed else stOk

/-- The queue record of a software queue. -/
def State.swq (s : State) (q : Nat) : Option Swq := aget s.cmd.swqs q

/-- A software queue replaced. -/
def State.setSwq (s : State) (q : Nat) (w : Swq) : State := { s with cmd := { s.cmd with swqs := aput s.cmd.swqs q w } }

/-- Commands of a queue itself (not nodes of a graph launch), in no order. -/
def State.queueCmds (s : State) (q : Nat) : List (CmdId × Cmd) :=
  s.cmd.cmds.filter (fun e => e.2.q == q && e.1.node == 0)

/-- Nodes of a graph launch that have not completed. -/
def State.nodesOf (s : State) (id : CmdId) : List (CmdId × Cmd) :=
  s.cmd.cmds.filter (fun e => e.1.ctx == id.ctx && e.1.seq == id.seq && e.1.node != 0)

/-- An object whose DESTROY is in progress: nothing binds it any more (12_shared_objects.md R269). TYPE as in Table 12.1. -/
def State.dying (s : State) (typ i : Nat) : Bool :=
  s.obj.busy && (match s.obj.ops with
    | [] => false
    | o :: _ => o.op == 3 && o.typ == typ && o.index == i)

/-- Commands of a context. -/
def State.ctxCmds (s : State) (c : Nat) : List (CmdId × Cmd) := s.cmd.cmds.filter (fun e => e.1.ctx == c)

/-- Every command of a context numbered below `n` has completed (12_shared_objects.md R261); a transfer from a peer that is bound
counts as one (16_yorin_fabric.md R332). -/
def State.allBelow (s : State) (c n : Nat) : Bool :=
  (s.ctxCmds c).all (fun e => n ≤ e.1.seq) && s.fab.recv.all (fun r => r.2.ctx != c || r.2.ended || n ≤ r.2.seq)

/-- The next submission number of a context (12_shared_objects.md R255). -/
def State.nextSeq (s : State) (c : Nat) : Nat :=
  match aget s.obj.ctxs c with
  | some x => x.next
  | none => 0

/-! ### Memory objects in their table (12_shared_objects.md R259-R261) -/

/-- Physical address of an entry. -/
def State.moAt (s : State) (i : Nat) : Nat := s.rd F.OBJ_BASE_BASE * 2 ^ 25 + 32 * i

/-- Fields of an entry, Table 12.5. -/
def State.moVa (s : State) (i : Nat) : Nat := s.rdNat devKey (s.moAt i) 8
def State.moBytes (s : State) (i : Nat) : Nat := s.rdNat devKey (s.moAt i + 8) 8
def State.moCtx (s : State) (i : Nat) : Nat := s.rdNat devKey (s.moAt i + 16) 1
def State.moGen (s : State) (i : Nat) : Nat := s.rdNat devKey (s.moAt i + 18) 2 % 4096
def State.moRefs (s : State) (i : Nat) : Nat := s.rdNat devKey (s.moAt i + 20) 4
def State.moRelSeq (s : State) (i : Nat) : Nat := s.rdNat devKey (s.moAt i + 24) 8

/-- STATE of an entry: every entry is FREE after a module reset, whatever memory held (18_reset.md Table 18.2) (DEDUCED, log
65). -/
def State.moState (s : State) (i : Nat) : Nat := if s.obj.mos.contains i then s.rdNat devKey (s.moAt i + 17) 1 else 0

/-- References of an entry raised or lowered by one. -/
def State.moRefInc (s : State) (i : Nat) : State := s.wrNat devKey (s.moAt i + 20) 4 (s.moRefs i + 1)
def State.moRefDec (s : State) (i : Nat) : State := s.wrNat devKey (s.moAt i + 20) 4 (s.moRefs i - 1)

/-- Release of one reference that a command or a graph version holds (only memory objects count theirs in memory). -/
def State.unref (s : State) (r : ObjKind × Nat) : State :=
  match r.1 with
  | .mem => s.moRefDec r.2
  | _ => s

/-! ### Transfers over the fabric that end early (16_yorin_fabric.md R329, R335) -/

/-- A packet of this module, from a die, waits to be routed. -/
def State.emit (s : State) (die dst part : Nat) (t : FabTyp) (xfer pseq : Nat) (payload : List Byte) : State :=
  { s with fab := { s.fab with arrivals := s.fab.arrivals ++
    [⟨none, die, 0, ⟨t, 32, dst, s.rd F.FAB_MODULE_MODULE, false, part, xfer, pseq, payload⟩⟩] } }

/-- A transfer this module sends ends early: ABORT goes to the receiver. -/
def State.endSend (s : State) (x st : Nat) : State :=
  match aget s.fab.send x with
  | none => s
  | some t => { s with fab := { s.fab with send := adel s.fab.send x } }.emit t.die t.dst t.part .abort x 0 (leBytes 2 st)

/-- A transfer this module receives is dropped: its binding is released. Writes that a home has accepted are applied. -/
def State.dropRecv (s : State) (k : Nat × Nat) : State :=
  match aget s.fab.recv k with
  | none => s
  | some t =>
    let s := { s with
      fab := { s.fab with recv := adel s.fab.recv k }
      xlt := { s.xlt with blots := s.xlt.blots.map (fun (e : Nat × Blot) => (e.1, { e.2 with
        waiting := e.2.waiting.filter (fun (w : BWait) => w.src.xfer != some k) })) } }
    if t.ended then s else s.moRefDec t.obj

/-- A transfer this module receives ends early: ABORT goes to the sender. -/
def State.endRecv (s : State) (k : Nat × Nat) (st : Nat) : State :=
  match aget s.fab.recv k with
  | none => s
  | some t => if t.ended then s else (s.dropRecv k).emit t.die k.1 (s.ctxPart t.ctx) .abort k.2 0 (leBytes 2 st)

/-- The transfers that a test picks end early at this receiver. -/
def State.endRecvs (s : State) (st : Nat) (p : RecvX → Bool) : State :=
  ((s.fab.recv.filter (fun r => p r.2)).map (fun r => r.1)).foldl (fun s k => s.endRecv k st) s

/-- A failing condition of the command or transfer whose access waits on the blotter. -/
def State.failWait (s : State) (w : BWait) (st : Nat) : State :=
  match w.src.cmd, w.src.xfer with
  | some id, _ => s.failWhole id st
  | none, some k => s.endRecv k st
  | none, none => s

/-- Accesses, by serial, that a home or a requester still holds, or whose acknowledgement is on its way. -/
def State.liveOps (s : State) : List Nat :=
  (s.coh.bq ++ s.coh.want).map (fun m => m.op)
    ++ ((s.coh.txns ++ s.coh.queued).filter (fun t => !t.gone)).map (fun t => t.msg.op)
    ++ s.coh.bn.filterMap (fun n => match n with
      | .wrAck _ _ _ op => some op
      | .retry m _ => some m.op
      | _ => none)

/-- The marks of packets whose writes a reclaim has discarded are cleared (16_yorin_fabric.md R333). -/
def State.clearMarks (s : State) : State :=
  let live := s.liveOps
  { s with fab := { s.fab with recv := s.fab.recv.map (fun (e : (Nat × Nat) × RecvX) =>
    let dead := ((e.2.outs.filter (fun o => !live.contains o.1)).map (fun o => o.2.1))
    (e.1, { e.2 with got := e.2.got.filter (fun j => !dead.contains j), outs := e.2.outs.filter (fun o => live.contains o.1) })) } }

/-! ### Blocks that leave a core -/

/-- Blocks that a test picks leave their cores at once: slots, pages, scratch, engines and accesses in flight go with them
(03_thread_execution.md R84; 05_matrix_engines.md R127). -/
def State.dropBlocks (s : State) (p : Nat → Block → Bool) : State :=
  let out := (s.thr.blocks.filter (fun e => p e.1 e.2)).map (fun e => e.1)
  let eng := (s.mx.eng.filter (fun e => out.contains e.2.bid)).map (fun e => e.1)
  let held := fun (w : BWait) => match w.src.pipe with
    | some (k, _) => eng.contains k
    | none => false
  { s with
    xlt := { s.xlt with blots := s.xlt.blots.map (fun e => (e.1, { e.2 with waiting := e.2.waiting.filter (fun w => !held w) })) }
    thr := { s.thr with
      blocks := s.thr.blocks.filter (fun e => !p e.1 e.2)
      groups := s.thr.groups.filter (fun e => !out.contains e.2.bid)
      ops := s.thr.ops.filter (fun o => !out.contains o.bid) }
    mx := { s.mx with eng := s.mx.eng.filter (fun e => !out.contains e.2.bid) } }

/-! ### Abort of a command (12_shared_objects.md R267) -/

/-- Blocks that a test picks are lost: each access of theirs that had been issued and is not done is a wasted slot
(20_tally_and_ledger.md R403). -/
def State.loseWork (s : State) (p : Block → Bool) : State :=
  let out := (s.thr.blocks.filter (fun e => p e.2)).map (fun e => e.1)
  ((s.thr.ops.filter (fun o => out.contains o.bid)).foldl (fun s o =>
    s.tally (o.g.core / 128) (o.g.core % 128) 0x011 1 ⟨some o.cmd.ctx, some (o.g.slot % 4), none⟩) s).dropBlocks (fun _ b => p b)

/-- Requests that no home has accepted, and that a test does not keep, are discarded. -/
def State.keepReqs (s : State) (keep : BMsg → Bool) : State :=
  { s with coh := { s.coh with
    bq := s.coh.bq.filter keep
    want := s.coh.want.filter keep
    bn := s.coh.bn.filter (fun n => match n with
      | .retry m _ => keep m
      | _ => true) } }

/-- The updates of the transfers that a context receives, as far as no home has accepted them, are discarded (08_berim_stacks.md
R185). -/
def State.dropRecvUpd (s : State) (c : Nat) : State :=
  let mine := (s.fab.recv.filter (fun e => e.2.ctx == c)).flatMap (fun e => e.2.outs.map (fun o => o.1))
  s.keepReqs (fun m => !(m.req == .redU && mine.contains m.op))

/-- The accesses of a command that nothing has accepted yet are discarded; updates that a home has accepted are applied
(08_berim_stacks.md R185). -/
def State.dropOps (s : State) (id : CmdId) : State :=
  let s := { s with thr := { s.thr with ops := s.thr.ops.filter (fun o => o.cmd != id) } }.keepReqs
    (fun m => m.upd.all (fun u => u.cmd != some id))
  let live := s.liveOps
  s.modCmd id (fun c => { c with outs := c.outs.filter (fun n => live.contains n) })

/-- Synchronisation operations of a die's owning unit appended in order of arrival (14_synchronisation.md R294). -/
def State.pushSync (s : State) (idx : Nat) (o : SyncOp) : State :=
  { s with syn := { s.syn with ops := s.syn.ops ++ [(idx % 4, o)] } }

/-- A queue with no packet left to start is eligible no more (13_command_submission.md R274). -/
def State.dropElig (s : State) (q : Nat) : State :=
  if s.cmd.cmds.any (fun e => e.1.node == 0 && e.2.q == q && (e.2.ph == .unparsed || e.2.ph == .parsed)) then s
  else { s with cmd := { s.cmd with swqs := amod s.cmd.swqs q (fun w => { w with elig := none }) } }

/-- One command, or one node, is aborted with a status: one not started does not run, and a status its checks had found is
dropped (DEDUCED, log 91); a running LAUNCH loses its resident blocks; a registered WAIT is withdrawn at its owning unit
(14_synchronisation.md R301); a command that has ended keeps its own status. -/
def State.abortOne (s : State) (st : Nat) (id : CmdId) : State :=
  match s.cmdOf id with
  | none => s
  | some c =>
    match c.ph with
    | .ending => s
    | .unparsed => (s.setCmd id { c.note st with ph := .ending, pre := none }).dropElig c.q
    | .parsed => (s.setCmd id { c.note st with ph := .ending, pre := none }).dropElig c.q
    | .started =>
      match c.wait with
      | .satisfied _ => s
      | .withdrawing => s
      | .done => s
      | .registering | .registered =>
        (s.setCmd id { c.note st with wait := .withdrawing }).pushSync (wtIdx c.pkt) (.withdraw (wtNote c.pkt) (wtIdx c.pkt) id)
      | .saved => s.setCmd id { c.note st with wait := .idle, ph := .ending }
      | .idle =>
        if c.done then s
        else
          let s := match c.xfer with
            | some x => s.endSend x stAborted
            | none => s
          let s := { s with dbg := { s.dbg with armed := s.dbg.armed.filter (fun a => a.dump != id) } }
          ((s.loseWork (fun b => b.cmd == id)).dropOps id).setCmd id { c.note st with ph := .ending, noMore := true, again := [] }

/-- A command is aborted: a running GRAPH_LAUNCH with every node it has not completed (R267). -/
def State.abortCmd (s : State) (st : Nat) (id : CmdId) : State :=
  let nodes := if id.node = 0 && (s.cmdOf id).any (fun c => c.ph == .started && pkOp c.pkt == opGraph) then s.nodesOf id else []
  ((nodes.map (fun e => e.1)).foldl (fun s k => s.abortOne st k) s).abortOne st id

/-- Commands that a test picks are aborted, nodes of a graph launch with it. -/
def State.abortCmds (s : State) (st : Nat) (p : CmdId → Cmd → Bool) : State :=
  ((s.cmd.cmds.filter (fun e => p e.1 e.2)).map (fun e => e.1)).foldl (fun s id => s.abortCmd st id) s

/-! ### Context status page and abort (12_shared_objects.md R256, R257) -/

/-- Physical address of a context's status page. -/
def State.statusPage (s : State) (c : Nat) : Nat := s.rd F.CTX_CFG_STATUS c * 4096

/-- Transfers over the fabric that serve an owner. -/
def State.sendsOf (s : State) (o : XOwner) : List Nat := (s.fab.send.filter (fun e => e.2.owner == o)).map (fun e => e.1)

/-- Writes of the snapshot engine for an owner that are still to be acknowledged. -/
def State.snapBusy (s : State) (o : XOwner) : Bool :=
  !(s.sendsOf o).isEmpty || s.rcv.writes.any (fun w => w.own == o) || s.rcv.outs.any (fun e => e.2 == o)

/-- The snapshot engine gives up what it has not sent for an owner. -/
def State.snapDrop (s : State) (o : XOwner) : State :=
  { s with rcv := { s.rcv with writes := s.rcv.writes.filter (fun w => w.own != o), reads := s.rcv.reads.filter (fun e => e.1 != o) } }

/-- A cut in progress ends without a header write: what it saved is restored, a save still going on is given up
(17_fault_tolerance.md R360). -/
def State.cutEnd (s : State) (c : Nat) (x : Snap) : State :=
  if !x.mine then s
  else if s.ctxState c == ctxSaved then { s with obj := { s.obj with restoring := s.obj.restoring ++ [c] } }
  else { s with obj := { s.obj with saving := s.obj.saving.filter (fun k => k != c) } }

/-- A snapshot is over, in a phase; the last committed epoch stands. -/
def State.snapOff (s : State) (c phase : Nat) : State :=
  match aget s.rcv.snaps c with
  | none => s
  | some x =>
    let s := { s with rcv := { s.rcv with snaps := adel s.rcv.snaps c } }.snapDrop (.snap c)
    let s := (s.sendsOf (.snap c)).foldl (fun s k => s.endSend k stAborted) s
    (s.cutEnd c x).wr F.SNAP_STAT_PHASE phase c

/-- A context's snapshot stops with an error (17_fault_tolerance.md R360). -/
def State.snapStop (s : State) (c err : Nat) : State :=
  if (aget s.rcv.snaps c).isNone then s
  else ((s.snapOff c 4).wr F.SNAP_STAT_ERR err c).raise (0x450 + c)

/-- A snapshot whose EN was written 0 is over once none of its writes is in flight. -/
def State.snapIdle (s : State) (c : Nat) : State :=
  match aget s.rcv.snaps c with
  | none => s
  | some x => if x.stopping && !s.snapBusy (.snap c) then s.snapOff c 0 else s

/-! ### Detachment (21_debug.md R418) -/

/-- RESUME: a group halted by BREAK matches no breakpoint at its next issue (21_debug.md R420). -/
def Group.resume (x : Group) : Group := { x with halt := 0, stepping := 0, evt := 0 }

/-- A group under a debugger's control is let go; one halted by a trap is released. -/
def Group.letGo (x : Group) : Group := if x.halt == 0 && x.stepping == 0 then x else x.resume

/-- DBG_ATTACH.EN cleared. -/
def State.detach (s : State) (c : Nat) : State :=
  let mine := fun (bid : Nat) => (aget s.thr.blocks bid).any (fun b => b.cmd.ctx == c)
  let s := ((s.wr F.DBG_ATTACH_EN 0 c).wr F.DBG_ATTACH_BP_EN 0 c).wr F.DBG_ATTACH_WP_EN 0 c
  { s with
    dbg := { s.dbg with evts := adel s.dbg.evts c }
    thr := { s.thr with groups := s.thr.groups.map (fun e => if mine e.2.bid then (e.1, e.2.letGo) else e) }
    obj := { s.obj with saved := s.obj.saved.map (fun e =>
      if e.1 == c then (e.1, { e.2 with groups := e.2.groups.map Group.letGo }) else e) } }

/-- A context that leaves LIVE is detached, and its ledgers stop (20_tally_and_ledger.md R408). -/
def State.leavesLive (s : State) (c : Nat) : State := (if s.on F.DBG_ATTACH_EN c then s.detach c else s).ledCtxGone c

/-- CTX_ABORT: a context enters ABORTING with its aborting status (R256). An abort of a context that is not LIVE, RELEASING
or SAVED changes nothing (DEDUCED, log 61). -/
def State.abortCtx (s : State) (c st : Nat) : State :=
  if s.ctxState c != ctxLive && s.ctxState c != ctxReleasing && s.ctxState c != ctxSaved then s
  else
    let s := (s.wr F.CTX_STAT_STATE ctxAborting c).wr F.CTX_STAT_ABORT_STATUS st c
    let s := s.wrNat devKey (s.statusPage c + 8) 2 st
    let s := (s.wrNat devKey (s.statusPage c + 16) 8 s.stamp).bump
    let s := { s with
      obj := { s.obj with
        ctxs := amod s.obj.ctxs c (fun x => { x with rel := none })
        saved := s.obj.saved.filter (fun b => b.1 != c)
        saving := s.obj.saving.filter (fun x => x != c)
        restoring := s.obj.restoring.filter (fun x => x != c) }
      syn := { s.syn with saved := s.syn.saved.filter (fun w => w.cmd.ctx != c) } }
    let s := ((s.abortCmds stAborted (fun id _ => id.ctx == c)).dropRecvUpd c).endRecvs stAborted (fun r => r.ctx == c)
    (((s.dropQuires c).dropXlt c).snapStop c 6).leavesLive c

/-- An access of a slot whose EN is 0 aborts its context, and the command that made it completes with ST_FAULT_XLATE
(11_translation.md R470). -/
def State.xltOff (s : State) (c : Nat) (id : CmdId) : State := (s.failWhole id stFaultXlate).abortCtx c stFaultXlate

/-! ### Acknowledgements of engines' writes (04_memory_model.md R97) -/

/-- A command's own work is over; a capture with it (21_debug.md R427). -/
def State.workDone (s : State) (id : CmdId) : State :=
  ({ s with dbg := { s.dbg with armed := s.dbg.armed.filter (fun a => a.dump != id) } }).modCmd id (fun c => { c with done := true })

/-- A command whose last write has been sent is over once every write is acknowledged. -/
def State.copyOver (s : State) (id : CmdId) : State :=
  if (s.cmdOf id).any (fun c => c.sent && c.outs.isEmpty && !c.done) then s.workDone id else s

/-- WrAck for a write of a copy engine, of the snapshot engine or of a ledger writer: a write that met poison was dropped,
which fails its command or stops its snapshot (08_berim_stacks.md R169; 17_fault_tolerance.md R360) (DEDUCED, log 45). -/
def State.engineAck (s : State) (ser : Nat) (p : Poison) : State :=
  match s.cmd.cmds.find? (fun e => e.2.outs.contains ser), s.rcv.outs.find? (fun e => e.1 == ser) with
  | some (id, _), _ =>
    ((s.failCmd id p.status).modCmd id (fun c => { c with outs := c.outs.erase ser })).copyOver id
  | none, some (n, o) =>
    let s := { s with rcv := { s.rcv with outs := s.rcv.outs.erase (n, o) } }
    match o with
    | .snap c => if p == .none then s.snapIdle c else s.snapStop c 4
    | .push k => if p == .none then s else { s with rcv := { s.rcv with push := amod s.rcv.push k (fun x =>
        { x with err := if x.err = 0 then 3 else x.err }) } }
    | _ => s
  | none, none =>
    (List.range 4).foldl (fun s d => match (s.led d).out with
      | some (n, what) => if n == ser then s.ledAck d what else s
      | none => s) s

/-! ### Thread fault records (03_thread_execution.md R85) -/

/-- A launch's first trap writes the 32-byte record of Table 3.8 into FAULT_RING and advances FAULTS. -/
def State.faultRecord (s : State) (c : Nat) (bytes : List Byte) : State :=
  let n := s.rdNat devKey (s.statusPage c) 4
  let s := s.wrBytes devKey (s.statusPage c + 0x100 + 32 * (n % 32)) bytes
  s.wrNat devKey (s.statusPage c) 4 (n + 1)

/-- A later trap of a launch is counted in TRAPS, saturating (Table 12.4). -/
def State.faultLater (s : State) (c : Nat) : State :=
  s.wrNat devKey (s.statusPage c + 4) 4 (satTo 0xFFFFFFFF (s.rdNat devKey (s.statusPage c + 4) 4 + 1))

end Sys2Proof.Machine
end

