-- ==== Sys2Proof/Machine/Recover.lean ====
section
/-! DEFINITION. Responses to faults (17_fault_tolerance.md R342-R355): the recovery log, lost work, containment of a core,
quarantine of a cluster, dead agents and their reclaim (10_coherence.md R225, R226), dirty cache errors (09_caches.md R207). -/

namespace Sys2Proof.Machine

open Sys2Proof

/-- CAUSE codes, Table 17.1. -/
abbrev fMxResidue2 : Nat := 0x02
abbrev fPipeParity : Nat := 0x03
abbrev fRfUe : Nat := 0x04
abbrev fCoreCtl : Nat := 0x06
abbrev fCcDirty : Nat := 0x10
abbrev fClCtl : Nat := 0x11
abbrev fClHeart : Nat := 0x12
abbrev fClTest : Nat := 0x13
abbrev fClRecur : Nat := 0x14
abbrev fHomeTmo : Nat := 0x20
abbrev fStkTrip : Nat := 0x23
abbrev fClerkWdt : Nat := 0x24
abbrev fUcieDown : Nat := 0x26
abbrev fD2dDown : Nat := 0x27
abbrev fPkgWdt : Nat := 0x30

/-! ### The recovery log (R355) -/

/-- A record's 32 bytes, Table 17.4. -/
def Rec.bytes (r : Rec) : List Byte :=
  leBytes 8 r.stamp ++ leBytes 1 r.cause ++ leBytes 1 r.action ++ leBytes 2 r.unit ++ leBytes 1 r.part ++ leBytes 1 0
    ++ leBytes 2 (satTo 0xFFFF r.replayed) ++ leBytes 2 (satTo 0xFFFF r.failed) ++ leBytes 2 0 ++ leBytes 4 r.lost
    ++ leBytes 8 r.aborted.toNat

/-- REC_LOG_WRITE: a record is written, HEAD advances, REC_LOG is raised and triggers of SRC 2 fire; a full ring drops it. -/
def State.logWrite (s : State) (r : Rec) : State :=
  if !s.on F.REC_LOG_BASE_EN then s
  else
    let h := s.rd F.REC_LOG_PTR_HEAD
    if (h + 1024 - s.rd F.REC_LOG_PTR_TAIL) % 1024 == 512 then s.incSat F.REC_LOG_PTR_DROPPED
    else
      let s := s.wrBytes devKey (s.rd F.REC_LOG_BASE_BASE * 2 ^ 14 + 32 * (h % 512)) r.bytes
      ((s.wr F.REC_LOG_PTR_HEAD (h + 1)).raise 0x400).trigLog

/-- A response begins: its record waits for its end. -/
def State.openRec (s : State) (r : Rec) : State := { s with rcv := { s.rcv with logs := s.rcv.logs ++ [r] } }.bump

/-- A response ends: its record, found by action and unit, is written. -/
def State.closeRec (s : State) (action unit : Nat) : State :=
  match s.rcv.logs.find? (fun r => r.action == action && r.unit == unit) with
  | none => s
  | some r => { s with rcv := { s.rcv with logs := s.rcv.logs.erase r } }.logWrite r

/-- The record of a data-loss response is written once the contexts it aborted have left ABORTING (R355). -/
def State.closeLosses (s : State) : State :=
  let over_ := s.rcv.logs.filter (fun r => (r.action == 3 || r.action == 4)
    && (bitNumbers 64 r.aborted.toNat).all (fun c => s.ctxState c != ctxAborting))
  over_.foldl State.logWrite { s with rcv := { s.rcv with logs := s.rcv.logs.filter (fun r => !over_.contains r) } }

/-- A record changed while its response goes on. -/
def State.modRec (s : State) (action unit : Nat) (f : Rec → Rec) : State :=
  { s with rcv := { s.rcv with logs := s.rcv.logs.map (fun r => if r.action == action && r.unit == unit then f r else r) } }

/-- A fresh record (DEDUCED, log 32). -/
def State.newRec (s : State) (cause action unit part : Nat) : Rec := ⟨cause, action, unit, part, 0, 0, 0, 0, s.stamp⟩

/-! ### Contexts that lose data (R349) -/

/-- Contexts of a partition that an abort reaches. -/
def State.liveOf (s : State) (p : Nat) : List Nat :=
  (s.obj.ctxs.filter (fun e => e.2.part == p && (s.ctxState e.1 == ctxLive || s.ctxState e.1 == ctxReleasing
    || s.ctxState e.1 == ctxSaved))).map (fun e => e.1)

/-- One context aborted for a data loss: its started commands complete with the status of Table 17.2, its others with
ST_ABORTED. -/
def State.lossAbort (s : State) (st c : Nat) : State :=
  (((s.ctxCmds c).filter (fun e => e.2.ph == .started)).foldl (fun s e => s.failCmd e.1 st) s).abortCtx c st

/-- Contexts aborted for a data loss. -/
def State.lossAborts (s : State) (st : Nat) (cs : List Nat) : State := cs.foldl (State.lossAbort · st) s

/-- The bit mask of contexts, and the commands among them that have started. -/
def ctxMask (cs : List Nat) : BitVec 64 := cs.foldl (fun m c => m ||| (1#64 <<< c)) 0
def State.startedOf (s : State) (cs : List Nat) : Nat :=
  (s.cmd.cmds.filter (fun e => cs.contains e.1.ctx && e.2.ph == .started)).length

/-! ### Lost work (R352, R353) -/

/-- How often a block of a launch was placed again. -/
def Cmd.timesReplayed (c : Cmd) (i : Nat) : Nat := (aget c.replays i).getD 0

/-- One block of a launch is lost, Table 17.3: placed again, or the launch places no further block. -/
def State.loseBlock (st : Nat) (s : State) (b : Block) : State :=
  match s.cmdOf b.cmd with
  | none => s
  | some c =>
    if c.ph != .started then s
    else if c.replay && !c.noMore && c.timesReplayed b.index < s.rd F.REC_CTL_REPLAY_MAX then
      s.setCmd b.cmd { c with
        again := c.again ++ [b.index], replays := aput c.replays b.index (c.timesReplayed b.index + 1), replayed := true }
    else s.setCmd b.cmd { c.note st with noMore := true, ended := c.ended + 1 + c.again.length, again := [] }

/-- A command got its failing condition between two states. -/
def State.failedIn (s s1 : State) (id : CmdId) : Bool :=
  match s.cmdOf id, s1.cmdOf id with
  | some c, some d => c.fail.isNone && d.fail.isSome
  | _, _ => false

/-- Blocks that a test picks are lost, each with its whole cohort. The answer counts the blocks placed again and the commands
that will complete with a failing status for it (Table 17.4). -/
def State.loseBlocks (s : State) (p : Block → Bool) (st : Nat) : State × Nat × Nat :=
  let hit := (s.thr.blocks.filter (fun e => p e.2)).map (fun e => e.2)
  let gone := fun (b : Block) => p b || (b.cohort.isSome && hit.any (fun h => h.cmd == b.cmd && h.cohort == b.cohort))
  let all := (s.thr.blocks.filter (fun e => gone e.2)).map (fun e => e.2)
  let s1 := all.foldl (State.loseBlock st) (s.loseWork gone)
  let n := (all.filter (fun b => match s1.cmdOf b.cmd with
    | some c => c.again.contains b.index
    | none => false)).length
  (s1, n, ((all.map (fun b => b.cmd)).dedup.filter (s.failedIn s1)).length)

/-- Snapshots whose cut loses blocks before its header is written are abandoned: the epoch stays open (R360). -/
def State.cutLost (s : State) (cs : List Nat) : State :=
  (s.rcv.snaps.filter (fun e => cs.contains e.1 && e.2.cutting && e.2.step < 4)).foldl (fun s (c, x) =>
    let s := { s with rcv := { s.rcv with snaps := aput s.rcv.snaps c { x with step := 0, mine := false } } }
    (s.cutEnd c x).wr F.SNAP_STAT_PHASE (if x.epoch = x.first then 1 else 2) c) s

/-- Contexts of the blocks that a test picks. -/
def State.ctxsOf (s : State) (p : Block → Bool) : List Nat :=
  ((s.thr.blocks.filter (fun e => p e.2)).map (fun e => e.2.cmd.ctx)).dedup

/-! ### A core or a cluster leaves the protocols -/

/-- A core's L1 is emptied: where `keep`, modified lines are written back to the cluster cache first (R345). Requests that the
cluster cache has taken complete without it; a recall that waits is answered as a line in WI answers it. -/
def State.dropCore (s : State) (core : Nat) (keep : Bool) : State :=
  let cl := core / 8
  let dirty := fun (ln : Nat) => keep && (s.l1St core ln == .M || s.coh.aq.any (fun e => e == (core, ln, .putM)))
  let waits := (s.coh.cc.filter (fun e => e.1.unit == cl && e.2.own == some core && (e.2.wait == CcWait.down || e.2.wait == CcWait.recall))).map (fun e => e.1.line)
  let fix := fun (e : UL × CcLine) =>
    if e.1.unit != cl then e
    else
      let x := e.2
      let x := if x.own == some core then { x with dirty := x.dirty || dirty e.1.line, stale := none } else x
      let x := if x.own == some core && x.wait != CcWait.down && x.wait != CcWait.recall then { x with own := none } else x
      let x := match x.cur with
        | some (k, _) => if k == core then { x with cur := none, wait := if x.wait == CcWait.levelB then CcWait.none else x.wait } else x
        | none => x
      (e.1, { x with pres := x.pres &&& ~~~(1#8 <<< (core % 8)) })
  let s := { s with coh := { s.coh with
    cc := s.coh.cc.map fix
    l1 := s.coh.l1.filter (fun e => e.1.unit != core)
    aq := s.coh.aq.filter (fun e => e.1 != core)
    am := s.coh.am.filter (fun e => e.1 != core)
    ar := s.coh.ar.filter (fun e => e.1 != core) } }
  let s := waits.foldl (fun s ln => match s.ccLine cl ln with
    | some x => s.gotRdata cl ln x core false
    | none => s) s
  { s with
    thr := { s.thr with streams := adel s.thr.streams core }
    xlt := { s.xlt with tlbs := s.xlt.tlbs.filter (fun t => t.place != .micro core) } }

/-- Write-backs of a cluster's victim cache in flight. -/
def State.vcDraining (s : State) (cl : Nat) : Nat :=
  (s.coh.cc.filter (fun e => e.1.unit == cl && e.2.victim && e.2.st == .OIb)).length

/-- A victim-cache entry may drain: it is the oldest that is not on its way, with fewer than 8 in flight (09_caches.md R203). -/
def State.vcNext (s : State) (cl ln : Nat) : Bool :=
  s.coh.vc.find? (fun e => e.1 == cl && (s.ccLine cl e.2).any (fun y => y.st == .O)) == some (cl, ln) && s.vcDraining cl < 8

/-- Modified lines of a cluster that is being emptied, victim-cache entries first, as far as 8 write-backs for each home
(10_coherence.md R219) and the order and number of the victim cache's allow. -/
def State.flushMore (s : State) (cl : Nat) : State :=
  let lines := s.coh.cc.filter (fun e => e.1.unit == cl && e.2.st == .O)
  let old := (s.coh.vc.filter (fun e => e.1 == cl)).filterMap (fun v => (s.ccLine cl v.2).map (fun x => (v.2, x)))
  ((old.filter (fun e => e.2.st == .O)) ++ (lines.filter (fun e => !e.2.victim)).map (fun e => (e.1.line, e.2))).foldl (fun s (ln, x) =>
    if s.wbOut cl (homeOf ln) < 8 && (!x.victim || s.vcNext cl ln) then
      ((s.setCc cl ln { x with st := .OIb, pres := 0, own := none, cur := none, wait := .none, snoop := none, stale := none }).note
        (.wbM cl ln)).tallyCc cl 0x103 x.cls
    else s) s

/-- A cluster that is being emptied has write-backs that its homes have not acknowledged. -/
def State.flushing (s : State) (cl : Nat) : Bool :=
  s.coh.cc.any (fun e => e.1.unit == cl && (e.2.st == .OIb || (e.2.st == .O && s.coh.flush.contains cl)))

/-- A cluster is empty once its last write-back is acknowledged. -/
def State.flushOver (s : State) (cl : Nat) : State :=
  if s.flushing cl then s else { s with coh := { s.coh with flush := s.coh.flush.erase cl } }

/-- Every cluster-cache line of a cluster is given up: clean lines are dropped, modified ones and victim entries written back
(09_caches.md R205). -/
def State.flushCluster (s : State) (cl : Nat) : State :=
  let s := (coresOf cl).foldl (fun s k => s.dropCore k true) s
  let s := { s with coh := { s.coh with
    flush := if s.coh.flush.contains cl then s.coh.flush else s.coh.flush ++ [cl]
    vwait := s.coh.vwait.filter (fun e => e.1 != cl) } }
  let s := ((s.coh.cc.filter (fun e => e.1.unit == cl && e.2.st != .OIb)).map (fun e => (e.1.line, e.2))).foldl (fun s (ln, x) =>
    if x.st == .O && x.dirty then s
    else if x.st == .S || x.st == .O || x.st == .I then s.delCc cl ln
    else s.setCc cl ln { x with pres := 0, cur := none }) s
  (s.flushMore cl).flushOver cl

/-! ### Clusters -/

/-- The nine domains of a cluster. -/
def clusterDoms (cl : Nat) : List Nat := coresOf cl ++ [512 + cl]

/-- A quarantined cluster's domains are switched off (R346). -/
def State.clusterOff (s : State) (cl : Nat) : State :=
  ((clusterDoms cl).foldl (fun (s : State) d => s.setDom domOff d)
    { s with coh := { s.coh with
      cc := s.coh.cc.filter (fun e => e.1.unit != cl), vc := s.coh.vc.filter (fun e => e.1 != cl), flush := s.coh.flush.erase cl } }).gateSettle

/-! ### Dead agents (10_coherence.md R225, R226) -/

/-- The AGENT_DEAD bit of a requester. -/
def State.isDead (s : State) (a : Nat) : Bool := bitsOf (s.rd F.AGENT_DEAD_DEAD (a / 64)) (a % 64) 1 == 1

/-- The serial of a write of a copy engine, a ledger writer or the snapshot engine that no home has acknowledged
(04_memory_model.md R97). -/
def State.engineSer (s : State) (n : Nat) : Bool :=
  s.cmd.cmds.any (fun e => e.2.outs.contains n) || s.rcv.outs.any (fun e => e.1 == n) || s.tal.leds.any (fun e => e.2.out.any (fun o => o.1 == n))

/-- A cluster leaves service: writes of engines that it was asked for go on through the service cluster of their partition as
it is chosen again (17_fault_tolerance.md R347; 09_caches.md R196). Those that no home has accepted wait while no cluster
serves. -/
def State.rehome (s : State) (cl : Nat) : State :=
  let mine := fun (m : BMsg) => m.r == cl && s.engineSer m.op
  let new := fun (m : BMsg) => s.svcOf m.key (cl / 16) (fun c => c != cl)
  let fix := fun (m : BMsg) => if mine m then (match new m with
    | some n => { m with r := n, credit := false }
    | none => m) else m
  let back := s.coh.bn.filterMap (fun n => match n with
    | .retry m _ => if mine m then some m else none
    | _ => none)
  let moved := (s.coh.want ++ back).filter mine
  { s with coh := { s.coh with
    bq := (s.coh.bq.filter (fun m => !(mine m && (new m).isNone))).map fix ++ (moved.filter (fun m => (new m).isSome)).map fix
    want := s.coh.want.filter (fun m => !mine m)
    orphans := s.coh.orphans ++ (s.coh.bq ++ moved).filter (fun m => mine m && (new m).isNone)
    queued := s.coh.queued.map (fun t => { t with msg := fix t.msg })
    txns := s.coh.txns.map (fun t => { t with msg := fix t.msg })
    bn := s.coh.bn.filter (fun n => match n with
      | .retry m _ => !mine m
      | _ => true) } }

/-- Engine writes that waited for a cluster in service go on (09_caches.md R196). -/
def State.adoptOrphans (s : State) : State :=
  s.coh.orphans.foldl (fun s m => match s.svcOf m.key (m.r / 16) (fun _ => true) with
    | some n => { s with coh := { s.coh with orphans := s.coh.orphans.erase m, bq := s.coh.bq ++ [{ m with r := n, credit := false }] } }
    | none => s) s

/-- An agent's lines are given up: its bit is set, every home starts its reclaim, and what the agent had sent and no home has
accepted is gone. -/
def State.giveDead (s : State) (a : Nat) : State :=
  let s := (s.rehome a).wr F.AGENT_DEAD_DEAD (s.rd F.AGENT_DEAD_DEAD (a / 64) ||| 2 ^ (a % 64)) (a / 64)
  { s with coh := { s.coh with
    reclaim := s.coh.reclaim ++ ((List.range 16).map (fun h => (h, a))).filter (fun e => !s.coh.reclaim.contains e)
    bq := s.coh.bq.filter (fun m => m.r != a)
    want := s.coh.want.filter (fun m => m.r != a)
    cred := s.coh.cred.filter (fun c => c.1 != a)
    flush := s.coh.flush.filter (fun c => c != a) } }.clearMarks

/-- An agent is declared dead; one whose bit is set is so already. -/
def State.setDead (s : State) (a : Nat) : State := if 84 ≤ a || s.isDead a then s else s.giveDead a

/-- An agent returns to service. -/
def State.clearDead (s : State) (a : Nat) : State :=
  s.wr F.AGENT_DEAD_DEAD (s.rd F.AGENT_DEAD_DEAD (a / 64) &&& (2 ^ 64 - 1 - 2 ^ (a % 64))) (a / 64)

/-- A message of level B from or to a cluster. -/
def BNote.isOf (a : Nat) : BNote → Bool
  | .wbM c _ => c == a
  | .done r _ => r == a
  | .datS c _ _ => c == a
  | .datX c _ _ => c == a
  | .gntX c _ _ => c == a
  | .fwdS c _ _ => c == a
  | .fwdX c _ _ => c == a
  | .rdData r _ _ _ _ => r == a
  | .wrAck r _ _ _ => r == a
  | .wbAck c _ => c == a
  | .retry m _ => m.r == a
  | .crGnt r _ => r == a
  | .sn _ c _ _ => c == a
  | .snAck c _ => c == a
  | .snAckD c _ _ => c == a
  | .snMiss c _ => c == a
  | .snWb c _ => c == a

/-- A message that a reclaim discards: an acknowledgement of a write that was performed, to a fabric port or for an engine
whose write another cluster had sent on, is not one. -/
def State.dropped (s : State) (a : Nat) (n : BNote) : Bool :=
  n.isOf a && (match n with
    | .wrAck _ _ _ op => a < 72 && !s.engineSer op
    | _ => true)

/-- A line stored as LOST. -/
def State.loseLine (s : State) (a ln : Nat) : State :=
  let s := ((s.setPoison ln .lost).delDir ln).incSat F.HS_CNT_LOST (homeOf ln)
  { s with rcv := { s.rcv with lost := aput s.rcv.lost a ((aget s.rcv.lost a).getD 0 + 1) } }

/-- The forward of an owner to a transaction's requester is on its way. -/
def State.forwarded (s : State) (t : Txn) : Bool :=
  s.coh.bn.any (fun n => match n with
    | .fwdS c l _ => c == t.msg.r && l == t.msg.line
    | .fwdX c l _ => c == t.msg.r && l == t.msg.line
    | _ => false)

/-- What an owner forwarded before it was declared dead counts as LOST at its receiver (R226). -/
def State.loseCopies (s : State) (ln : Nat) : State :=
  { s with coh := { s.coh with
    cc := s.coh.cc.map (fun e => if e.1.line == ln then (e.1, { e.2 with pk := .lost }) else e)
    bn := s.coh.bn.map (fun n => match n with
      | .fwdS c l p => .fwdS c l (if l = ln then .lost else p)
      | .fwdX c l p => .fwdX c l (if l = ln then .lost else p)
      | n => n) } }

/-- A dead agent's part in one transaction of a home ends: its own request is discarded; what it owned, or had said it was writing
back, is LOST to the requester. -/
def State.reclaimTxn (a : Nat) (s : State) (ln : Nat) : State :=
  match s.coh.txns.find? (fun t => t.msg.line == ln) with
  | none => s
  | some t =>
    let (s, t) := if t.msg.r == a && !s.engineSer t.msg.op && (a < 72 || t.msg.req != .redU || !t.replied) then
        let t := { t with gone := true, needDone := none, replied := t.replied || t.snoops.isEmpty }
        (s.setTxn t, t)
      else (s, t)
    let owned := (s.dirOf ln).any (fun d => d.own == some a)
    if t.again then
      if owned then (s.loseLine a ln).restart { t with lost := true } else s
    else match t.snoops.find? (fun x => x.1 == a) with
    | none => (if owned then s.loseLine a ln else s).advance ln
    | some (_, .inv) => (s.setTxn { t with snoops := t.snoops.filter (fun x => x.1 != a) }).advance ln
    | some _ =>
      if s.coh.held.contains (a, ln) then
        ({ s with coh := { s.coh with held := s.coh.held.erase (a, ln) } }.applyWb a ln).restart t
      else if t.replied && !t.gone && (s.forwarded t || t.needDone.isNone) then
        let s := (s.loseLine a ln).loseCopies ln
        let s := s.setDir ln (if t.msg.req == .rdS then ⟨1#64 <<< t.msg.r, none, false, false⟩ else ⟨0, some t.msg.r, false, false⟩)
        (s.setTxn { t with snoops := [] }).advance ln
      else (s.loseLine a ln).restart { t with lost := true }

/-- One home's reclaim of a dead agent (R226). -/
def State.reclaimHome (s : State) (h a : Nat) : State :=
  let lines := (s.coh.txns.filter (fun t => homeOf t.msg.line == h)).map (fun t => t.msg.line)
  let mine := fun (ln : Nat) => homeOf ln == h
  let s := { s with coh := { s.coh with
    queued := s.coh.queued.filter (fun t => !(mine t.msg.line && t.msg.r == a && !s.engineSer t.msg.op))
    credq := s.coh.credq.filter (fun c => c != (h, a))
    aside := s.coh.aside.filter (fun c => !(c.1 == h && c.2.1 == a))
    bn := s.coh.bn.filter (fun n => !s.dropped a n) } }
  let owned := (s.coh.dir.filter (fun e => mine e.1 && e.2.own == some a && !lines.contains e.1)).map (fun e => e.1)
  let s := owned.foldl (fun s ln => s.loseLine a ln) s
  let s := lines.foldl (State.reclaimTxn a) s
  let dir := (s.coh.dir.map (fun e =>
    if mine e.1 then (e.1, { e.2 with sharers := e.2.sharers &&& ~~~(1#64 <<< a) }) else e)).filter (fun e =>
      !(mine e.1 && e.2.own.isNone && e.2.sharers == 0))
  let s := { s with coh := { s.coh with dir := dir, reclaim := s.coh.reclaim.erase (h, a) } }.clearMarks
  (s.grantCredit h).pumpAll

/-! ### Quarantine (R346) -/

/-- A quarantine ends the unit resets of a cluster and of its cores (DEDUCED, log 46), and a folio load in progress tests it
no more (02_folio.md R55). -/
def State.unitsGone (s : State) (cl : Nat) : State :=
  let d := cl / 16
  let w := 2 * d + cl % 16 / 8
  let s := s.wr F.RST_UNIT_CLUSTER (s.rd F.RST_UNIT_CLUSTER d &&& (2 ^ 16 - 1 - 2 ^ (cl % 16))) d
  let s := s.wr F.RST_CORE_CORE (s.rd F.RST_CORE_CORE w &&& (2 ^ 64 - 1 - 255 * 2 ^ (8 * (cl % 8)))) w
  { s with fol := { s.fol with quarAt := s.fol.quarAt.filter (fun c => c != cl) } }

/-- CLUSTER_QUARANTINE. -/
def State.quarantine (s : State) (cl cause : Nat) : State :=
  if 64 ≤ cl || s.on F.REC_CNT_QUAR cl then s
  else
    let old := s
    let mine := fun (b : Block) => b.core / 8 == cl
    let s := (((s.wr F.REC_CNT_QUAR 1 cl).incSat F.REC_CNT_QUARS cl).raise (0x040 + cl)).unitsGone cl
    let s := s.cutLost (s.ctxsOf mine)
    let (s, again, failed) := s.loseBlocks mine stQuarantined
    let s := s.openRec { s.newRec cause 2 cl (s.clusterPart cl) with replayed := again, failed := failed }
    let s := { s with rcv := { s.rcv with
      cores := s.rcv.cores.filter (fun k => k / 8 != cl)
      repart := s.rcv.repart ++ [cl]
      testing := s.rcv.testing.filter (fun c => c != cl) } }
    let s := if cause = fClHeart ∨ cause = fClCtl ∨ cause = fHomeTmo then
        let s := (coresOf cl).foldl (fun s k => s.dropCore k false) s
        ({ s with coh := { s.coh with cc := s.coh.cc.filter (fun e => e.1.unit != cl), vc := s.coh.vc.filter (fun e => e.1 != cl) } }).giveDead cl
      else
        let s := s.rehome cl
        let s := { s with coh := { s.coh with
          bq := s.coh.bq.filter (fun m => m.r != cl), want := s.coh.want.filter (fun m => m.r != cl) } }
        let s := s.flushCluster cl
        if s.flushing cl then { s with rcv := { s.rcv with wb := s.rcv.wb ++ [cl] } } else s.clusterOff cl
    s.capFrom old

/-- A quarantined cluster whose write-backs have all been acknowledged is switched off. -/
def State.flushEnd (s : State) (cl : Nat) : State :=
  if s.rcv.wb.contains cl && !s.flushing cl then
    { s with rcv := { s.rcv with wb := s.rcv.wb.erase cl } }.clusterOff cl
  else s

/-! ### Containment (R345) -/

/-- A containment counts for its cluster; at QUAR_THRESH it raises CL_RECUR. -/
def State.countContain (s : State) (cl : Nat) : State :=
  let s := s.incSat F.REC_CNT_CONTAIN cl
  if s.rd F.REC_CTL_QUAR_THRESH ≤ s.rd F.REC_CNT_CONTAIN cl then s.quarantine cl fClRecur else s

/-- An instruction or pass of a cluster is replayed (R344). -/
def State.countReplay (s : State) (cl : Nat) : State := s.incSat F.REC_CNT_REPLAY cl

/-! ### Dirty cache errors (09_caches.md R206, R207) -/

/-- CC_ELOG keeps the first parity error since it was cleared. -/
def State.ccLog (s : State) (cl addr way core unit : Nat) (dirty : Bool) : State :=
  if s.on F.CC_ELOG_VALID cl then s.wr F.CC_ELOG_OVF 1 cl
  else (((((s.wr F.CC_ELOG_ADDR addr cl).wr F.CC_ELOG_WAY way cl).wr F.CC_ELOG_CORE core cl).wr F.CC_ELOG_UNIT unit cl).wr
    F.CC_ELOG_DIRTY (b2n dirty) cl).wr F.CC_ELOG_VALID 1 cl

/-- HS_TLOG keeps the first timeout or protocol error since it was cleared. -/
def State.hsLog (s : State) (ln agent : Nat) (ctl proto : Bool) : State :=
  let h := homeOf ln
  if s.on F.HS_TLOG_VALID h then s.wr F.HS_TLOG_OVF 1 h
  else ((((s.wr F.HS_TLOG_ADDR ln h).wr F.HS_TLOG_AGENT agent h).wr F.HS_TLOG_CTL (b2n ctl) h).wr F.HS_TLOG_PROTO (b2n proto) h).wr
    F.HS_TLOG_VALID 1 h

/-- A dirty error is fatal to the partition that owns the cluster (R349), and counts as a containment of the cluster. -/
def State.partFatal (s : State) (cl : Nat) : State :=
  let p := s.clusterPart cl
  let cs := s.liveOf p
  let n := s.startedOf cs
  let s := s.lossAborts stPoison cs
  let r := { s.newRec fCcDirty 3 (s.freeVal 1002 16) p with failed := n, aborted := ctxMask cs }
  ((s.openRec r).closeLosses).countContain cl

/-- DIRTY_ERROR (R207): the way is invalidated, the line's home stores POISON, the partition is told (DEDUCED, log 32). -/
def State.dirtyError (s : State) (cl ln way core unit : Nat) : State :=
  let s := (s.ccLog cl (if unit == 3 then 0 else ln) way core unit true).incSat F.CC_ECNT_DIRTY cl
  let here := fun (k l : Nat) => k / 8 == cl && l == ln
  let s := { s with coh := { s.coh with
    l1 := s.coh.l1.filter (fun e => !here e.1.unit e.1.line)
    aq := s.coh.aq.filter (fun e => !here e.1 e.2.1)
    ar := s.coh.ar.filter (fun e => !here e.1 e.2.1)
    am := s.coh.am.filter (fun e => !here e.1 e.2.1) } }
  let s := (s.delCc cl ln).poisonLine ln
  let s := match s.dirOf ln with
    | none => s
    | some d =>
      if s.lineBusy ln then s
      else if d.own == some cl then s.delDir ln
      else
        let m := d.sharers &&& ~~~(1#64 <<< cl)
        if m == 0 && d.own.isNone then s.delDir ln else s.setDir ln { d with sharers := m }
  s.partFatal cl

/-- A message that the protocol never delivers, at an L1 or a cluster cache (10_coherence.md R213). -/
def State.protoErr (s : State) (cl ln core : Nat) : State :=
  let way := match s.ccLine cl ln with
    | some x => x.way
    | none => 0
  s.dirtyError cl ln way core 2

/-- A message that the protocol never delivers, at a home (10_coherence.md R213). -/
def State.protoErrHome (s : State) (ln agent : Nat) : State :=
  let s := (s.hsLog ln agent false true).poisonLine ln
  if agent < 64 then s.partFatal agent else s

/-! ### Containment of a core (R345) -/

/-- A modified line of an L1 that is written back is read, and one that fails its parity is a dirty error (R345 step 3). -/
def State.l1Parity (s : State) (core : Nat) : State :=
  ((s.coh.l1.filter (fun e => e.1.unit == core && e.2.st == .M)).map (fun e => (e.1.line, e.2.way))).foldl (fun s (ln, way) =>
    match s.takeFind (.l1 core) with
    | some (_, s) => s.dirtyError (core / 8) ln way (core % 8) 1
    | none => s) s

/-- CORE_CONTAIN: the core is cut off, its blocks are lost, its self-test runs. -/
def State.contain (s : State) (core cause : Nat) : State :=
  if 512 ≤ core || s.rcv.cores.contains core || s.on F.REC_CNT_QUAR (core / 8) then s
  else
    let old := s
    let mine := fun (b : Block) => b.core == core
    let s := { s with rcv := { s.rcv with cores := s.rcv.cores ++ [core] } }
    let s := s.cutLost (s.ctxsOf mine)
    let (s, again, failed) := s.loseBlocks mine stPoison
    let s := s.openRec { s.newRec cause 1 core (s.clusterPart (core / 8)) with replayed := again, failed := failed }
    (((s.l1Parity core).dropCore core true).capFrom old).countContain (core / 8)

/-! ### Reads of a cluster cache, and the agents that make them (09_caches.md R194-R206; 10_coherence.md R214) -/

/-- What a lookup's parity check found in the line (09_caches.md R206): a clean line is counted and invalidated, and
fetched again, from the L1 that owns it where one does; a modified line, a victim-cache entry, or a tag is a dirty error. -/
def State.ccCheck (s : State) (cl ln : Nat) (found : Found) : State :=
  match s.ccLine cl ln with
  | none => s
  | some x =>
    match found with
    | .clean =>
      if !x.dirty && !x.victim && (x.st == .S || x.st == .O) then
        let s := if x.own.isNone && x.cur.isNone && x.snoop.isNone && x.wait == .none then
          (s.sendInvs cl ln x.pres none).delCc cl ln else s
        (s.incSat F.CC_ECNT_CLEAN cl).ccLog cl ln x.way 0 2 false
      else s
    | .dirty => if x.dirty || x.victim || x.own.isSome then s.dirtyError cl ln x.way 0 (if x.victim then 4 else 2) else s
    | .tag => s.dirtyError cl ln x.way 0 3
    | _ => s

/-- What a row found in a line that it reads, or what the cache's check is to find next (DESIGN CHOICE, log 93). -/
def State.ccFound (s : State) (cl ln : Nat) (found : Found) : State :=
  if found != .none then s.ccCheck cl ln found
  else match s.takeFind (.cache cl) with
    | some (f, s) => s.ccCheck cl ln f
    | none => s

/-- An agent of a class reads or writes a line through a cluster cache, and whether the cache now serves it: a hit makes the line
young; a line that an L1 owns is taken back first, which a feeder (class 4) does not ask for (05_matrix_engines.md R115); a miss
takes a way and asks the home, or waits (DEDUCED, log 23). -/
def State.ccAsk (s : State) (cl cls ln : Nat) (write : Bool) : State × Bool :=
  let back : CcWait := if write then .recall else .down
  let s := s.ccFound cl ln .none
  match s.ccLine cl ln with
  | none =>
    if s.ownWrite cl ln then (s, false)
    else match s.ccWay cl ln cls with
    | none => (s.fillWaits cl ln cls, false)
    | some (s, w) =>
      let age := if cls == 5 || cls == 6 then 3 else 2
      ((({ s with coh := { s.coh with vwait := s.coh.vwait.erase (cl, ln) } }.tallyCc cl 0x101 cls).ccFilled cl cls age |>.setCc cl ln
        ⟨if write then .IXb else .ISb, false, 0, none, w, age, cls, none, .levelB, none, false, .none,
          none, true⟩).sendB (ccReq cl ln cls (if write then .rdX else .rdS)), false)
  | some x =>
    if x.cur.isSome || x.snoop.isSome || x.wait != .none || !(x.st == .S || x.st == .O) then (s, false)
    else match x.own with
      | some k =>
        if cls == 4 then ((s.looked cl cls x).setCc cl ln { x with age := if x.fresh then x.age else 0, fresh := false }, true)
        else ((s.setCc cl ln { x with wait := back }).msgA k ln (if write then .recall else .down), false)
      | none =>
        let young := { x with age := if x.fresh then x.age else 0, fresh := false }
        if !write then ((s.looked cl cls x).setCc cl ln young, true)
        else if x.st == .O then (((s.looked cl cls x).sendInvs cl ln x.pres none).setCc cl ln { young with pres := 0, dirty := true }, true)
        else ((((s.looked cl cls x).sendInvs cl ln x.pres none).setCc cl ln
          { x with age := 0, pres := 0, st := .SXb, wait := .levelB, fresh := true }).sendB (ccReq cl ln cls .upX), false)

/-- Several lines of one access: whether the cache serves all of them. -/
def State.ccAskAll (s : State) (cl cls : Nat) (lns : List Nat) (write : Bool) : State × Bool :=
  lns.foldl (fun (s, ok) ln => let (s, y) := s.ccAsk cl cls ln write; (s, ok && y)) (s, true)

/-- A die-level agent that acts for a context reads or writes lines through the cache of its service cluster (09_caches.md R196):
whether that cache serves them. Where no cluster is in service the request waits; an OFF cache is woken. -/
def State.svcAsk (s : State) (c die cls : Nat) (lns : List Nat) (write : Bool) : State × Bool :=
  match s.svcCluster c die with
  | none => (s, lns.isEmpty)
  | some cl => if lns.isEmpty then (s, true) else if s.dom (512 + cl) == domOn then s.ccAskAll cl cls lns write else (s.svcWake c die, false)

end Sys2Proof.Machine
end

