-- ==== Sys2Proof/Machine/Commands.lean ====
section
/-! DEFINITION. Command submission (13_command_submission.md): doorbells, hardware slots, parsing and binding, starts,
timeouts and completion records. Copies, dumps and QENQ are in Copy.lean and QEnq.lean. -/

namespace Sys2Proof.Machine

open Sys2Proof

/-- A command as it is accepted: unparsed. -/
def newCmd (q : Nat) : Cmd :=
  ⟨q, [], .unparsed, [], none, none, none, false, 0, 0, [], [], false, false, .idle, false, false, false, false, false, false,
    false, none, false, 0, 0, [], false⟩

/-! ### Doorbells (R272, R273) -/

/-- Status with which a submission to a context in this state fails, Table 12.3. -/
def submitFail (st : Nat) : Option Nat :=
  if st = ctxReleasing ∨ st = ctxDestroying ∨ st = ctxFree then some stObjGone
  else if st = ctxAborting ∨ st = ctxAborted then some stAborted
  else none

/-- One packet of a queue accepted: it takes the context's next submission number (12_shared_objects.md R255). One submitted to a
RELEASING context fails when its turn comes; in a context that parses no more it has ended (Table 12.3). -/
def State.accept (s : State) (q : Nat) (w : Swq) : State :=
  let n := s.nextSeq w.ctx
  let c := match submitFail (s.ctxState w.ctx) with
    | none => newCmd q
    | some st => if s.ctxState w.ctx = ctxReleasing then { newCmd q with pre := some st }
      else { (newCmd q).note st with ph := .ending }
  let s := s.setCmd ⟨w.ctx, n, 0⟩ c
  let s := { s with obj := { s.obj with ctxs := amod s.obj.ctxs w.ctx (fun x => { x with next := n + 1 }) } }
  s.wr F.CTX_STAT_NEXT_SEQ (n + 1) w.ctx

/-- `n` packets accepted in order. -/
def State.acceptN (q : Nat) (w : Swq) : Nat → State → State
  | 0, s => s
  | n + 1, s => State.acceptN q w n (s.accept q w)

/-! ### Order of starts (R278, R287) -/

/-- Packets of a queue not started. -/
def State.unstarted (s : State) (q : Nat) : List (CmdId × Cmd) :=
  (s.queueCmds q).filter (fun e => e.2.ph == .unparsed || e.2.ph == .parsed)

/-- Commands of a queue earlier than a number. -/
def State.earlier (s : State) (q n : Nat) : List (CmdId × Cmd) := (s.queueCmds q).filter (fun e => e.1.seq < n)

/-- Commands of a queue started and not yet recorded. -/
def State.unrecorded (s : State) (q : Nat) : Nat := ((s.queueCmds q).filter (fun e => e.2.began)).length

/-- The completion ring has room for one more started command (R287). -/
def State.ringRoom (s : State) (q : Nat) (w : Swq) : Bool :=
  let open_ := s.unrecorded q
  (s.rd F.SWQ_CMPL_WRITTEN q + open_ + 2 ^ 32 - s.rd F.SWQ_CMPL_ACK q) % 2 ^ 32 < 2 ^ w.cmplLog

/-- A packet numbered `n` may start under R278 and R287. -/
def State.turn (s : State) (q : Nat) (w : Swq) (n : Nat) : Bool :=
  (s.earlier q n).all (fun e => (e.2.ph == .started || e.2.ph == .ending)
    && pkOp e.2.pkt != opWait && pkOp e.2.pkt != opFence) && s.ringRoom q w

/-- The lowest number of a list of commands. -/
def lowest (l : List (CmdId × Cmd)) : Option (CmdId × Cmd) :=
  l.foldl (fun b e => match b with
    | none => some e
    | some m => if e.1.seq < m.1.seq then some e else some m) none

/-- A queue is eligible for a slot (R274). -/
def State.eligible (s : State) (q : Nat) : Bool :=
  match s.swq q with
  | none => false
  | some w => s.rd F.SWQ_STAT_STATE q == 1 &&
    (match lowest (s.unstarted q) with
      | none => false
      | some e => s.turn q w e.1.seq)

/-- A queue is mapped on some slot of its die. -/
def State.mapped (s : State) (q : Nat) : Bool :=
  (List.range 256).any (fun k => s.on F.QSLOT_STAT_MAPPED k && s.rd F.QSLOT_STAT_SWQ k == q)

/-- The queues of a die that wait for a slot. -/
def State.waitingQueues (s : State) (die : Nat) : List (Nat × Swq) :=
  s.cmd.swqs.filter (fun e => e.2.die == die && s.eligible e.1 && !s.mapped e.1)

/-- A queue is the first in the mapping order of its die: PRIO, then order of eligibility (R274). -/
def State.firstWaiting (s : State) (q : Nat) (w : Swq) : Bool :=
  (s.waitingQueues w.die).all (fun e => e.1 == q || e.2.prio < w.prio || (e.2.prio == w.prio &&
    (match w.elig, e.2.elig with
      | some a, some b => a ≤ b
      | none, some _ => false
      | _, none => true)))

/-- A queue takes its place in the mapping order when it becomes eligible while unmapped, and loses it when it is mapped or ceases
to be eligible (R274). -/
def State.placeQueue (s : State) (q : Nat) : State :=
  match s.swq q with
  | none => s
  | some w =>
    if s.mapped q || !s.eligible q then s.setSwq q { w with elig := none }
    else if w.elig.isSome then s
    else { s with cmd := { s.cmd with swqs := aput s.cmd.swqs q { w with elig := some s.cmd.order }, order := s.cmd.order + 1 } }

/-- A doorbell write (R273). A queue whose destruction is in progress is gone (12_shared_objects.md R269). -/
def State.doorbell (s : State) (q v : Nat) : State :=
  match s.swq q with
  | none => s
  | some w =>
    let head := s.rd F.SWQ_STAT_HEAD q
    let d := (v + 2 ^ 32 - head) % 2 ^ 32
    let t := (w.tail + 2 ^ 32 - head) % 2 ^ 32
    if s.dying 1 q then s
    else if w.devEnq || 2 ^ w.ringLog < d || d < t then s.wr F.SWQ_STAT_DB_ERR 1 q
    else ((State.acceptN q w (d - t) s).setSwq q { w with tail := v }).placeQueue q

/-- A clerk that is OFF is woken where every awake clerk of its die serves a mapped slot (19_power_and_clocks.md R383). -/
def State.clerkForSlot (s : State) (k : Nat) : State :=
  if s.dom (604 + k) == domOff && (List.range 4).all (fun i => s.dom (604 + k / 4 * 4 + i) != domOn || s.clerkServes (k / 4 * 4 + i)) then
    s.setDom domWaking (604 + k)
  else s

/-- QUEUE_MAP: the clerks map an eligible queue onto a free enabled slot (R274). -/
def State.queueMap (s : State) (q slot : Nat) : State :=
  match s.swq q with
  | none => s
  | some w =>
    if slot < 256 && slot / 64 == w.die && s.on F.QSLOT_CTL_EN slot && !s.on F.QSLOT_STAT_MAPPED slot
        && s.eligible q && !s.mapped q && s.firstWaiting q w then
      if s.dom (604 + slot / 16) != domOn then s.clerkForSlot (slot / 16)
      else (((s.wr F.QSLOT_STAT_SWQ q slot).wr F.QSLOT_STAT_MAPPED 1 slot).wr F.QSLOT_STAT_CLERK (s.clerkServing (slot / 16)) slot).setSwq q
        { w with since := 0, elig := none }
    else s

/-! ### Packet checks (R276, R279, R281) -/

/-- Bytes of a list in `[lo, hi)` are zero. -/
def zeroIn (p : List Byte) (lo hi : Nat) : Bool := leAt p lo (hi - lo) == 0

/-- A COPY's RED byte names a type that Table 13.4 does not have, or sets a bit it wants zero. -/
def redBad (r : Nat) : Bool := bitsOf r 4 4 != 0 || bitsOf r 2 2 == 3

/-- A packet breaks a rule that its own bytes show (Tables 13.2 to 13.4, R281). -/
def pkBad (p : List Byte) : Bool :=
  bitsOf (leAt p 1 1) 2 6 != 0 || !zeroIn p 2 8 ||
  (let o := pkOp p
   if o = opNop ∨ o = opFence then !zeroIn p 16 64
   else if o = opLaunch then
     lnEntry p % 16 != 0 || lnObjList p % 4 != 0 || lnBlocks p == 0 || lnThreads p == 0 || 1024 < lnThreads p
     || lnRegs p < 16 || lnSteps p == 0 || 4 < lnSteps p || bitsOf (lnMode p) 7 1 != 0 || 320 < lnScratch p
     || lnCohort p == 1 || 8 < lnCohort p || 64 < lnObjCnt p || !zeroIn p 52 64
     || 512 < lnGroups p * lnPages p || (lnCohort p != 0 && lnBlocks p % lnCohort p != 0)
   else if o = opCopy then
     cpLen p == 0 || redBad (cpRed p) || bitsOf (leAt p 49 1) 1 7 != 0 || 4096 ≤ cpMod p || 64 ≤ cpCtx p
     || !zeroIn p 53 64 || (cpPeer p && 2 ^ 40 < cpLen p)
     || (bitsOf (cpRed p) 0 2 != 0 && (cpSrcOff p % redSize (cpRed p) != 0 || cpDstOff p % redSize (cpRed p) != 0
        || cpLen p % redSize (cpRed p) != 0))
   else if o = opFill then
     !zeroIn p 20 24 || flOff p % 8 != 0 || flLen p % 8 != 0 || flLen p < 8 || !zeroIn p 48 64
   else if o = opRecord then 4096 ≤ rcTl p || !zeroIn p 18 24 || !zeroIn p 32 64
   else if o = opWait ∨ o = opSignal then
     1 < leAt p 16 1 || !zeroIn p 17 18 || (!wtNote p && 4096 ≤ wtIdx p) || !zeroIn p 20 24
     || (wtNote p && 2 ^ 32 ≤ rcVal p) || !zeroIn p 32 64
   else if o = opGraph then 1024 ≤ glSlot p || !zeroIn p 18 64
   else if o = opDump then !zeroIn p 48 64
   else true)

/-- The timeline or note that a packet acts on. -/
def pkSync (p : List Byte) : Option (ObjKind × Nat) :=
  if pkOp p = opRecord then some (.timeline, rcTl p)
  else if pkOp p = opWait ∨ pkOp p = opSignal then some (if wtNote p then .note else .timeline, wtIdx p)
  else none

/-! ### Binding (12_shared_objects.md R260; 14_synchronisation.md R468) -/

/-- A memory object handle binds for a command of context `c` numbered `n`; an object being destroyed does not (R269). -/
def State.moBinds (s : State) (c n h : Nat) : Bool :=
  let i := h % 2 ^ 20
  !s.dying 2 i && s.moGen i == h / 2 ^ 20 && s.moCtx i == c && (s.moState i == 1 || (s.moState i == 2 && n < s.moRelSeq i))

/-- A binding would raise REFS to its limit: the queue is held. -/
def State.moFull (s : State) (h : Nat) : Bool := s.moRefs (h % 2 ^ 20) == 0xFFFFFFFE

/-- A timeline or note binds (R468). -/
def State.syncBinds (s : State) (note : Bool) (idx c n : Nat) : Bool :=
  match aget (if note then s.syn.notes else s.syn.tls) idx with
  | none => false
  | some o => !s.dying (if note then 3 else 4) idx && o.ctx == c && (match o.rel with | none => true | some r => n < r)

/-- The version of a graph slot that a launch numbered `n` runs: the one that is current for `n` (R264, R266, R269). One that
names a memory object whose destruction has begun binds no more (R268). -/
def State.graphVer (s : State) (slot c n : Nat) : Option GVer :=
  match aget s.obj.graphs slot with
  | none => none
  | some g =>
    if s.dying 5 slot || g.ctx != c then none
    else (g.vers.filter (fun v => v.start ≤ n && (match v.stop with
      | none => true
      | some k => n < k))).getLast?.filter (fun v => v.refs.all (fun r => !(r.1 == .mem && s.dying 2 r.2)))

/-- The memory object handles a packet names in its own bytes. -/
def pkHandles (p : List Byte) : List Nat :=
  let o := pkOp p
  if o = opCopy then (if cpPeer p then [cpSrc p] else [cpSrc p, cpDst p])
  else if o = opFill then [flDst p]
  else if o = opDump then [dpTensor p, dpDst p]
  else []

/-- A range within an object passes its BYTES (R260). -/
def State.pastEnd (s : State) (h off len : Nat) : Bool := s.moBytes (h % 2 ^ 20) < off + len

/-- A packet whose objects are bound names a range past an object's end. -/
def State.rangeBad (s : State) (p : List Byte) : Bool :=
  let o := pkOp p
  if o = opCopy then s.pastEnd (cpSrc p) (cpSrcOff p) (cpLen p)
    || (!cpPeer p && s.pastEnd (cpDst p) (cpDstOff p) (cpLen p))
  else if o = opFill then s.pastEnd (flDst p) (flOff p) (flLen p)
  else if o = opDump then s.pastEnd (dpDst p) (dpOff p) (64 + s.moBytes (dpTensor p % 2 ^ 20))
  else false

/-- A reducing COPY whose addresses are not multiples of the element size fails its checks (R280, R281). -/
def State.redMisaligned (s : State) (p : List Byte) : Bool :=
  pkOp p == opCopy && bitsOf (cpRed p) 0 2 != 0 &&
    ((s.moVa (cpSrc p % 2 ^ 20) + cpSrcOff p) % redSize (cpRed p) != 0
     || (!cpPeer p && (s.moVa (cpDst p % 2 ^ 20) + cpDstOff p) % redSize (cpRed p) != 0))

/-- Handles bound one after the other; the first that fails ends the binding. The answer holds the objects bound. -/
def State.bindAll (c n : Nat) : List Nat → State → List (ObjKind × Nat) → State × List (ObjKind × Nat) × Bool
  | [], s, done => (s, done, true)
  | h :: r, s, done =>
    if s.moBinds c n h then State.bindAll c n r (s.moRefInc (h % 2 ^ 20)) (done ++ [(.mem, h % 2 ^ 20)])
    else (s, done, false)

/-- Binding a list would raise an object's REFS to its limit: the queue is held until REFS falls (R260). -/
def State.bindHolds (c n : Nat) : List Nat → State → Bool
  | [], _ => false
  | h :: r, s => s.moBinds c n h && (s.moFull h || State.bindHolds c n r (s.moRefInc (h % 2 ^ 20)))

/-- References released. -/
def State.unrefAll (s : State) (l : List (ObjKind × Nat)) : State := l.foldl State.unref s

/-! ### Captures armed by DUMPs (21_debug.md R427) -/

/-- A LAUNCH or GRAPH_LAUNCH: a step that a DUMP may name. -/
def isStep (op : Nat) : Bool := op == opLaunch || op == opGraph

/-- A capture whose step turns out to be of another opcode: its DUMP completes with ST_ABORTED. -/
def State.armFail (s : State) (a : Armed) : State :=
  ({ s with dbg := { s.dbg with armed := s.dbg.armed.filter (fun x => x.dump != a.dump) } }).modCmd a.dump
    (fun c => { c.note stAborted with done := true })

/-- A capture learns its step: the first LAUNCH or GRAPH_LAUNCH of its queue that follows it, or the command it names. -/
def State.armOne (s : State) (a : Armed) : State :=
  let put := fun (x : Armed) => { s with dbg := { s.dbg with armed := s.dbg.armed.map (fun y => if y.dump == a.dump then x else y) } }
  if a.got.isSome then s
  else match a.step, s.cmdOf a.dump with
    | _, none => s
    | none, some d =>
      match lowest ((s.queueCmds d.q).filter (fun e => a.dump.seq < e.1.seq && e.2.ph != .unparsed && isStep (pkOp e.2.pkt))) with
      | some e => put { a with step := some e.1.seq, q := some d.q }
      | none => s
    | some n, some _ =>
      match s.cmdOf ⟨a.dump.ctx, n, 0⟩ with
      | none => s
      | some c =>
        if c.ph == .unparsed || c.pkt.isEmpty || isStep (pkOp c.pkt) then put { a with q := some c.q } else s.armFail a

/-- Every armed capture learns what it can. -/
def State.armEval (s : State) : State := s.dbg.armed.foldl State.armOne s

/-- A command has completed: captures armed on it may begin. -/
def State.armOver (s : State) (id : CmdId) (op st q : Nat) : State :=
  let s := { s with cmd := { s.cmd with past := aput s.cmd.past (id.ctx, id.seq) (op, st, q) } }
  (s.dbg.armed.filter (fun a => a.dump.ctx == id.ctx && a.step == some id.seq && a.got.isNone)).foldl (fun s a =>
    if isStep op then { s with dbg := { s.dbg with armed := s.dbg.armed.map (fun y =>
      if y.dump == a.dump then { y with got := some (st, s.stamp) } else y) } }
    else s.armFail a) s

/-- A capture holds a command of its step's queue numbered above the step (DEDUCED, log 37). -/
def State.armHolds (s : State) (id : CmdId) (c : Cmd) : Bool :=
  s.dbg.armed.any (fun a => a.dump.ctx == id.ctx && a.q == some c.q && (match a.step with
    | some n => n < id.seq
    | none => false))

/-- A parsed command that will complete at its turn with a status, its bound objects released (R281). -/
def State.parsedWith (s : State) (id : CmdId) (c : Cmd) (p : List Byte) (st : Nat) (refs : List (ObjKind × Nat)) : State :=
  (s.unrefAll refs).setCmd id { c with pkt := p, ph := .parsed, pre := some st, refs := [] }

/-- A packet read for a command is checked, and the objects it names are bound (R260, R281, R468). `hs` are its handles. -/
def State.parsePacket (s : State) (id : CmdId) (c : Cmd) (p : List Byte) (hs : List Nat) (listBad : Bool) : State :=
  if pkBad p || listBad then (s.wr F.SWQ_STAT_BADPKT 1 c.q).parsedWith id c p stAborted []
  else
    let o := pkOp p
    if (o = opRecord && !s.syncBinds false (rcTl p) id.ctx id.seq)
        || ((o = opWait || o = opSignal) && !s.syncBinds (wtNote p) (wtIdx p) id.ctx id.seq) then
      s.parsedWith id c p stObjGone []
    else
      let (s1, refs, ok) := State.bindAll id.ctx id.seq hs s []
      if !ok then s1.parsedWith id c p stObjGone refs
      else if s1.rangeBad p then s1.parsedWith id c p stFaultPerm refs
      else if s1.redMisaligned p then (s1.wr F.SWQ_STAT_BADPKT 1 c.q).parsedWith id c p stAborted refs
      else
        let sref := if o = opRecord then [(ObjKind.timeline, rcTl p)]
          else if o = opWait ∨ o = opSignal then [(if wtNote p then ObjKind.note else ObjKind.timeline, wtIdx p)]
          else []
        if o = opGraph then
          match s1.graphVer (glSlot p) id.ctx id.seq with
          | none => s1.parsedWith id c p stObjGone refs
          | some v => s1.setCmd id { c with pkt := p, ph := .parsed, refs := refs, gver := some (glSlot p, v.ver) }
        else s1.setCmd id { c with pkt := p, ph := .parsed, refs := refs ++ sref }

/-! ### Accesses of engines and clerks (11_translation.md R233-R244; 09_caches.md R196) -/

/-- The clerk of a queue, by its number on its die: that of the slot the queue is mapped on; else 0 (DESIGN CHOICE, log 74). -/
def State.clerkOf (s : State) (q : Nat) : Nat :=
  match (List.range 256).find? (fun k => s.on F.QSLOT_STAT_MAPPED k && s.rd F.QSLOT_STAT_SWQ k == q) with
  | some k => s.rd F.QSLOT_STAT_CLERK k % 4
  | none => 0

/-- Source of an access of the clerk of a command's queue (Table 11.8). -/
def State.clerkSrc (s : State) (die q : Nat) (id : CmdId) : AccSrc := ⟨3, die * 16 + s.clerkOf q, some id, none, none⟩

/-- Source of the copy engine of a die (Table 11.8). -/
def copySrc (die : Nat) (id : CmdId) : AccSrc := ⟨2, die * 16, some id, none, none⟩

/-- The first page of a range whose access stops, and by what. -/
def firstStop (x : Nat → Xlate) (va n : Nat) : Option (Nat × Xlate) :=
  ((List.range ((va + n - 1) / 4096 + 1 - va / 4096)).map (fun i => max va ((va / 4096 + i) * 4096))).findSome? (fun a =>
    match x a with
    | .pa _ => none
    | .host _ _ => none
    | y => some (a, y))

/-- What stops an access of an engine or clerk to a range of a context's space. -/
def State.vaStop (s : State) (die c acc va n : Nat) : Option (Nat × Xlate) := firstStop (fun a => s.xlate die c a acc) va n

/-- The lines of stack memory that a range of a context's space lies in, once it translates. -/
def State.vaLines (s : State) (die c va n : Nat) : List Nat :=
  (linesOf va n).filterMap (fun l => match s.xlate die c (max va (128 * l)) 0 with
    | .pa a => some (a / 128)
    | _ => none)

/-- Bytes of a context's space that an engine or clerk reads; a byte of a poisoned line is a free value (DEDUCED, log 55). -/
def State.rdVas (s : State) (die c va n : Nat) : List Byte :=
  (List.range n).map (fun i => match s.xlate die c (va + i) 0 with
    | .pa a => if s.svcKind c die (a / 128) != .none then BitVec.ofNat 8 (s.freeVal (8000 + i) 8) else s.rdByte (s.ctxKey c) a
    | .host a _ => s.rdHost a
    | _ => 0)

/-- What a read of a range of a context's space meets. -/
def State.vaPoison (s : State) (die c va n : Nat) : Poison :=
  let ks := (s.vaLines die c va n).map (s.svcKind c die)
  if ks.contains .poison then .poison else if ks.contains .lost then .lost else .none

/-- A range of a context's space is read through the service cluster's cache as one class, or over UCIe: whether that cache
serves it now. -/
def State.vaAsk (s : State) (die c cls va n : Nat) : State × Bool :=
  let s := if (List.range n).any (fun i => match s.xlate die c (va + i) 0 with
    | .host _ _ => true
    | _ => false) then s.useLink die else s
  s.svcAsk c die cls (s.vaLines die c va n) false

/-- An engine's or clerk's access that cannot go on: it faults to the blotter, needs a walk, or aborts its context (R244,
R470). -/
def State.stopAt (s : State) (die : Nat) (id : CmdId) (src : AccSrc) (acc : Nat) : Nat × Xlate → State
  | (a, .fault ca l) => s.blotWait id.ctx a ca l acc src
  | (a, .walk) => s.needWalk die id.ctx a acc src (.die die)
  | (_, .off) => s.xltOff id.ctx id
  | (_, .pa _) => s
  | (_, .host _ _) => s

/-! ### Parsing -/

/-- A packet that its clerk has read is checked and bound; the handle list of a LAUNCH is read first (R281). -/
def State.parseRead (s : State) (q : Nat) (w : Swq) (id : CmdId) (c : Cmd) (p : List Byte) (pk : Poison) : State :=
  if pk != .none then (s.inc F.SWQ_STAT_HEAD q).parsedWith id c p pk.status []
  else if let some st := c.pre then (s.inc F.SWQ_STAT_HEAD q).parsedWith id c p st []
  else if pkOp p = opLaunch ∧ ¬ pkBad p ∧ lnObjCnt p ≠ 0 then
    let n := 4 * lnObjCnt p
    match s.vaStop w.die w.ctx accRead (lnObjList p) n with
    | some x => s.stopAt w.die id (s.clerkSrc w.die q id) accRead x
    | none =>
      match s.vaAsk w.die w.ctx 1 (lnObjList p) n with
      | (s, false) => s
      | (s, true) =>
        let l := s.rdVas w.die w.ctx (lnObjList p) n
        let hs := (List.range (lnObjCnt p)).map (fun i => leAt l (4 * i) 4)
        if State.bindHolds id.ctx id.seq hs s then s
        else ((s.inc F.SWQ_STAT_HEAD q).parsePacket id c p hs (s.vaPoison w.die w.ctx (lnObjList p) n != .none)).bump
  else if !pkBad p && State.bindHolds id.ctx id.seq (pkHandles p) s then s
  else (s.inc F.SWQ_STAT_HEAD q).parsePacket id c p (pkHandles p) false

/-- The clerk reads the next packet of a mapped queue as class 1, checks it and binds what it names (R273, R281). -/
def State.parseNext (s : State) (q : Nat) : State :=
  match s.swq q, lowest ((s.queueCmds q).filter (fun e => e.2.ph == .unparsed)) with
  | some w, some (id, c) =>
    if !s.mapped q || s.rd F.SWQ_STAT_STATE q != 1 || s.cmdWaits id
        || (s.ctxState w.ctx != ctxLive && s.ctxState w.ctx != ctxReleasing) || s.isSaving w.ctx then s
    else
      let va := w.ringVa + 64 * (s.rd F.SWQ_STAT_HEAD q % 2 ^ w.ringLog)
      match s.vaStop w.die w.ctx accRead va 64 with
      | some x => s.stopAt w.die id (s.clerkSrc w.die q id) accRead x
      | none =>
        match s.vaAsk w.die w.ctx 1 va 64 with
        | (s, false) => s
        | (s, true) => s.parseRead q w id c (s.rdVas w.die w.ctx va 64) (s.vaPoison w.die w.ctx va 64)
  | _, _ => s

/-- PACKET_PARSE; a capture that waits for its step's packet learns its opcode. -/
def State.packetParse (s : State) (q : Nat) : State := (s.parseNext q).armEval

/-! ### Starts (R277, R278) -/

/-- Node `k` of a graph launch has every predecessor completed: no command stands for one (12_shared_objects.md R264). -/
def State.predsDone (s : State) (id : CmdId) : Bool :=
  match s.cmdOf ⟨id.ctx, id.seq, 0⟩ with
  | none => false
  | some p =>
    match p.gver with
    | none => false
    | some (slot, v) =>
      match aget s.obj.graphs slot with
      | none => false
      | some g =>
        match g.vers.find? (fun x => x.ver == v) with
        | none => false
        | some x => x.edges.all (fun e => e.2 + 1 != id.node || (s.cmdOf ⟨id.ctx, id.seq, e.1 + 1⟩).isNone)

/-- A parsed command may start now. -/
def State.mayStart (s : State) (id : CmdId) (c : Cmd) : Bool :=
  c.ph == .parsed && (s.ctxState id.ctx == ctxLive || s.ctxState id.ctx == ctxReleasing) && !s.isSaving id.ctx
  && !s.isCutting id.ctx &&
  (if id.node = 0 then
    (match s.swq c.q with
      | none => false
      | some w => s.rd F.SWQ_STAT_STATE c.q == 1 && s.mapped c.q && w.taking.isNone && s.turn c.q w id.seq && !s.armHolds id c)
   else s.predsDone id)

/-- A command starts: its clerk dispatches it, and its timer runs (R277, R284). -/
def State.start (s : State) (id : CmdId) (c : Cmd) (f : Cmd → Cmd) : State :=
  let s := s.setCmd id (f { c with ph := .started, began := true, turn := s.cmd.order, replay := s.on F.REC_QPOL_REPLAY c.q })
  if id.node = 0 then
    { s with cmd := { s.cmd with swqs := amod s.cmd.swqs c.q (fun w => { w with since := w.since + 1 }) } }.dieTag c.q id
  else s

/-- A command of an opcode that may start and has no failed check. -/
def State.ready (s : State) (id : CmdId) (op : Nat) : Option Cmd :=
  match s.cmdOf id with
  | none => none
  | some c => if pkOp c.pkt == op && c.pre.isNone && s.mayStart id c then some c else none

/-- NOP starts; it completes at its start. -/
def State.startNop (s : State) (id : CmdId) : State :=
  match s.ready id opNop with
  | none => s
  | some c => s.start id c (fun c => { c with done := true })

/-- FENCE starts; it completes when every earlier command of its queue has. -/
def State.startFence (s : State) (id : CmdId) : State :=
  match s.ready id opFence with
  | none => s
  | some c => s.start id c (fun c => c)

/-- The effective arithmetic mode of a context's launch with this ARITH_UP (07_arithmetic_rules.md R146): strict,
saturation, and the partition's MXFP4_READ. -/
def State.arithMode (s : State) (ctx up : Nat) : Bool × Bool × Bool :=
  let a := match s.partDef (s.ctxPart ctx) with
    | some d => d.arith.toNat
    | none => 0
  let strict := bitsOf a 0 1 == 1 || bitsOf up 0 1 == 1
  (strict, !strict && bitsOf a 2 1 == 1 && bitsOf up 1 1 == 0, bitsOf a 1 1 == 1)

/-- LAUNCH starts: its blocks may be placed (R275), under its effective arithmetic mode (R146, R148). -/
def State.startLaunch (s : State) (id : CmdId) : State :=
  match s.ready id opLaunch with
  | none => s
  | some c =>
    let m := s.arithMode id.ctx (lnArith c.pkt)
    s.start id c (fun c => { c with strict := m.1, sat := m.2.1, mxfp4 := m.2.2 })

/-- RECORD's signal goes to its owning unit once every earlier command of its queue has completed (Table 13.3). -/
def State.recordSignal (s : State) (id : CmdId) : State :=
  match s.cmdOf id with
  | none => s
  | some c =>
    if pkOp c.pkt == opRecord && c.ph == .started && !c.sig && (s.earlier c.q id.seq).isEmpty then
      (s.setCmd id { c with sig := true }).pushSync (rcTl c.pkt) (.signal false (rcTl c.pkt) (rcVal c.pkt) id)
    else s

/-- RECORD starts. -/
def State.startRecord (s : State) (id : CmdId) : State :=
  match s.ready id opRecord with
  | none => s.recordSignal id
  | some c => (s.start id c (fun c => c)).recordSignal id

/-- The die of a queue; a queue that is gone has none. -/
def State.queueDie (s : State) (q : Nat) : Option Nat := (s.swq q).map (fun w => w.die)

/-- A WAIT holds an entry of its die's wait table. -/
def WaitPh.holdsEntry : WaitPh → Bool
  | .idle => false
  | .saved => false
  | .done => false
  | _ => true

/-- Entries in use of a die's wait table (14_synchronisation.md R300). -/
def State.waitEntries (s : State) (die : Nat) : Nat :=
  (s.cmd.cmds.filter (fun e => e.2.ph == .started && s.queueDie e.2.q == some die && e.2.wait.holdsEntry)).length

/-- The next packet of a queue is unable to start: it may not, is not parsed, waits on the blotter, or is a WAIT that finds no
entry (R274; 14_synchronisation.md R300). -/
def State.nextStuck (s : State) (q : Nat) : Bool :=
  match lowest (s.unstarted q) with
  | none => false
  | some (id, c) => c.ph == .unparsed || !s.mayStart id c || s.cmdWaits id
    || (pkOp c.pkt == opWait && 1024 ≤ s.waitEntries ((s.queueDie q).getD 0))

/-- QUEUE_UNMAP: a mapped queue gives up its slot at one of the moments of R274. -/
def State.queueUnmap (s : State) (slot : Nat) (waited held : Bool) : State :=
  if !s.on F.QSLOT_STAT_MAPPED slot then s
  else
    let q := s.rd F.QSLOT_STAT_SWQ slot
    let free := ((s.wr F.QSLOT_STAT_MAPPED 0 slot).wr F.QSLOT_STAT_SWQ 0 slot).placeQueue q
    match s.swq q with
    | none => free
    | some w =>
      let others := s.waitingQueues w.die
      if (s.unstarted q).isEmpty then free
      else if (waited && s.nextStuck q && !others.isEmpty)
          || ((held || 64 ≤ w.since) && others.any (fun e => w.prio ≤ e.2.prio)) then
        free
      else s

/-- WAIT starts: a note WAIT of 0 completes at once; another takes an entry of its die's wait table and registers
(14_synchronisation.md R298, R300). -/
def State.startWait (s : State) (id : CmdId) : State :=
  match s.ready id opWait with
  | none => s
  | some c =>
    if wtNote c.pkt && rcVal c.pkt == 0 then s.start id c (fun c => { c with wait := .done, done := true })
    else
      let die := (s.queueDie c.q).getD 0
      if 1024 ≤ s.waitEntries die then s
      else (s.start id c (fun c => { c with wait := .registering })).pushSync (wtIdx c.pkt)
        (.register (wtNote c.pkt) (wtIdx c.pkt) (rcVal c.pkt) id)

/-- SIGNAL starts: its signal goes to the owning unit (14_synchronisation.md R294, R299). -/
def State.startSignal (s : State) (id : CmdId) : State :=
  match s.ready id opSignal with
  | none => s
  | some c => (s.start id c (fun c => { c with sig := true })).pushSync (wtIdx c.pkt)
      (.signal (wtNote c.pkt) (wtIdx c.pkt) (rcVal c.pkt) id)

/-- The nodes of a graph launch become commands that wait for their predecessors (12_shared_objects.md R264); one whose
object its version could not bind, or is being destroyed (R268), or whose range passes an object's end, does not run (R260). -/
def State.addNodes (id : CmdId) (q : Nat) (nobind : List Nat) : Nat → List (List Byte) → State → State
  | _, [], s => s
  | k, p :: r, s =>
    let gone := nobind.contains k || (match pkSync p with
      | some (.note, i) => s.dying 3 i
      | some (_, i) => s.dying 4 i
      | none => false)
    let pre := if gone then some stObjGone else if s.rangeBad p then some stFaultPerm else none
    State.addNodes id q nobind (k + 1) r (s.setCmd ⟨id.ctx, id.seq, k + 1⟩ { newCmd q with pkt := p, ph := .parsed, pre := pre })

/-- GRAPH_LAUNCH starts. -/
def State.startGraph (s : State) (id : CmdId) : State :=
  match s.ready id opGraph with
  | none => s
  | some c =>
    match c.gver with
    | none => s
    | some (slot, v) =>
      match aget s.obj.graphs slot with
      | none => s
      | some g =>
        match g.vers.find? (fun x => x.ver == v) with
        | none => s
        | some x => State.addNodes id c.q x.nobind 0 x.nodes (s.start id c (fun c => c))

/-! ### Completion (R285-R291) -/

/-- Work of a launch is over: every block has ended, none is to be placed again, and every write is performed (R62, R277). -/
def State.launchOver (s : State) (id : CmdId) (c : Cmd) : Bool :=
  (c.ended == lnBlocks c.pkt || (c.noMore && c.ended == c.blocks)) && c.again.isEmpty
  && s.thr.blocks.all (fun b => b.2.cmd != id) && s.thr.ops.all (fun o => o.cmd != id)
  && s.coh.bq.all (fun m => m.upd.all (fun u => u.cmd != some id)) && s.stk.upd.all (fun u => u.cmd != some id)

/-- A started command has reached its completion, Table 13.3. -/
def State.cmdOver (s : State) (id : CmdId) (c : Cmd) : Bool :=
  let o := pkOp c.pkt
  if o = opLaunch then s.launchOver id c
  else if o = opFence then (s.earlier c.q id.seq).isEmpty
  else if o = opGraph then (s.nodesOf id).isEmpty
  else if o = opWait then c.wait == .done
  else c.done

/-- An aborted command may complete: once its own writes have been acknowledged (04_memory_model.md R97), a GRAPH_LAUNCH after its
nodes, and one whose packet is still to be read for its record in the order of its queue (R273, R291). -/
def State.endingOver (s : State) (id : CmdId) (c : Cmd) : Bool :=
  c.outs.isEmpty && (id.node != 0 || ((s.nodesOf id).isEmpty && (!c.pkt.isEmpty || (s.earlier c.q id.seq).all (fun e => !e.2.pkt.isEmpty))))

/-- The cores of a context's partition whose L1 holds or awaits something. -/
def State.partCores (s : State) (ctx : Nat) : List Nat :=
  (((s.coh.l1.map (fun e => e.1.unit)) ++ s.coh.am.map (fun m => m.1)).dedup).filter (fun k => s.clusterPart (k / 8) == s.ctxPart ctx)

/-- A satisfied WAIT is an acquire at SYS scope (04_memory_model.md R100): the cores that may run what follows it apply the
invalidations queued for them (DEDUCED, log 17). -/
def State.waitAcquires (s : State) (id : CmdId) (c : Cmd) : State :=
  if pkOp c.pkt == opWait && c.wait == .done then (s.partCores id.ctx).foldl State.applyInvs s else s

/-- A satisfied WAIT whose acquire cannot be done yet. -/
def State.waitBlocked (s : State) (id : CmdId) (c : Cmd) : Bool :=
  pkOp c.pkt == opWait && c.wait == .done && (s.partCores id.ctx).any s.invBlocked

/-- A command is ready to complete: it has ended, or fails at its turn without running, or has run to its end. -/
def State.canComplete (s : State) (id : CmdId) (c : Cmd) : Bool :=
  match c.ph with
  | .ending => s.endingOver id c
  | .parsed => c.pre.isSome && s.mayStart id c
  | .started => s.cmdOver id c && !s.waitBlocked id c
  | .unparsed => false

/-- The 32 bytes of a completion record, Table 13.6. -/
def recBytes (id : CmdId) (q st stamp flags : Nat) (pkt : List Byte) : List Byte :=
  leBytes 8 id.seq ++ leBytes 8 (pkUser pkt) ++ leBytes 8 stamp ++ leBytes 2 st ++ leBytes 2 q ++ leBytes 1 (pkOp pkt)
    ++ leBytes 1 flags ++ leBytes 2 0

/-- PHASE of record `n` (Table 13.6). -/
def recPhase (n log : Nat) : Nat := b2n (n / 2 ^ log % 2 == 0)

/-- A record written: the queue's interrupt bit and source where its command has IRQ (R276, R316). -/
def State.recIrq (s : State) (id : CmdId) (c : Cmd) : State :=
  if pkIrq c.pkt then
    (s.setReg .QIRQ_PEND (c.q / 64) 0 (s.reg .QIRQ_PEND (c.q / 64) 0 ||| BitVec.ofNat 64 (2 ^ (c.q % 64)))).raise (0x140 + id.ctx)
  else s

/-- A queue becomes ERRORED: its record could not be written (R288). -/
def State.errorQueue (s : State) (id : CmdId) (q : Nat) : State :=
  let s := ((s.wr F.SWQ_STAT_STATE 2 q).wr F.SWQ_STAT_ERR stUnwritable q).wr F.SWQ_ERRSEQ_ERR_SEQ id.seq q
  (s.setReg .QIRQ_PEND (q / 64) 0 (s.reg .QIRQ_PEND (q / 64) 0 ||| BitVec.ofNat 64 (2 ^ (q % 64)))).raise (0x180 + id.ctx)

/-- A record goes to the status page, or is dropped where FALLBACK is full (R288). -/
def State.fallback (s : State) (id : CmdId) (c : Cmd) (n log : Nat) : State :=
  let sp := s.statusPage id.ctx
  let cnt := s.rdNat devKey (sp + 0x18) 4
  if 88 ≤ cnt then s.wrNat devKey (sp + 0x1C) 4 (s.rdNat devKey (sp + 0x1C) 4 + 1)
  else
    let s1 := (s.wrBytes devKey (sp + 0x500 + 32 * cnt) (recBytes id c.q c.status s.stamp (recPhase n log + 2) c.pkt)).stampRead
    (s1.wrNat devKey (sp + 0x18) 4 (cnt + 1)).recIrq id c

/-- A record is written: its queue counts it, and its interrupt follows (R285). -/
def State.recDone (s : State) (id : CmdId) (c : Cmd) (n : Nat) : State := (s.stampRead.wr F.SWQ_CMPL_WRITTEN (n + 1) c.q).recIrq id c

/-- A record whose ring cannot be written goes to the status page, and its queue is ERRORED (R288). -/
def State.recBad (s : State) (id : CmdId) (c : Cmd) (n log : Nat) : State := (s.fallback id c n log).errorQueue id c.q

/-- What writing a command's record comes to: written (or not asked for), or it waits for its translation or its line. -/
def State.writeRecord (s : State) (id : CmdId) (c : Cmd) : State × Bool :=
  match s.swq c.q with
  | none => (s, true)
  | some w =>
    let n := s.rd F.SWQ_CMPL_WRITTEN c.q
    if pkQuiet c.pkt && c.status == stOk then (s, true)
    else if s.rd F.SWQ_STAT_STATE c.q == 2 then (s.fallback id c n w.cmplLog, true)
    else if 2 ^ w.cmplLog ≤ (n + (if c.began then 0 else s.unrecorded c.q) + 2 ^ 32 - s.rd F.SWQ_CMPL_ACK c.q) % 2 ^ 32 then
      (s.fallback id c n w.cmplLog, true)
    else
      let va := w.cmplVa + 32 * (n % 2 ^ w.cmplLog)
      let bytes := recBytes id c.q c.status s.stamp (recPhase n w.cmplLog) c.pkt
      if c.noRing then (s.recBad id c n w.cmplLog, true)
      else match s.xlate w.die w.ctx va accWrite with
        | .pa a =>
          match s.svcAsk w.ctx w.die 1 [a / 128] true with
          | (s, false) => (s, false)
          | (s, true) =>
            match s.svcPut w.ctx w.die (s.ctxKey w.ctx) a bytes with
            | (s, .none) => (s.recDone id c n, true)
            | (s, _) => (s.recBad id c n w.cmplLog, true)
        | .host a _ => (((s.useLink w.die).wrHost a bytes).recDone id c n, true)
        | .walk => (s.needWalk w.die w.ctx va accWrite ⟨6, w.die * 16, some id, none, none⟩ (.die w.die), false)
        | _ => (s.recBad id c n w.cmplLog, true)

/-- Records of started RECORDs whose earlier commands have now all completed are signalled. -/
def State.recordsDue (s : State) (q : Nat) : State :=
  ((s.queueCmds q).map (fun e => e.1)).foldl State.recordSignal s

/-- A node of a graph launch has completed: the launch keeps the first status that is not good, and its nodes not yet
started do not run (R264). -/
def State.nodeOver (s : State) (id : CmdId) (st : Nat) : State :=
  if st = stOk then s
  else if st = stReplayed then s.modCmd ⟨id.ctx, id.seq, 0⟩ (fun c => { c with replayed := true })
  else
    let s := s.modCmd ⟨id.ctx, id.seq, 0⟩ (fun c => c.note st)
    { s with cmd := { s.cmd with cmds := s.cmd.cmds.filter (fun e =>
      !(e.1.ctx == id.ctx && e.1.seq == id.seq && e.1.node != 0 && e.2.ph == .parsed)) } }

/-- What the record of an unparsed command keeps of its packet; HEAD advances (R291). -/
def State.abortPkt (s : State) (id : CmdId) (c : Cmd) (p : List Byte) : State × Cmd :=
  let c := { c with pkt := leBytes 1 (pkOp p) ++ leBytes 1 (leAt p 1 1 % 4) ++ leBytes 6 0 ++ leBytes 8 (pkUser p) }
  ((s.inc F.SWQ_STAT_HEAD c.q).setCmd id c, c)

/-- The packet of a command that an abort completes unparsed: read only for its record, zero where it cannot be read (R291). None
while the read waits. -/
def State.readAborted (s : State) (id : CmdId) (c : Cmd) : State × Option Cmd :=
  if !c.pkt.isEmpty then (s, some c)
  else match s.swq c.q with
    | none => (s, some c)
    | some w =>
      let va := w.ringVa + 64 * (s.rd F.SWQ_STAT_HEAD c.q % 2 ^ w.ringLog)
      let put := fun (s : State) (p : List Byte) => let (s, c) := s.abortPkt id c p; (s, some c)
      match s.vaStop w.die w.ctx accRead va 64 with
      | some (a, .walk) => (s.needWalk w.die w.ctx a accRead ⟨7, w.die * 16, some id, none, none⟩ (.die w.die), none)
      | some _ => put s (leBytes 64 0)
      | none =>
        match s.vaAsk w.die w.ctx 1 va 64 with
        | (s, false) => (s, none)
        | (s, true) => put s (if s.vaPoison w.die w.ctx va 64 != .none then leBytes 64 0 else s.rdVas w.die w.ctx va 64)

/-- COMMAND_COMPLETE: a command completes, its record is written, its references are released (R285). -/
def State.complete (s : State) (id : CmdId) : State :=
  match s.cmdOf id with
  | none => s
  | some c =>
    if !s.canComplete id c then s
    else if id.node != 0 then (((s.waitAcquires id c).unrefAll c.refs).delCmd id).nodeOver id c.status
    else
      match s.readAborted id c with
      | (s, none) => s
      | (s, some c) =>
        match s.writeRecord id c with
        | (s, false) => s
        | (s, true) =>
          let s := { s with dbg := { s.dbg with armed := s.dbg.armed.filter (fun a => a.dump != id) } }.waitAcquires id c
          (((((s.unrefAll c.refs).delCmd id).armOver id (pkOp c.pkt) c.status c.q).bump).recordsDue c.q).placeQueue c.q

/-! ### Timeouts and queue control (R284, R287, R289, R290) -/

/-- A debugger holds a group of the command, or of a node of it, halted (R284; 21_debug.md R423). -/
def State.cmdHalted (s : State) (id : CmdId) : Bool :=
  s.thr.groups.any (fun g => g.2.halt != 0 &&
    (aget s.thr.blocks g.2.bid).any (fun b => b.cmd.ctx == id.ctx && b.cmd.seq == id.seq))

/-- A timer that expires after another of its context has: whether in the same cycle is a free value, for time is not modelled
(R284) (DEDUCED, log 68). -/
def State.timeoutToo (s : State) (id : CmdId) (c : Cmd) : State :=
  if s.ctxState id.ctx == ctxAborting && s.rd F.CTX_STAT_ABORT_STATUS id.ctx == stTimeout && c.began && id.node == 0
      && c.fail.isSome then
    (if s.freeVal 0 1 = 1 then s.setCmd id { c with fail := some stTimeout } else s).bump
  else s

/-- COMMAND_TIMEOUT: a started command's timer expires; it completes with ST_TIMEOUT, whatever failing condition it had
recorded, and its context is aborted (R284, R286) (DEDUCED, log 91). -/
def State.timeout (s : State) (id : CmdId) : State :=
  match s.cmdOf id with
  | none => s
  | some c =>
    if c.ph == .started && id.node == 0 && s.ctxState id.ctx != ctxSaved && !s.cmdHalted id
        && (s.ctxState id.ctx == ctxLive || s.ctxState id.ctx == ctxReleasing) then
      ((s.setCmd id { c with fail := some stTimeout }).abortCmd stTimeout id).abortCtx id.ctx stTimeout
    else s.timeoutToo id c

/-- SWQ_RESUME: an ERRORED queue returns to ACTIVE (R289). -/
def State.swqResume (s : State) (q : Nat) : State :=
  if s.rd F.SWQ_STAT_STATE q == 2 then ((s.wr F.SWQ_STAT_STATE 1 q).wr F.SWQ_STAT_ERR stOk q).placeQueue q else s

/-- SWQ_CMPL_ACK: the driver reports consumed records (R287). -/
def State.swqAck (s : State) (q v : Nat) : State :=
  if s.rd F.SWQ_STAT_STATE q == 0 then s else (s.wr F.SWQ_CMPL_ACK v q).placeQueue q

/-- CMPL_FB_CLEAR: the counts of FALLBACK are zeroed, unless a queue of the context is ERRORED (R290). -/
def State.fbClear (s : State) (c : Nat) : State :=
  if s.cmd.swqs.any (fun e => e.2.ctx == c && s.rd F.SWQ_STAT_STATE e.1 == 2) then s.wr F.CMPL_FB_CLR_REFUSED 1 c
  else s.wrNat devKey (s.statusPage c + 0x18) 8 0

/-- SWQ_DOORBELL (R272, R273). -/
def execSwqDoorbell (q : Nat) (v : W32) (s : State) : Host.Outcome State Fault Refusal := .next (s.doorbell q v.toNat)

/-- SWQ_RESUME (R289). -/
def execSwqResume (q : Nat) (s : State) : Host.Outcome State Fault Refusal := .next (s.swqResume q)

/-- SWQ_CMPL_ACK (R287). -/
def execSwqCmplAck (q : Nat) (v : W32) (s : State) : Host.Outcome State Fault Refusal := .next (s.swqAck q v.toNat)

/-- CMPL_FB_CLEAR (R290). -/
def execCmplFbClear (c : Nat) (s : State) : Host.Outcome State Fault Refusal := .next (s.fbClear c)

/-- QUEUE_MAP (R274). -/
def execQueueMap (q slot : Nat) (s : State) : Host.Outcome State Fault Refusal := .next (s.queueMap q slot)

/-- QUEUE_UNMAP (R274). -/
def execQueueUnmap (slot : Nat) (waited held : Bool) (s : State) : Host.Outcome State Fault Refusal :=
  .next (s.queueUnmap slot waited held)

/-- PACKET_PARSE (R281). -/
def execPacketParse (q : Nat) (s : State) : Host.Outcome State Fault Refusal := .next (s.packetParse q)

/-- NOP (R277). -/
def execNop (c : CmdId) (s : State) : Host.Outcome State Fault Refusal := .next (s.startNop c)

/-- LAUNCH (R280, R146). -/
def execLaunch (c : CmdId) (s : State) : Host.Outcome State Fault Refusal := .next (s.startLaunch c)

/-- RECORD (R277). -/
def execRecord (c : CmdId) (s : State) : Host.Outcome State Fault Refusal := .next (s.startRecord c)

/-- WAIT (14_synchronisation.md R300). -/
def execWait (c : CmdId) (s : State) : Host.Outcome State Fault Refusal := .next (s.startWait c)

/-- SIGNAL (14_synchronisation.md R299). -/
def execSignal (c : CmdId) (s : State) : Host.Outcome State Fault Refusal := .next (s.startSignal c)

/-- FENCE packet (R278). -/
def execFencePacket (c : CmdId) (s : State) : Host.Outcome State Fault Refusal := .next (s.startFence c)

/-- GRAPH_LAUNCH (12_shared_objects.md R264). -/
def execGraphLaunch (c : CmdId) (s : State) : Host.Outcome State Fault Refusal := .next (s.startGraph c)

/-- COMMAND_COMPLETE (R285). -/
def execCommandComplete (c : CmdId) (s : State) : Host.Outcome State Fault Refusal := .next (s.complete c)

/-- COMMAND_TIMEOUT (R284). -/
def execCommandTimeout (c : CmdId) (s : State) : Host.Outcome State Fault Refusal := .next (s.timeout c)

end Sys2Proof.Machine
end

