-- ==== Sys2Proof/Machine/Sync.lean ====
section
/-! DEFINITION. Fences, notes and the stocktake (14_synchronisation.md): the owning units, waits, host signals, watchers. -/

namespace Sys2Proof.Machine

open Sys2Proof

/-- The terminal value of a timeline (R296). -/
abbrev terminal : Nat := 2 ^ 64 - 1

/-- A saturated note count (R297). -/
abbrev noteMax : Nat := 2 ^ 32 - 1

/-- A timeline's value and a note's count. -/
def State.tlVal (s : State) (i : Nat) : Nat := s.rd F.TL_VAL_VALUE i
def State.noteVal (s : State) (i : Nat) : Nat := s.rd F.NOTE_VAL_COUNT i

/-- Something in the sync store is written, whose layout is internal: its bytes are open (R293) (DEDUCED, log 39). -/
def State.storeOpen (s : State) : State := s.openRange (s.rd F.SYNC_BASE_BASE * 2 ^ 21) (2 ^ 21)

/-- The context of a timeline, of a note. -/
def State.objCtx (s : State) (o : Bool × Nat) : Option Nat :=
  if o.1 then (aget s.syn.notes o.2).map (fun x => x.ctx) else (aget s.syn.tls o.2).map (fun x => x.ctx)

/-- The owning unit of an object reaches the object's line of the sync store, as class 2 through the cache of the service
cluster of the object's context on its die, before it applies an operation (R294): whether that cache serves it. Which of the
16384 lines holds an object is internal (R293); every operation asks to write it (DESIGN CHOICE, log 82). -/
def State.syncAsk (s : State) (o : Bool × Nat) : State × Bool :=
  match s.objCtx o with
  | none => (s, true)
  | some c => s.svcAsk c (o.2 % 4) 2 [s.rd F.SYNC_BASE_BASE * 2 ^ 14 + Config.syncLine o.1 o.2 % 2 ^ 14] true

/-- The lines of several objects: whether the caches serve all of them. -/
def State.syncAskAll (s : State) (l : List (Bool × Nat)) : State × Bool :=
  l.foldl (fun (s, ok) o => let (s, y) := s.syncAsk o; (s, ok && y)) (s, true)

/-- An operation on an object is applied once its line is served; until then the unit waits. -/
def State.withSync (s : State) (o : Bool × Nat) (f : State → State) : State :=
  match s.syncAsk o with
  | (u, true) => f u
  | (u, false) => u

/-- A timeline's value, a note's count written in the sync store. -/
def State.putTl (s : State) (v i : Nat) : State := (s.wr F.TL_VAL_VALUE v i).storeOpen
def State.putNote (s : State) (v i : Nat) : State := (s.wr F.NOTE_VAL_COUNT v i).storeOpen

/-- The object an operation acts on. -/
def SyncOp.obj : SyncOp → Bool × Nat
  | .signal n i _ _ => (n, i)
  | .host n i _ => (n, i)
  | .register n i _ _ => (n, i)
  | .withdraw n i _ => (n, i)
  | .hold i _ => (true, i)
  | .destroy n i _ => (n, i)
  | .arm n i _ _ => (n, i)

/-- A signal, of a packet or of the host. -/
def SyncOp.isSignal : SyncOp → Bool
  | .signal _ _ _ _ => true
  | .host _ _ _ => true
  | _ => false

/-- A registration, a withdrawal. -/
def SyncOp.isRegister : SyncOp → Bool
  | .register _ _ _ _ => true
  | _ => false
def SyncOp.isWithdraw : SyncOp → Bool
  | .withdraw _ _ _ => true
  | _ => false

/-- A stocktake's hold, or a destruction: it stays first at its object's unit until it is over. -/
def SyncOp.stays : SyncOp → Bool
  | .hold _ _ => true
  | .destroy _ _ _ => true
  | _ => false

/-- The first operation at an object's unit. -/
def State.firstOp (s : State) (o : Bool × Nat) : Option SyncOp := (s.syn.ops.find? (fun e => e.2.obj == o)).map (fun e => e.2)

/-- An object whose operations wait: a note that a stocktake holds (R305) (DEDUCED, log 62). -/
def State.heldObj (s : State) (o : Bool × Nat) : Bool :=
  match s.firstOp o with
  | some (.hold _ _) => true
  | _ => false

/-- The first operation at a die's owning unit that a test picks, if no earlier operation on its object waits before it
(R294, R305). `seen` are the objects of earlier operations (DEDUCED, log 62). -/
def pickOp (p : SyncOp → Bool) (die : Nat) : List (Nat × SyncOp) → List (Bool × Nat) → Option SyncOp
  | [], _ => none
  | (d, o) :: r, seen => if d == die && p o && !seen.contains o.obj then some o else pickOp p die r (o.obj :: seen)

/-- An operation leaves its unit's queue. -/
def State.takeOp (s : State) (die : Nat) (o : SyncOp) : State :=
  { s with syn := { s.syn with ops := s.syn.ops.erase (die, o) } }

/-- A WAIT is satisfied with a status; its wake is on its way (R300). -/
def State.satisfy (s : State) (st : Nat) (id : CmdId) : State := s.modCmd id (fun c => { c with wait := .satisfied st })

/-- A WAIT has completed with its own status. -/
def State.waitDone (s : State) (st : Nat) (id : CmdId) : State :=
  s.modCmd id (fun c => { c with wait := .done, done := true, pre := some st, fail := none })

/-- Watchers armed on an object, with the value each waits for (R303). -/
def State.watching (s : State) (note : Bool) (idx : Nat) : List (Nat × Nat) :=
  (s.syn.armed.filter (fun e => e.2.1 == note && e.2.2.1 == idx)).map (fun e => (e.1, e.2.2.2))

/-- A watcher's condition (R303). -/
def State.watchHolds (s : State) (note : Bool) (idx v : Nat) : Bool := v ≤ (if note then s.noteVal idx else s.tlVal idx)

/-- A watcher is about to fire. -/
def State.fireSoon (s : State) (t : Bool) (w : Nat) : State :=
  if s.syn.firing.any (fun f => f.1 == w) then s else { s with syn := { s.syn with firing := s.syn.firing ++ [(w, t)] } }

/-- The watchers of an object are evaluated after an operation on it (R303). -/
def State.evalWatch (s : State) (note : Bool) (idx : Nat) : State :=
  let t := !note && s.tlVal idx == terminal
  (((s.watching note idx).filter (fun w => s.watchHolds note idx w.2)).map (fun w => w.1)).foldl (State.fireSoon · t) s

/-- A destroyed object fires its watchers with TERMINAL (R303). -/
def State.fireDestroyed (s : State) (note : Bool) (idx : Nat) : State := ((s.watching note idx).map (fun w => w.1)).foldl (State.fireSoon · true) s

/-- An operation that stays has its effect once it is first at its object's unit: a hold sets HELD; a destruction, once the
object's line is served, gives a timeline the terminal value and fires the watchers (R268, R294, R303, R305). -/
def State.applyStay (s : State) : SyncOp → State
  | .hold i _ => s.wr F.NOTE_VAL_HELD 1 i
  | .destroy n i false => s.withSync (n, i) (fun s =>
    let s := { s with syn := { s.syn with ops := s.syn.ops.map (fun (e : Nat × SyncOp) =>
      if e.2 == SyncOp.destroy n i false then (e.1, .destroy n i true) else e) } }
    (if n then s else s.putTl terminal i).fireDestroyed n i)
  | _ => s

/-- A watcher takes its condition, in place of an earlier one, and is evaluated (R303). -/
def State.armApply (s : State) (note : Bool) (i v w : Nat) : State :=
  ({ s with syn := { s.syn with
    firing := s.syn.firing.filter (fun f => f.1 != w), armed := aput s.syn.armed w (note, i, v) } }).evalWatch note i

/-- Arms of watchers that stand first at their objects' units are applied, in order of arrival (R294, R303). -/
def State.grantArms : Nat → State → State
  | 0, s => s
  | n + 1, s =>
    match s.syn.ops.findSome? (fun e => match e.2 with
      | .arm note i v w => if s.firstOp (note, i) == some e.2 then some (e, note, i, v, w) else none
      | _ => none) with
    | none => s
    | some (e, note, i, v, w) =>
      State.grantArms n (({ s with syn := { s.syn with ops := s.syn.ops.erase e } }).armApply note i v w)

/-- The operations that stay and stand first at their objects' units have their effect, and the arms before them (DEDUCED, log
62). -/
def State.grantOps (s0 : State) : State :=
  let s := State.grantArms s0.syn.ops.length s0
  ((s.syn.ops.filter (fun e => e.2.stays && s.firstOp e.2.obj == some e.2)).map (fun e => e.2)).foldl State.applyStay s

/-- Every waiter that a timeline's value reaches is satisfied; a terminal value gives ST_POISON (R295, R296). -/
def State.wakeTimeline (s : State) (idx : Nat) : State :=
  let x := s.tlVal idx
  let hit := s.syn.waiters.filter (fun w => !w.note && w.idx == idx && w.v ≤ x)
  let s := { s with syn := { s.syn with waiters := s.syn.waiters.filter (fun w => !(!w.note && w.idx == idx && w.v ≤ x)) } }
  (hit.map (fun w => w.cmd)).foldl (State.satisfy · (if x = terminal then stPoison else stOk)) s

/-- Registered waiters of a note are served oldest first; each that fits consumes its amount (R298). -/
def State.wakeNote (idx : Nat) : Nat → State → State
  | 0, s => s
  | n + 1, s =>
    match s.syn.waiters.find? (fun w => w.note && w.idx == idx) with
    | none => s
    | some w =>
      if w.v ≤ s.noteVal idx then
        State.wakeNote idx n (({ s with syn := { s.syn with waiters := s.syn.waiters.erase w } }.putNote (s.noteVal idx - w.v) idx).satisfy
          stOk w.cmd |>.evalWatch true idx)
      else s

/-- SYNC_ERR: a bit set, with its source 0x003 (Table 15.1). -/
def State.syncErr (s : State) (f : Fld) : State := (s.wr f 1).raise 0x003

/-- A signal of value `v` on a timeline (R295, R296). `err` reports a regression. -/
def State.signalTl (s : State) (idx v : Nat) (err : State → State) : State :=
  let x := s.tlVal idx
  if x < v then ((s.putTl v idx).evalWatch false idx).wakeTimeline idx
  else if v = x then s.evalWatch false idx
  else (err s).evalWatch false idx

/-- A signal of count `c` on a note (R297): watchers are evaluated after the signal and after each satisfaction that follows it
(R294, R303). `err` reports saturation. -/
def State.signalNote (s : State) (idx c : Nat) (err : State → State) : State :=
  let n := s.noteVal idx
  let wake := fun (s : State) => State.wakeNote idx (s.syn.waiters.length + 1) (s.evalWatch true idx)
  if c = 0 then s.evalWatch true idx
  else if n + c < noteMax then wake (s.putNote (n + c) idx)
  else wake (err ((s.putNote noteMax idx).wr F.NOTE_VAL_SAT 1 idx))

/-- A SIGNAL or RECORD has been applied. -/
def State.signalled (s : State) (id : CmdId) : State := s.modCmd id (fun c => { c with done := true })

/-- A created timeline, a created note. -/
def State.tlExists (s : State) (i : Nat) : Bool := (aget s.syn.tls i).isSome
def State.noteExists (s : State) (i : Nat) : Bool := (aget s.syn.notes i).isSome

/-- One signal applied at its owning unit. -/
def State.applySignal (s : State) : SyncOp → State
  | .signal false i v id =>
    if s.tlExists i then (s.signalled id).signalTl i v (fun s => s.modCmd id (fun c => c.note stRegress)) else s
  | .signal true i v id =>
    if s.noteExists i then (s.signalled id).signalNote i v (fun s => s.modCmd id (fun c => c.note stNoteSat)) else s
  | .host false i v =>
    if s.tlExists i then
      s.signalTl i v (fun s => (if s.on F.SYNC_ERR_REGRESS then s else s.wr F.SYNC_ERR_TL i).syncErr F.SYNC_ERR_REGRESS)
    else s.syncErr F.SYNC_ERR_BAD_HOST
  | .host true i v =>
    if s.noteExists i then
      s.signalNote i v (fun s => (if s.on F.SYNC_ERR_NOTE_SAT then s else s.wr F.SYNC_ERR_NOTE i).syncErr F.SYNC_ERR_NOTE_SAT)
    else s.syncErr F.SYNC_ERR_BAD_HOST
  | _ => s

/-- A waiter joins the others in order of registration. -/
def State.addWaiter (s : State) (w : Waiter) : State := { s with syn := { s.syn with waiters := s.syn.waiters ++ [w] } }

/-- A WAIT registers at the owning unit: it is satisfied at once where its condition holds, else it waits (R298, R300). One
aborted after it has sent its registration registers too, before its withdrawal (R301). -/
def State.registerWait (s : State) (note : Bool) (i v : Nat) (id : CmdId) : State :=
  match s.cmdOf id with
  | none => s
  | some c =>
    let add := fun (p : WaitPh) =>
      (s.addWaiter ⟨note, i, v, id, (s.queueDie c.q).getD 0⟩).setCmd id { c with wait := if p == .registering then .registered else p }
    if c.wait != .registering && c.wait != .withdrawing then s
    else if note then
      if s.syn.waiters.all (fun w => !(w.note && w.idx == i)) && v ≤ s.noteVal i then
        ((s.putNote (s.noteVal i - v) i).waitDone stOk id).evalWatch true i
      else add c.wait
    else if v ≤ s.tlVal i then s.waitDone (if s.tlVal i = terminal then stPoison else stOk) id
    else add c.wait

/-- An aborted WAIT's registration is withdrawn; where the unit has already satisfied it, nothing is (R301). -/
def State.withdrawWait (s : State) (note : Bool) (i : Nat) (id : CmdId) : State :=
  match s.cmdOf id with
  | none => s
  | some c =>
    if c.wait != .withdrawing then s
    else
      let s := { s with syn := { s.syn with waiters := s.syn.waiters.filter (fun w => w.cmd != id) } }
      let s := s.setCmd id { c with wait := .idle, ph := .ending }
      if note then State.wakeNote i (s.syn.waiters.length + 1) s else s

/-- The operation of a kind that a die's owning unit applies next. -/
def State.nextOp (s : State) (die : Nat) (p : SyncOp → Bool) : Option SyncOp := pickOp p die s.syn.ops []

/-- TIMELINE_SIGNAL_APPLY and NOTE_SIGNAL_APPLY. -/
def State.signalApply (s : State) (die : Nat) (note : Bool) : State :=
  match s.nextOp die (fun o => o.isSignal && o.obj.1 == note) with
  | none => s
  | some o => s.withSync o.obj (fun s => ((s.takeOp die o).applySignal o).grantOps)

/-- WAIT_REGISTER. -/
def State.waitRegister (s : State) (die : Nat) : State :=
  match s.nextOp die SyncOp.isRegister with
  | some (.register n i v id) => s.withSync (n, i) (fun s => ((s.takeOp die (.register n i v id)).registerWait n i v id).grantOps)
  | _ => s

/-- WAIT_WITHDRAW. -/
def State.waitWithdraw (s : State) (die : Nat) : State :=
  match s.nextOp die SyncOp.isWithdraw with
  | some (.withdraw n i id) => s.withSync (n, i) (fun s => ((s.takeOp die (.withdraw n i id)).withdrawWait n i id).grantOps)
  | _ => s

/-- WAIT_WAKE: a wake message reaches its entry and the WAIT completes (R300) (DEDUCED, log 62). -/
def State.waitWake (s : State) (id : CmdId) : State :=
  match s.cmdOf id with
  | none => s
  | some c => match c.wait with
    | .satisfied st => s.waitDone st id
    | _ => s

/-- TL_SIG: a host signal joins the owning unit's queue; one that names no timeline is ignored (R302). -/
def State.hostSignal (s : State) (note : Bool) (i v : Nat) : State :=
  if (if note then s.noteExists i else s.tlExists i) then s.pushSync i (.host note i v) else s.syncErr F.SYNC_ERR_BAD_HOST

/-- WATCH_ARM (R303): it takes its place at the owning unit behind the operations that came before it (R294), and there
replaces the condition of an armed watcher, which is evaluated. -/
def State.watchArm (s : State) (w : Nat) : State :=
  if 256 ≤ w then s
  else
    let note := s.on F.HOST_WATCH_CTL_KIND w
    let i := if note then s.rd F.HOST_WATCH_CTL_INDEX w else s.rd F.HOST_WATCH_CTL_INDEX w % 4096
    let v := if note then s.rd F.HOST_WATCH_VAL_VALUE w % 2 ^ 32 else s.rd F.HOST_WATCH_VAL_VALUE w
    ((s.wr F.HOST_WATCH_CTL_ARMED 1 w).pushSync i (.arm note i v w)).grantOps

/-- WATCHER_FIRE: a watcher whose condition held clears ARMED, sets FIRED and raises its source (R303). What its signal
releases is performed by then: a signal is applied after the accesses that it covers. -/
def State.watchFire (s : State) (w : Nat) : State :=
  match s.syn.firing.find? (fun f => f.1 == w) with
  | none => s
  | some (_, t) =>
    let s := { s with syn := { s.syn with firing := s.syn.firing.filter (fun f => f.1 != w), armed := adel s.syn.armed w } }
    let s := (s.wr F.HOST_WATCH_CTL_ARMED 0 w).wr F.HOST_WATCH_CTL_FIRED 1 w
    (if t then s.wr F.HOST_WATCH_CTL_TERMINAL 1 w else s).raise (0x200 + w)

/-! ### The stocktake (R304-R306) -/

/-- A pair of a queue as a stocktake takes it: its number and its SWQ_PAIR word. -/
abbrev PairW := Nat × W64

/-- A field of a pair's word. -/
def PairW.fld (p : PairW) (f : Fld) : Nat := bitsOf p.2.toNat f.lo f.wid

/-- The enabled pairs of a queue. -/
def State.pairs (s : State) (q : Nat) : List PairW :=
  (((List.range 4).filter (fun p => s.on F.SWQ_PAIR_EN q p)).map (fun p => (p, s.reg .SWQ_PAIR q p)))

/-- A pair breaks R304: its notes must be two notes of the queue's context. -/
def State.pairBad (s : State) (c : Nat) (p : PairW) : Bool :=
  let own := fun n => match aget s.syn.notes n with
    | some o => o.ctx == c
    | none => false
  p.fld F.SWQ_PAIR_A == p.fld F.SWQ_PAIR_B || !own (p.fld F.SWQ_PAIR_A) || !own (p.fld F.SWQ_PAIR_B)

/-- The notes of a list of pairs. -/
def pairNotes (l : List PairW) : List Nat := (l.flatMap (fun p => [p.fld F.SWQ_PAIR_A, p.fld F.SWQ_PAIR_B])).dedup

/-- Step 2 is over: the signals of the queue's started commands are applied. -/
def State.stockReady (s : State) (q : Nat) : Bool :=
  s.syn.ops.all (fun o => match o.2 with
    | .signal _ _ _ id => match s.cmdOf id with
      | some k => k.q != q
      | none => true
    | _ => true)

/-- One bit of a 4-bit flag field set. -/
def State.setBit (s : State) (f : Fld) (q p : Nat) : State := s.wr f (s.rd f q ||| 2 ^ p) q

/-- Step 3: the holds of the pairs' notes go to their owning units; a pair that breaks R304 is skipped. -/
def State.stockHold (s : State) (q : Nat) (w : Swq) (k : Taking) : State :=
  let good := k.pairs.filter (fun p => !s.pairBad w.ctx p)
  let s := (k.pairs.filter (fun p => s.pairBad w.ctx p)).foldl (fun s p => s.setBit F.SWQ_STK_BADPAIR q p.1) s
  let s := (pairNotes good).foldl (fun s n => s.pushSync n (.hold n q)) s
  (s.setSwq q { w with taking := some ⟨good, true⟩ }).grantOps

/-- STOCKTAKE_DUE: a stocktake falls due with the pairs as they stand; the queue starts nothing more, and the holds of its
notes are asked for once its signals are applied. One that falls due during another is skipped (R305, R306); one that finds no
clerk of its die awake wakes one, and goes on with it (19_power_and_clocks.md R383). -/
def State.stocktakeDue (s : State) (q : Nat) : State :=
  match s.swq q with
  | none => s
  | some w =>
    if w.stockUs == 0 || s.ctxState w.ctx == ctxSaved || (s.isSaving w.ctx && w.taking.isNone) then s
    else if w.taking.isSome then s.wr F.SWQ_STK_OVERRUN 1 q
    else
      let k : Taking := ⟨s.pairs q, false⟩
      if !s.clerkAwake w.die then (s.setSwq q { w with taking := some k }).wakeClerk w.die
      else if s.stockReady q then s.stockHold q w k else s.setSwq q { w with taking := some k }

/-- Step 4 for one enabled pair. -/
def State.alignPair (q : Nat) (s : State) (p : PairW) : State :=
  let a := p.fld F.SWQ_PAIR_A
  let b := p.fld F.SWQ_PAIR_B
  let cap := p.fld F.SWQ_PAIR_CAP
  if s.noteVal a + s.noteVal b ≤ cap then s
  else
    let s := s.setBit F.SWQ_STK_EXCESS q p.1
    if p.fld F.SWQ_PAIR_ALIGN != 1 then s
    else if cap < s.noteVal b then (s.putNote cap b).putNote 0 a
    else s.putNote (cap - s.noteVal b) a

/-- The holds of a queue's stocktake leave their units: HELD is cleared, and what waited behind them goes on. -/
def State.stockRelease (s : State) (q : Nat) : State :=
  let mine := s.syn.ops.filterMap (fun e => match e.2 with
    | .hold n k => if k == q then some n else none
    | _ => none)
  let s := { s with syn := { s.syn with ops := s.syn.ops.filter (fun e => match e.2 with
    | .hold _ k => k != q
    | _ => true) } }
  (mine.foldl (fun s n => s.wr F.NOTE_VAL_HELD 0 n) s).grantOps

/-- Every note of a queue's stocktake is held for it. -/
def State.stockHeld (s : State) (q : Nat) (k : Taking) : Bool :=
  (pairNotes k.pairs).all (fun n => s.firstOp (true, n) == some (.hold n q))

/-- STOCKTAKE_ALIGN: what is left of steps 2 to 5 of R305. -/
def State.stocktakeAlign (s : State) (q : Nat) : State :=
  match s.swq q with
  | none => s
  | some w =>
    match w.taking with
    | none => s
    | some k =>
      if !k.asked then
        (if !s.clerkAwake w.die then s.wakeClerk w.die else if s.stockReady q then s.stockHold q w k else s)
      else if !s.stockHeld q k then s
      else
        match s.syncAskAll ((pairNotes k.pairs).map (fun n => (true, n))) with
        | (u, false) => u
        | (u, true) => (((k.pairs.foldl (State.alignPair q) u).setSwq q { w with taking := none }).stockRelease q).inc F.SWQ_STK_COUNT q

/-- TIMELINE_SIGNAL_APPLY (R295). -/
def execTimelineSignalApply (die : Nat) (s : State) : Host.Outcome State Fault Refusal := .next (s.signalApply die false)

/-- NOTE_SIGNAL_APPLY (R297). -/
def execNoteSignalApply (die : Nat) (s : State) : Host.Outcome State Fault Refusal := .next (s.signalApply die true)

/-- WAIT_REGISTER (R300). -/
def execWaitRegister (die : Nat) (s : State) : Host.Outcome State Fault Refusal := .next (s.waitRegister die)

/-- WAIT_WAKE (R300). -/
def execWaitWake (c : CmdId) (s : State) : Host.Outcome State Fault Refusal := .next (s.waitWake c)

/-- WAIT_WITHDRAW (R301). -/
def execWaitWithdraw (die : Nat) (s : State) : Host.Outcome State Fault Refusal := .next (s.waitWithdraw die)

/-- WATCHER_FIRE (R303). -/
def execWatcherFire (w : Nat) (s : State) : Host.Outcome State Fault Refusal := .next (s.watchFire w)

/-- STOCKTAKE_DUE (R305, R306). -/
def execStocktakeDue (q : Nat) (s : State) : Host.Outcome State Fault Refusal := .next (s.stocktakeDue q)

/-- STOCKTAKE_ALIGN (R305). -/
def execStocktakeAlign (q : Nat) (s : State) : Host.Outcome State Fault Refusal := .next (s.stocktakeAlign q)

end Sys2Proof.Machine
end

