-- ==== Sys2Proof/Machine/Objects.lean ====
section
/-! DEFINITION. Shared objects (12_shared_objects.md): K0's operation queue, creation, patching, release and destruction of
contexts, queues, memory objects, notes, timelines and graphs. Saving and restoring a context are in SaveRestore.lean. -/

namespace Sys2Proof.Machine

open Sys2Proof

/-! ### The operation queue (R252, R253) -/

/-- Slots per TYPE, Table 12.1. -/
def kindSlots : Nat → Nat
  | 0 => 64
  | 1 => 4096
  | 2 => 1048576
  | 3 => 65536
  | 4 => 4096
  | _ => 1024

/-- OP codes of OBJ_CMD. -/
abbrev oCreate : Nat := 0
abbrev oPatch : Nat := 1
abbrev oRelease : Nat := 2
abbrev oDestroy : Nat := 3
abbrev oSave : Nat := 4
abbrev oRestore : Nat := 5

/-- Refusal codes, Table 12.2, with DESC of 13_command_submission.md R271. -/
abbrev eBadOp : Nat := 1
abbrev eIndex : Nat := 2
abbrev eState : Nat := 3
abbrev eGen : Nat := 4
abbrev eCtx : Nat := 5
abbrev ePart : Nat := 6
abbrev eEntry : Nat := 7
abbrev eImage : Nat := 8
abbrev eStore : Nat := 9
abbrev eVersions : Nat := 0xA
abbrev eStale : Nat := 0xB
abbrev eFetch : Nat := 0xC
abbrev eDesc : Nat := 0xD

/-- A reserved TYPE or OP, or an OP that the kind does not take. -/
def ObjOp.bad (o : ObjOp) : Bool :=
  6 ≤ o.typ || 6 ≤ o.op || (o.op == oPatch && o.typ != 5) || ((o.op == oSave || o.op == oRestore) && o.typ != 0)

/-- The first refusal since VALID was cleared is recorded (R252). -/
def State.objErr (s : State) (seq code : Nat) : State :=
  if s.on F.OBJ_ERR_VALID then s
  else ((s.wr F.OBJ_ERR_SEQ seq).wr F.OBJ_ERR_CODE code).wr F.OBJ_ERR_VALID 1

/-- The first operation ends: DONE advances. -/
def State.popOp (s : State) : State :=
  { s with obj := { s.obj with ops := s.obj.ops.tail, busy := false } }.inc F.OBJ_SEQ_DONE

/-- Operations at the head that no kind takes, or that name no slot, end refused. -/
def State.flushBad : Nat → State → State
  | 0, s => s
  | n + 1, s =>
    match s.obj.ops with
    | [] => s
    | o :: _ =>
      if o.bad then State.flushBad n ((s.objErr o.seq eBadOp).popOp)
      else if kindSlots o.typ ≤ o.index then State.flushBad n ((s.objErr o.seq eIndex).popOp)
      else s

/-- The first operation ends applied. -/
def State.endOp (s : State) : State := State.flushBad 64 s.popOp

/-- The first operation ends refused; it changes nothing else (R252). -/
def State.refuse (s : State) (seq code : Nat) : State := (s.objErr seq code).endOp

/-- A write of OBJ_CMD: accepted while fewer than 64 are pending (R252). -/
def State.objPush (s : State) (v : W64) : State :=
  if 64 ≤ s.obj.ops.length then s.wr F.OBJ_ERR_DROP 1
  else
    let n := v.toNat
    let seq := (s.rd F.OBJ_SEQ_ISSUED + 1) % 2 ^ 32
    let o : ObjOp := ⟨seq, bitsOf n 0 3, bitsOf n 4 3, bitsOf n 3 1 == 1, bitsOf n 8 6, bitsOf n 32 20, bitsOf n 52 12,
      s.rd F.OBJ_ARG_ADDR * 8⟩
    let s := { s.wr F.OBJ_SEQ_ISSUED seq with obj := { s.obj with ops := s.obj.ops ++ [o] } }
    if s.obj.ops.length == 1 then State.flushBad 64 s else s

/-- The first operation, if it is of this kind and not waiting: an operation that names a context in ABORTING or DESTROYING
waits (R253), and so does one behind an effect in progress. -/
def State.headOp (s : State) (typ op : Nat) : Option ObjOp :=
  match s.obj.ops with
  | [] => none
  | o :: _ =>
    let c := if o.typ = 0 then o.index else o.ctx
    if o.typ == typ && o.op == op && !s.obj.busy && s.ctxState c != ctxAborting && s.ctxState c != ctxDestroying then some o
    else none

/-- A context's state takes an operation on its objects (Table 12.3). -/
def State.ctxTakes (s : State) (c op : Nat) : Bool :=
  s.ctxState c == ctxLive || (s.ctxState c == ctxReleasing && (op == oRelease || op == oDestroy))

/-! ### Creation -/

/-- Zero bytes. -/
def zeros (n : Nat) : List Byte := List.replicate n 0

/-- CTX_CREATE (R254-R257; 15_interrupts.md R311). -/
def State.ctxCreate (s : State) : State :=
  match s.headOp 0 oCreate with
  | none => s
  | some o =>
    let c := o.index
    let p := s.rd F.CTX_CFG_PART c
    if s.ctxState c != ctxFree then s.refuse o.seq eState
    else if (s.partDef p).isNone then s.refuse o.seq ePart
    else if s.switchHolds p || s.rst.parts.contains p then s
    else
      let s := ((s.wr F.CTX_STAT_STATE ctxLive c).wr F.CTX_STAT_ABORT_STATUS stOk c).wr F.CTX_STAT_NEXT_SEQ 0 c
      let s := { s with obj := { s.obj with ctxs := aput s.obj.ctxs c ⟨p, 0, none, false⟩ } }
      let s := s.wrBytes devKey (s.statusPage c) (zeros 4096)
      ((ctxSrcs c).foldl (fun s n => s.srcCreate p n) s).endOp

/-- A queue descriptor breaks a rule of Table 13.1. -/
def descBad (d : List Byte) : Bool :=
  leAt d 0 8 % 64 != 0 || 2 ^ 57 ≤ leAt d 0 8 || leAt d 8 8 % 32 != 0 || 2 ^ 57 ≤ leAt d 8 8
  || leAt d 16 4 == 0 || 3600000 < leAt d 16 4 || leAt d 24 1 < 4 || 16 < leAt d 24 1 || leAt d 25 1 < 4 || 16 < leAt d 25 1
  || 64 ≤ leAt d 26 1 || 32 ≤ leAt d 27 1 || !zeroIn d 28 64

/-- SWQ_CREATE (13_command_submission.md R271). A descriptor that is misaligned, or that breaks a rule of its table, is
refused with DESC before its context is compared; one outside the stacks, or poisoned, with FETCH (DESIGN CHOICE, log 90). -/
def State.swqCreate (s : State) : State :=
  match s.headOp 1 oCreate with
  | none => s
  | some o =>
    let q := o.index
    if !s.ctxTakes o.ctx oCreate then s.refuse o.seq eCtx
    else if s.rd F.SWQ_STAT_STATE q != 0 then s.refuse o.seq (if (s.swq q).any (fun w => w.ctx == o.ctx) then eState else eCtx)
    else if o.arg % 64 != 0 then s.refuse o.seq eDesc
    else if stackTop < o.arg + 64 || s.poisonOf o.arg 64 != .none then s.refuse o.seq eFetch
    else
      let d := s.rdBytes devKey o.arg 64
      if descBad d then s.refuse o.seq eDesc
      else if leAt d 26 1 != o.ctx then s.refuse o.seq eCtx
      else
        let pl := leAt d 27 1
        let w : Swq := ⟨o.ctx, leAt d 0 8, leAt d 8 8, leAt d 20 4, leAt d 24 1, leAt d 25 1, bitsOf pl 0 2, bitsOf pl 2 2,
          bitsOf pl 4 1 == 1, 0, none, 0, none, none, false⟩
        let s := ((s.setReg .SWQ_STAT q 0 0).setReg .SWQ_CMPL q 0 0).setReg .SWQ_ERRSEQ q 0 0
        let s := ((s.setReg .SWQ_STK q 0 0).wr F.SWQ_STAT_STATE 1 q).wr F.SWQ_CTL_TMO_MS (leAt d 16 4) q
        (s.setSwq q w).endOp

/-- A memory object's entry cannot be read: it is poisoned or outside stack memory (Table 12.2). -/
def State.moUnreadable (s : State) (i : Nat) : Bool := stackTop < s.moAt i + 32 || s.poisonOf (s.moAt i) 32 != .none

/-- MEMOBJ_CREATE (R259); no reference is held to a new object (DEDUCED, log 65). -/
def State.memobjCreate (s : State) : State :=
  match s.headOp 2 oCreate with
  | none => s
  | some o =>
    let i := o.index
    if s.moUnreadable i then s.refuse o.seq eFetch
    else if !s.ctxTakes o.ctx oCreate || s.moCtx i != o.ctx then s.refuse o.seq eCtx
    else if s.moGen i != o.gen then s.refuse o.seq eGen
    else if s.moState i != 0 then s.refuse o.seq eState
    else if 2 ^ 57 ≤ s.moVa i || s.moBytes i == 0 || 2 ^ 57 < s.moVa i + s.moBytes i then s.refuse o.seq eEntry
    else
      let s := (s.wrNat devKey (s.moAt i + 17) 1 1).wrNat devKey (s.moAt i + 20) 4 0
      { s with obj := { s.obj with mos := i :: s.obj.mos } }.endOp

/-- NOTE_CREATE (14_synchronisation.md R293). -/
def State.noteCreate (s : State) : State :=
  match s.headOp 3 oCreate with
  | none => s
  | some o =>
    if !s.ctxTakes o.ctx oCreate then s.refuse o.seq eCtx
    else match aget s.syn.notes o.index with
      | some n => s.refuse o.seq (if n.ctx = o.ctx then eState else eCtx)
      | none =>
        ({ s with syn := { s.syn with notes := aput s.syn.notes o.index ⟨o.ctx, none, false⟩ } }.setReg .NOTE_VAL o.index 0 0).storeOpen.endOp

/-- TIMELINE_CREATE (14_synchronisation.md R293). -/
def State.timelineCreate (s : State) : State :=
  match s.headOp 4 oCreate with
  | none => s
  | some o =>
    if !s.ctxTakes o.ctx oCreate then s.refuse o.seq eCtx
    else match aget s.syn.tls o.index with
      | some n => s.refuse o.seq (if n.ctx = o.ctx then eState else eCtx)
      | none =>
        ({ s with syn := { s.syn with tls := aput s.syn.tls o.index ⟨o.ctx, none, false⟩ } }.setReg .TL_VAL o.index 0 0).storeOpen.endOp

/-! ### Graphs (R263-R266) -/

/-- Splits an image into `n` pieces of `k` bytes from an offset. -/
def pieces (l : List Byte) (off k n : Nat) : List (List Byte) :=
  (List.range n).map (fun i => (l.drop (off + k * i)).take k)

/-- A reducing COPY node whose addresses, of the objects that bind for number `n`, are not multiples of the element size
(13_command_submission.md R280, R281) (DEDUCED, log 69). -/
def State.nodeMisaligned (s : State) (c n : Nat) (p : List Byte) : Bool :=
  pkOp p == opCopy && bitsOf (cpRed p) 0 2 != 0 &&
    ((s.moBinds c n (cpSrc p) && (s.moVa (cpSrc p % 2 ^ 20) + cpSrcOff p) % redSize (cpRed p) != 0)
     || (!cpPeer p && s.moBinds c n (cpDst p) && (s.moVa (cpDst p % 2 ^ 20) + cpDstOff p) % redSize (cpRed p) != 0))

/-- A node packet that a graph refuses: a GRAPH_LAUNCH or a packet that fails its checks. -/
def State.nodeBad (s : State) (c n : Nat) (p : List Byte) : Bool := pkOp p == opGraph || pkBad p || s.nodeMisaligned c n p

/-- A graph image's header and edges break R263. -/
def imageBad (h : List Byte) : Bool :=
  leAt h 0 4 != 0x4847584B || leAt h 4 2 == 0 || 4096 < leAt h 4 2 || 65536 < leAt h 6 4
  || leAt h 10 4 != 32 + 64 * leAt h 4 2 + 4 * leAt h 6 4 || !zeroIn h 14 32

/-- An edge breaks R263. -/
def edgeBad (n : Nat) (e : List Byte) : Bool :=
  let x := leAt e 0 4
  bitsOf x 16 12 ≤ bitsOf x 0 12 || n ≤ bitsOf x 16 12 || bitsOf x 12 4 != 0 || bitsOf x 28 4 != 0

/-- Bytes of the graph store that a version takes. -/
def GVer.size (v : GVer) : Nat := 32 + 64 * v.nodes.length + 4 * v.edges.length

/-- Bytes of the graph store in use. -/
def State.storeUsed (s : State) : Nat := ((s.obj.graphs.flatMap (fun g => g.2.vers)).map GVer.size).sum

/-- The graph store has room for `n` bytes more (GRAPH_STORE.SIZE in 64 KiB units). -/
def State.storeFits (s : State) (n : Nat) : Bool := s.storeUsed + n ≤ s.rd F.GRAPH_STORE_SIZE * 65536

/-- Handles of a node, its LAUNCH list included. -/
def State.nodeHandles (s : State) (c : Nat) (p : List Byte) : List Nat :=
  if pkOp p = opLaunch then (List.range (lnObjCnt p)).map (fun i => leNat (s.rdVas 0 c (lnObjList p + 4 * i) 4)) else pkHandles p

/-- What stops the read of a LAUNCH node's handle list, in die 0's translation cache (DEDUCED, log 39). -/
def State.listStop (s : State) (c : Nat) (p : List Byte) : Option (Nat × Xlate) :=
  if pkOp p == opLaunch && lnObjCnt p != 0 then s.vaStop 0 c accRead (lnObjList p) (4 * lnObjCnt p) else none

/-- The address of a handle list that needs a walk. -/
def State.listWalk (s : State) (c : Nat) (p : List Byte) : Option Nat :=
  match s.listStop c p with
  | some (a, .walk) => some a
  | _ => none

/-- A LAUNCH node's handle list cannot be read. -/
def State.listBad (s : State) (c : Nat) (p : List Byte) : Bool :=
  pkOp p == opLaunch && lnObjCnt p != 0 && (match s.listStop c p with
    | some (_, .walk) => false
    | some _ => true
    | none => s.vaPoison 0 c (lnObjList p) (4 * lnObjCnt p) != .none)

/-- The operation waits for a walk of a handle list's page. -/
def State.listAsk (s : State) (c a : Nat) : State := s.needWalk 0 c a accRead ⟨8, 0, none, none, none⟩ (.die 0)

/-- A handle list's page faults: the image is refused. -/
def State.listFault (s : State) (c : Nat) : State :=
  match s.obj.ops with
  | [] => s
  | o :: _ => if o.typ == 5 && o.ctx == c && !s.obj.busy then s.refuse o.seq eImage else s

/-- Every object that a node names binds for a command numbered `n` (R260; 14_synchronisation.md R468). -/
def State.nodeBinds (s : State) (c n : Nat) (p : List Byte) : Bool :=
  (s.nodeHandles c p).all (s.moBinds c n) && (match pkSync p with
    | none => true
    | some (k, i) => s.syncBinds (k == .note) i c n)

/-- The objects that a version's nodes name and that bind as for a command numbered `n`, once each, and the nodes with one
that does not (R264). -/
def State.versionRefs (s : State) (c n : Nat) (nodes : List (List Byte)) : List (ObjKind × Nat) × List Nat :=
  let ms := ((nodes.flatMap (s.nodeHandles c)).filter (s.moBinds c n)).map (fun h => (ObjKind.mem, h % 2 ^ 20))
  let ss := (nodes.filterMap pkSync).filter (fun (k, i) => s.syncBinds (k == .note) i c n)
  ((ms ++ ss).dedup, (nodes.zipIdx.filter (fun e => !s.nodeBinds c n e.1)).map (fun e => e.2))

/-- References taken on memory objects. -/
def State.refAll (s : State) (l : List (ObjKind × Nat)) : State :=
  l.foldl (fun s r => if r.1 == .mem then s.moRefInc r.2 else s) s

/-- Binding a version would raise an object's REFS to its limit: the operation waits (R260). -/
def State.versionHolds (s : State) (l : List (ObjKind × Nat)) : Bool := l.any (fun r => r.1 == .mem && s.moFull r.2)

/-- A version is copied into the graph store, whose layout is internal: its bytes are open (R263) (DEDUCED, log 39). -/
def State.graphStored (s : State) : State :=
  s.openRange (s.rd F.GRAPH_STORE_BASE * 65536) (s.rd F.GRAPH_STORE_SIZE * 65536)

/-- A graph slot's record replaced. -/
def State.setGraph (s : State) (i : Nat) (g : Graph) : State := { s with obj := { s.obj with graphs := aput s.obj.graphs i g } }

/-- GRAPH_CREATE (R263, R264). -/
def State.graphCreate (s : State) : State :=
  match s.headOp 5 oCreate with
  | none => s
  | some o =>
    if !s.ctxTakes o.ctx oCreate then s.refuse o.seq eCtx
    else match aget s.obj.graphs o.index with
      | some g => s.refuse o.seq (if g.ctx = o.ctx then eState else eCtx)
      | none =>
        if stackTop < o.arg + 32 || s.poisonOf o.arg 32 != .none then s.refuse o.seq eFetch
        else
          let h := s.rdBytes devKey o.arg 32
          if imageBad h then s.refuse o.seq eImage
          else if stackTop < o.arg + leAt h 10 4 || s.poisonOf o.arg (leAt h 10 4) != .none then s.refuse o.seq eFetch
          else
            let img := s.rdBytes devKey o.arg (leAt h 10 4)
            let n := leAt h 4 2
            let nodes := pieces img 32 64 n
            let edges := pieces img (32 + 64 * n) 4 (leAt h 6 4)
            if nodes.any (s.nodeBad o.ctx (s.nextSeq o.ctx)) || edges.any (edgeBad n) || nodes.any (s.listBad o.ctx) then s.refuse o.seq eImage
            else if let some a := nodes.findSome? (s.listWalk o.ctx) then s.listAsk o.ctx a
            else if !s.storeFits (leAt h 10 4) then s.refuse o.seq eStore
            else
              let k := s.nextSeq o.ctx
              let (refs, bad) := s.versionRefs o.ctx k nodes
              let es := edges.map (fun e => (bitsOf (leAt e 0 4) 0 12, bitsOf (leAt e 0 4) 16 12))
              if s.versionHolds refs then s
              else (((s.graphStored).refAll refs).setGraph o.index ⟨o.ctx, [⟨1, nodes, es, k, none, refs, bad⟩], false, false⟩).endOp

/-- Entries of a patch image: node index and replacement. -/
def patchEntries (img : List Byte) (n : Nat) : List (Nat × List Byte) :=
  (pieces img 32 72 n).map (fun e => (leAt e 0 2, (e.drop 8).take 64))

/-- A patch image's header breaks R265. -/
def patchBad (h : List Byte) : Bool :=
  leAt h 0 4 != 0x5047584B || leAt h 4 2 == 0 || 4096 < leAt h 4 2 || !zeroIn h 10 32

/-- GRAPH_PATCH (R265). -/
def State.graphPatch (s : State) : State :=
  match s.headOp 5 oPatch with
  | none => s
  | some o =>
    if !s.ctxTakes o.ctx oPatch then s.refuse o.seq eCtx
    else match aget s.obj.graphs o.index with
      | none => s.refuse o.seq eState
      | some g =>
        if g.ctx != o.ctx then s.refuse o.seq eCtx
        else match g.released, g.vers.find? (fun v => v.stop.isNone) with
        | true, _ => s.refuse o.seq eState
        | false, none => s.refuse o.seq eStale
        | false, some v =>
          if stackTop < o.arg + 32 || s.poisonOf o.arg 32 != .none then s.refuse o.seq eFetch
          else
            let h := s.rdBytes devKey o.arg 32
            let n := leAt h 4 2
            if patchBad h then s.refuse o.seq eImage
            else if stackTop < o.arg + 32 + 72 * n || s.poisonOf o.arg (32 + 72 * n) != .none then s.refuse o.seq eFetch
            else if leAt h 6 4 != v.ver then s.refuse o.seq eStale
            else
              let img := s.rdBytes devKey o.arg (32 + 72 * n)
              let es := patchEntries img n
              if es.any (fun e => v.nodes.length ≤ e.1 || s.nodeBad o.ctx (s.nextSeq o.ctx) e.2 || s.listBad o.ctx e.2)
                  || (pieces img 32 72 n).any (fun e => !zeroIn e 2 8) || !(es.map (fun e => e.1)).Nodup then
                s.refuse o.seq eImage
              else if let some a := es.findSome? (fun e => s.listWalk o.ctx e.2) then s.listAsk o.ctx a
              else if 16 ≤ g.vers.length then s.refuse o.seq eVersions
              else if !s.storeFits v.size then s.refuse o.seq eStore
              else
                let nodes := es.foldl (fun l e => lset l e.1 e.2) v.nodes
                let k := s.nextSeq o.ctx
                let (refs, bad) := s.versionRefs o.ctx k nodes
                let old := g.vers.map (fun x => if x.stop.isNone then { x with stop := some k } else x)
                if s.versionHolds refs then s
                else (((s.graphStored).refAll refs).setGraph o.index
                  { g with vers := old ++ [⟨v.ver + 1, nodes, v.edges, k, none, refs, bad⟩] }).endOp

/-- A launch that has not completed runs a version. -/
def State.verHeld (s : State) (slot ver : Nat) : Bool := s.cmd.cmds.any (fun e => e.2.gver == some (slot, ver))

/-- The submission number below which commands keep a version: where it ceased to be current. -/
def Graph.until (g : Graph) (ver : Nat) : Option Nat := (g.vers.find? (fun v => v.ver == ver)).bind (fun v => v.stop)

/-- A source of a RELEASE with IRQ (R261). -/
def State.relRaise (s : State) (irq : Bool) : State := if irq then s.raise 0x001 else s

/-- GRAPH_VERSION_FREE (R266). -/
def State.graphVersionFree (s : State) (slot ver : Nat) : State :=
  match aget s.obj.graphs slot with
  | none => s
  | some g =>
    match g.vers.find? (fun v => v.ver == ver), g.until ver with
    | some v, some n =>
      if s.verHeld slot ver || !s.allBelow g.ctx n then s
      else
        let s := s.unrefAll v.refs
        let g := { g with vers := g.vers.filter (fun x => x.ver != ver) }
        if g.vers.isEmpty then ({ s with obj := { s.obj with graphs := adel s.obj.graphs slot } }).relRaise g.irq
        else s.setGraph slot g
    | _, _ => s

/-! ### Release -/

/-- CTX_RELEASE (R254): the release point is the next submission number. -/
def State.ctxRelease (s : State) : State :=
  match s.headOp 0 oRelease with
  | none => s
  | some o =>
    if s.ctxState o.index != ctxLive then s.refuse o.seq eState
    else
      let s := (s.wr F.CTX_STAT_STATE ctxReleasing o.index).leavesLive o.index
      { s with obj := { s.obj with ctxs := amod s.obj.ctxs o.index (fun x => { x with rel := some x.next, relIrq := o.irq }) } }.endOp

/-- MEMOBJ_RELEASE (R261). -/
def State.memobjRelease (s : State) : State :=
  match s.headOp 2 oRelease with
  | none => s
  | some o =>
    let i := o.index
    if s.moUnreadable i then s.refuse o.seq eFetch
    else if !s.ctxTakes o.ctx oRelease || (s.moState i != 0 && s.moCtx i != o.ctx) then s.refuse o.seq eCtx
    else if s.moGen i != o.gen then s.refuse o.seq eGen
    else if s.moState i != 1 then s.refuse o.seq eState
    else
      let s1 := (s.wrNat devKey (s.moAt i + 24) 8 (s.nextSeq o.ctx)).wrNat devKey (s.moAt i + 17) 1 2
      { s1 with obj := { s1.obj with relIrq := if o.irq then i :: s1.obj.relIrq.erase i else s1.obj.relIrq.erase i } }.endOp

/-- MEMOBJ_FREE: the entry is freed and GEN advances (R261). -/
def State.moFree (s : State) (i : Nat) : State :=
  let s := (s.wrNat devKey (s.moAt i + 17) 1 0).wrNat devKey (s.moAt i + 18) 2 ((s.moGen i + 1) % 4096)
  { s with obj := { s.obj with mos := s.obj.mos.filter (fun x => x != i), relIrq := s.obj.relIrq.filter (fun x => x != i) } }

/-- MEMOBJ_FREE's condition and source. -/
def State.memobjFree (s : State) (i : Nat) : State :=
  if s.moState i == 2 && s.moRefs i == 0 && s.allBelow (s.moCtx i) (s.moRelSeq i) then
    (s.moFree i).relRaise (s.obj.relIrq.contains i)
  else s

/-- GRAPH_RELEASE (R266). -/
def State.graphRelease (s : State) : State :=
  match s.headOp 5 oRelease with
  | none => s
  | some o =>
    if !s.ctxTakes o.ctx oRelease then s.refuse o.seq eCtx
    else match aget s.obj.graphs o.index with
      | none => s.refuse o.seq eState
      | some g =>
        if g.ctx != o.ctx then s.refuse o.seq eCtx
        else if g.released then s.refuse o.seq eState
        else (s.setGraph o.index { g with
          released := true, irq := o.irq
          vers := g.vers.map (fun x => if x.stop.isNone then { x with stop := some (s.nextSeq o.ctx) } else x) }).endOp

/-- Owner and release point of a queue, note or timeline. -/
def State.objOwner (s : State) (typ i : Nat) : Option (Nat × Option Nat × Bool) :=
  match typ with
  | 1 => (s.swq i).map (fun w => (w.ctx, w.rel, w.relIrq))
  | 3 => (aget s.syn.notes i).map (fun n => (n.ctx, n.rel, n.relIrq))
  | 4 => (aget s.syn.tls i).map (fun n => (n.ctx, n.rel, n.relIrq))
  | 2 => if s.moState i = 0 then none else some (s.moCtx i, none, false)
  | 5 => (aget s.obj.graphs i).map (fun g => (g.ctx, none, g.irq))
  | _ => none

/-- A release point set on a queue, note or timeline. -/
def State.setRel (s : State) (typ i n : Nat) (irq : Bool) : State :=
  match typ with
  | 1 => { s with cmd := { s.cmd with swqs := amod s.cmd.swqs i (fun w => { w with rel := some n, relIrq := irq }) } }
  | 3 => { s with syn := { s.syn with notes := amod s.syn.notes i (fun w => { w with rel := some n, relIrq := irq }) } }
  | 4 => { s with syn := { s.syn with tls := amod s.syn.tls i (fun w => { w with rel := some n, relIrq := irq }) } }
  | _ => s

/-- A RELEASE of a queue, note or timeline at the head. -/
def State.relHead (s : State) : Option ObjOp :=
  match s.headOp 1 oRelease, s.headOp 3 oRelease, s.headOp 4 oRelease with
  | some o, _, _ => some o
  | none, some o, _ => some o
  | none, none, x => x

/-- OBJ_RELEASE of a queue, note or timeline: the rule of R261 for every kind. -/
def State.objRelease (s : State) : State :=
  match s.relHead with
  | none => s
  | some o =>
    if !s.ctxTakes o.ctx oRelease then s.refuse o.seq eCtx
    else match s.objOwner o.typ o.index with
      | none => s.refuse o.seq eState
      | some (c, rel, _) =>
        if c != o.ctx then s.refuse o.seq eCtx
        else if rel.isSome then s.refuse o.seq eState
        else (s.setRel o.typ o.index (s.nextSeq o.ctx) o.irq).endOp

/-! ### Objects go away -/

/-- A software queue ceases to exist: its registers read zero, its slot is free, its commands are gone. -/
def State.swqGone (s : State) (q : Nat) : State :=
  let s := (((s.stockRelease q).setReg .SWQ_STAT q 0 0).setReg .SWQ_CMPL q 0 0).setReg .SWQ_ERRSEQ q 0 0
  let s := (List.range 4).foldl (fun s k => s.setReg .SWQ_PAIR q k 0) ((s.setReg .SWQ_STK q 0 0).setReg .SWQ_CTL q 0 0)
  let s := { s with cmd := { s.cmd with swqs := adel s.cmd.swqs q, cmds := s.cmd.cmds.filter (fun e => e.2.q != q) } }
  ((List.range 256).filter (fun k => s.on F.QSLOT_STAT_MAPPED k && s.rd F.QSLOT_STAT_SWQ k == q)).foldl
    (fun s k => (s.wr F.QSLOT_STAT_MAPPED 0 k).wr F.QSLOT_STAT_SWQ 0 k) s

/-- A note or timeline that graph versions name ceases to exist: their references are gone, and its nodes no longer bind. -/
def GVer.lose (r : ObjKind × Nat) (v : GVer) : GVer :=
  if v.refs.contains r then
    { v with
      refs := v.refs.filter (fun x => x != r)
      nobind := v.nobind ++ (v.nodes.zipIdx.filter (fun e => pkSync e.1 == some r)).map (fun e => e.2) }
  else v
def State.loseRef (s : State) (r : ObjKind × Nat) : State :=
  { s with obj := { s.obj with graphs := s.obj.graphs.map (fun e => (e.1, { e.2 with vers := e.2.vers.map (GVer.lose r) })) } }

/-- The operations queued for an object that is freed: a host signal is applied, to a note whose destruction came before it as
to an object that does not exist (14_synchronisation.md R294, R296, R302); an operation of a packet is gone with its command.
-/
def State.lastOps (s : State) (n : Bool) (i : Nat) : State :=
  ((s.syn.ops.filter (fun o => o.2.obj == (n, i))).foldl (fun (e : State × Bool) o => match o.2 with
    | .host _ _ _ => (if n && e.2 then e.1.syncErr F.SYNC_ERR_BAD_HOST else e.1.applySignal o.2, e.2)
    | .destroy _ _ _ => (e.1, true)
    | _ => e) (s, false)).1

/-- A stocktake that still waits for its hold on a note that is freed skips the note's pairs (R304, R305). -/
def State.skipPairs (s : State) (i : Nat) : State :=
  let names := fun (p : PairW) => p.fld F.SWQ_PAIR_A == i || p.fld F.SWQ_PAIR_B == i
  s.cmd.swqs.foldl (fun s (q, w) => match w.taking with
    | some k =>
      if !k.asked || !k.pairs.any names then s
      else
        let s := (k.pairs.filter names).foldl (fun s p => s.setBit F.SWQ_STK_BADPAIR q p.1) s
        s.setSwq q { w with taking := some { k with pairs := k.pairs.filter (fun p => !names p) } }
    | none => s) s

/-- A note, a timeline ceases to exist: what is queued for it has its effect first, and arms of watchers after. -/
def State.syncGone (s0 : State) (n : Bool) (i : Nat) : State :=
  let arms := s0.syn.ops.filterMap (fun o => match o.2 with
    | .arm m j v w => if m == n && j == i then some (v, w) else none
    | _ => none)
  let s := s0.lastOps n i
  let s := { s with syn := { s.syn with
    notes := if n then adel s.syn.notes i else s.syn.notes
    tls := if n then s.syn.tls else adel s.syn.tls i
    ops := s.syn.ops.filter (fun o => o.2.obj != (n, i)) } }
  let s := if n then (s.skipPairs i).setReg .NOTE_VAL i 0 0 else s.setReg .TL_VAL i 0 0
  arms.foldl (fun s a => s.armApply n i a.1 a.2) (s.loseRef (if n then .note else .timeline, i))
def State.noteGone (s : State) (i : Nat) : State := s.syncGone true i
def State.tlGone (s : State) (i : Nat) : State := s.syncGone false i

/-- A graph slot ceases to exist: its versions release their references. -/
def State.graphGone (s : State) (i : Nat) : State :=
  match aget s.obj.graphs i with
  | none => s
  | some g =>
    let s := s.unrefAll (g.vers.flatMap (fun v => v.refs))
    { s with obj := { s.obj with graphs := adel s.obj.graphs i } }

/-- The versions of a graph slot that name a memory object are destroyed (Table 12.6); a slot without a version is FREE
(DEDUCED, log 69). -/
def State.versionsGone (m : Nat) (s : State) (i : Nat) : State :=
  match aget s.obj.graphs i with
  | none => s
  | some g =>
    let (out, left) := g.vers.partition (fun v => v.refs.contains (.mem, m))
    let s := s.unrefAll (out.flatMap (fun v => v.refs))
    if left.isEmpty then { s with obj := { s.obj with graphs := adel s.obj.graphs i } } else s.setGraph i { g with vers := left }

/-- An object of a kind ceases to exist. -/
def State.objGone (s : State) : ObjKind → Nat → State
  | .swq, i => s.swqGone i
  | .mem, i => s.moFree i
  | .note, i => s.noteGone i
  | .timeline, i => s.tlGone i
  | .graph, i => s.graphGone i
  | .ctx, _ => s

/-- Every object a context owns is destroyed; destroyed notes and timelines fire their watchers (R268;
14_synchronisation.md R303) (DEDUCED, log 61). -/
def State.destroyOwned (s : State) (c : Nat) : State :=
  let g := (s.obj.graphs.filter (fun e => e.2.ctx == c)).map (fun e => e.1)
  let m := s.obj.mos.filter (fun i => s.moCtx i == c)
  let n := (s.syn.notes.filter (fun e => e.2.ctx == c)).map (fun e => e.1)
  let t := (s.syn.tls.filter (fun e => e.2.ctx == c)).map (fun e => e.1)
  let q := (s.cmd.swqs.filter (fun e => e.2.ctx == c)).map (fun e => e.1)
  let s := g.foldl State.graphGone s
  let s := m.foldl State.moFree s
  let s := n.foldl (fun s i => ((s.lastOps true i).fireDestroyed true i).noteGone i) s
  let s := t.foldl (fun s i => (((s.lastOps false i).putTl terminal i).fireDestroyed false i).tlGone i) s
  q.foldl State.swqGone s

/-- A context slot becomes FREE (R254; 15_interrupts.md R311): its objects, commands and translations are gone (DEDUCED, log
61). -/
def State.ctxGone (s : State) (c : Nat) : State :=
  let s := (s.snapStop c 6).destroyOwned c
  let s := { s with
    rcv := { s.rcv with adopted := s.rcv.adopted.filter (fun x => x != c) }
    cmd := { s.cmd with
      cmds := s.cmd.cmds.filter (fun e => e.1.ctx != c)
      past := s.cmd.past.filter (fun e => e.1.1 != c) }
    syn := { s.syn with waiters := s.syn.waiters.filter (fun w => w.cmd.ctx != c), saved := s.syn.saved.filter (fun w => w.cmd.ctx != c) }
    obj := { s.obj with
      ctxs := adel s.obj.ctxs c
      saved := s.obj.saved.filter (fun b => b.1 != c)
      saving := s.obj.saving.filter (fun x => x != c)
      restoring := s.obj.restoring.filter (fun x => x != c) } }
  let s := (s.dropQuires c).dropXlt c
  ((ctxSrcs c).foldl State.srcClear s).wr F.CTX_STAT_STATE ctxFree c

/-- A note or timeline is kept beyond its release point: a graph version holds a reference on it (R264), or a stocktake holds the
note (14_synchronisation.md R305). -/
def State.syncKept (s : State) (k : ObjKind) (i : Nat) : Bool :=
  s.obj.graphs.any (fun e => e.2.vers.any (fun v => v.refs.contains (k, i))) || (k == .note && s.heldObj (true, i))

/-- RELEASE_POINT_REACHED (R261): the last command before a release point has completed (DEDUCED, log 61). -/
def State.relReached (s : State) (k : ObjKind) (i : Nat) : State :=
  match k with
  | .ctx =>
    match aget s.obj.ctxs i with
    | none => s
    | some x => match x.rel with
      | none => s
      | some n => if s.ctxState i == ctxReleasing && s.allBelow i n then (s.ctxGone i).relRaise x.relIrq else s
  | .swq | .note | .timeline =>
    match s.objOwner (match k with | .swq => 1 | .note => 3 | _ => 4) i with
    | some (c, some n, irq) => if s.allBelow c n && !s.syncKept k i then (s.objGone k i).relRaise irq else s
    | _ => s
  | _ => s

/-! ### Destruction (R267-R269) -/

/-- The first operation's effect goes on until DESTROY_DONE. -/
def State.opBusy (s : State) : State := { s with obj := { s.obj with busy := true } }

/-- CTX_DESTROY: the context enters DESTROYING and every command is aborted. -/
def State.ctxDestroy (s : State) : State :=
  match s.headOp 0 oDestroy with
  | none => s
  | some o =>
    if s.ctxState o.index == ctxFree then s.refuse o.seq eState
    else
      let s := ((s.wr F.CTX_STAT_STATE ctxDestroying o.index).snapStop o.index 6).leavesLive o.index
      let s := ((s.abortCmds stAborted (fun id _ => id.ctx == o.index)).dropRecvUpd o.index).endRecvs stAborted
        (fun r => r.ctx == o.index)
      ((s.dropQuires o.index).dropXlt o.index).opBusy

/-- The object kind of a TYPE. -/
def kindOf : Nat → ObjKind
  | 0 => .ctx
  | 1 => .swq
  | 2 => .mem
  | 3 => .note
  | 4 => .timeline
  | _ => .graph

/-- A command holds an object: it has bound it, is a node that names it, runs a version of it or one that names it, or belongs
to it (Table 12.6). -/
def State.holds (s : State) (k : ObjKind) (i : Nat) (c : Cmd) : Bool :=
  match k with
  | .swq => c.q == i
  | .graph => match c.gver with
    | some (g, _) => g == i
    | none => false
  | .mem => c.refs.contains (.mem, i) || (match c.gver with
    | some (g, v) => (aget s.obj.graphs g).any (fun x => x.vers.any (fun y => y.ver == v && y.refs.contains (.mem, i)))
    | none => false)
  | _ => c.refs.contains (k, i) || (c.pre.isNone && pkSync c.pkt == some (k, i))

/-- A DESTROY of an object at the head. -/
def State.desHead (s : State) : Option ObjOp :=
  match s.obj.ops with
  | [] => none
  | o :: _ => if o.typ == 0 then none else s.headOp o.typ oDestroy

/-- OBJ_DESTROY: commands that hold the object are aborted; the destruction of a timeline or note takes its place at the
owning unit, where the timeline takes the terminal value and watchers fire (R268; 14_synchronisation.md R294). -/
def State.objDestroy (s : State) : State :=
  match s.desHead with
  | none => s
  | some o =>
    if o.typ == 2 && s.moUnreadable o.index then s.refuse o.seq eFetch
    else if !s.ctxTakes o.ctx oDestroy then s.refuse o.seq eCtx
    else match s.objOwner o.typ o.index with
      | none => s.refuse o.seq eState
      | some (c, _, _) =>
        if c != o.ctx then s.refuse o.seq eCtx
        else if o.typ == 2 && s.moGen o.index != o.gen then s.refuse o.seq eGen
        else
          let k := kindOf o.typ
          let s := s.abortCmds stAborted (fun _ x => s.holds k o.index x)
          let s := match k with
            | .mem => s.endRecvs stObjGone (fun r => r.obj == o.index)
            | .timeline => (s.pushSync o.index (.destroy false o.index false)).grantOps
            | .note => (s.pushSync o.index (.destroy true o.index false)).grantOps
            | _ => s
          s.opBusy

/-- DESTROY_DONE: no command holds the object any more, and it is freed (R268). -/
def State.destroyDone (s : State) (k : ObjKind) (i : Nat) : State :=
  match s.obj.ops with
  | [] => s
  | o :: _ =>
    if !s.obj.busy || o.op != oDestroy || kindOf o.typ != k || o.index != i then s
    else match k with
      | .ctx => if (s.ctxCmds i).isEmpty then (s.ctxGone i).endOp else s
      | .mem =>
        if s.cmd.cmds.any (fun e => s.holds k i e.2) then s
        else
          let g := (s.obj.graphs.filter (fun e => e.2.vers.any (fun v => v.refs.contains (.mem, i)))).map (fun e => e.1)
          ((g.foldl (State.versionsGone i) s).objGone k i).endOp
      | .note | .timeline =>
        if s.firstOp (k == .note, i) == some (.destroy (k == .note) i false) then s.grantOps
        else if s.cmd.cmds.any (fun e => s.holds k i e.2) || s.firstOp (k == .note, i) != some (.destroy (k == .note) i true) then s
        else (s.objGone k i).endOp
      | _ => if s.cmd.cmds.any (fun e => s.holds k i e.2) then s else (s.objGone k i).endOp

/-- CTX_ABORTED: every command has completed, and the context reaches ABORTED (R256); records of responses that aborted it may
be due (17_fault_tolerance.md R355). -/
def State.ctxAbortEnd (s : State) (c : Nat) : State :=
  if s.ctxState c == ctxAborting && (s.ctxCmds c).isEmpty then
    ((s.wr F.CTX_STAT_STATE ctxAborted c).raise (0x1C0 + c)).closeLosses
  else s

/-- CTX_CREATE (R254). -/
def execCtxCreate (s : State) : Host.Outcome State Fault Refusal := .next s.ctxCreate
/-- SWQ_CREATE (13_command_submission.md R271). -/
def execSwqCreate (s : State) : Host.Outcome State Fault Refusal := .next s.swqCreate
/-- MEMOBJ_CREATE (R259); no reference is held to a new object (DEDUCED, log 65). -/
def execMemobjCreate (s : State) : Host.Outcome State Fault Refusal := .next s.memobjCreate
/-- NOTE_CREATE (14_synchronisation.md R293). -/
def execNoteCreate (s : State) : Host.Outcome State Fault Refusal := .next s.noteCreate
/-- TIMELINE_CREATE (14_synchronisation.md R293). -/
def execTimelineCreate (s : State) : Host.Outcome State Fault Refusal := .next s.timelineCreate
/-- GRAPH_CREATE (R263). -/
def execGraphCreate (s : State) : Host.Outcome State Fault Refusal := .next s.graphCreate
/-- GRAPH_PATCH (R265). -/
def execGraphPatch (s : State) : Host.Outcome State Fault Refusal := .next s.graphPatch
/-- CTX_RELEASE (R254). -/
def execCtxRelease (s : State) : Host.Outcome State Fault Refusal := .next s.ctxRelease
/-- MEMOBJ_RELEASE (R261). -/
def execMemobjRelease (s : State) : Host.Outcome State Fault Refusal := .next s.memobjRelease
/-- GRAPH_RELEASE (R266). -/
def execGraphRelease (s : State) : Host.Outcome State Fault Refusal := .next s.graphRelease
/-- OBJ_RELEASE (R261). -/
def execObjRelease (s : State) : Host.Outcome State Fault Refusal := .next s.objRelease
/-- MEMOBJ_FREE (R261). -/
def execMemobjFree (i : Nat) (s : State) : Host.Outcome State Fault Refusal := .next (s.memobjFree i)
/-- GRAPH_VERSION_FREE (R266). -/
def execGraphVersionFree (slot ver : Nat) (s : State) : Host.Outcome State Fault Refusal := .next (s.graphVersionFree slot ver)
/-- RELEASE_POINT_REACHED (R261). -/
def execReleasePointReached (k : ObjKind) (i : Nat) (s : State) : Host.Outcome State Fault Refusal := .next (s.relReached k i)
/-- CTX_DESTROY (R267, R268). -/
def execCtxDestroy (s : State) : Host.Outcome State Fault Refusal := .next s.ctxDestroy
/-- OBJ_DESTROY (R268). -/
def execObjDestroy (s : State) : Host.Outcome State Fault Refusal := .next s.objDestroy
/-- DESTROY_DONE (R268). -/
def execDestroyDone (k : ObjKind) (i : Nat) (s : State) : Host.Outcome State Fault Refusal := .next (s.destroyDone k i)
/-- CTX_ABORTED (R256). -/
def execCtxAborted (c : Nat) (s : State) : Host.Outcome State Fault Refusal := .next (s.ctxAbortEnd c)

end Sys2Proof.Machine
end

