-- ==== Sys2Proof/Machine/ThreadBase.lean ====
section
/-! DEFINITION. Groups of threads (03_thread_execution.md): slots, registers, issue, breakpoints, traps, barriers, repacks and
the end of a block. The memory side of an instruction is in MemOps.lean. -/

namespace Sys2Proof.Machine

open Sys2Proof

/-! ### Groups and registers (R59, R80) -/

/-- A group slot in use, and a group replaced or changed. -/
def State.group (s : State) (g : Gid) : Option Group := aget s.thr.groups g
def State.setGroup (s : State) (g : Gid) (x : Group) : State :=
  { s with thr := { s.thr with groups := aput s.thr.groups g x } }
def State.modGroup (s : State) (g : Gid) (f : Group → Group) : State :=
  { s with thr := { s.thr with groups := amod s.thr.groups g f } }

/-- A resident block, and a block replaced. -/
def State.block (s : State) (bid : Nat) : Option Block := aget s.thr.blocks bid
def State.setBlock (s : State) (bid : Nat) (b : Block) : State :=
  { s with thr := { s.thr with blocks := aput s.thr.blocks bid b } }

/-- Lanes of a mask in ascending order. -/
def lanesOf (m : Mask) : List Nat := (List.range 32).filter (fun l => m.getLsbD l)

/-- One lane's bit. -/
def laneBit (l : Nat) : Mask := 1#32 <<< l

/-- The slot whose pages hold a lane's registers: its entry of the IRT (R80). -/
def Group.homeSlot (x : Group) (g : Gid) (l : Nat) : Nat := x.irt.getD l g.slot

/-- Where register `r` of a lane of a home slot lies. -/
def State.rfKey (s : State) (core home r l : Nat) : RfKey :=
  let page := match s.group ⟨core, home⟩ with
    | some h => h.pages.getD (r / 8) 0
    | none => 0
  ⟨core, page, r % 8, l⟩

/-- A register of a lane, through the IRT. -/
def State.getReg (s : State) (g : Gid) (x : Group) (r l : Nat) : W32 :=
  (aget s.thr.rf (s.rfKey g.core (x.homeSlot g l) r l)).getD 0

/-- A register of a lane of a home slot written. -/
def State.setHomeReg (s : State) (core home r l : Nat) (v : W32) : State :=
  { s with thr := { s.thr with rf := aput s.thr.rf (s.rfKey core home r l) v } }

/-- A register of a lane written, through the IRT. -/
def State.putReg (s : State) (g : Gid) (x : Group) (r l : Nat) (v : W32) : State := s.setHomeReg g.core (x.homeSlot g l) r l v

/-- `n` registers from `r` on as one number, lowest first. -/
def State.getRegs (s : State) (g : Gid) (x : Group) (r n l : Nat) : Nat :=
  ((List.range n).map (fun i => (s.getReg g x (r + i) l).toNat * 2 ^ (32 * i))).sum

/-- A predicate of a lane's thread. -/
def State.getPred (s : State) (g : Gid) (x : Group) (p l : Nat) : Bool :=
  match s.group ⟨g.core, x.homeSlot g l⟩ with
  | some h => (h.preds.getD l 0).getLsbD p
  | none => false

/-- A predicate of a lane's thread written. -/
def State.putPred (s : State) (g : Gid) (x : Group) (p l : Nat) (v : Bool) : State :=
  s.modGroup ⟨g.core, x.homeSlot g l⟩ (fun h =>
    { h with preds := lset h.preds l (((h.preds.getD l 0) &&& ~~~(1#16 <<< p)) ||| (if v then 1#16 <<< p else 0)) })

/-- A value written to a register in every active lane. -/
def State.putAll (s : State) (g : Gid) (x : Group) (r : Nat) (f : Nat → W32) : State :=
  (lanesOf x.active).foldl (fun s l => s.putReg g x r l (f l)) s

/-- The thread of a lane: OGRP, TIDX and RGCNT (R70). -/
def State.ogrpOf (s : State) (g : Gid) (x : Group) (l : Nat) : Nat :=
  match s.group ⟨g.core, x.homeSlot g l⟩ with
  | some h => h.ogrp
  | none => 0
def State.rgOf (s : State) (g : Gid) (x : Group) (l : Nat) : Nat :=
  match s.group ⟨g.core, x.homeSlot g l⟩ with
  | some h => h.rg.getD l 0
  | none => 0

/-! ### Scratch (09_caches.md R186-R189) -/

/-- Address in the local store of a byte of a block's scratch; none beyond its allocation. -/
def Block.scrAddr (b : Block) (off : Nat) : Option Nat :=
  match b.gran[off / 1024]? with
  | some k => some (b.core * 2 ^ 20 + k * 1024 + off % 1024)
  | none => none

/-- Bytes of a block's scratch; beyond the allocation they read zero. -/
def State.rdScr (s : State) (b : Block) (off n : Nat) : Nat :=
  leNat ((List.range n).map (fun i => match b.scrAddr (off + i) with
    | some a => (mget s.thr.scr a).getD 0
    | none => 0))

/-- Bytes of a block's scratch written; beyond the allocation there is no effect. Zero is what an unlisted byte reads as. -/
def State.wrScr (s : State) (b : Block) (off : Nat) (bs : List Byte) : State :=
  let put := fun (m : List (Nat × Byte)) (e : Byte × Nat) => match b.scrAddr (off + e.2) with
    | some a => if e.1 == 0 then mdel m a else mput m a e.1
    | none => m
  { s with thr := { s.thr with scr := bs.zipIdx.foldl put s.thr.scr } }

/-! ### Issue (R63, R64) -/

/-- Accesses in flight of a core. -/
def State.coreOps (s : State) (core : Nat) : List MemOp := s.thr.ops.filter (fun o => o.g.core == core)

/-- Registers that an access writes. -/
def MemOp.regs (o : MemOp) : Nat :=
  if o.rd = 256 then 0 else if o.lanes.any (fun l => l.half == 1) then 4 else max 1 (o.size / 4)

/-- A lane's access among those of its instruction. -/
def LaneAcc.key (l : LaneAcc) : Nat := l.lane + 32 * l.half

/-- An access in flight has a lane among the threads of a group: those of its block, whose accesses alone they are (R62). -/
def Group.inOp (x : Group) (g : Gid) (o : MemOp) : Bool :=
  o.g.core == g.core && o.bid == x.bid && o.lanes.any (fun l => x.live.getLsbD l.lane && x.homeSlot g l.lane == l.home)

/-- The scoreboard holds a register for an access in flight. -/
def State.regBusy (s : State) (g : Gid) (x : Group) (r : Nat) : Bool :=
  s.thr.ops.any (fun o => x.inOp g o && o.rd ≤ r && r < o.rd + o.regs)

/-- A lane of the group waits on the blotter (11_translation.md R244). -/
def State.waitsFault (s : State) (g : Gid) (x : Group) : Bool :=
  s.thr.ops.any (fun o => x.inOp g o && o.lanes.any (fun l => match l.ph with
    | .quire _ _ => x.homeSlot g l.lane == l.home
    | .stalled _ _ => x.homeSlot g l.lane == l.home
    | _ => false))

/-- Arbitration pointers of a core (DESIGN CHOICE, log 28). -/
def State.ptr (s : State) (core : Nat) : CorePtr := (aget s.thr.ptrs core).getD ⟨[0, 0, 0, 0], 0, [0, 0], 0, []⟩
def State.setPtr (s : State) (core : Nat) (p : CorePtr) : State := { s with thr := { s.thr with ptrs := aput s.thr.ptrs core p } }

/-- The path of a core to its cluster cache grants a slot to a source: the L1's queue (0), the feeders of M0 (1) or of M1 (2); the
pointer moves past it (09_caches.md R194) (DESIGN CHOICE, log 28). -/
def State.pathGrant (s : State) (core src : Nat) : State := s.setPtr core { s.ptr core with path := (src + 1) % 3 }

/-- The load/store unit refuses an instruction of a group (R64). -/
def State.lsuRefuses (s : State) (g : Gid) : State :=
  let p := s.ptr g.core
  s.setPtr g.core { p with refused := g.slot :: p.refused.erase g.slot }

/-- Where a port's pointer stands after an issue: past the slot (R63), or at a refused group that stands before it (R64). -/
def CorePtr.after (p : CorePtr) (slot : Nat) : Nat :=
  let port := slot % 4
  let order := (List.range 16).map (fun i => ((p.ports.getD port 0) / 4 + i) % 16 * 4 + port)
  match order.find? (fun k => k == slot || p.refused.contains k) with
  | some k => if k == slot then (slot / 4 + 1) % 16 * 4 + port else k
  | none => (slot / 4 + 1) % 16 * 4 + port

/-- A group may issue. -/
def State.canIssue (s : State) (g : Gid) (x : Group) (b : Block) : Bool :=
  !x.gone && x.live != 0 && x.halt == 0 && x.stepping < 2 && x.wait == .ready && b.zeroed && !b.trapped
  && !s.rcv.cores.contains g.core && !s.isSaving b.cmd.ctx && !s.waitsFault g x

/-- An event that a group's instruction makes at its issue, from its port (20_tally_and_ledger.md Table 20.2). -/
def State.tallyG (s : State) (g : Gid) (code v : Nat) : State :=
  let c := (s.group g).bind (fun x => (s.block x.bid).map (fun b => b.cmd.ctx))
  s.tally (g.core / 128) (g.core % 128) code v ⟨c, some (g.slot % 4), none⟩

/-- The reload value of a core's sampling: PERIOD, at least 64, and a free value below 2^JITTER (20_tally_and_ledger.md R406). -/
def State.smpReload (s : State) (core : Nat) : Nat :=
  max 64 (s.rd F.TAL_SMP_PERIOD (coreSet core)) + s.freeVal 1006 16 % 2 ^ s.rd F.TAL_SMP_JITTER (coreSet core)

/-- A core's count of issues against a reload value: drawn anew, restarted, one higher while sampling is on, and due. -/
def State.smpDraw (s : State) (core : Nat) : State :=
  { s with tal := { s.tal with smp := aput s.tal.smp core (0, s.smpReload core) } }.bump
def State.smpRestart (s : State) (core : Nat) : State :=
  { s with tal := { s.tal with smp := amod s.tal.smp core (fun e => (0, e.2)) } }
def State.smpCount (s : State) (core : Nat) : State :=
  if !s.on F.TAL_SMP_EN (coreSet core) then s
  else
    let s := if (aget s.tal.smp core).isNone then s.smpDraw core else s
    { s with tal := { s.tal with smp := amod s.tal.smp core (fun e => (e.1 + 1, e.2)) } }
def State.smpDue (s : State) (core : Nat) : Bool := (aget s.tal.smp core).any (fun e => e.2 ≤ e.1)

/-- What an issue through a port leaves: the port's pointer moves past the slot (R63), the load/store unit's past the port (R64)
(DESIGN CHOICE, log 28), and the issue is counted. -/
def State.portTurn (s : State) (g : Gid) (lsu : Bool) : State :=
  let s := match s.group g with
    | some x => { s with tal := { s.tal with last := aput s.tal.last g (x.pc, x.active) } }
    | none => s
  let p := s.ptr g.core
  let p := { p with refused := p.refused.erase g.slot }
  let p := { p with ports := lset p.ports (g.slot % 4) (p.after g.slot) }
  let p := if lsu then { p with lsu := (g.slot % 4 + 1) % 4 } else p
  let s := ((s.setPtr g.core p).smpCount g.core).tallyG g 0x010 1
  if lsu then s.tallyG g 0x030 1 else s

/-- The clock of a core's pipes runs again (19_power_and_clocks.md R387). -/
def State.clockCore (s : State) (core : Nat) : State :=
  { s with pwr := { s.pwr with stopped := s.pwr.stopped.filter (fun k => k != core) } }

/-- Bookkeeping of an issue: a stepped group has stepped, a skipped breakpoint counts again, the clock of the pipes runs, and
a port takes its turn. -/
def State.issued (s : State) (g : Gid) (port lsu : Bool) : State :=
  let s := s.modGroup g (fun x => { x with bpSkip := none, pfails := 0, stepping := if x.stepping = 1 then 2 else x.stepping })
  let s := s.clockCore g.core
  if port then s.portTurn g lsu else s

/-- An issued slot whose instruction is discarded (20_tally_and_ledger.md R403). -/
def State.wasted (s : State) (g : Gid) : State := s.tallyG g 0x011 1

/-- The group goes on with its next instruction (DESIGN CHOICE, log 13). -/
def State.goOn (s : State) (g : Gid) : State := s.modGroup g (fun x => { x with pc := Config.nextPc x.pc })

/-! ### Debug events and traps (R84, R85; 21_debug.md R423-R426) -/

/-- An event enters a context's queue, or is counted as lost. -/
def State.dbgEvent (s : State) (c : Nat) (e : DbgEvt) : State :=
  let q := (aget s.dbg.evts c).getD []
  if 64 ≤ q.length then s.incSat F.DBG_EVT_LOST c
  else ({ s with dbg := { s.dbg with evts := aput s.dbg.evts c (q ++ [e]) } }).raise (0x380 + c)

/-- A group halts on a match: `why` 3 BREAK or 4 WATCH, with its number. Only it halts, and R85 does not record it. The next
issue after a RESUME from BREAK does not match the breakpoint at this PC (21_debug.md Table 21.1). -/
def State.matchHalt (s : State) (g : Gid) (x : Group) (c why n : Nat) : State :=
  (s.setGroup g { x with halt := why, stepping := 0, bpSkip := if why = 3 then some x.pc else none }).dbgEvent c ⟨why, false, false, g.core, g.slot, n, x.pc⟩

/-- The enabled breakpoint that an issue matches (R424). -/
def State.breakAt (s : State) (x : Group) (c : Nat) : Option Nat :=
  if s.on F.DBG_ATTACH_EN c && x.bpSkip != some x.pc then
    (List.range 8).find? (fun i => bitsOf (s.rd F.DBG_ATTACH_BP_EN c) i 1 == 1 && s.rd F.DBG_BP_PC c i == x.pc.toNat)
  else none

/-- The enabled watchpoint that an access of `n` bytes at one of these addresses matches (R424) (DEDUCED, log 18). -/
def State.watchAt (s : State) (c : Nat) (rd wr : Bool) (n : Nat) (vas : List Nat) : Option Nat :=
  if s.on F.DBG_ATTACH_EN c then
    (List.range 4).find? (fun i =>
      let z := s.rd F.DBG_WP_SIZE_LOG c i
      let z := if 3 ≤ z ∧ z ≤ 12 then z else 3
      let lo := s.rd F.DBG_WP_VA c i / 2 ^ z * 2 ^ z
      bitsOf (s.rd F.DBG_ATTACH_WP_EN c) i 1 == 1 && ((rd && s.on F.DBG_WP_R c i) || (wr && s.on F.DBG_WP_W c i))
        && vas.any (fun a => a < lo + 2 ^ z && lo < a + n))
  else none

/-- Trap causes, Table 3.7. -/
abbrev tIllegal : Nat := 0x01
abbrev tDepth : Nat := 0x02
abbrev tMisalign : Nat := 0x03
abbrev tRegRange : Nat := 0x04
abbrev tLockOwner : Nat := 0x05
abbrev tBarrier : Nat := 0x06
abbrev tTrap : Nat := 0x80

/-- Launch status of a cause, Table 3.7. -/
def trapStatus (cause : Nat) : Nat := if cause = tBarrier then stBarrier else stAborted

/-- The fault record of Table 3.8; `st` is the status given to the launch, an earlier failing condition's where one stands
(R84 step 6) (DEDUCED, log 56). -/
def trapRecord (cause aux st core slot ogrp : Nat) (x : Group) (seq : Nat) : List Byte :=
  leBytes 1 cause ++ leBytes 1 aux ++ leBytes 2 st ++ leBytes 2 core ++ leBytes 1 slot ++ leBytes 1 ogrp
    ++ leBytes 8 x.pc.toNat ++ leBytes 4 x.active.toNat ++ leBytes 4 x.live.toNat ++ leBytes 8 seq

/-- A launch places no further block: lost blocks that were to be placed again count as ended (R84; 17_fault_tolerance.md
R353). -/
def Cmd.stopPlacing (c : Cmd) : Cmd := { c with noMore := true, ended := c.ended + c.again.length, again := [] }

/-- The groups of a block that have not ended are halted with one that trapped. -/
def State.haltOthers (s : State) (bid : Nat) : State :=
  { s with thr := { s.thr with groups := s.thr.groups.map (fun e =>
    if e.2.bid == bid && e.2.halt == 0 && e.2.live != 0 && !e.2.gone then (e.1, { e.2 with halt := 5, stepping := 0 }) else e) } }

/-- A trap (R84): the block halts, its launch places no more; the first trap of a launch is recorded and gives its status, a
later one is counted (R85). With HALT_TRAP the group stays halted for the debugger, and with it every other group of the block
that has not ended (21_debug.md R423; R84 step 2). The OGRP of a trap without an active lane is a free value (DEDUCED, log
56). -/
def State.trap (s : State) (g : Gid) (cause aux : Nat) : State :=
  match s.group g with
  | none => s
  | some x =>
    match s.block x.bid with
    | none => s
    | some b =>
      match s.cmdOf b.cmd with
      | none => s
      | some c =>
        let ogrp := match (lanesOf x.active).head? with
          | some l => s.ogrpOf g x l
          | none => s.freeVal 1003 5
        let s := if c.trapped then s.faultLater b.cmd.ctx
          else (s.faultRecord b.cmd.ctx (trapRecord cause aux ((c.note (trapStatus cause)).fail.getD 0) g.core g.slot ogrp x
            b.cmd.seq)).bump
        let c := if c.trapped then c else c.note (trapStatus cause)
        let s := (s.setCmd b.cmd { c.stopPlacing with trapped := true }).setBlock x.bid { b with trapped := true }
        if s.on F.DBG_ATTACH_EN b.cmd.ctx && s.on F.DBG_ATTACH_HALT_TRAP b.cmd.ctx then
          ((s.setGroup g { x with halt := 5, stepping := 0 }).haltOthers x.bid).dbgEvent b.cmd.ctx
            ⟨5, false, false, g.core, g.slot, cause, x.pc⟩
        else s.setGroup g { x with stepping := 0 }

/-- A trap of an instruction that its port has issued, and of one at its issue: the slot is wasted. -/
def State.trapAfter (s : State) (g : Gid) (cause aux : Nat) : State := (s.wasted g).trap g cause aux
def State.trapNow (s : State) (g : Gid) (port : Bool) (cause aux : Nat) : State :=
  if port then (s.issued g true false).trapAfter g cause aux else s.trap g cause aux

/-- What the checks of an issue found in the core or its cluster's control (17_fault_tolerance.md R342-R345): whether the
instruction goes on. A parity failure of the pipes is replayed at most twice. -/
def State.checkIssue (s : State) (g : Gid) (x : Group) (b : Block) (port : Bool) : Found → State × Bool
  | .pipe =>
    if 2 ≤ x.pfails then (s.contain g.core fPipeParity, false)
    else
      let s := (s.setGroup g { x with pfails := x.pfails + 1 }).modCmd b.cmd (fun c => { c with replayed := true })
      let s := if port then (s.portTurn g false).wasted g else s
      ((s.countReplay (g.core / 8)).tallyG g 0x047 1, false)
  | .rfUe => (s.contain g.core fRfUe, false)
  | .coreCtl => (s.contain g.core fCoreCtl, false)
  | .clusterCtl => (s.quarantine (g.core / 8) fClCtl, false)
  | _ => (s, true)

/-- An instruction of a group reaches issue, through a port or not (R65): nothing where the group may not issue or an operand
is not available; a match of a breakpoint halts it; what the checks find is answered first; an undefined encoding (`bad`) or a
register outside the allocation (R59) traps; else it executes (DEDUCED, log 18). The undefined encoding comes first, and AUX
names the first register outside in the order of the operands (DESIGN CHOICE, log 70). -/
def State.issueVia (s : State) (g : Gid) (port bad : Bool) (regs : List Nat) (body : State → Group → Block → Cmd → State) : State :=
  match s.group g with
  | none => s
  | some x =>
    match s.block x.bid with
    | none => s
    | some b =>
      match s.cmdOf b.cmd with
      | none => s
      | some c =>
        if !s.canIssue g x b then s
        else match s.breakAt x b.cmd.ctx with
          | some n => s.matchHalt g x b.cmd.ctx 3 n
          | none =>
            let out := regs.find? (fun r => 8 * x.pages.length ≤ r)
            let go := fun (s : State) =>
              if bad then s.trapNow g port tIllegal 0
              else match out with
                | some r => s.trapNow g port tRegRange (r % 256)
                | none => body s x b c
            if !bad && out.isNone && regs.any (s.regBusy g x) then s
            else match s.takeFind (.core g.core) with
              | none => go s
              | some (f, s) =>
                match s.checkIssue g x b port f with
                | (s, true) => go s
                | (s, false) => s

/-- An issue through a port. -/
def State.issue (s : State) (g : Gid) (bad : Bool) (regs : List Nat) (body : State → Group → Block → Cmd → State) : State :=
  s.issueVia g true bad regs body

/-! ### Repacks (R81, R82) -/

/-- Groups of a block that are neither ended nor emptied. -/
def State.remaining (s : State) (bid : Nat) : List (Gid × Group) :=
  s.thr.groups.filter (fun e => e.2.bid == bid && !e.2.gone && e.2.live != 0)

/-- The groups of a block that wait at a regroup point, in order of arrival. A trap of the block has halted them (R84). -/
def State.atPoint (s : State) (bid : Nat) (pc : Pc) : List (Gid × Group) :=
  let l := (s.remaining bid).filter (fun e => e.2.halt == 0 && (s.block bid).any (fun b => !b.trapped) && (match e.2.wait with
    | .regroup p _ _ => p == pc
    | _ => false))
  isort (fun a b => match a.2.wait, b.2.wait with
    | .regroup _ n _, .regroup _ m _ => n ≤ m
    | _, _ => true) l

/-- A fence of the threads of some groups enters the accesses in flight (04_memory_model.md R94) (DEDUCED, log 17). -/
def fenceOf (ser : Nat) (g : Gid) (x : Group) (cmd : CmdId) (sc : Scope) (m : Mask) : MemOp :=
  ⟨ser, g, cmd, x.bid, .fence, sc, true, true, 256, 0, .dev, .none,
    (lanesOf m).map (fun l => ⟨l, x.homeSlot g l, 0, 0, 0, 0, .need⟩)⟩

/-- An access in flight. -/
def State.pushOp (s : State) (o : Nat → MemOp) : State :=
  { s with thr := { s.thr with ops := s.thr.ops ++ [o s.thr.serial], serial := s.thr.serial + 1 } }

/-- The repack of some groups of one core, in ascending slot order. The groups wait until the fences of their threads are over
(04_memory_model.md R94). A lane that receives no thread keeps its entry of the IRT (DESIGN CHOICE, log 83). -/
def State.repackGroups (s : State) (l : List (Gid × Group)) (cmd : CmdId) : State :=
  let homes := (List.range 32).map (fun lane =>
    (l.filter (fun e => e.2.live.getLsbD lane)).map (fun e => e.2.homeSlot e.1 lane))
  let s := l.foldl (fun s e => s.pushOp (fun n => fenceOf n e.1 e.2 cmd .blk e.2.live)) s
  let s := l.foldl (fun s e => (lanesOf e.2.live).foldl (fun s lane =>
    s.modGroup ⟨e.1.core, e.2.homeSlot e.1 lane⟩ (fun h => { h with rg := lset h.rg lane (satTo 0xFFFFFFFF (h.rg.getD lane 0 + 1)) })) s) s
  (l.zipIdx).foldl (fun s (e, j) =>
    let live : Mask := (List.range 32).foldl (fun m lane => if j < (homes.getD lane []).length then m ||| laneBit lane else m) 0
    s.modGroup e.1 (fun x =>
      if live == 0 then { x with live := 0, active := 0, gone := true, wait := .ready }
      else { x with
        live := live, active := live, stack := [], wait := .repack, pc := Config.nextPc x.pc
        irt := (List.range 32).map (fun lane => ((homes.getD lane [])[j]?).getD (x.homeSlot e.1 lane)) })) s

/-- The point's first eight groups are repacked (DEDUCED, log 22). -/
def State.repack (s : State) (bid : Nat) (pc : Pc) : State :=
  match s.block bid with
  | none => s
  | some b =>
    let l := isort (fun a b => a.1.slot ≤ b.1.slot) ((s.atPoint bid pc).take 8)
    if l.isEmpty then s else (s.repackGroups l b.cmd).tallyCtx b.core b.cmd.ctx 0x043 1

/-- A point is full: 8 groups wait, or every remaining group of the block does. -/
def State.pointFull (s : State) (bid : Nat) (pc : Pc) : Bool :=
  let n := (s.atPoint bid pc).length
  n != 0 && (8 ≤ n || n == (s.remaining bid).length)

/-- The regroup points of a block that are full are repacked: after an arrival or the end of a group (DEDUCED, log 22). -/
def State.evalPoints (s : State) (bid : Nat) : State :=
  let pcs := ((s.remaining bid).filterMap (fun e => match e.2.wait with
    | .regroup p _ _ => some p
    | _ => none)).dedup
  pcs.foldl (fun s pc => if s.pointFull bid pc then s.repack bid pc else s) s

/-! ### Barriers (R72, R73) -/

/-- A group has arrived at a barrier: it waits there, and the accesses before its arrival are performed (04_memory_model.md
R94). -/
def State.arrived (s : State) (w : GWait) (e : Gid × Group) : Bool :=
  e.2.wait == w && !s.thr.ops.any (fun o => o.op == AccOp.fence && e.2.inOp e.1 o)

/-- Groups released. -/
def State.release (s : State) (l : List (Gid × Group)) : State :=
  l.foldl (fun s e => s.modGroup e.1 (fun x => { x with wait := .ready })) s

/-- The block barriers of a block that have completed. -/
def State.evalBlockBars (s : State) (bid : Nat) : State :=
  (List.range 16).foldl (fun s id =>
    let l := s.remaining bid
    if !l.isEmpty && l.all (s.arrived (.bar id)) then s.release l else s) s

/-- The remaining groups of a cohort (R73) (DEDUCED, log 19). -/
def State.cohortGroups (s : State) (cmd : CmdId) (k : Nat × Nat) : List (Gid × Group) :=
  ((s.thr.blocks.filter (fun e => e.2.cmd == cmd && e.2.cohort == some k)).map (fun e => e.1)).flatMap s.remaining

/-- The cluster barriers of a cohort that have completed. -/
def State.evalCohort (s : State) (cmd : CmdId) (k : Nat × Nat) : State :=
  (List.range 4).foldl (fun s id =>
    let l := s.cohortGroups cmd k
    if !l.isEmpty && l.all (fun e => e.2.wait == .cbar id) then s.release l else s) s

/-- The cluster barriers of a block that has no cohort: the block alone. -/
def State.evalSolo (s : State) (bid : Nat) : State :=
  (List.range 4).foldl (fun s id =>
    let l := s.remaining bid
    if !l.isEmpty && l.all (fun e => e.2.wait == .cbar id) then s.release l else s) s

/-- Repacked groups go on once the fences of their threads are over. -/
def State.evalRepacked (s : State) (bid : Nat) : State := s.release ((s.remaining bid).filter (s.arrived .repack))

/-- Everything that an arrival, the end of a group or a performed access may complete in a block. -/
def State.evalBlock (s : State) (bid : Nat) : State :=
  match s.block bid with
  | none => s
  | some b =>
    let s := ((s.evalPoints bid).evalRepacked bid).evalBlockBars bid
    match b.cohort with
    | none => s.evalSolo bid
    | some k => s.evalCohort b.cmd k

/-! ### The end of a block (R62, R84) -/

/-- A QENQ of a group is with its clerk: it holds the group, and no lock operation does (R77; 13_command_submission.md R282). -/
def State.qenqOut (s : State) (g : Gid) (x : Group) : Bool :=
  x.wait == .mem && !s.thr.ops.any (fun o => x.inOp g o && (o.op == .lock || o.op == .unlock))

/-- Work that a block's threads started inside the core is over: what writes registers, QENQs among it, scratch accesses, matrix
work. -/
def State.blockQuiet (s : State) (bid : Nat) : Bool :=
  s.thr.groups.all (fun e => e.2.bid != bid || !s.qenqOut e.1 e.2)
  && s.thr.ops.all (fun o => o.bid != bid || (o.rd == 256 && o.sp == .dev && (match o.op with
    | .st => true
    | .red _ _ => true
    | .fence => true
    | _ => false)))
  && s.mx.eng.all (fun e => e.2.bid != bid ||
      (e.2.queue.isEmpty && e.2.feeder.isNone && e.2.array.isEmpty && e.2.side.isNone))

/-- A block's slots, pages, scratch and engines are freed and it counts as ended; its cohort may go on without it. -/
def State.freeBlock (s : State) (bid : Nat) (b : Block) : State :=
  let s := { s with
    thr := { s.thr with
      blocks := adel s.thr.blocks bid
      groups := s.thr.groups.filter (fun e => e.2.bid != bid)
      ops := s.thr.ops.filter (fun o => !(o.bid == bid && o.op == AccOp.fence)) }
    mx := { s.mx with eng := s.mx.eng.filter (fun e => e.2.bid != bid) } }
  let s := s.modCmd b.cmd (fun c => { c with ended := c.ended + 1 })
  match b.cohort with
  | none => s
  | some k => s.evalCohort b.cmd k

/-- BLOCK_END (R62): every thread has exited and the block's work in the core is over. -/
def State.blockEnd (s : State) (bid : Nat) : State :=
  match s.block bid with
  | none => s
  | some b => if (s.remaining bid).isEmpty && s.blockQuiet bid && !b.trapped then s.freeBlock bid b else s

/-- TRAPPED_BLOCK_END (R84 step 5): a halted block is quiet, and no debugger holds a group of it (21_debug.md R423). -/
def State.trappedEnd (s : State) (bid : Nat) : State :=
  match s.block bid with
  | none => s
  | some b =>
    if b.trapped && s.blockQuiet bid && s.thr.groups.all (fun e => e.2.bid != bid || e.2.halt == 0) then s.freeBlock bid b else s

end Sys2Proof.Machine
end

