-- ==== Sys2Proof/Machine/MemOps.lean ====
section
/-! DEFINITION. Accesses in flight (04_memory_model.md, 09_caches.md R189-R201, 11_translation.md R233-R249): how one lane's
access is translated, waits, and is performed. Rows that bring a translation or a line call `State.retryOps`. -/

namespace Sys2Proof.Machine

open Sys2Proof

/-! ### Operations -/

/-- The permissions an operation needs, as ACCESS bits (Table 11.4) (DEDUCED, log 16). -/
def AccOp.access : AccOp → Nat
  | .ld => accRead
  | .st => accWrite
  | .red _ _ => accRed
  | _ => accAtomic

/-- ATOM operations in order of Table 4.4. -/
abbrev aAdd : Nat := 0
abbrev aMin : Nat := 1
abbrev aMax : Nat := 2
abbrev aAnd : Nat := 3
abbrev aOr : Nat := 4
abbrev aXor : Nat := 5
abbrev aExch : Nat := 6
abbrev aCas : Nat := 7

/-- Bits of a type. -/
def atomBits : AtomTy → Nat
  | .int64 | .uint64 | .b64 => 64
  | _ => 32

/-- Types that Table 4.4 lists for an operation. -/
def atomLegal (op : Nat) : AtomTy → Bool
  | .f32 => op == aAdd
  | .b32 => aAnd ≤ op
  | .b64 => aAnd ≤ op
  | _ => op ≤ aMax

/-- Atomics that the T-die supports on host memory (04_memory_model.md R96) (DEDUCED, log 26). -/
def atomHost (op : Nat) (ty : AtomTy) : Bool := (op == aAdd && ty != .f32) || op == aExch || op == aCas

/-- New value of an atomic, Table 4.4; none leaves the old one. -/
def atomNew (md : ArMode) (op : Nat) (ty : AtomTy) (old a b : Nat) : Option Nat :=
  let w := atomBits ty
  let signed := ty == AtomTy.int32 || ty == AtomTy.int64
  let lt := fun (x y : Nat) => if signed then sInt w x < sInt w y else x < y
  if op = aAdd then
    if ty = AtomTy.f32 then some (fadd md (BitVec.ofNat 32 old) (BitVec.ofNat 32 a)).toNat else some ((old + a) % 2 ^ w)
  else if op = aMin then some (if lt a old then a else old)
  else if op = aMax then some (if lt old a then a else old)
  else if op = aAnd then some (old &&& a)
  else if op = aOr then some (old ||| a)
  else if op = aXor then some (old ^^^ a)
  else if op = aExch then some a
  else if old = a then some b else none

/-- What an operation writes, from the old value. -/
def AccOp.new (md : ArMode) (o : AccOp) (old a b : Nat) : Option Nat :=
  match o with
  | .st => some a
  | .atom op ty => atomNew md op ty old a b
  | .red op ty => some (redUpdate md op ty old a)
  | .lock => if old = 0 then some a else none
  | .unlock => if old = a then some 0 else none
  | _ => none

/-- The arithmetic mode of a launch. -/
def Cmd.mode (c : Cmd) : ArMode := ⟨c.strict, c.sat, c.mxfp4⟩

/-- A lane has its value. -/
def LanePh.isDone : LanePh → Bool
  | .done _ => true
  | _ => false

/-- Two ranges of bytes overlap. -/
def overlaps (a n b m : Nat) : Bool := a < b + m && b < a + n

/-- Two addresses of a context name the same bytes: they overlap, or their pages map one physical page (04_memory_model.md
R89: a location is a place in memory). While the place of one is not known, as of a host page that the HTU has not answered or
a page whose walk faults, they may (DEDUCED, log 17). -/
def State.sameBytes (s : State) (die c a n b m : Nat) : Bool :=
  overlaps a n b m || (overlaps (a % 4096) n (b % 4096) m && (match s.placeOf die c a, s.placeOf die c b with
    | some p, some q => p.1 == q.1 && overlaps p.2 n q.2 m
    | _, _ => true))

/-- A lane's access may be performed: no earlier access of its thread that is not yet done is an acquire, precedes a release,
or touches the same bytes (04_memory_model.md R89, R92) (DEDUCED, log 17). -/
def State.mayPerform (s : State) (o : MemOp) (l : LaneAcc) : Bool :=
  s.thr.ops.all (fun p => !(p.ser < o.ser && p.g.core == o.g.core) || p.lanes.all (fun m =>
    !(m.lane == l.lane && m.home == l.home) || m.ph.isDone
    || (!p.acq && !o.rel && !(p.sp == o.sp && (if o.sp == .dev
      then s.sameBytes (o.g.core / 128) o.cmd.ctx m.va p.size l.va o.size else overlaps m.va p.size l.va o.size)))))

/-- A lane's turn: an LKG.ENTER tries its lanes one after the other (03_thread_execution.md R77). -/
def MemOp.turn (o : MemOp) (l : LaneAcc) : Bool := o.op != .lock || o.lanes.all (fun m => l.lane ≤ m.lane || m.ph.isDone)

/-- An acquire that applies invalidations (Table 4.3) (DEDUCED, log 17). -/
def MemOp.acqDev (o : MemOp) : Bool := o.acq && o.sp == .dev && (o.sc == .dev || o.sc == .sys)

/-- The phase of one lane's access set, by its key. -/
def State.setLane (s : State) (ser key : Nat) (ph : LanePh) : State :=
  { s with thr := { s.thr with ops := s.thr.ops.map (fun o =>
    if o.ser == ser then { o with lanes := o.lanes.map (fun l => if l.key == key then { l with ph := ph } else l) } else o) } }

/-- An access meets a poisoned line: recorded when it completes, the lowest code of all it meets (13_command_submission.md R286);
a lock operation of one lane completes with that lane. -/
def State.meet (s : State) (o : MemOp) (p : Poison) : State :=
  if o.op == .lock || o.op == .unlock then s.failCmd o.cmd p.status
  else { s with thr := { s.thr with ops := s.thr.ops.map (fun x => if x.ser == o.ser then { x with bad := x.bad.worse p } else x) } }

/-- An access leaves the list. -/
def State.delOp (s : State) (ser : Nat) : State := { s with thr := { s.thr with ops := s.thr.ops.filter (fun o => o.ser != ser) } }

/-! ### LKG (R77-R79) -/

/-- LKG.ENTER has its lock in one lane: the lane alone is active. -/
def State.lockWon (s : State) (o : MemOp) (lane : Nat) : State :=
  (s.delOp o.ser).modGroup o.g (fun x =>
    { x with active := laneBit lane, wait := .ready, lastLen := 0, pc := Config.nextPc x.pc })

/-- No lane has it: the group waits, 64 cycles at first, twice as long each time, at most 4,096. -/
def State.lockLost (s : State) (o : MemOp) : State :=
  (s.delOp o.ser).modGroup o.g (fun x =>
    let len := if x.lastLen = 0 then 64 else min 4096 (2 * x.lastLen)
    { x with wait := .backoff len, lastLen := len })

/-- The masks after LKG.EXIT of a lane: the next lanes' turn at the LKG.ENTER, or the section's end. -/
def Group.leaveLock (x : Group) (lanes : Mask) : Group :=
  match x.stack with
  | [] => x
  | e :: r =>
    let p := e.pset &&& ~~~lanes
    if p != 0 then { x with stack := { e with pset := p } :: r, active := p, pc := e.pc, wait := .ready }
    else { x with stack := r, active := e.mask, pc := Config.nextPc x.pc, wait := .ready }

/-- A lock operation of one lane is performed on a word. -/
def State.settleLock (s : State) (o : MemOp) (l : LaneAcc) (old : Nat) : State :=
  let trap := fun (s : State) => ((s.delOp o.ser).modGroup o.g (fun x => { x with wait := .ready })).trap o.g tLockOwner l.lane
  if o.op == .lock then
    if old = 0 then (if o.acqDev then s.applyInvs o.g.core else s).lockWon o l.lane
    else if old = l.a then trap s
    else if o.lanes.all (fun m => m.lane == l.lane || m.ph.isDone) then s.lockLost o
    else s.setLane o.ser l.key (.done old)
  else if old = l.a then (s.delOp o.ser).modGroup o.g (fun x => x.leaveLock (laneBit l.lane))
  else trap s

/-- A lane's access is performed with a value (DEDUCED, log 16). -/
def State.settle (s : State) (o : MemOp) (l : LaneAcc) (v : Nat) : State :=
  if o.op == .lock || o.op == .unlock then s.settleLock o l v
  else
    let s := if o.acqDev then s.applyInvs o.g.core else s
    (if o.op == .fence && o.acqDev then s.freshen o.g.core else s).setLane o.ser l.key (.done v)

/-! ### Where an access is performed -/

/-- In scratch, by the load/store unit (09_caches.md R189; 04_memory_model.md R96). -/
def State.doScr (s : State) (o : MemOp) (l : LaneAcc) (md : ArMode) : State :=
  match s.block o.bid with
  | none => s
  | some b =>
    let old := s.rdScr b l.va o.size
    let s := if b.scrAddr l.va == none then s.tallyCtx o.g.core o.cmd.ctx 0x036 1 else s
    let s := match o.op.new md old l.a l.b with
      | some v => s.wrScr b l.va (leBytes o.size v)
      | none => s
    s.settle o l old

/-- In T-die memory over UCIe (04_memory_model.md R96) (DEDUCED, log 26). An acquire waits as one on a stack line does (R209). -/
def State.doHost (s : State) (o : MemOp) (l : LaneAcc) (md : ArMode) (a : Nat) : State :=
  if o.acqDev && s.invBlocked o.g.core then s else
  let s := s.useLink (o.g.core / 128)
  let old := leNat ((List.range o.size).map (fun i => s.rdHost (a + i)))
  let s := if o.op.access == accAtomic then s.send (.htuAtomic (s.viaDie (o.g.core / 128)) a) else s
  let s := match o.op.new md old l.a l.b with
    | some v => s.wrHost a (leBytes o.size v)
    | none => s
  s.settle o l old

/-- A poisoned line: a failing condition of the command; a value read is a free value (08_berim_stacks.md R168, R169)
(DEDUCED, log 55). -/
def State.poisoned (s : State) (o : MemOp) (l : LaneAcc) (p : Poison) : State :=
  (s.meet o p).settle o l (s.freeVal (1100 + l.key) (8 * o.size))

/-- An access uses a line, once for its lanes of one 128-byte segment (09_caches.md R191). The access that the line's fill
served is no hit (20_tally_and_ledger.md R402). -/
def State.touch (s : State) (o : MemOp) (l : LaneAcc) (a : Nat) : State :=
  let core := o.g.core
  if o.lanes.any (fun m => m.va / 128 == l.va / 128 && m.ph.isDone) then s
  else if (s.l1 core (a / 128)).any (fun x => x.fresh) then s.useL1 core (a / 128)
  else (s.useL1 core (a / 128)).tallyCtx core o.cmd.ctx 0x032 1

/-- A load at the L1 (Table 10.2): it hits, or asks for the line. A line sent an Inv serves what it held (R211). Whether a load
carries the streaming hint is the Corpin toolchain's: a free value (09_caches.md R197) (DEDUCED, log 16). -/
def State.doLoad (s : State) (o : MemOp) (l : LaneAcc) (a : Nat) : State :=
  let core := o.g.core
  if o.acqDev && s.invBlocked core then s
  else
    let s := if o.acqDev then s.applyInvs core else s
    match s.l1 core (a / 128) with
    | none =>
      let t := s.wantLoad core (a / 128) (s.freeVal 1302 1 == 1)
      if (t.l1 core (a / 128)).isSome then t.tallyCtx core o.cmd.ctx 0x033 1 else s
    | some x =>
      if !x.st.loads then s
      else
        let s := s.touch o l a
        match x.old with
        | some d => s.settle o l (bitsOf d.toNat (8 * (a % 128)) (8 * o.size))
        | none =>
          if s.kindIn (core / 8) (a / 128) != .none then s.poisoned o l (s.kindIn (core / 8) (a / 128))
          else s.settle o l (s.rdNat (s.ctxKey o.cmd.ctx) a o.size)

/-- The streams of a core after a store miss on a line, and whether the line continues an active one (09_caches.md R200). -/
def State.streamMiss (s : State) (core ln : Nat) : State × Bool :=
  let l := (aget s.thr.streams core).getD []
  let put := fun (l : List Stream) =>
    { s with thr := { s.thr with streams := aput s.thr.streams core l, serial := s.thr.serial + 1 } }
  match l.find? (fun x => x.next == ln) with
  | some x => (put (l.map (fun y => if y.next == ln then ⟨ln + 1, y.len + 1, s.thr.serial⟩ else y)), 16 ≤ x.len)
  | none =>
    if l.length < 4 then (put (l ++ [⟨ln + 1, 1, s.thr.serial⟩]), false)
    else
      let old := l.foldl (fun m x => min m x.last) s.thr.serial
      (put (l.map (fun y => if y.last == old then ⟨ln + 1, 1, s.thr.serial⟩ else y)), false)

/-- A store that needs the line in M: what it asks for, and whether the line is in M now. A miss counts, and extends a stream,
when it takes a way. -/
def State.needM (s : State) (core c ln : Nat) (store : Bool) : State × Bool :=
  let st := s.l1St core ln
  if st == .M then (s, true)
  else
    let miss := st == .I || st == .Z || st == .S
    let (t, stream) := if store && (st == .I || st == .Z) then s.streamMiss core ln else (s, false)
    let t := t.wantStore core ln stream
    if miss && t.l1St core ln == st then (s, false)
    else (if miss then t.tallyCtx core c 0x033 1 else t, t.l1St core ln == .M)

/-- The lanes of an access in one line of virtual addresses. -/
def MemOp.inLine (o : MemOp) (va : Nat) : List LaneAcc := o.lanes.filter (fun m => m.va / 128 == va / 128)

/-- The bytes that some lanes store to one line. -/
def lineOf (ls : List LaneAcc) (n : Nat) : BitVec 128 × Line :=
  ls.foldl (fun (m, d) l =>
    (m ||| BitVec.ofNat 128 ((2 ^ n - 1) * 2 ^ (l.va % 128)),
      BitVec.ofNat 1024 (insNat d.toNat (8 * (l.va % 128)) (8 * n) l.a))) (0, 0)

/-- A store that writes all of the next line of an active stream goes to the home, which finds no copy of the cluster's (R200,
R201; 10_coherence.md R222); it waits while its cluster has the line under way. -/
def State.streamStore (s : State) (o : MemOp) (l : LaneAcc) (a : Nat) : Option State :=
  let core := o.g.core
  let ls := o.inLine l.va
  let (mask, data) := lineOf ls o.size
  if ((aget s.thr.streams core).getD []).any (fun x => x.next == a / 128 && 16 ≤ x.len)
      && mask == BitVec.allOnes 128 && ls.all (fun m => m.ph == .need && s.mayPerform o m) then
    match s.giveUp (core / 8) (a / 128) (some core) with
    | none => some s
    | some s =>
      let (s, _) := s.streamMiss core (a / 128)
      let s := (s.sendB ⟨.wrF, core / 8, a / 128, 3, false, s.ctxKey o.cmd.ctx, mask, data, [], o.ser, .none⟩).tallyCc (core / 8) 0x105 3
      some (ls.foldl (fun s m => s.setLane o.ser m.key (.sent (a / 128))) s)
  else none

/-- Bytes that a lane writes in a line its core holds in M; the cluster cache keeps what it had (05_matrix_engines.md R115). -/
def State.putL1 (s : State) (o : MemOp) (a v : Nat) : State :=
  let key := s.ctxKey o.cmd.ctx
  (s.keepStale (o.g.core / 8) key (a / 128)).wrCached key a (leBytes o.size v)

/-- A store, atomic or lock operation on a line held in M: on a poisoned line it is not applied (09_caches.md R195). -/
def State.doWrite (s : State) (o : MemOp) (l : LaneAcc) (md : ArMode) (a : Nat) : State :=
  let s := s.touch o l a
  if s.kindIn (o.g.core / 8) (a / 128) != .none then s.poisoned o l (s.kindIn (o.g.core / 8) (a / 128))
  else
    let old := s.rdNat (s.ctxKey o.cmd.ctx) a o.size
    let s := match o.op.new md old l.a l.b with
      | some v => s.putL1 o a v
      | none => s
    s.settle o l old

/-- A store whose lanes write all 128 bytes of a line that its core holds in M: its kind is none after it (09_caches.md R195).
None where the lanes do not. -/
def State.lineStore (s : State) (o : MemOp) (l : LaneAcc) (a : Nat) : Option State :=
  let ls := o.inLine l.va
  if (lineOf ls o.size).1 == BitVec.allOnes 128 && ls.all (fun m => m.ph == .need && s.mayPerform o m) then
    let cl := o.g.core / 8
    let s := s.touch o l a
    let s := match s.ccLine cl (a / 128) with
      | some x => s.setCc cl (a / 128) { x with pk := .none }
      | none => s
    some (ls.foldl (fun s m => (s.putL1 o (128 * (a / 128) + m.va % 128) m.a).settle o m 0) s)
  else none

/-- A RED: its lanes of one line go as one request (08_berim_stacks.md R181), once the cluster has given up its own copy
(R183). -/
def State.doRed (s : State) (o : MemOp) (l : LaneAcc) (c : Cmd) (op : RedOp) (ty : RedTy) (a : Nat) : State :=
  match s.giveUp (o.g.core / 8) (a / 128) (some o.g.core) with
  | none => s
  | some s =>
    let ls := (o.inLine l.va).filter (fun m => m.ph == .need && s.mayPerform o m)
    let key := s.ctxKey o.cmd.ctx
    let us := ls.map (fun m => RedUpd.mk (a / 128) (m.va % 128) op ty (BitVec.ofNat 32 m.a) key c.strict (some o.cmd))
    let s := (s.sendB ⟨.redU, o.g.core / 8, a / 128, 3, false, key, 0, 0, us, o.ser, .none⟩).tallyCtx o.g.core o.cmd.ctx 0x035 1
    ls.foldl (fun s m => s.setLane o.ser m.key (.sent (a / 128))) s

/-- The other half of a 16-byte access has been performed, and a message for the line is on its way: whether this half waits
for it is open (04_memory_model.md R88) (DEDUCED, log 16). -/
def State.torn (s : State) (o : MemOp) (l : LaneAcc) (a : Nat) : Bool :=
  o.lanes.any (fun m => m.lane == l.lane && m.half != l.half && m.ph.isDone)
  && s.coh.am.any (fun m => m.1 == o.g.core && m.2.1 == a / 128) && s.freeVal 1301 1 == 1

/-- An access to a stack line. -/
def State.doDev (s : State) (o : MemOp) (l : LaneAcc) (c : Cmd) (a : Nat) : State :=
  if s.torn o l a then s else
  match o.op with
  | .ld => s.doLoad o l a
  | .red op ty => s.doRed o l c op ty a
  | .st =>
    match s.streamStore o l a with
    | some s => s
    | none =>
      match s.needM o.g.core o.cmd.ctx (a / 128) true with
      | (s, true) => (s.lineStore o l a).getD (s.doWrite o l c.mode a)
      | (s, false) => s
  | _ =>
    if o.acqDev && s.invBlocked o.g.core then s
    else match s.needM o.g.core o.cmd.ctx (a / 128) false with
      | (s, true) => s.doWrite o l c.mode a
      | (s, false) => s

/-- A lane's access faults: it waits on a quire, or stalls on a full blotter (11_translation.md R244, R249). -/
def State.faultLane (s : State) (o : MemOp) (l : LaneAcc) (cause level : Nat) : State :=
  match s.blotFault o.cmd.ctx l.va cause level o.op.access (thrSrc o.g.core o.cmd) with
  | (s, some q) => s.setLane o.ser l.key (.quire q cause)
  | (s, none) => s.setLane o.ser l.key (.stalled cause level)

/-- One lane of an access is tried: translated, and performed where order and the caches allow it. -/
def State.tryLane (s : State) (ser key : Nat) : State :=
  match s.thr.ops.find? (fun o => o.ser == ser) with
  | none => s
  | some o =>
    match o.lanes.find? (fun l => l.key == key), s.cmdOf o.cmd with
    | some l, some c =>
      if l.ph != .need || !o.turn l then s
      else if o.op == .fence then
        if !s.mayPerform o l || (o.acqDev && s.invBlocked o.g.core) then s else s.settle o l 0
      else match o.sp with
        | .scr => if s.mayPerform o l then s.doScr o l c.mode else s
        | .dev =>
          match s.xlateThread o.g.core o.cmd.ctx l.va o.op.access o.cmd with
          | (s, .walk) => s
          | (s, .off) => s.xltOff o.cmd.ctx o.cmd
          | (s, .fault ca lv) => s.faultLane o l ca lv
          | (s, .host a lv) =>
            let bad := match o.op with
              | .red _ _ => true
              | .atom op ty => !atomHost op ty
              | _ => false
            if bad then s.faultLane o l caHostOp lv
            else if s.mayPerform o l then s.doHost o l c.mode a else s
          | (s, .pa a) => if s.mayPerform o l then s.doDev o l c a else s
    | _, _ => s

/-- An access whose lanes are all done writes its destination registers and ends; bits of a register above a narrow load are
free values. -/
def State.retire (s : State) (ser : Nat) : State :=
  match s.thr.ops.find? (fun o => o.ser == ser) with
  | none => s
  | some o =>
    if !o.lanes.all (fun l => l.ph.isDone) then s
    else
      let word := fun (s : State) (l : LaneAcc) (v i : Nat) =>
        if o.size < 4 then v + s.freeVal (1200 + l.key) (32 - 8 * o.size) * 2 ^ (8 * o.size) else v / 2 ^ (32 * i)
      let s := if o.rd = 256 then s
        else (o.lanes.foldl (fun s l => match l.ph with
          | .done v => (List.range (max 1 (o.size / 4))).foldl (fun s i =>
            s.setHomeReg o.g.core l.home (o.rd + 2 * l.half + i) l.lane (BitVec.ofNat 32 (word s l v i))) s
          | _ => s) s).bump
      ((s.delOp ser).failCmd o.cmd o.bad.status).evalBlock o.bid

/-- Every access in flight of a core is tried, in order. -/
def State.retryOps (s : State) (core : Nat) : State :=
  (s.coreOps core).foldl (fun s o => ((o.lanes.map (fun l => l.key)).foldl (fun s l => s.tryLane o.ser l) s).retire o.ser) s

/-- Accesses of every core of a die. -/
def State.retryDie (s : State) (die : Nat) : State :=
  (((s.thr.ops.filter (fun o => o.g.core / 128 == die)).map (fun o => o.g.core)).dedup).foldl State.retryOps s

/-! ### Issue of an access -/

/-- Entries of the load/store unit that hold an instruction (R190). -/
def State.lsuHeld (s : State) (core : Nat) : Nat :=
  ((s.coreOps core).filter (fun o => o.op != .fence && o.lanes.any (fun l => match l.ph with
    | .done _ => false
    | .sent _ => false
    | _ => true))).length

/-- A clean line of an L1 with a parity error is dropped and counted (Table 9.2). -/
def State.cleanL1 (s : State) (core ln : Nat) (x : L1Line) : State :=
  ((s.evictL1 core ln).incSat F.CC_ECNT_CLEAN (core / 8)).ccLog (core / 8) ln x.way (core % 8) 1 false

/-- The line that a miss of `ln` evicts from its L1 has a parity error (Table 9.2). -/
def State.victimL1 (s : State) (core ln : Nat) : State :=
  if s.l1St core ln != .I then s
  else match s.l1Way core (ln % 128) with
    | some (_, some v) =>
      (match s.l1 core v with
      | some x => if x.st == .M then s.dirtyError (core / 8) v x.way (core % 8) 1 else s.cleanL1 core v x
      | none => s)
    | _ => s

/-- What the checks found on an issue (09_caches.md R206; 17_fault_tolerance.md R342-R345): whether the instruction goes on.
`a` is the physical address of its first lane where its micro TLB has it. -/
def State.foundAt (s : State) (g : Gid) (x : Group) (b : Block) (a : Option Nat) : Found → State × Bool
  | .none => (s, true)
  | .pipe => s.checkIssue g x b true .pipe
  | .rfUe => s.checkIssue g x b true .rfUe
  | .coreCtl => s.checkIssue g x b true .coreCtl
  | .clusterCtl => s.checkIssue g x b true .clusterCtl
  | .scratch => ((s.failCmd b.cmd stPoison).ccLog (g.core / 8) 0 0 (g.core % 8) 5 false, true)
  | .clean =>
    match a with
    | none => (s, true)
    | some a =>
      match s.l1 g.core (a / 128) with
      | none => (s, true)
      | some x =>
        if x.st == .S || x.st == .Z || x.st == .E then (s.cleanL1 g.core (a / 128) x, true) else (s, true)
  | .victim => (match a with
    | none => s
    | some a => s.victimL1 g.core (a / 128), true)
  | _ =>
    match a with
    | none => (s, true)
    | some a =>
      match s.l1 g.core (a / 128) with
      | none => (s, true)
      | some x => if x.st.stable then (s.dirtyError (g.core / 8) (a / 128) x.way (g.core % 8) 1, true) else (s, true)

/-- What a row found in the L1 or scratch, or what their check is to find next (DESIGN CHOICE, log 93). -/
def State.l1Found (s : State) (core : Nat) (found : Found) : Found × State :=
  if found != .none then (found, s) else (s.takeFind (.l1 core)).getD (.none, s)

/-- The accesses of an instruction: a lane's 16 bytes are two accesses of 8, in no defined order (R88) (DEDUCED, log 16). -/
def State.halves (s : State) (size : Nat) (ls : List LaneAcc) : List LaneAcc :=
  if size ≤ 8 then ls
  else ls.flatMap (fun l =>
    let lo := { l with a := l.a % 2 ^ 64 }
    let hi := { l with half := 1, va := l.va + 8, a := l.a / 2 ^ 64 }
    if s.freeVal 1300 1 == 1 then [hi, lo] else [lo, hi])

/-- An access instruction issues (R64, R88): watchpoints, alignment, then its lanes enter the load/store unit. `f` gives a
lane's address and operands; `kr`, `kw` its kind for watchpoints (DEDUCED, log 18). -/
def State.access (s : State) (g : Gid) (bad : Bool) (regs : List Nat) (op : AccOp) (sc : Scope) (acq rel : Bool)
    (rd size : Nat) (sp : Space) (kr kw : Bool) (found : Found) (f : State → Group → Nat → Nat × Nat × Nat) : State :=
  s.issue g bad regs (fun s x b _ =>
    if 16 ≤ s.lsuHeld g.core then (s.lsuRefuses g).tallyG g 0x031 1
    else
      let lanes := (lanesOf x.active).map (fun l =>
        let (va, a, c) := f s x l
        LaneAcc.mk l (x.homeSlot g l) 0 va a c .need)
      match if sp == .dev then s.watchAt b.cmd.ctx kr kw size (lanes.map (fun l => l.va)) else none with
      | some n => s.matchHalt g x b.cmd.ctx 4 n
      | none =>
        if lanes.any (fun l => l.va % size != 0) then s.trapNow g true tMisalign 0
        else
          let a := match sp, lanes.head? with
            | .dev, some l => (s.tlbHit (.micro g.core) b.cmd.ctx l.va).map (fun t => t.ppn * 4096 + (l.va - t.vpn * 4096))
            | _, _ => none
          let (found, s) := s.l1Found g.core found
          match s.foundAt g x b a found with
          | (s, false) => s
          | (s, true) =>
            if (s.group g).isNone then s
            else
              let s := (s.issued g true true).goOn g
              let s := if op.access == accAtomic then s.tallyG g 0x034 1 else s
              (s.pushOp (fun n => ⟨n, g, b.cmd, x.bid, op, sc, acq, rel, rd, min size 8, sp, .none,
                s.halves size lanes⟩)).retryOps g.core)

/-- Registers that hold an address of a space: a pair in device space, one offset in scratch (DEDUCED, log 15). -/
def addrRegs (sp : Space) (ra : Nat) : List Nat :=
  match sp with
  | .dev => [ra, ra + 1]
  | .scr => [ra]

/-- A lane's address (DEDUCED, log 15). -/
def State.laneAddr (s : State) (g : Gid) (x : Group) (sp : Space) (ra l : Nat) : Nat :=
  match sp with
  | .dev => s.getRegs g x ra 2 l
  | .scr => s.getRegs g x ra 1 l

/-- `n` registers from `r` on (DEDUCED, log 16). -/
def regRun (r n : Nat) : List Nat := (List.range n).map (fun i => r + i)

/-- Registers of a value of `size` bytes. -/
def wordsOf (size : Nat) : Nat := max 1 (size / 4)

/-- Sizes of an access (R88). -/
def sizeOk (n : Nat) : Bool := n == 1 || n == 2 || n == 4 || n == 8 || n == 16

/-- A load (R88, R92). -/
def State.load (s : State) (g : Gid) (sc : Scope) (acq : Bool) (rd ra size : Nat) (sp : Space) (found : Found) : State :=
  s.access g (!sizeOk size) (regRun rd (wordsOf size) ++ addrRegs sp ra) .ld sc acq false rd size sp true false found
    (fun s x l => (s.laneAddr g x sp ra l, 0, 0))

/-- A store (R88, R92). -/
def State.store (s : State) (g : Gid) (sc : Scope) (rel : Bool) (ra rs size : Nat) (sp : Space) (found : Found) : State :=
  s.access g (!sizeOk size) (regRun rs (wordsOf size) ++ addrRegs sp ra) .st sc false rel 256 size sp false true found
    (fun s x l => (s.laneAddr g x sp ra l, s.getRegs g x rs (wordsOf size) l % 2 ^ (8 * size), 0))

/-- An ATOM (R92, R95). -/
def State.atom (s : State) (g : Gid) (op : Nat) (ty : AtomTy) (ord : MemOrd) (sc : Scope) (sp : Space) (rd ra rs : Nat)
    (rt : Option Nat) : State :=
  let n := atomBits ty / 32
  let t := match rt with
    | some r => regRun r n
    | none => []
  (s.access g (!atomLegal op ty) (regRun rd n ++ addrRegs sp ra ++ regRun rs n ++ t) (.atom op ty) sc (ord == .acq || ord == .ar)
    (ord == .rel || ord == .ar) rd (4 * n) sp true true .none
    (fun s x l => (s.laneAddr g x sp ra l, s.getRegs g x rs n l, match rt with | some r => s.getRegs g x r n l | none => 0)))

/-- A RED (08_berim_stacks.md R179). -/
def State.redOp (s : State) (g : Gid) (op : RedOp) (ty : RedTy) (sp : Space) (ra rs : Nat) : State :=
  s.access g false (rs :: addrRegs sp ra) (.red op ty) .grp false false 256 (redBytes ty) sp false true .none
    (fun s x l => (s.laneAddr g x sp ra l, (s.getReg g x rs l).toNat % 2 ^ (8 * redBytes ty), 0))

/-- FENCE and FENCE.SC (R92): no later access of a thread is performed before its earlier ones. -/
def State.fenceOp (s : State) (g : Gid) (sc : Scope) : State :=
  s.issue g false [] (fun s x b _ =>
    (((s.issued g true true).goOn g).pushOp (fun n => fenceOf n g x b.cmd sc x.active)).retryOps g.core)

end Sys2Proof.Machine
end

