-- ==== Sys2Proof/Machine/Coherence.lean ====
section
/-! DEFINITION. The rows of 10_coherence.md, and those of 09_caches.md: each takes one message that is on its way. A row for
which no such message is on its way changes nothing. RDDATA and WRACK for a UCIe host module are in HostIf.lean. -/

namespace Sys2Proof.Machine

open Sys2Proof

/-! ### Level A: requests at the cluster cache (Table 10.3) -/

/-- A cluster-cache line may take a request: it waits on nothing (10_coherence.md R212). -/
def State.ccFree (s : State) (cl ln : Nat) : Bool :=
  match s.ccLine cl ln with
  | none => true
  | some x => x.cur.isNone && x.snoop.isNone && x.wait == CcWait.none && (x.st == .S || x.st == .O)

/-- The request of a core for a line, where it is the first for that line in its cluster and may be taken. -/
def State.takeA (s : State) (core ln : Nat) (p : AReq → Bool) : Option (State × AReq) :=
  match s.coh.aq.find? (fun e => e.1 / 8 == core / 8 && e.2.1 == ln) with
  | none => none
  | some e =>
    if e.1 == core && p e.2.2 && s.ccFree (core / 8) ln then
      some (({ s with coh := { s.coh with aq := s.coh.aq.erase e } }).pathGrant core 0, e.2.2)
    else none

/-- The line that a fill of `ln` evicts has a parity error (Table 9.2). -/
def State.ccVictim (s : State) (cl ln : Nat) : State :=
  match s.ccPick cl ln 3 with
  | .evict _ v _ _ => s.ccCheck cl v (if s.ccDirty cl v then .dirty else .clean)
  | _ => s

/-- A line allocated for a request of class 3 in state I, with the request in hand; none while no way is free or the cluster's
own write of the line is under way. -/
def State.allocCc (s : State) (core ln : Nat) (q : AReq) : Option State :=
  let cl := core / 8
  if s.ownWrite cl ln then none
  else match s.ccWay cl ln 3 with
  | none => none
  | some (s, w) =>
    let stream := match s.l1 core ln with
      | some x => x.stream
      | none => false
    some (({ s with coh := { s.coh with vwait := s.coh.vwait.erase (cl, ln) } }.ccFilled cl 3 (if stream then 3 else 2)).setCc cl ln
      ⟨.I, false, 0, none, w, if stream then 3 else 2, 3, some (core, q), .none, none, false, .none, none, false⟩)

/-- A request for data is handled: GetS, GetM or Upg. -/
def State.askCc (s0 : State) (core ln : Nat) (found : Found) (p : AReq → Bool) : State :=
  let cl := core / 8
  match s0.takeA core ln p with
  | none => s0
  | some (s, q) =>
    let s := if found == .victim then (if (s.ccLine cl ln).isNone then s.ccVictim cl ln else s) else s.ccFound cl ln found
    match s.ccLine cl ln with
    | none =>
      match s.allocCc core ln (if q == .upg then .getM else q) with
      | none => s0.fillWaits cl ln 3
      | some s => (s.tallyCc cl 0x101 3).serveCc cl ln
    | some x =>
      let s := s.tallyCc cl 0x101 3
      let q := if q == .upg && !x.pres.getLsbD (core % 8) then .getM else q
      if q == .getS then ((s.hitCc cl ln).setCc cl ln { x with age := 0, fresh := false, cur := some (core, q) }).serveCc cl ln
      else
        let keep : BitVec 8 := (1#8 <<< (core % 8)) ||| (match x.own with
          | some j => 1#8 <<< (j % 8)
          | none => 0)
        let s := s.sendInvs cl ln (x.pres &&& ~~~keep) none
        (s.setCc cl ln { x with age := 0, fresh := false, pres := x.pres &&& keep, cur := some (core, q) }).serveCc cl ln

/-- PutE and PutM are taken: the owner's data marks the line modified, and PutAck is sent. -/
def State.putCc (s : State) (core ln : Nat) (q : AReq) : State :=
  let cl := core / 8
  match s.takeA core ln (· == q) with
  | none => s
  | some (s, _) =>
    let s := s.ccFound cl ln .none
    let s := match s.ccLine cl ln with
      | none => s
      | some x =>
        let mine := x.own == some core
        s.setCc cl ln { x with
          dirty := x.dirty || (mine && q == AReq.putM)
          stale := if mine then none else x.stale
          own := if mine then none else x.own
          pres := x.pres &&& ~~~(1#8 <<< (core % 8)) }
    s.msgA core ln .putAck

/-- RDATA: an L1's answer to Recall or Down reaches its cluster cache. -/
def State.takeRdata (s : State) (core ln : Nat) : State :=
  match s.coh.ar.find? (fun e => e.1 == core && e.2.1 == ln) with
  | none => s
  | some e =>
    let s := { s with coh := { s.coh with ar := s.coh.ar.erase e } }
    match s.ccLine (core / 8) ln with
    | none => s
    | some x => s.gotRdata (core / 8) ln x core e.2.2

/-! ### Level A: messages at an L1 (Table 10.2) -/

/-- The first message in a core's channel, where it is this one (10_coherence.md R209). -/
def State.takeMsg (s : State) (core ln : Nat) (m : AMsg) : Option State :=
  match s.coh.am.find? (fun e => e.1 == core) with
  | none => none
  | some e => if e == (core, ln, m) then some { s with coh := { s.coh with am := s.coh.am.erase e } } else none

/-- An Rdata. -/
def State.sendRdata (s : State) (core ln : Nat) (dirty : Bool) : State :=
  { s with coh := { s.coh with ar := s.coh.ar ++ [(core, ln, dirty)] } }

/-- The effect of a message on a line of an L1; none is a message that the protocol never delivers in this state. -/
def State.l1Msg (s : State) (core ln : Nat) (x : L1Line) : AMsg → Option State
  | .dataS => if x.st == .IR then some (s.setL1 core ln { x with st := .S }) else none
  | .dataE => if x.st == .IR then some (s.setL1 core ln { x with st := .E, old := none }) else none
  | .dataM => if x.st == .IM then some (s.setL1 core ln { x with st := .M, old := none }) else none
  | .grant => if x.st == .SM then some (s.setL1 core ln { x with st := .M, old := none }) else none
  | .putAck => if x.st == .WI then some (s.delL1 core ln) else none
  | .inv =>
    match x.st with
    | .S => some (s.setL1 core ln { x with st := .Z })
    | .Z => some s
    | .IR => some s
    | .IM => some s
    | .SM => some (s.setL1 core ln { x with st := .IM, old := none })
    | _ => none
  | .recall =>
    match x.st with
    | .E => some ((s.delL1 core ln).sendRdata core ln false)
    | .M => some ((s.delL1 core ln).sendRdata core ln true)
    | .WI => some (s.sendRdata core ln (s.coh.aq.contains (core, ln, .putM)))
    | _ => none
  | .down =>
    match x.st with
    | .E => some ((s.setL1 core ln { x with st := .S }).sendRdata core ln false)
    | .M => some ((s.setL1 core ln { x with st := .S }).sendRdata core ln true)
    | .WI => some (s.sendRdata core ln (s.coh.aq.contains (core, ln, .putM)))
    | _ => none

/-- A demand of level A reads the line: a parity error of a modified line is a dirty error, one of a clean line drops it, and
the demand is answered as by a clean copy (09_caches.md R206) (DESIGN CHOICE, log 93). -/
def State.l1Demand (s : State) (core ln : Nat) (m : AMsg) : State :=
  if m != .recall && m != .down then s
  else match s.takeFind (.l1 core), s.l1 core ln with
    | some (_, s), some x =>
      if x.st == .M then s.dirtyError (core / 8) ln x.way (core % 8) 1
      else if x.st == .E then (s.incSat F.CC_ECNT_CLEAN (core / 8)).ccLog (core / 8) ln x.way (core % 8) 1 false
      else s
    | _, _ => s

/-- A message is taken by an L1; the accesses that waited for it go on. -/
def State.deliverA (s : State) (core ln : Nat) (m : AMsg) : State :=
  match s.takeMsg core ln m with
  | none => s
  | some s =>
    let s := s.l1Demand core ln m
    match s.l1 core ln with
    | none => if m == .inv || ((m == .recall || m == .down) && (s.ccLine (core / 8) ln).isNone) then s
      else s.dirtyError (core / 8) ln 0 (core % 8) 1
    | some x =>
      match s.l1Msg core ln x m with
      | none => s.dirtyError (core / 8) ln x.way (core % 8) 1
      | some s => s.retryOps core

/-- Z_LINE_EXPIRE (10_coherence.md R211). -/
def State.zExpire (s : State) (core ln : Nat) : State := if s.l1St core ln == .Z then s.delL1 core ln else s

/-! ### Level B: requests at a home -/

/-- A UCIe host module's accesses are performed one after the other, in arrival order (04_memory_model.md R98): a request of
its is taken only while none is in progress. -/
def State.hostTurn (s : State) (m : BMsg) : Bool :=
  m.r < 64 || 72 ≤ m.r || ((s.coh.txns ++ s.coh.queued).all (fun t => t.msg.r != m.r)
    && s.coh.bn.all (fun n => !n.isOf m.r) && (m.credit || s.coh.want.all (fun w => w.r != m.r))
    && s.coh.bq.find? (fun x => x.r == m.r) == some m)

/-- A request in flight reaches its home. -/
def State.takeB (s : State) (q : BReq) (r ln : Nat) : State :=
  match s.coh.bq.find? (fun m => m.req == q && m.r == r && m.line == ln) with
  | none => s
  | some m => if s.hostTurn m then ({ s with coh := { s.coh with bq := s.coh.bq.erase m } }).arriveB m else s

/-- A message of level B other than a request is taken. -/
def State.takeN (s : State) (n : BNote) : Option State :=
  if s.coh.bn.contains n then some { s with coh := { s.coh with bn := s.coh.bn.erase n } } else none

/-- The transaction of a line. -/
def State.txnOf (s : State) (ln : Nat) : Option Txn := s.coh.txns.find? (fun t => t.msg.line == ln)

/-- WBM reaches its home (10_coherence.md R219). The new owner's WbM may overtake the old owner's SnAck: it is held until that
has arrived (DEDUCED, log 24). -/
def State.takeWbM (s : State) (c ln : Nat) : State :=
  match s.takeN (.wbM c ln) with
  | none => s
  | some s =>
    match s.txnOf ln with
    | some t =>
      if t.snoops.any (fun x => x.1 == c || (x.2 == .fwdX && t.msg.r == c)) then
        { s with coh := { s.coh with held := s.coh.held ++ [(c, ln)] } }
      else if t.again then (s.applyWb c ln).restart t
      else if (s.dirOf ln).any (fun d => d.own == some c) then s.applyWb c ln
      else s.protoErrHome ln c
    | none => if (s.dirOf ln).any (fun d => d.own == some c) then (s.applyWb c ln).pumpAll else s.protoErrHome ln c

/-- A reply that a home no longer waits for: it is discarded where a timer has ended its transaction (R223) (DEDUCED, log 24). -/
def State.lateReply (s : State) (c ln : Nat) : State :=
  if s.coh.late.contains (c, ln) then { s with coh := { s.coh with late := s.coh.late.erase (c, ln) } } else s.protoErrHome ln c

/-- DONE reaches its home. -/
def State.takeDone (s : State) (r ln : Nat) : State :=
  match s.takeN (.done r ln) with
  | none => s
  | some s =>
    match s.txnOf ln with
    | some t => if t.needDone == some r then (s.setTxn { t with needDone := none }).advance ln else s.lateReply r ln
    | none => s.lateReply r ln

/-- A snoop's reply ends its part of a transaction: what the directory records (Table 10.6), then the transaction goes on. A
line that was forwarded to an agent declared dead is lost (R226). -/
def State.snoopDone (s : State) (t : Txn) (c : Nat) (k : Snoop) : State :=
  let ln := t.msg.line
  let ctl := match s.dirOf ln with
    | some d => d.ctl
    | none => false
  let s := s.setTxn { t with snoops := t.snoops.filter (fun x => x.1 != c) }
  let s := match k with
    | .inv => s
    | .fwdX =>
      if t.gone then s.loseLine t.msg.r ln else
      let s := s.setDir ln ⟨0, some t.msg.r, ctl, false⟩
      if s.coh.held.contains (t.msg.r, ln) then
        { s with coh := { s.coh with held := s.coh.held.erase (t.msg.r, ln) } }.applyWb t.msg.r ln
      else s
    | .fwdS => s.setDir ln ⟨(1#64 <<< c) ||| (if t.msg.req == BReq.rdS && !t.gone then 1#64 <<< t.msg.r else 0), none, ctl, false⟩
    | .rcl => if t.evict then s else s.delDir ln
  s.advance ln

/-- A snoop reply that is neither SnMiss nor SnWb: the data of one with data goes to the stack (Table 10.6). -/
def State.ackArrived (s : State) (c ln : Nat) (pk : Option Poison) (ok : Snoop → Bool) : State :=
  match s.txnOf ln with
  | none => s.lateReply c ln
  | some t =>
    match t.snoops.find? (fun x => x.1 == c) with
    | none => s.lateReply c ln
    | some (_, k) =>
      if !ok k then s.protoErrHome ln c
      else (match pk with
        | some p => (s.storeLine ln p).stkWrote ln
        | none => s).snoopDone t c k

/-- SnAck reaches the home. -/
def State.takeSnAck (s : State) (c ln : Nat) : State :=
  match s.takeN (.snAck c ln) with
  | none => s
  | some s => s.ackArrived c ln none (fun k => k == .inv || k == .fwdX)

/-- SnAckD reaches the home. -/
def State.takeSnAckD (s : State) (c ln : Nat) : State :=
  match s.coh.bn.find? (fun n => match n with
    | .snAckD c' ln' _ => c' == c && ln' == ln
    | _ => false) with
  | some (.snAckD c' ln' pk) =>
    { s with coh := { s.coh with bn := s.coh.bn.erase (.snAckD c' ln' pk) } }.ackArrived c ln (some pk)
      (fun (k : Snoop) => k == Snoop.fwdS || k == Snoop.rcl)
  | _ => s

/-- SnMiss and SnWb reach the home: the row starts again with the line U, after the owner's WbM where one is on its way. -/
def State.takeMiss (s : State) (n : BNote) (c ln : Nat) (wb : Bool) : State :=
  match s.takeN n with
  | none => s
  | some s =>
    match s.txnOf ln with
    | none => s.lateReply c ln
    | some t =>
      match t.snoops.find? (fun x => x.1 == c) with
      | none => s.lateReply c ln
      | some (_, k) =>
        if k == .inv then s.protoErrHome ln c
        else if !wb then s.restart t
        else if s.coh.held.contains (c, ln) then
          ({ s with coh := { s.coh with held := s.coh.held.erase (c, ln) } }.applyWb c ln).restart t
        else s.setTxn { t with snoops := t.snoops.filter (fun x => x.1 != c), again := true }

/-! ### Level B: messages at a cluster cache (Table 10.7) -/

/-- Another line of the set still holds the way with its write-back (09_caches.md R202). -/
def State.wayHeld (s : State) (c ln : Nat) (x : CcLine) : Bool :=
  s.coh.cc.any (fun e => e.1.unit == c && e.1.line != ln && ccSet e.1.line == ccSet ln && e.2.way == x.way && e.2.st == .OIb
    && !e.2.victim)

/-- The poison kind that a message with data or a grant brings to a cluster's line. -/
def BNote.kindFor (c ln : Nat) (k : Snoop ⊕ Nat) : BNote → Option Poison
  | .datS c' ln' pk => if k == .inr 0 && c' == c && ln' == ln then some pk else none
  | .datX c' ln' pk => if k == .inr 1 && c' == c && ln' == ln then some pk else none
  | .gntX c' ln' pk => if k == .inr 2 && c' == c && ln' == ln then some pk else none
  | .fwdS c' ln' pk => if k == .inl Snoop.fwdS && c' == c && ln' == ln then some pk else none
  | .fwdX c' ln' pk => if k == .inl Snoop.fwdX && c' == c && ln' == ln then some pk else none
  | _ => none

/-- Data or a grant arrives: `ok` are the states it may find, `st` the new one. Done is sent in the same cycle (DEDUCED, log
23). -/
def State.takeData (s0 : State) (k : Snoop ⊕ Nat) (c ln : Nat) (ok : BSt → Bool) (st : BSt) (dirty : Bool) : State :=
  match s0.coh.bn.find? (fun n => (n.kindFor c ln k).isSome) with
  | none => s0
  | some n =>
    let s := { s0 with coh := { s0.coh with bn := s0.coh.bn.erase n } }
    match s.ccLine c ln with
    | none => s.protoErr c ln 0
    | some x =>
      if !ok x.st then s.protoErr c ln 0
      else if s.wayHeld c ln x then s0
      else
        let pk := (n.kindFor c ln k).getD .none
        ((s.setCc c ln { x with
          st := st, dirty := dirty, wait := .none, pk := if x.st == .SXb && pk == .none then x.pk else pk }).note (.done c ln)).serveCc c ln

/-- WBACK: the write-back is acknowledged (R205, R346). -/
def State.takeWbAck (s : State) (c ln : Nat) : State :=
  match s.takeN (.wbAck c ln) with
  | none => s
  | some s =>
    match s.ccLine c ln with
    | some x =>
      if x.st != .OIb then s.protoErr c ln 0
      else
        let s := s.delCc c ln
        ((if s.coh.flush.contains c then s.flushMore c else s).flushOver c).flushEnd c
    | none => if s.on F.REC_CNT_QUAR c then s else s.protoErr c ln 0

/-- WRACK: the lanes of the access that the write or update served are done, or an engine's write is. -/
def State.takeWrAck (s : State) (r ln : Nat) : State × Option (Poison × Nat) :=
  match s.coh.bn.find? (fun n => match n with
    | .wrAck r' ln' _ _ => r' == r && ln' == ln
    | _ => false) with
  | some (.wrAck r' ln' p op) =>
    let s := { s with coh := { s.coh with bn := s.coh.bn.erase (.wrAck r' ln' p op) } }
    match s.thr.ops.find? (fun o => o.ser == op) with
    | none => if r < 64 then (s.engineAck op p, none) else (s, some (p, op))
    | some o =>
      let s := (s.meet o p).dropOld o.g.core ln
      let s := o.lanes.foldl (fun s l => if l.ph == .sent ln then s.setLane op l.key (.done 0) else s) s
      (((s.retire op).retryOps o.g.core), some (p, op))
  | _ => (s, none)

/-- A request that was refused goes again with a credit, as the line's state now calls for (R221). -/
def State.useCredit (s : State) (m : BMsg) : State :=
  let now := match s.ccLine m.r m.line with
    | some x => if m.req == .upX && x.st == .IXb then BReq.rdX else m.req
    | none => m.req
  { s with coh := { s.coh with bq := { m with req := now, credit := true } :: s.coh.bq } }

/-- A credit that overtook its Retry is used. -/
def State.dropCredit (s : State) (r h : Nat) : State := { s with coh := { s.coh with cred := s.coh.cred.erase (r, h) } }

/-- RETRY reaches the requester: it holds the request, or sends it again with the credit that came first (R221). -/
def State.takeRetry (s : State) (r h : Nat) : State :=
  match s.coh.bn.find? (fun n => match n with
    | .retry m h' => m.r == r && h' == h
    | _ => false) with
  | some (.retry m h') =>
    let s := if r < 64 then s.tallyCc r 0x107 m.cls else s
    let s := { s with coh := { s.coh with bn := s.coh.bn.erase (.retry m h') } }
    if s.coh.cred.contains (r, h) then (s.useCredit m).dropCredit r h
    else { s with coh := { s.coh with want := s.coh.want ++ [m] } }
  | _ => s

/-- CRGNT reaches the requester: the held request goes with the credit; what else it held for the home follows. A credit that
overtakes its Retry is kept for it; one for a request that was discarded goes back to the home (DEDUCED, log 24). -/
def State.takeCredit (s : State) (r h : Nat) : State :=
  match s.takeN (.crGnt r h) with
  | none => s
  | some s =>
    let mine := s.coh.want.filter (fun m => m.r == r && homeOf m.line == h)
    let rest := s.coh.want.filter (fun m => !(m.r == r && homeOf m.line == h))
    match mine with
    | [] =>
      if s.coh.bn.any (fun n => match n with
        | .retry m h' => m.r == r && h' == h
        | _ => false) then { s with coh := { s.coh with cred := s.coh.cred ++ [(r, h)] } }
      else
        let s := { s with coh := { s.coh with aside := s.coh.aside.filter (fun a => !(a.1 == h && a.2.1 == r)) } }
        (s.grantCredit h).pumpAll
    | m :: more => { s with coh := { s.coh with want := rest, bq := s.coh.bq ++ more } }.useCredit m

/-- SNINV at a cluster cache. -/
def State.takeSnInv (s : State) (c ln : Nat) (found : Found) : State :=
  match s.takeN (.sn .inv c ln 84) with
  | none => s
  | some s =>
    let s := (s.tallyCc c 0x106 3).ccFound c ln found
    match s.ccLine c ln with
    | none => s.note (.snAck c ln)
    | some x =>
      match x.st with
      | .S => (((s.sendInvs c ln x.pres none).delCc c ln)).note (.snAck c ln)
      | .SXb =>
        let cur := x.cur.map (fun (k, _) => (k, AReq.getM))
        ((s.sendInvs c ln x.pres none).setCc c ln { x with st := .IXb, pres := 0, cur := cur }).note (.snAck c ln)
      | .O => s.protoErr c ln 0
      | .OIb => s.protoErr c ln 0
      | _ => s.note (.snAck c ln)

/-- SNFWDS, SNFWDX and SNRCL at a cluster cache: the line's L1 owner returns its data first. -/
def State.takeSnoop (s : State) (k : Snoop) (c ln : Nat) : State :=
  match s.coh.bn.find? (fun n => match n with
    | .sn k' c' ln' _ => k' == k && c' == c && ln' == ln
    | _ => false) with
  | some (.sn k' c' ln' rcv) =>
    let s := { s with coh := { s.coh with bn := s.coh.bn.erase (.sn k' c' ln' rcv) } }.tallyCc c 0x106 3
    let s := s.ccFound c ln .none
    match s.ccLine c ln with
    | none => s.note (.snMiss c ln)
    | some x =>
      match x.st with
      | .S => s.protoErr c ln 0
      | .SXb => s.protoErr c ln 0
      | .OIb => s.note (.snWb c ln)
      | .O =>
        match x.own with
        | none => s.answerSnoop c ln x k rcv
        | some j =>
          if x.wait == CcWait.down || x.wait == CcWait.recall then s.setCc c ln { x with snoop := some (k, rcv) }
          else
            let down := k == .fwdS
            (s.setCc c ln { x with snoop := some (k, rcv), wait := if down then .down else .recall }).msgA j ln
              (if down then .down else .recall)
      | _ => s.note (.snMiss c ln)
  | _ => s

/-! ### Timers, dead agents and reclaim (R223-R226) -/

/-- A transaction of a timed line ends: its requester gets poisoned data, or WrAck of a write that is not applied, and the
line is U (R223). A requester whose forward is on its way, or has come, gets no other data, and holds the line as POISON
(DEDUCED, log 24). -/
def State.endPoisoned (s : State) (t : Txn) : State :=
  let m := t.msg
  let fwd := s.coh.bn.any (fun n => (n.kindFor m.r m.line (.inl .fwdS)).isSome || (n.kindFor m.r m.line (.inl .fwdX)).isSome)
  let had := (s.dirOf m.line).any (fun d => d.own.isNone && d.sharers.getLsbD m.r)
  let s := s.delDir m.line
  let ended := { t with snoops := [], needDone := none, replied := true }
  if t.evict || t.gone || (t.replied && !fwd && t.needDone.isNone) then (s.setTxn ended).advance m.line
  else if fwd then s.setTxn { ended with needDone := t.needDone }
  else match m.req with
  | .rdS | .rdX => (s.note (.datX m.r m.line .poison)).setTxn { ended with needDone := some m.r }
  | .upX => (s.note (if had then .gntX m.r m.line .poison else .datX m.r m.line .poison)).setTxn { ended with needDone := some m.r }
  | .rdN => ((s.note (s.readB m)).setTxn ended).advance m.line
  | .redU => (s.setTxn { ended with msg := { m with pk := .poison } }).advance m.line
  | _ => ((s.note (.wrAck m.r m.line .none m.op)).setTxn ended).advance m.line

/-- Snoops of a line that are no longer awaited name the home as receiver: an answer to one brings no data to the requester. -/
def State.forgetSnoops (s : State) (ln : Nat) : State :=
  { s with coh := { s.coh with
    bn := s.coh.bn.map (fun n => match n with
      | .sn k c l r => .sn k c l (if l = ln then 84 else r)
      | n => n)
    cc := s.coh.cc.map (fun e => if e.1.line == ln then (e.1, { e.2 with snoop := e.2.snoop.map (fun q => (q.1, 84)) }) else e) } }

/-- HOME_TIMER_EXPIRE: a snoop or a Done of an agent is overdue (DEDUCED, log 24). -/
def State.homeTimer (s : State) (ln a : Nat) : State :=
  match s.txnOf ln with
  | none => s
  | some t =>
    let snoop := t.snoops.any (fun x => x.1 == a)
    if !snoop && t.needDone != some a then s
    else
      let h := homeOf ln
      let s := s.incSat F.HS_CNT_TMO h
      if (s.dirOf ln).any (fun d => d.ctl) then
        let s := ((s.poisonLine ln).forgetSnoops ln).hsLog ln a true false
        let s := { s with coh := { s.coh with late := s.coh.late ++ t.snoops.map (fun (x : Nat × Snoop) => (x.1, ln)) ++
          (match snoop, t.needDone with
            | false, some r => [(r, ln)]
            | _, _ => []) } }
        if snoop then s.endPoisoned t
        else ((s.delDir ln).setTxn { t with snoops := [], needDone := none, replied := true }).advance ln
      else
        let s := (s.hsLog ln a false false).raise (0x080 + h)
        if a < 64 then s.quarantine a fHomeTmo else s

/-- RECLAIM_DONE: one home has reclaimed an agent's lines; after the last home, lost lines abort the contexts of the
partition that owns the cluster (17_fault_tolerance.md R349), and the cluster is switched off. -/
def State.reclaimDone (s : State) (h a : Nat) : State :=
  if !s.coh.reclaim.contains (h, a) then s
  else
    let s := s.reclaimHome h a
    if s.coh.reclaim.any (fun e => e.2 == a) || 64 ≤ a then s
    else
      let n := (aget s.rcv.lost a).getD 0
      let s := { s with rcv := { s.rcv with lost := adel s.rcv.lost a, wb := s.rcv.wb.erase a } }
      let cs := if n = 0 then [] else s.liveOf (s.clusterPart a)
      let m := s.startedOf cs
      let s := s.modRec 2 a (fun r => { r with lost := n, failed := r.failed + m, aborted := ctxMask cs })
      let s := if n = 0 then s else s.lossAborts stLost cs
      s.clusterOff a

/-! ### 09 -/

/-- STREAM_END (09_caches.md R200): a stream ends. -/
def State.streamEnd (s : State) (core idx : Nat) : State :=
  match aget s.thr.streams core with
  | none => s
  | some l => { s with thr := { s.thr with streams := aput s.thr.streams core (l.eraseIdx idx) } }

/-- VICTIM_DRAIN (09_caches.md R203): the oldest entry of a victim cache that is not on its way drains to its home, with up to
8 in flight. -/
def State.victimDrain (s : State) (cl ln : Nat) : State :=
  match s.ccLine cl ln with
  | none => s
  | some x =>
    if !s.vcNext cl ln || s.inTransit cl ln x || 8 ≤ s.wbOut cl (homeOf ln) then s
    else
      let s := s.ccFound cl ln .none
      match s.ccLine cl ln with
      | none => s
      | some x =>
      let (s, _) := s.takeBack cl ln x
      ((s.setCc cl ln { x with st := .OIb, pres := 0, own := none, stale := none }).note (.wbM cl ln)).tallyCc cl 0x103 x.cls

/-! ### The dies that a message crosses (01_five_levels.md R21; 19_power_and_clocks.md R386) -/

/-- The die of an agent of level B (10_coherence.md R214). -/
def agentDie (r : Nat) : Nat := if r < 64 then r / 16 else if r < 72 then (r - 64) / 2 else (r - 72) / 3

/-- The dies that a message from one die to another crosses: a diagonal pair's passes the die whose index is its sender's with
bit 0 inverted (R21). -/
def crossed (a b : Nat) : List Nat := if a ^^^ b == 3 then [a, a ^^^ 1, b] else [a, b]

/-- The agent and the home of a message of level B. -/
def BNote.between : BNote → Nat × Nat
  | .wbM c l | .done c l | .datS c l _ | .datX c l _ | .gntX c l _ | .fwdS c l _ | .fwdX c l _ | .rdData c l _ _ _ | .wrAck c l _ _
  | .wbAck c l | .sn _ c l _ | .snAck c l | .snAckD c l _ | .snMiss c l | .snWb c l => (c, homeOf l)
  | .retry m h => (m.r, h)
  | .crGnt r h => (r, h)

/-- A message of level B between an agent and a home, to the home or from it, arrives: where the network-on-chip clock of a
die on its way is stopped, it waits, and starts the clock (R386) (DEDUCED, log 50). -/
def State.crossing (s : State) (r h : Nat) (toHome : Bool) (f : State → State) : State :=
  let ds := if toHome then crossed (agentDie r) (h / 4) else crossed (h / 4) (agentDie r)
  if ds.all (fun d => !s.on F.INT_ISL_STOPPED d) then f s
  else if s.coh.bq.any (fun m => m.r == r && homeOf m.line == h) || s.coh.bn.any (fun n => n.between == (r, h)) then s.wakeDies ds
  else s

/-! ### The rows -/

/-- GETS (R212). -/
def execGets (core ln : Nat) (found : Found) (s : State) : Host.Outcome State Fault Refusal :=
  .next (s.askCc core ln found (· == .getS))
/-- GETM (R212). -/
def execGetm (core ln : Nat) (found : Found) (s : State) : Host.Outcome State Fault Refusal :=
  .next (s.askCc core ln found (· == .getM))
/-- UPG (R212). -/
def execUpg (core ln : Nat) (s : State) : Host.Outcome State Fault Refusal := .next (s.askCc core ln .none (· == .upg))
/-- PUTE (R212). -/
def execPute (core ln : Nat) (s : State) : Host.Outcome State Fault Refusal := .next (s.putCc core ln .putE)
/-- PUTM (R212). -/
def execPutm (core ln : Nat) (s : State) : Host.Outcome State Fault Refusal := .next (s.putCc core ln .putM)
/-- RDATA (R212). -/
def execRdata (core ln : Nat) (s : State) : Host.Outcome State Fault Refusal := .next (s.takeRdata core ln)
/-- DATAS (R210). -/
def execDatas (core ln : Nat) (s : State) : Host.Outcome State Fault Refusal := .next (s.deliverA core ln .dataS)
/-- DATAE (R210). -/
def execDatae (core ln : Nat) (s : State) : Host.Outcome State Fault Refusal := .next (s.deliverA core ln .dataE)
/-- DATAM (R210). -/
def execDatam (core ln : Nat) (s : State) : Host.Outcome State Fault Refusal := .next (s.deliverA core ln .dataM)
/-- GRANT (R210). -/
def execGrant (core ln : Nat) (s : State) : Host.Outcome State Fault Refusal := .next (s.deliverA core ln .grant)
/-- PUTACK (R210). -/
def execPutack (core ln : Nat) (s : State) : Host.Outcome State Fault Refusal := .next (s.deliverA core ln .putAck)
/-- INV (R210). -/
def execInv (core ln : Nat) (s : State) : Host.Outcome State Fault Refusal := .next (s.deliverA core ln .inv)
/-- RECALL (R209, R210). -/
def execRecall (core ln : Nat) (s : State) : Host.Outcome State Fault Refusal := .next (s.deliverA core ln .recall)
/-- DOWN (R209, R210). -/
def execDown (core ln : Nat) (s : State) : Host.Outcome State Fault Refusal := .next (s.deliverA core ln .down)
/-- Z_LINE_EXPIRE (R211). -/
def execZLineExpire (core ln : Nat) (s : State) : Host.Outcome State Fault Refusal := .next (s.zExpire core ln)
/-- RDS (R217). -/
def execRds (r ln : Nat) (s : State) : Host.Outcome State Fault Refusal :=
  .next (s.crossing r (homeOf ln) true (fun s => s.takeB .rdS r ln))
/-- RDX (R217). -/
def execRdx (r ln : Nat) (s : State) : Host.Outcome State Fault Refusal :=
  .next (s.crossing r (homeOf ln) true (fun s => s.takeB .rdX r ln))
/-- UPX (R217). -/
def execUpx (r ln : Nat) (s : State) : Host.Outcome State Fault Refusal :=
  .next (s.crossing r (homeOf ln) true (fun s => s.takeB .upX r ln))
/-- RDN (R217, R222). -/
def execRdn (r ln : Nat) (s : State) : Host.Outcome State Fault Refusal :=
  .next (s.crossing r (homeOf ln) true (fun s => s.takeB .rdN r ln))
/-- WBM (R219). -/
def execWbm (r ln : Nat) (s : State) : Host.Outcome State Fault Refusal :=
  .next (s.crossing r (homeOf ln) true (fun s => s.takeWbM r ln))
/-- WRF (R217, R222). -/
def execWrf (r ln : Nat) (s : State) : Host.Outcome State Fault Refusal :=
  .next (s.crossing r (homeOf ln) true (fun s => s.takeB .wrF r ln))
/-- WRP (R217, R222). -/
def execWrp (r ln : Nat) (s : State) : Host.Outcome State Fault Refusal :=
  .next (s.crossing r (homeOf ln) true (fun s => s.takeB .wrP r ln))
/-- REDU (R217, R222). -/
def execRedu (r ln : Nat) (s : State) : Host.Outcome State Fault Refusal :=
  .next (s.crossing r (homeOf ln) true (fun s => s.takeB .redU r ln))
/-- DONE (R217). -/
def execDone (r ln : Nat) (s : State) : Host.Outcome State Fault Refusal :=
  .next (s.crossing r (homeOf ln) true (fun s => s.takeDone r ln))
/-- DATS (R218). -/
def execDats (c ln : Nat) (s : State) : Host.Outcome State Fault Refusal :=
  .next (s.crossing c (homeOf ln) false (fun s => s.takeData (.inr 0) c ln (· == .ISb) .S false))
/-- DATX (R218). -/
def execDatx (c ln : Nat) (s : State) : Host.Outcome State Fault Refusal :=
  .next (s.crossing c (homeOf ln) false (fun s => s.takeData (.inr 1) c ln (fun t => t == .ISb || t == .IXb) .O false))
/-- GNTX (R218). -/
def execGntx (c ln : Nat) (s : State) : Host.Outcome State Fault Refusal :=
  .next (s.crossing c (homeOf ln) false (fun s => s.takeData (.inr 2) c ln (· == .SXb) .O false))
/-- FWDS (R218). -/
def execFwds (c ln : Nat) (s : State) : Host.Outcome State Fault Refusal :=
  .next (s.crossing c (homeOf ln) false (fun s => s.takeData (.inl .fwdS) c ln (· == .ISb) .S false))
/-- FWDX (R218): the line comes from an owner, and counts as modified. -/
def execFwdx (c ln : Nat) (s : State) : Host.Outcome State Fault Refusal :=
  .next (s.crossing c (homeOf ln) false (fun s => s.takeData (.inl .fwdX) c ln (fun t => t == .ISb || t == .IXb) .O true))
/-- WBACK (R218, R219). -/
def execWback (c ln : Nat) (s : State) : Host.Outcome State Fault Refusal :=
  .next (s.crossing c (homeOf ln) false (fun s => s.takeWbAck c ln))
/-- RETRY (R221). -/
def execRetry (r h : Nat) (s : State) : Host.Outcome State Fault Refusal :=
  .next (s.crossing r h false (fun s => s.takeRetry r h))
/-- CRGNT (R221). -/
def execCrgnt (r h : Nat) (s : State) : Host.Outcome State Fault Refusal :=
  .next (s.crossing r h false (fun s => s.takeCredit r h))
/-- SNINV (R218, 09_caches.md R207). -/
def execSninv (c ln : Nat) (found : Found) (s : State) : Host.Outcome State Fault Refusal :=
  .next (s.crossing c (homeOf ln) false (fun s => s.takeSnInv c ln found))
/-- SNFWDS (R218). -/
def execSnfwds (c ln : Nat) (s : State) : Host.Outcome State Fault Refusal :=
  .next (s.crossing c (homeOf ln) false (fun s => s.takeSnoop .fwdS c ln))
/-- SNFWDX (R218). -/
def execSnfwdx (c ln : Nat) (s : State) : Host.Outcome State Fault Refusal :=
  .next (s.crossing c (homeOf ln) false (fun s => s.takeSnoop .fwdX c ln))
/-- SNRCL (R218). -/
def execSnrcl (c ln : Nat) (s : State) : Host.Outcome State Fault Refusal :=
  .next (s.crossing c (homeOf ln) false (fun s => s.takeSnoop .rcl c ln))
/-- SNACK (R217). -/
def execSnack (c ln : Nat) (s : State) : Host.Outcome State Fault Refusal :=
  .next (s.crossing c (homeOf ln) true (fun s => s.takeSnAck c ln))
/-- SNACKD (R217). -/
def execSnackd (c ln : Nat) (s : State) : Host.Outcome State Fault Refusal :=
  .next (s.crossing c (homeOf ln) true (fun s => s.takeSnAckD c ln))
/-- SNMISS (R217). -/
def execSnmiss (c ln : Nat) (s : State) : Host.Outcome State Fault Refusal :=
  .next (s.crossing c (homeOf ln) true (fun s => s.takeMiss (.snMiss c ln) c ln false))
/-- SNWB (R217, R219). -/
def execSnwb (c ln : Nat) (s : State) : Host.Outcome State Fault Refusal :=
  .next (s.crossing c (homeOf ln) true (fun s => s.takeMiss (.snWb c ln) c ln true))
/-- HOME_TIMER_EXPIRE (R223, R224). -/
def execHomeTimerExpire (ln a : Nat) (s : State) : Host.Outcome State Fault Refusal := .next (s.homeTimer ln a)
/-- AGENT_DEAD_SET (R225). -/
def execAgentDeadSet (a : Nat) (s : State) : Host.Outcome State Fault Refusal := .next (s.setDead a)
/-- RECLAIM_DONE (R226; 17_fault_tolerance.md R349). -/
def execReclaimDone (h a : Nat) (s : State) : Host.Outcome State Fault Refusal := .next (s.reclaimDone h a)
/-- STREAM_END (09_caches.md R200). -/
def execStreamEnd (core idx : Nat) (s : State) : Host.Outcome State Fault Refusal := .next (s.streamEnd core idx)
/-- VICTIM_DRAIN (09_caches.md R203). -/
def execVictimDrain (cl ln : Nat) (s : State) : Host.Outcome State Fault Refusal := .next (s.victimDrain cl ln)

end Sys2Proof.Machine
end

