-- ==== Sys2Proof/Machine/Fabric.lean ====
section
/-! DEFINITION. The Yorin fabric (16_yorin_fabric.md): flits and link retry, port states, routing, peer transfers, stamps. RESET
packets are in Reset.lean; the sending of a COPY begins in Copy.lean. -/

namespace Sys2Proof.Machine

open Sys2Proof

/-! ### Flits (R322, Table 16.2) -/

/-- One byte into the CRC-64 of ECMA-182, most significant bit first. -/
def crcByte (c : W64) (b : Byte) : W64 :=
  (List.range 8).foldl (fun c i =>
    if c.getLsbD 63 != b.getLsbD (7 - i) then (c <<< 1) ^^^ 0x42F0E1EBA9EA3693#64 else c <<< 1) c

/-- The CRC of a list of bytes, with all ones at the start (DEDUCED, log 33). -/
def crc64 (l : List Byte) : W64 := l.foldl crcByte (BitVec.allOnes 64)

/-- A flit: SEQ, KIND, ACKSEQ, NAK, channel and count of credits, FIRST, 240 bytes of payload (DEDUCED, log 33). -/
def mkFlit (seq kind ack nak vc cred first : Nat) (payload : List Byte) : BitVec 2048 :=
  let l := leBytes 2 (seq % 4096 + kind * 4096) ++ leBytes 2 (ack % 4096 + nak * 4096) ++ leBytes 1 vc ++ leBytes 1 cred
    ++ leBytes 1 first ++ leBytes 1 0 ++ (payload ++ List.replicate (240 - payload.length) 0)
  BitVec.ofNat 2048 (leNat (l ++ leBytes 8 (crc64 l).toNat))

/-- A flit with another acknowledgement: what a replay sends. -/
def reAck (f : BitVec 2048) (ack : Nat) : BitVec 2048 :=
  let l := leBytes 256 f.toNat
  mkFlit (leAt l 0 2 % 4096) (leAt l 0 2 / 4096) ack 0 0 0 (leAt l 6 1) ((l.drop 8).take 240)

/-! ### Packets (R328, Tables 16.3 and 16.4) -/

/-- TYPE of a packet. -/
def fabCode : FabTyp → Nat
  | .bind => 1
  | .bindOk => 2
  | .bindFail => 3
  | .write => 4
  | .ack => 5
  | .fin => 6
  | .done => 7
  | .abort => 8
  | .reset => 9
  | .other n => n

/-- The type of a TYPE byte. -/
def fabTyp (n : Nat) : FabTyp :=
  if n = 1 then .bind else if n = 2 then .bindOk else if n = 3 then .bindFail else if n = 4 then .write else if n = 5 then .ack
  else if n = 6 then .fin else if n = 7 then .done else if n = 8 then .abort else if n = 9 then .reset else .other n

/-- A packet travels on RSP channels (R324): all but a transfer's data and BIND. -/
def fabRsp (t : FabTyp) : Bool := t != .bind && t != .write

/-- The virtual channel of a packet: REQ0, REQ1, RSP0, RSP1 (R324, R329). -/
def fabVc (p : FabPkt) : Nat := 2 * b2n (fabRsp p.typ) + b2n p.dl

/-- A packet's bytes. -/
def fabBytes (p : FabPkt) : List Byte :=
  leBytes 1 (fabCode p.typ) ++ leBytes 1 p.hops ++ leBytes 2 p.dst ++ leBytes 2 p.src ++ leBytes 1 (b2n p.dl) ++ leBytes 1 p.part
    ++ leBytes 2 p.payload.length ++ leBytes 2 p.xfer ++ leBytes 4 p.pseq ++ p.payload

/-- The packet at the start of a list of bytes that holds it whole (DEDUCED, log 33). -/
def fabParse (l : List Byte) : FabPkt :=
  ⟨fabTyp (leAt l 0 1), leAt l 1 1, leAt l 2 2 % 4096, leAt l 4 2 % 4096, leAt l 6 1 % 2 == 1, leAt l 7 1 % 16, leAt l 10 2,
    leAt l 12 4, (l.drop 16).take (leAt l 8 2)⟩

/-! ### Ports -/

/-- A port that has been DOWN. -/
def freshPort : Port := ⟨[], 0, 0, false, 0, [128, 128, 128, 128], [], [], [false, false], List.replicate 16 0, 0, false⟩

/-- A port beside its registers, and one replaced. -/
def State.port (s : State) (p : Nat) : Port := (aget s.fab.ports p).getD freshPort
def State.setPort (s : State) (p : Nat) (x : Port) : State := { s with fab := { s.fab with ports := aput s.fab.ports p x } }

/-- A flit leaves a port. -/
def State.sendFlit (s : State) (p : Nat) (f : BitVec 2048) : State := s.send (.flit p f)

/-- An idle flit: it acknowledges, asks for a replay, or returns credits. -/
def State.sendIdle (s : State) (p vc cred : Nat) (nak : Bool) : State :=
  s.sendFlit p (mkFlit (s.port p).next 0 (s.port p).expect (b2n nak) vc cred 0xFF [])

/-- A data or control flit takes a SEQ value and its place in the retry buffer (R323) (DEDUCED, log 33). -/
def State.sendSeq (s : State) (p kind first : Nat) (payload : List Byte) : State :=
  let x := s.port p
  let f := mkFlit x.next kind x.expect 0 0 0 first payload
  (s.setPort p { x with next := (x.next + 1) % 4096, retry := x.retry ++ [(x.next, f)] }).sendFlit p f

/-! ### Egress (R324, R331) -/

/-- Flit slots that a packet takes in a receive buffer (DESIGN CHOICE, log 94). -/
def fabFlits (p : FabPkt) : Nat := cdiv (16 + p.payload.length) 240

/-- The port holds credits for a packet, and its retry buffer has room for it after `n` bytes more. -/
def Port.canSend (x : Port) (n : Nat) (p : FabPkt) : Bool :=
  fabFlits p ≤ x.credits.getD (fabVc p) 0 && x.retry.length + cdiv (n + 16 + p.payload.length) 240 ≤ 512

/-- The quantum of a partition: bytes in proportion to its SHARE of class 2 (02_folio.md R41). -/
def State.fabQuantum (s : State) (p : Nat) : Nat := 272 * s.share 2 p

/-- What waits at a port: a packet, and the receive buffer it came from (none: a packet of this module). -/
abbrev Waiting := Option (Nat × Nat × Nat) × FabPkt

/-- Deficit round robin among the partitions with a packet ready: the partition served, its deficits and the turn then
(DESIGN CHOICE, log 5). -/
def State.fabDrr (s : State) (ready : List Waiting) : Nat → List Nat → Nat → Option (Waiting × List Nat × Nat)
  | 0, _, _ => none
  | n + 1, df, ptr =>
    match ready.find? (fun e => e.2.part % 16 == ptr) with
    | none => State.fabDrr s ready n (df.set ptr 0) ((ptr + 1) % 16)
    | some e =>
      if 16 + e.2.payload.length ≤ df.getD ptr 0 then
        some (e, df.set ptr (df.getD ptr 0 - (16 + e.2.payload.length)), ptr)
      else
        let q := (ptr + 1) % 16
        State.fabDrr s ready n (df.set ptr (df.getD ptr 0 + s.fabQuantum ptr)) q

/-- The packet that a REQ channel serves next: transit packets in their order and this module's by partition, in turn where both
are ready (R331). -/
def State.fabReq (s : State) (x : Port) (vc : Nat) : Option (Waiting × Port) :=
  let req := x.egress.filter (fun e => fabVc e.2 == vc)
  let own := req.filter (fun e => e.1.isNone)
  match req.find? (fun e => e.1.isSome) with
  | some e =>
    if own.isEmpty then some (e, x)
    else if !x.ownTurn.getD vc false then some (e, { x with ownTurn := x.ownTurn.set vc true })
    else
      let x := { x with ownTurn := x.ownTurn.set vc false }
      match s.fabDrr own 64 x.deficit x.ptr with
      | some (k, df, q) => some (k, { x with deficit := df, ptr := q })
      | none => own.head?.map (fun k => (k, x))
  | none =>
    match s.fabDrr own 64 x.deficit x.ptr with
    | some (k, df, q) => some (k, { x with deficit := df, ptr := q })
    | none => own.head?.map (fun k => (k, x))

/-- The packet a port sends next, after `n` bytes: the first of RSP0, RSP1, REQ0 and REQ1 that it may send. No packet passes
the one that its channel serves next, which may lack credits (R324). -/
def State.fabPick (s : State) (x : Port) (n : Nat) : Option (Waiting × Port) :=
  let rsp := fun (vc : Nat) => ((x.egress.find? (fun e => fabVc e.2 == vc)).map (fun e => (e, x))).filter (fun e => x.canSend n e.1.2)
  let req := fun (vc : Nat) => (s.fabReq x vc).filter (fun e => x.canSend n e.1.2)
  (((rsp 2).orElse (fun _ => rsp 3)).orElse (fun _ => req 0)).orElse (fun _ => req 1)

/-- The packets a port sends now, each using its credits: their bytes one after another, and where each begins. -/
def State.gather (s : State) : Nat → Port → List Byte → List Nat → List Waiting → Port × List Byte × List Nat × List Waiting
  | 0, x, l, heads, ks => (x, l, heads, ks)
  | n + 1, x, l, heads, ks =>
    match s.fabPick x l.length with
    | none => (x, l, heads, ks)
    | some (e, y) =>
      let y := { y with egress := y.egress.erase e
                        credits := y.credits.set (fabVc e.2) (y.credits.getD (fabVc e.2) 0 - fabFlits e.2) }
      State.gather s n y (l ++ fabBytes e.2) (heads ++ [l.length]) (ks ++ [e])

/-- Packets back to back in data flits: FIRST is the offset of the first header that begins in the flit (R322). -/
def State.sendFlits (s : State) (p : Nat) (l : List Byte) (heads : List Nat) : State :=
  (List.range (cdiv l.length 240)).foldl (fun s i =>
    s.sendSeq p 1 (match heads.find? (fun h => 240 * i ≤ h && h < 240 * (i + 1)) with
      | some h => h - 240 * i
      | none => 0xFF) ((l.drop (240 * i)).take 240)) s

/-- The slots of a receive buffer that a packet held go back to the sender of its flits (R324). -/
def State.returnSlots (s : State) (b : Option (Nat × Nat × Nat)) : State :=
  match b with
  | some (p, vc, n) => if 0 < n && s.portUp p then s.sendIdle p vc n false else s
  | none => s

/-- Every packet that may leave a port now does. -/
def State.drainPort (s : State) (p : Nat) : State :=
  if !s.portUp p then s
  else match s.gather ((s.port p).egress.length + 1) (s.port p) [] [] [] with
    | (x, l, heads, ks) => ks.foldl (fun s e => s.returnSlots e.1) ((s.setPort p x).sendFlits p l heads)

/-! ### Port states (R325, R326; 23_connectors.md R454) -/

/-- A port takes a state: source FABRIC n, and the capability table. -/
def State.portState (s : State) (p st : Nat) : State :=
  let old := s
  ((s.wr F.FAB_PORT_STAT_STATE st p).raise (0x0A0 + p)).capFrom old

/-- The stamp's parent and distance (R340): the root is at 0, another module is one beyond the UP port whose neighbour reports
the smallest distance. LOCKED holds of the root, and of a module with a parent, to a distance of 24, that has measured (R341). -/
def State.stampEval (s : State) : State :=
  if s.on F.FAB_MODULE_VALID && s.rd F.FAB_MODULE_MODULE == s.rd F.FAB_STAMP_CTL_ROOT_MOD then
    ((s.wr F.FAB_STAMP_STAT_ROOT 1).wr F.FAB_STAMP_STAT_DIST 0).wr F.FAB_STAMP_STAT_LOCKED 1
  else
    let up := (List.range 12).filterMap (fun p => match aget s.fab.dists p with
      | some d => if s.portUp p then some (p, d) else none
      | none => none)
    let s := s.wr F.FAB_STAMP_STAT_ROOT 0
    match up.foldl (fun b e => match b with
      | none => some e
      | some m => if e.2 < m.2 then some e else some m) (none : Option (Nat × Nat)) with
    | none => (s.wr F.FAB_STAMP_STAT_DIST 31).wr F.FAB_STAMP_STAT_LOCKED 0
    | some (p, d) =>
      ((s.wr F.FAB_STAMP_STAT_PARENT p).wr F.FAB_STAMP_STAT_DIST (satTo 31 (d + 1))).wr F.FAB_STAMP_STAT_LOCKED
        (b2n (s.fab.measured && d + 1 ≤ 24))

/-- A port begins to train. `full` says whether it may end at full width. -/
def State.train (s : State) (p : Nat) (full : Bool) : State :=
  ((s.setPort p { s.port p with full := full }).portState p 1).stampEval

/-- A port retrains: its retry buffer is kept (R326), its freeze bit clears (19_power_and_clocks.md R394). -/
def State.retrain (s : State) (p : Nat) (full : Bool) : State :=
  ((s.incSat F.FAB_PORT_CNT_RETRAINS p).wr F.EQ_CTL_PORT (s.rd F.EQ_CTL_PORT &&& (4095 - 2 ^ p))).train p full

/-- The receive buffers of a port are new: packets that came by it hold no slot there, and those that wait to leave it hold none
elsewhere (R324, R326). -/
def State.forgetSlots (s : State) (p : Nat) : State :=
  let s := (s.port p).egress.foldl (fun s e => s.returnSlots e.1) s
  let none_ := fun (a : Arr) => if a.port == some p then { a with flits := 0 } else a
  { s with fab := { s.fab with
    arrivals := s.fab.arrivals.map none_
    here := s.fab.here.map none_
    ports := s.fab.ports.map (fun e => (e.1, { e.2 with egress := e.2.egress.map (fun w => match w with
      | (some (q, vc, n), k) => (some (q, vc, if q = p then 0 else n), k)
      | w => w) })) } }

/-- A port goes DOWN: what its retry buffer holds is discarded, requester 72 + n has failed (R326), and its neighbour reports no
distance. -/
def State.portDown (s : State) (p : Nat) : State :=
  let s := s.forgetSlots p
  ((({ s with fab := { s.fab with dists := adel s.fab.dists p } }.setPort p freshPort).portState p 0).setDead (72 + p)).stampEval

/-- A port may leave DOWN: EN, a module number, a cable, its domain ON, no unit reset (R327, R454; 18_reset.md R371). -/
def State.mayTrain (s : State) (p : Nat) : Bool :=
  s.on F.FAB_PORT_CTL_EN p && s.on F.FAB_MODULE_VALID && s.fab.seated.getLsbD p && s.rd F.FAB_PORT_STAT_STATE p == 0
  && s.rd F.PWR_DSTAT_STATE (592 + p) == 2 && bitsOf (s.rd F.RST_UNIT_PORT (p / 3)) (p % 3) 1 == 0

/-- PORT_ENABLE: EN is set. -/
def State.portEnable (s : State) (p : Nat) : State :=
  if 12 ≤ p then s
  else
    let s := s.wr F.FAB_PORT_CTL_EN 1 p
    if s.mayTrain p then s.train p true else s

/-- PORT_RETRAIN: an UP port retrains at full width if all lanes pass. -/
def State.portRetrain (s : State) (p : Nat) : State := if p < 12 && s.portUp p then s.retrain p true else s

/-- The flits of the retry buffer sent again, in order. -/
def State.replay (s : State) (p : Nat) : State :=
  (s.port p).retry.foldl (fun s e => s.sendFlit p (reAck e.2 (s.port p).expect)) s

/-- PORT_TRAIN_DONE: `good` are the lanes that passed. -/
def State.trainDone (s : State) (p : Nat) (good : BitVec 8) (peer peerPort : Nat) : State :=
  if 12 ≤ p || s.rd F.FAB_PORT_STAT_STATE p != 1 then s
  else
    let x := s.port p
    let bad := 255 - good.toNat
    let s := s.wr F.FAB_PORT_STAT_LANE_FAIL (if x.full then bad else s.rd F.FAB_PORT_STAT_LANE_FAIL p ||| bad) p
    let bad := s.rd F.FAB_PORT_STAT_LANE_FAIL p
    let s := (s.wr F.FAB_PORT_STAT_PEER peer p).wr F.FAB_PORT_STAT_PEER_PORT peerPort p
    let up := fun (s : State) (st : Nat) => ((((s.portState p st).clearDead (72 + p)).stampEval).replay p).drainPort p
    if x.full && bad == 0 then up (s.wr F.FAB_PORT_STAT_HALF_SEL 0 p) 2
    else if !s.on F.FAB_PORT_CTL_HALF_OK p then s.portDown p
    else if bad % 16 == 0 && bad != 0 then up (s.wr F.FAB_PORT_STAT_HALF_SEL 0 p) 3
    else if bad / 16 == 0 && bad != 0 then up (s.wr F.FAB_PORT_STAT_HALF_SEL 1 p) 3
    else if bad == 0 then up s 3
    else s.portDown p

/-- LANE_FAIL: a lane of an UP port fails. A lane of the half that is not in use changes nothing more (DESIGN CHOICE, log 36). -/
def State.laneFail (s : State) (p lane : Nat) : State :=
  if 12 ≤ p || 8 ≤ lane || !s.portUp p then s
  else
    let was := s.rd F.FAB_PORT_STAT_STATE p
    let idle := was == 3 && (s.rd F.FAB_PORT_STAT_HALF_SEL p == 1) != (4 ≤ lane)
    let s := s.wr F.FAB_PORT_STAT_LANE_FAIL (s.rd F.FAB_PORT_STAT_LANE_FAIL p ||| 2 ^ lane) p
    let bad := s.rd F.FAB_PORT_STAT_LANE_FAIL p
    if idle then s
    else if (bad % 16 == 0 || bad / 16 == 0) && s.on F.FAB_PORT_CTL_HALF_OK p then s.retrain p false
    else s.portDown p

/-- CBL_PRSNT_CHANGE (23_connectors.md R454). -/
def State.cable (s : State) (p : Nat) (high : Bool) : State :=
  if 12 ≤ p then s
  else
    let s := { s with fab := { s.fab with
      seated := if high then s.fab.seated &&& ~~~(1#12 <<< p) else s.fab.seated ||| (1#12 <<< p) } }
    if high then (if s.rd F.FAB_PORT_STAT_STATE p == 0 then s else s.portDown p)
    else if s.mayTrain p then s.train p true else s

/-! ### Reception of flits (R323) -/

/-- ACKSEQ, NAK and credits of a flit that is accepted. -/
def State.takeAckSeq (s : State) (p : Nat) (l : List Byte) : State :=
  let x := s.port p
  let ack := leAt l 2 2 % 4096
  let n := match x.retry.head? with
    | some e => (ack + 4096 - e.1) % 4096
    | none => 0
  let x := if n ≤ x.retry.length then { x with retry := x.retry.drop n, fails := if n = 0 then x.fails else 0 } else x
  let vc := leAt l 4 1 % 4
  let x := { x with credits := x.credits.set vc (x.credits.getD vc 0 + leAt l 5 1) }
  if bitsOf (leAt l 2 2) 12 1 == 0 || x.retry.isEmpty then s.setPort p x
  else
    let s := (s.setPort p { x with fails := x.fails + 1 }).incSat F.FAB_PORT_CNT_REPLAY p
    if 8 ≤ x.fails + 1 then (s.setPort p { x with fails := 0 }).retrain p (s.rd F.FAB_PORT_STAT_STATE p == 2) else s.replay p

/-- Whole packets at the start of what a port has received go on to be routed. A TYPE of zero where a header would begin fills
the flit (DEDUCED, log 33). -/
def State.reassemble (p : Nat) : Nat → State → State
  | 0, s => s
  | n + 1, s =>
    let x := s.port p
    if leAt x.rx 0 1 == 0 then s.setPort p { x with rx := [] }
    else if x.rx.length < 16 || x.rx.length < 16 + leAt x.rx 8 2 then s
    else
      let k := fabParse x.rx
      let s := s.setPort p { x with rx := x.rx.drop (16 + leAt x.rx 8 2) }
      State.reassemble p n { s with fab := { s.fab with arrivals := s.fab.arrivals ++ [⟨some p, p / 3, fabFlits k, k⟩] } }

/-- FLIT_RECEIVE. Each flit that fails its CRC gets a NAK; one out of sequence gets none while the port awaits the expected
SEQ. An arrival starts a stopped network-on-chip clock (19_power_and_clocks.md R386). -/
def State.flitReceive (s : State) (p : Nat) (f : BitVec 2048) : State :=
  if 12 ≤ p || !s.portUp p then s
  else
    let s := s.wakeDies [p / 3]
    let l := leBytes 256 f.toNat
    let x := s.port p
    let kind := leAt l 0 2 / 4096
    let nak := fun (s : State) => (s.setPort p { x with nak := true }).sendIdle p 0 0 true
    let bad := fun (s : State) => if x.nak then s else nak s
    if leAt l 248 8 != (crc64 (l.take 248)).toNat then nak s
    else if kind == 0 then (s.takeAckSeq p l).drainPort p
    else if leAt l 0 2 % 4096 != x.expect then bad s
    else
      let s := (s.setPort p { x with expect := (x.expect + 1) % 4096, nak := false }).takeAckSeq p l
      let s := if kind != 1 then s
        else
          let y := s.port p
          let rx := if y.rx.isEmpty then ((l.drop 8).take 240).drop (leAt l 6 1) else y.rx ++ (l.drop 8).take 240
          State.reassemble p 17 (s.setPort p { y with rx := rx })
      if s.portUp p then (s.sendIdle p 0 0 false).drainPort p else s

/-- FLIT_ACK_TIMEOUT: a retry buffer not acknowledged for 100 us. -/
def State.flitTimeout (s : State) (p : Nat) : State :=
  if p < 12 && s.portUp p && !(s.port p).retry.isEmpty then s.retrain p (s.rd F.FAB_PORT_STAT_STATE p == 2) else s

/-! ### Routing (R329) -/

/-- Ports of FAB_ROUTE for a destination that are UP, without the arrival port. -/
def State.routes (s : State) (a : Arr) : List Nat :=
  let m := (aget s.fol.cur.route a.pkt.dst).getD 0
  let all := (List.range 12).filter (fun p => m.getLsbD p && s.portUp p && a.port != some p)
  match a.port with
  | some _ => all
  | none => if all.any (fun p => p / 3 == a.die) then all.filter (fun p => p / 3 == a.die) else all

/-- The port with the most free credits on a channel; ties go to the lowest number. -/
def State.bestPort (s : State) (vc : Nat) (l : List Nat) : Option Nat :=
  l.foldl (fun b p => match b with
    | none => some p
    | some q => if (s.port q).credits.getD vc 0 < (s.port p).credits.getD vc 0 then some p else some q) none

/-- A transfer that this module sends has ended: its COPY completes, or its owner learns its status. -/
def State.sendOver (s : State) (x st : Nat) : State :=
  match aget s.fab.send x with
  | none => s
  | some t =>
    let s := { s with fab := { s.fab with send := adel s.fab.send x } }
    match t.owner with
    | .cmd id => (s.failCmd id st).modCmd id (fun c => { c with done := true, xfer := none })
    | .snap c => if st = stOk then s.snapIdle c else s.snapStop c (if t.bound then 4 else 3)
    | .push k => if st = stOk then s
      else { s with rcv := { s.rcv with push := amod s.rcv.push k (fun p =>
        { p with err := if p.err = 0 then (if t.bound then 3 else 2) else p.err }) } }
    | .adopt _ => s

/-- The slots of the receive buffer that a packet holds. -/
def Arr.slots (a : Arr) : Option (Nat × Nat × Nat) := a.port.map (fun p => (p, fabVc a.pkt, a.flits))

/-- A packet is dropped: counted at its arrival port; at the source its transfer's destination is unreachable. -/
def State.dropPkt (s : State) (a : Arr) : State :=
  let s := s.returnSlots a.slots
  match a.port with
  | some p => s.incSat F.FAB_PORT_CNT_DROP p
  | none => if a.pkt.typ == .bind || a.pkt.typ == .write || a.pkt.typ == .fin then s.sendOver a.pkt.xfer stAborted else s

/-- PACKET_ROUTE: the first packet is delivered, routed or dropped. It waits for a stopped network-on-chip clock of its die
(19_power_and_clocks.md R386), and holds its buffer slots until it is taken or leaves (R324). -/
def State.packetRoute (s : State) : State :=
  match s.fab.arrivals with
  | [] => s
  | a :: r =>
    if s.on F.INT_ISL_STOPPED a.die then s.wakeDies [a.die] else
    let s := { s with fab := { s.fab with arrivals := r } }
    if a.pkt.dst == s.rd F.FAB_MODULE_MODULE then { s with fab := { s.fab with here := s.fab.here ++ [a] } }
    else if a.pkt.hops == 0 then s.dropPkt a
    else match s.bestPort (fabVc a.pkt) (s.routes a) with
      | none => s.dropPkt a
      | some p =>
        let k := { a.pkt with hops := a.pkt.hops - 1, dl := a.pkt.dl || s.on F.FAB_PORT_CTL_DATELINE p }
        (s.setPort p { s.port p with egress := (s.port p).egress ++ [(a.slots, k)] }).drainPort p

/-- A packet here is the first of its port and channel: it is served before later ones (R324). -/
def State.firstHere (s : State) (a : Arr) : Bool :=
  s.fab.here.find? (fun b => b.port == a.port && fabVc b.pkt == fabVc a.pkt) == some a

/-- The first packet here, of those that are first of their channel, that a test admits, taken: its buffer slots are free. -/
def State.takeHere (s : State) (p : FabPkt → Bool) : Option (Arr × State) :=
  match s.fab.here.find? (fun a => p a.pkt && s.firstHere a) with
  | none => none
  | some a => some (a, { s with fab := { s.fab with here := s.fab.here.erase a } }.returnSlots a.slots)

/-! ### The sender of a transfer (R332 to R335) -/

/-- BIND's payload. -/
def SendX.bind (t : SendX) : List Byte :=
  leBytes 1 t.ctx ++ leBytes 1 t.red ++ leBytes 1 (b2n t.strict) ++ leBytes 1 0 ++ leBytes 4 t.handle ++ leBytes 8 t.off
    ++ leBytes 8 t.len ++ leBytes 8 0

/-- WRITE packets of a transfer. -/
def SendX.total (t : SendX) : Nat := cdiv t.len 256

/-- A transfer begins: it takes an entry and an XFER value, and BIND is sent. None where no entry is free (DEDUCED, log 35). -/
def State.beginSend (s : State) (t : SendX) : Option (Nat × State) :=
  if 4096 ≤ s.fab.send.length then none
  else
    let x := ((List.range 4097).map (fun i => (s.fab.nextXfer + i) % 65536)).find? (fun i => (aget s.fab.send i).isNone)
    match x with
    | none => none
    | some x => some (x, ({ s with fab := { s.fab with send := aput s.fab.send x t, nextXfer := (x + 1) % 65536 } }).emit t.die t.dst
        t.part .bind x 0 t.bind)

/-- A packet's source read stops, or returns poison: Table 16.7. -/
def State.xferStop (s : State) (x : Nat) (t : SendX) (r : Nat × Xlate) : State :=
  match t.owner with
  | .cmd id => s.stopAt t.die id (copySrc t.die id) accRead r
  | _ => s.endSend x stAborted

/-- WRITE packet `j` of a transfer sent: its bytes are the owner's, or are read as class 5 (09_caches.md R196). False where
the read stops or waits. -/
def State.sendWrite (s : State) (x : Nat) (t : SendX) (j : Nat) : State × Bool :=
  let n := min 256 (t.len - 256 * j)
  match t.src with
  | .bytes l => (s.emit t.die t.dst t.part .write x j ((l.drop (256 * j)).take n), true)
  | .va c va =>
    match s.vaStop t.die c accRead (va + 256 * j) n with
    | some r => (s.xferStop x t r, false)
    | none =>
      match s.vaAsk t.die c 5 (va + 256 * j) n with
      | (s, false) => (s, false)
      | (s, true) =>
        match s.vaPoison t.die c (va + 256 * j) n with
        | .none => (s.emit t.die t.dst t.part .write x j (s.rdVas t.die c (va + 256 * j) n), true)
        | p => ((s.sendOver x p.status).emit t.die t.dst t.part .abort x 0 (leBytes 2 p.status), false)

/-- A bound transfer sends what its window of 1,024 packets admits, then END. -/
def State.pumpSend (x : Nat) : Nat → State → State
  | 0, s => s
  | n + 1, s =>
    match aget s.fab.send x with
    | none => s
    | some t =>
      if !t.bound || t.endSent then s
      else if t.sent == t.total then
        ({ s with fab := { s.fab with send := aput s.fab.send x { t with endSent := true } } }).emit t.die t.dst t.part .fin x 0
          (leBytes 4 t.total)
      else if t.acked + 1024 ≤ t.sent then s
      else match s.sendWrite x t t.sent with
        | (s, false) => s
        | (s, true) => State.pumpSend x n { s with fab := { s.fab with send := aput s.fab.send x { t with sent := t.sent + 1 } } }

/-- What a transfer may send now is sent; a COPY whose read waits on the blotter sends nothing. -/
def State.goSend (s : State) (x : Nat) : State :=
  if (aget s.fab.send x).any (fun t => match t.owner with
    | .cmd id => s.cmdWaits id
    | _ => false) then s
  else State.pumpSend x 1026 s

/-- FAB_BIND_OK (DEDUCED, log 35). -/
def State.bindOk (s : State) : State :=
  match s.takeHere (fun p => p.typ == .bindOk) with
  | none => s
  | some (a, s) =>
    match aget s.fab.send a.pkt.xfer with
    | none => s
    | some t => if t.dst != a.pkt.src || t.bound then s
      else ({ s with fab := { s.fab with send := aput s.fab.send a.pkt.xfer { t with bound := true, refused := false } } }).goSend
        a.pkt.xfer

/-- FAB_BIND_FAIL: ST_OK completes nothing. -/
def State.bindFail (s : State) : State :=
  match s.takeHere (fun p => p.typ == .bindFail) with
  | none => s
  | some (a, s) =>
    match aget s.fab.send a.pkt.xfer with
    | none => s
    | some t =>
      let st := leAt a.pkt.payload 0 2
      if t.dst != a.pkt.src || t.bound then s
      else if st == stOk then { s with fab := { s.fab with send := aput s.fab.send a.pkt.xfer { t with refused := true } } }
      else s.sendOver a.pkt.xfer st

/-- FAB_BIND_RETRY: 50 us after a refusal for want of an entry. -/
def State.bindRetry (s : State) (x : Nat) : State :=
  match aget s.fab.send x with
  | none => s
  | some t => if t.refused then
      ({ s with fab := { s.fab with send := aput s.fab.send x { t with refused := false } } }).emit t.die t.dst t.part .bind x 0 t.bind
    else s

/-- FAB_ACK. -/
def State.takeAckPkt (s : State) : State :=
  match s.takeHere (fun p => p.typ == .ack) with
  | none => s
  | some (a, s) =>
    match aget s.fab.send a.pkt.xfer with
    | none => s
    | some t => if t.dst != a.pkt.src || a.pkt.pseq ≤ t.acked || t.sent < a.pkt.pseq then s
      else ({ s with fab := { s.fab with send := aput s.fab.send a.pkt.xfer { t with acked := a.pkt.pseq } } }).goSend a.pkt.xfer

/-- FAB_PACKET_RESEND: 100 us after a packet was sent. -/
def State.resend (s : State) (x j : Nat) : State :=
  match aget s.fab.send x with
  | none => s
  | some t => if t.acked ≤ j && j < t.sent then (s.sendWrite x t j).1 else s

/-- FAB_END_RESEND: 100 us after END without DONE. -/
def State.endResend (s : State) (x : Nat) : State :=
  match aget s.fab.send x with
  | none => s
  | some t => if t.endSent then s.emit t.die t.dst t.part .fin x 0 (leBytes 4 t.total) else s

/-- FAB_DONE. -/
def State.takeDonePkt (s : State) : State :=
  match s.takeHere (fun p => p.typ == .done) with
  | none => s
  | some (a, s) =>
    match aget s.fab.send a.pkt.xfer with
    | none => s
    | some t => if t.dst == a.pkt.src && t.endSent then s.sendOver a.pkt.xfer stOk else s

/-- FAB_XFER_STALL: 10 ms without progress. -/
def State.xferStall (s : State) (x : Nat) : State :=
  match aget s.fab.send x with
  | none => s
  | some t => (s.sendOver x stAborted).emit t.die t.dst t.part .abort x 0 (leBytes 2 stAborted)

/-- FAB_ABORT: at the sender of the transfer it names, else at its receiver (DEDUCED, log 34). -/
def State.takeAbort (s : State) : State :=
  match s.takeHere (fun p => p.typ == .abort) with
  | none => s
  | some (a, s) =>
    if (aget s.fab.send a.pkt.xfer).any (fun t => t.dst == a.pkt.src) then s.sendOver a.pkt.xfer (leAt a.pkt.payload 0 2)
    else if (aget s.fab.recv (a.pkt.src, a.pkt.xfer)).any (fun t => !t.ended) then s.dropRecv (a.pkt.src, a.pkt.xfer)
    else s

/-! ### The receiver of a transfer (R332 to R336) -/

/-- An answer to the sender of a transfer, in the partition of the context it is bound in (R328) (DEDUCED, log 34). -/
def State.answerPkt (s : State) (die c dst x : Nat) (t : FabTyp) (pseq : Nat) (l : List Byte) : State :=
  s.emit die dst (s.ctxPart c) t x pseq l

/-- FAB_BIND (DEDUCED, log 34). -/
def State.takeBind (s : State) : State :=
  match s.takeHere (fun p => p.typ == .bind) with
  | none => s
  | some (a, s1) =>
    let l := a.pkt.payload
    let c := leAt l 0 1 % 64
    let red := leAt l 1 1
    let h := leAt l 4 4
    let off := leAt l 8 8
    let len := leAt l 16 8
    let k := (a.pkt.src, a.pkt.xfer)
    let no := fun (st : Nat) => s1.answerPkt a.die c a.pkt.src a.pkt.xfer .bindFail 0 (leBytes 2 st)
    if !s.clerkAwake a.die then s.wakeClerk a.die
    else if (aget s.fab.recv k).isSome then s1.answerPkt a.die c a.pkt.src a.pkt.xfer .bindOk 0 []
    else if !s.on F.FAB_CTX_ACL_EN c || a.pkt.src < s.rd F.FAB_CTX_ACL_FIRST c || s.rd F.FAB_CTX_ACL_LAST c < a.pkt.src then
      no stFaultPerm
    else if 4096 ≤ s.fab.recv.length then no stOk
    else match submitFail (s.ctxState c) with
      | some st => no st
      | none =>
        let va := s.moVa (h % 2 ^ 20) + off
        if !s.moBinds c (s.nextSeq c) h then no stObjGone
        else if s.pastEnd h off len then no stFaultPerm
        else if bitsOf red 0 2 != 0 && va % redSize red != 0 then no stAborted
        else if s.moFull h then s
        else
          let t : RecvX := ⟨a.port, a.die, c, h % 2 ^ 20, s.nextSeq c, va, len, red, leAt l 2 1 % 2 == 1, 0, [], [], [], [], none,
            false, 0⟩
          (({ s1 with fab := { s1.fab with recv := aput s1.fab.recv k t } }).moRefInc (h % 2 ^ 20)).answerPkt a.die c a.pkt.src
            a.pkt.xfer .bindOk 0 []

/-- An entry of this receiver replaced. -/
def State.setRecv (s : State) (k : Nat × Nat) (t : RecvX) : State := { s with fab := { s.fab with recv := aput s.fab.recv k t } }

/-- The count of packets performed in a row rises over those performed beyond it. -/
def riseTo (perf : List Nat) : Nat → Nat → Nat
  | 0, c => c
  | n + 1, c => if perf.contains c then riseTo perf n (c + 1) else c

/-- What follows a packet performed: ACK every 64 packets, DONE at END's total. -/
def State.recvNext (s : State) (k : Nat × Nat) : State :=
  match aget s.fab.recv k with
  | none => s
  | some t =>
    if t.ended then s
    else
      let c := riseTo t.perf 1025 t.count
      let t := { t with count := c, perf := t.perf.filter (fun j => c ≤ j), got := t.got.filter (fun j => c ≤ j) }
      let s := s.setRecv k t
      if t.total == some c then
        ((s.moRefDec t.obj).setRecv k { t with ended := true }).answerPkt t.die t.ctx k.1 k.2 .done 0 []
      else if t.told + 64 ≤ c then (s.setRecv k { t with told := c }).answerPkt t.die t.ctx k.1 k.2 .ack c []
      else s

/-- WrAck for a write of a transfer (R332): a write dropped on a poisoned line ends the transfer (Table 16.7). -/
def State.recvWrAck (s : State) (op : Nat) (pk : Poison) : State :=
  match s.fab.recv.find? (fun e => e.2.outs.any (fun o => o.1 == op)) with
  | none => s
  | some (k, t) =>
    if pk != .none then s.endRecv k pk.status
    else match t.outs.find? (fun o => o.1 == op) with
      | none => s
      | some o =>
        let outs := t.outs.erase o
        let t := { t with outs := outs, lines := o.2 :: t.lines }
        if outs.any (fun x => x.2.1 == o.2.1) || !t.got.contains o.2.1 then s.setRecv k t
        else (s.setRecv k { t with perf := o.2.1 :: t.perf, lines := t.lines.filter (fun l => l.1 != o.2.1) }).recvNext k

/-- The pieces of a packet by line: address and bytes. -/
def recvSplit (va : Nat) (l : List Byte) : List (Nat × List Byte) :=
  (linesOf va l.length).map (fun ln =>
    let lo := max va (128 * ln)
    (lo, (l.drop (lo - va)).take (min (va + l.length) (128 * (ln + 1)) - lo)))

/-- Updates of a piece: one for each element (08_berim_stacks.md R179). -/
def redPieces (ln off : Nat) (red key : Nat) (strict : Bool) (l : List Byte) : List RedUpd :=
  let ty := if bitsOf red 2 2 = 0 then RedTy.bf16 else if bitsOf red 2 2 = 1 then RedTy.f32 else RedTy.i32
  let op := if bitsOf red 0 2 = 1 then RedOp.add else if bitsOf red 0 2 = 2 then RedOp.max else RedOp.min
  let n := redSize red
  (List.range (l.length / n)).map (fun i =>
    ⟨ln, off + n * i, op, ty, BitVec.ofNat 32 (leAt l (n * i) n), key, strict, none⟩)

/-- A write of one piece at its physical address, as the arrival port's requester (10_coherence.md R222). -/
def State.recvPiece (s : State) (t : RecvX) (r key pa op : Nat) (l : List Byte) : State :=
  let mask : BitVec 128 := BitVec.ofNat 128 ((2 ^ l.length - 1) * 2 ^ (pa % 128))
  let data : Line := BitVec.ofNat 1024 (leNat l * 2 ^ (8 * (pa % 128)))
  if bitsOf t.red 0 2 == 0 then
    s.sendB ⟨if l.length = 128 then .wrF else .wrP, r, pa / 128, 3, false, key, mask, data, [], op, .none⟩
  else s.sendB ⟨.redU, r, pa / 128, 3, false, key, 0, 0, redPieces (pa / 128) (pa % 128) t.red key t.strict l, op, .none⟩

/-- The pieces of an accepted packet sent on. -/
def State.recvPieces (k : Nat × Nat) (j r : Nat) : List (Nat × List Byte) → State → State
  | [], s => s
  | (va, l) :: rest, s =>
    match aget s.fab.recv k with
    | none => s
    | some t =>
      if t.lines.contains (j, va / 128) || t.outs.any (fun o => o.2 == (j, va / 128)) then State.recvPieces k j r rest s
      else
        let acc := if bitsOf t.red 0 2 == 0 then accWrite else accRed
        match s.xlate t.die t.ctx va acc with
        | .pa a =>
          let op := s.thr.serial + 1
          let s := { s with thr := { s.thr with serial := op } }.setRecv k { t with outs := t.outs ++ [(op, j, va / 128)] }
          State.recvPieces k j r rest (s.recvPiece t r (s.ctxKey t.ctx) a op l)
        | .host a _ => State.recvPieces k j r rest ((s.useLink t.die).wrHost a l)
        | _ => State.recvPieces k j r rest s

/-- A transfer waits on its context's blotter (DEDUCED, log 35). -/
def State.recvWaits (s : State) (c : Nat) (k : Nat × Nat) : Bool := (s.blot c).waiting.any (fun w => w.src.xfer == some k)

/-- FAB_WRITE: the first WRITE that is first of its channel and whose transfer does not wait on the blotter is accepted once
(R333) (DEDUCED, log 35). The record of a fault names clerk 0 of the arrival port's die (DESIGN CHOICE, log 74). -/
def State.takeWrite (s : State) : State :=
  let free := fun (p : FabPkt) => p.typ == .write && (match aget s.fab.recv (p.src, p.xfer) with
    | some t => !s.recvWaits t.ctx (p.src, p.xfer)
    | none => true)
  match s.takeHere free with
  | none => s
  | some (a, s1) =>
    let k := (a.pkt.src, a.pkt.xfer)
    let j := a.pkt.pseq
    match aget s.fab.recv k with
    | none => s1
    | some t =>
      if t.ended || j < t.count || t.got.contains j || t.told + 1024 ≤ j || t.len < 256 * j + a.pkt.payload.length
          || a.pkt.payload.isEmpty then s1
      else
        let va := t.va + 256 * j
        let acc := if bitsOf t.red 0 2 == 0 then accWrite else accRed
        match s.vaStop t.die t.ctx acc va a.pkt.payload.length with
        | some (b, .fault ca l) => s.blotWait t.ctx b ca l acc ⟨3, t.die * 16, none, none, some k⟩
        | some (b, .walk) => s.needWalk t.die t.ctx b acc ⟨3, t.die * 16, none, none, some k⟩ (.die t.die)
        | some (_, .off) => s1.abortCtx t.ctx stFaultXlate
        | some _ => s
        | none =>
          let r := match a.port with
            | some p => 72 + p
            | none => 72 + 3 * a.die
          let s := State.recvPieces k j r (recvSplit va a.pkt.payload) (s1.setRecv k { t with got := j :: t.got })
          match aget s.fab.recv k with
          | none => s
          | some t => if t.outs.any (fun o => o.2.1 == j) then s
            else (s.setRecv k { t with perf := j :: t.perf, lines := t.lines.filter (fun l => l.1 != j) }).recvNext k

/-- FAB_ACK_TIMER: every 2 us while the count changes. -/
def State.ackTimer (s : State) (k : Nat × Nat) : State :=
  match aget s.fab.recv k with
  | none => s
  | some t => if t.ended || t.count == t.told then s
    else (s.setRecv k { t with told := t.count }).answerPkt t.die t.ctx k.1 k.2 .ack t.count []

/-- FAB_END. -/
def State.takeEnd (s : State) : State :=
  match s.takeHere (fun p => p.typ == .fin) with
  | none => s
  | some (a, s) =>
    let k := (a.pkt.src, a.pkt.xfer)
    match aget s.fab.recv k with
    | none => s
    | some t => if t.ended then s.answerPkt t.die t.ctx k.1 k.2 .done 0 []
      else (s.setRecv k { t with total := some (leAt a.pkt.payload 0 4) }).recvNext k

/-- FAB_RECV_IDLE: 10 ms without a packet. -/
def State.recvIdle (s : State) (k : Nat × Nat) : State :=
  if (aget s.fab.recv k).any (fun t => !t.ended) then s.dropRecv k else s

/-- FAB_ENDED_ENTRY_EXPIRE: 10 ms after DONE. -/
def State.endedExpire (s : State) (k : Nat × Nat) : State :=
  if (aget s.fab.recv k).any (fun t => t.ended) then s.dropRecv k else s

/-! ### The stamp (R340, R341) -/

/-- A SYNC message: send stamp and distance in the first bytes of a control flit (DEDUCED, log 34). -/
def syncBytes (m : SyncMsg) : List Byte := leBytes 8 m.stamp ++ leBytes 1 m.dist

/-- STAMP_SYNC_TIMER (DEDUCED, log 34). -/
def State.syncTimer (s : State) (p : Nat) : State :=
  if 12 ≤ p || !s.portUp p || !s.on F.FAB_STAMP_CTL_EN || 512 ≤ (s.port p).retry.length then s
  else (s.sendSeq p 2 0xFF (syncBytes ⟨s.stamp, s.rd F.FAB_STAMP_STAT_DIST⟩)).stampRead

/-- STAMP_SYNC: a message from the parent is a measurement; at the first the stamp steps to the parent's, and may fall (DESIGN
CHOICE, log 36). -/
def State.stampSync (s : State) (p : Nat) (m : SyncMsg) : State :=
  if 12 ≤ p || !s.portUp p || !s.on F.FAB_STAMP_CTL_EN then s
  else
    let s := { s with fab := { s.fab with dists := aput s.fab.dists p m.dist } }.stampEval
    if s.on F.FAB_STAMP_STAT_ROOT || s.rd F.FAB_STAMP_STAT_PARENT != p then s
    else
      { s with fab := { s.fab with
        stepped := true
        measured := true
        seen := if s.fab.stepped then s.fab.seen else m.stamp
        reads := if s.fab.stepped then s.fab.reads else [] } }.stampEval

/-- STAMP_LOCK_EXPIRE: 10 ms without a measurement. -/
def State.lockExpire (s : State) : State :=
  if s.on F.FAB_STAMP_STAT_ROOT then s
  else { s with fab := { s.fab with measured := false } }.wr F.FAB_STAMP_STAT_LOCKED 0

/-! ### Commands -/

/-- FLIT_RECEIVE (R323). -/
def execFlitReceive (p : Nat) (f : BitVec 2048) (s : State) : Host.Outcome State Fault Refusal := .next (s.flitReceive p f)
/-- FLIT_ACK_TIMEOUT (R323). -/
def execFlitAckTimeout (p : Nat) (s : State) : Host.Outcome State Fault Refusal := .next (s.flitTimeout p)
/-- PORT_ENABLE (R325). -/
def execPortEnable (p : Nat) (s : State) : Host.Outcome State Fault Refusal := .next (s.portEnable p)
/-- PORT_RETRAIN (R325). -/
def execPortRetrain (p : Nat) (s : State) : Host.Outcome State Fault Refusal := .next (s.portRetrain p)
/-- PORT_TRAIN_DONE (R325, R326). -/
def execPortTrainDone (p : Nat) (good : BitVec 8) (peer peerPort : Nat) (s : State) : Host.Outcome State Fault Refusal :=
  .next (s.trainDone p good peer peerPort)
/-- LANE_FAIL (R325). -/
def execLaneFail (p lane : Nat) (s : State) : Host.Outcome State Fault Refusal := .next (s.laneFail p lane)
/-- PACKET_ROUTE (R329). -/
def execPacketRoute (s : State) : Host.Outcome State Fault Refusal := .next s.packetRoute
/-- FAB_BIND (R332, R336). -/
def execFabBind (s : State) : Host.Outcome State Fault Refusal := .next s.takeBind
/-- FAB_BIND_OK (R332). -/
def execFabBindOk (s : State) : Host.Outcome State Fault Refusal := .next s.bindOk
/-- FAB_BIND_FAIL (R332). -/
def execFabBindFail (s : State) : Host.Outcome State Fault Refusal := .next s.bindFail
/-- FAB_WRITE (R333). -/
def execFabWrite (s : State) : Host.Outcome State Fault Refusal := .next s.takeWrite
/-- FAB_ACK (R332). -/
def execFabAck (s : State) : Host.Outcome State Fault Refusal := .next s.takeAckPkt
/-- FAB_END (R332). -/
def execFabEnd (s : State) : Host.Outcome State Fault Refusal := .next s.takeEnd
/-- FAB_DONE (R332). -/
def execFabDone (s : State) : Host.Outcome State Fault Refusal := .next s.takeDonePkt
/-- FAB_ABORT (R335). -/
def execFabAbort (s : State) : Host.Outcome State Fault Refusal := .next s.takeAbort
/-- FAB_ACK_TIMER (R332). -/
def execFabAckTimer (src x : Nat) (s : State) : Host.Outcome State Fault Refusal := .next (s.ackTimer (src, x))
/-- FAB_PACKET_RESEND (R333). -/
def execFabPacketResend (x j : Nat) (s : State) : Host.Outcome State Fault Refusal := .next (s.resend x j)
/-- FAB_END_RESEND (R332). -/
def execFabEndResend (x : Nat) (s : State) : Host.Outcome State Fault Refusal := .next (s.endResend x)
/-- FAB_BIND_RETRY (R334). -/
def execFabBindRetry (x : Nat) (s : State) : Host.Outcome State Fault Refusal := .next (s.bindRetry x)
/-- FAB_XFER_STALL (R335). -/
def execFabXferStall (x : Nat) (s : State) : Host.Outcome State Fault Refusal := .next (s.xferStall x)
/-- FAB_RECV_IDLE (R335). -/
def execFabRecvIdle (src x : Nat) (s : State) : Host.Outcome State Fault Refusal := .next (s.recvIdle (src, x))
/-- FAB_ENDED_ENTRY_EXPIRE (R334). -/
def execFabEndedEntryExpire (src x : Nat) (s : State) : Host.Outcome State Fault Refusal := .next (s.endedExpire (src, x))
/-- STAMP_SYNC_TIMER (R340). -/
def execStampSyncTimer (p : Nat) (s : State) : Host.Outcome State Fault Refusal := .next (s.syncTimer p)
/-- STAMP_SYNC (R340). -/
def execStampSync (p : Nat) (m : SyncMsg) (s : State) : Host.Outcome State Fault Refusal := .next (s.stampSync p m)
/-- STAMP_LOCK_EXPIRE (R341). -/
def execStampLockExpire (s : State) : Host.Outcome State Fault Refusal := .next s.lockExpire
/-- CBL_PRSNT_CHANGE (23_connectors.md R454). -/
def execCblPrsntChange (p : Nat) (high : Bool) (s : State) : Host.Outcome State Fault Refusal := .next (s.cable p high)

end Sys2Proof.Machine
end

