-- ==== Sys2Proof/Machine/Stack.lean ====
section
/-! DEFINITION. The memory stacks (08_berim_stacks.md R164-R185): ECC, poison, retirement, scrubbing, reductions and their
combine buffers, refresh and thermal trips. `State.mem` holds plaintext as its writer sees it; the code word of R167 is not
stored, and an ECC result is what a row says the checker found. -/

namespace Sys2Proof.Machine

open Sys2Proof

/-! ### Retirement (R171, R172) -/

/-- STK_RETIRE shows the oldest pending granule of a stack. -/
def State.showRetire (s : State) (n : Nat) : State :=
  match s.stk.pend.find? (fun e => e.1 == n) with
  | some e => (s.wr F.STK_RETIRE_GRANULE e.2 n).wr F.STK_RETIRE_PENDING 1 n
  | none => (s.wr F.STK_RETIRE_GRANULE 0 n).wr F.STK_RETIRE_PENDING 0 n

/-- Granules in the persistent list of a stack. -/
def State.retiredOf (s : State) (n : Nat) : Nat := (s.stk.retired.filter (fun e => e.1 == n)).length

/-- STK_STAT shows the persistent list of a stack. -/
def State.showList (s : State) (n : Nat) : State :=
  (s.wr F.STK_STAT_RETIRED (satTo 0xFFFF (s.retiredOf n)) n).wr F.STK_STAT_LIST_FULL (b2n (4096 ≤ s.retiredOf n)) n

/-- GRANULE_RETIRE: a stack-local granule is queued, the source is raised, and the warden records it. A granule retired before
is not retired again (DEDUCED, log 31). -/
def State.retireGranule (s : State) (n g : Nat) : State :=
  if s.stk.retired.contains (n, g) || s.stk.pend.contains (n, g) then s
  else
    let s1 := { s with stk := { s.stk with
      pend := s.stk.pend ++ [(n, g)]
      retired := if 4096 ≤ s.retiredOf n then s.stk.retired else s.stk.retired ++ [(n, g)]
      full := if 4096 ≤ s.retiredOf n && !s.stk.full.contains n then s.stk.full ++ [n] else s.stk.full } }
    (((s1.showRetire n).showList n).raise (0x090 + n)).capFrom s

/-! ### ECC (R167-R170) -/

/-- STK_ELOG keeps the first error since it was cleared: stack-local address of the sector and KIND. -/
def State.eLog (s : State) (n addr kind : Nat) : State :=
  if s.on F.STK_ELOG_VALID n then s.wr F.STK_ELOG_OVF 1 n
  else ((s.wr F.STK_ELOG_ADDR addr n).wr F.STK_ELOG_KIND kind n).wr F.STK_ELOG_VALID 1 n

/-- A corrected error: counted, logged, and at four distinct sectors of a granule the granule is retired. -/
def State.corrected (s : State) (n loc sec : Nat) : State :=
  let g := loc / 4096
  let k := loc % 4096 / 32 + sec % 4
  let s := (s.incSat F.STK_ECC_CE n).eLog n (loc + 32 * (sec % 4)) 1
  let s := if s.stk.fixed.contains (n, g, k) then s else { s with stk := { s.stk with fixed := s.stk.fixed ++ [(n, g, k)] } }
  if 4 ≤ (s.stk.fixed.filter (fun e => e.1 == n && e.2.1 == g)).length then s.retireGranule n g else s

/-- An uncorrectable error: counted, logged, the line stored with kind POISON, the granule retired (DEDUCED, log 29). -/
def State.uncorrectable (s : State) (ln n loc sec kind : Nat) : State :=
  let s := (s.incSat F.STK_ECC_UE n).eLog n (loc + 32 * (sec % 4)) kind
  (s.setPoison ln .poison).retireGranule n (loc / 4096)

/-- A line lies in a combine buffer, which serves its reads and writes (R184). -/
def State.buffered (s : State) (ln : Nat) : Bool := s.stk.comb.any (fun c => c.line == ln)

/-- The checker's finding on a line read from DRAM; `kind` is the KIND of an uncorrectable error. -/
def State.eccRead (s : State) (ln kind : Nat) (ecc : Ecc) : State :=
  if stackTop ≤ 128 * ln || s.tripped ln || s.buffered ln then s
  else
    let n := homeOf ln
    let loc := (stackOf (128 * ln)).2
    match ecc with
    | .ok => s
    | .corrected sec => s.corrected n loc sec
    | .bad sec => s.uncorrectable ln n loc sec kind

/-- A write that reaches the stack of a line (R169, R176): its home has removed every cached copy; while the line is under way
between caches and home, the write waits (DEDUCED, log 31). -/
def State.stackWrite (s : State) (ln key : Nat) (mask : BitVec 128) (data : Line) : State :=
  let s := s.purge ln
  if stackTop ≤ 128 * ln || 16 < key || (s.dirOf ln).isSome || s.lineBusy ln then s else s.wrMask key ln mask data

/-! ### Reductions (R179-R185) -/

/-- The channel of a line: its reduction unit (R164). -/
def unitOf (ln : Nat) : Nat × Nat := (homeOf ln, (stackOf (128 * ln)).2 / 128 % 16)

/-- A line is used in its combine buffer of 32 lines: of a full buffer the line updated least recently is written back (DESIGN
CHOICE, log 86). -/
def State.useBuffer (s : State) (ln key : Nat) : State :=
  let rest := s.stk.comb.filter (fun c => c.line != ln)
  let own := rest.filter (fun c => unitOf c.line == unitOf ln)
  let rest := match own.head? with
    | some c => if 32 ≤ own.length then rest.erase c else rest
    | none => rest
  { s with stk := { s.stk with comb := rest ++ [⟨ln, key⟩] } }

/-- One element update applied to memory (Table 8.6). -/
def State.applyUpd (s : State) (u : RedUpd) : State :=
  let n := redBytes u.ty
  let a := 128 * u.line + u.off
  s.wrNat u.key a n (redUpdate ⟨u.strict, false, false⟩ u.op u.ty (s.rdNat u.key a n) u.v.toNat)

/-- A line's update meets poison (Table 8.8): its requester learns the kind with the acknowledgement. -/
def State.failUpd (s : State) (ln : Nat) (p : Poison) : State :=
  { s with coh := { s.coh with txns := s.coh.txns.map (fun t =>
    if t.msg.line == ln then { t with msg := { t.msg with pk := t.msg.pk.worse p } } else t) } }

/-- REDUCTION_APPLY: the first update of a line is applied in the combine buffer, which a DRAM read fills first; an update of a
poisoned line is dropped. Then the home goes on with the line. -/
def State.reductionApply (s : State) (ln : Nat) (ecc : Ecc) : State :=
  match s.stk.upd.find? (fun u => u.line == ln) with
  | none => s
  | some u =>
    let s := { s with stk := { s.stk with upd := s.stk.upd.erase u } }
    let s := s.eccRead ln 2 ecc
    let s := if s.tripped ln then s
      else if s.linePoison ln != .none then s.failUpd ln (s.linePoison ln)
      else
        let s := s.tallyHome (homeOf ln) 0x207 1
        let s := if s.buffered ln then s.tallyHome (homeOf ln) 0x208 1 else s.stkRead ln
        (s.useBuffer ln u.key).applyUpd u
    s.advance ln

/-- COMBINE_BUFFER_IDLE: a buffered line is written back. -/
def State.bufferIdle (s : State) (ln : Nat) : State :=
  { s with stk := { s.stk with comb := s.stk.comb.filter (fun c => c.line != ln) } }

/-! ### Refresh and temperature (R173, R174) -/

/-- Level of a temperature, Table 8.4 (DEDUCED, log 30). -/
def tempLevel (t : Nat) : Nat := if t < 45 then 0 else if t < 85 then 1 else if t < 95 then 2 else 3

/-- Lower edge of a level's band. -/
def levelEdge (l : Nat) : Nat := if l = 0 then 0 else if l = 1 then 45 else if l = 2 then 85 else 95

/-- The level that Table 8.4 requires, with its 3 degrees on the way down (DEDUCED, log 30). -/
def nextLevel (cur t : Nat) : Nat :=
  if cur ≤ tempLevel t then tempLevel t else if t + 3 ≤ levelEdge cur then tempLevel t else cur

/-- The level of a stack before MIN_LEVEL; 1 until a sample. -/
def State.tableLevel (s : State) (n : Nat) : Nat := (aget s.stk.nextLevel n).getD 1

/-- STK_TRIP: buffered lines are written back, the stack stops, and every context is aborted (17_fault_tolerance.md R349)
(DEDUCED, log 32). -/
def State.stackTrip (s : State) (n : Nat) : State :=
  let s1 := { s with stk := { s.stk with comb := s.stk.comb.filter (fun c => homeOf c.line != n) } }
  let s1 := (s1.wr F.STK_STAT_TRIP 1 n).raise (0x090 + n)
  let cs := (List.range 16).flatMap s1.liveOf
  let k := s1.startedOf cs
  let s2 := s1.lossAborts stLost cs
  let r := { s2.newRec fStkTrip 4 (s2.freeVal 1004 16) 0xFF with failed := k, aborted := ctxMask cs }
  ((s2.openRec r).closeLosses).capFrom s

/-- REFRESH_TEMP_SAMPLE (DEDUCED, log 30). -/
def State.tempSample (s : State) (n t : Nat) : State :=
  if 16 ≤ n || s.on F.STK_STAT_TRIP n then s
  else
    let t := satTo 255 t
    let l := nextLevel (s.tableLevel n) t
    let s := { s.wr F.STK_STAT_TEMP t n with stk := { s.stk with nextLevel := aput s.stk.nextLevel n l } }
    let was := s.on F.STK_STAT_THROTTLE n
    let hot := decide (105 ≤ t)
    let s := s.wr F.STK_STAT_THROTTLE (b2n hot) n
    let s := if hot && !was then s.raise (0x090 + n) else s
    if 115 ≤ t then s.stackTrip n else s

/-- REFRESH_COMMAND: the level takes effect, never below MIN_LEVEL (DEDUCED, log 30). -/
def State.refresh (s : State) (n : Nat) : State :=
  if 16 ≤ n || s.on F.STK_STAT_TRIP n then s
  else s.wr F.STK_STAT_LEVEL (max (s.tableLevel n) (s.rd F.STK_REFRESH_MIN_LEVEL n)) n

/-- STK_RETIRE.ACK: the oldest granule leaves the pending queue; the persistent list keeps it. -/
def State.retireAck (s : State) (n : Nat) : State :=
  match s.stk.pend.find? (fun e => e.1 == n) with
  | none => s
  | some e => { s with stk := { s.stk with pend := s.stk.pend.erase e } }.showRetire n

/-- REDUCTION_APPLY (R180, R184, R185). -/
def execReductionApply (ln : Nat) (ecc : Ecc) (s : State) : Host.Outcome State Fault Refusal := .next (s.reductionApply ln ecc)
/-- COMBINE_BUFFER_IDLE (R184). -/
def execCombineBufferIdle (ln : Nat) (s : State) : Host.Outcome State Fault Refusal := .next (s.bufferIdle ln)
/-- STACK_READ (R168). -/
def execStackRead (ln : Nat) (ecc : Ecc) (s : State) : Host.Outcome State Fault Refusal := .next (s.eccRead ln 2 ecc)
/-- STACK_WRITE (R169). -/
def execStackWrite (ln key : Nat) (mask : BitVec 128) (data : Line) (s : State) : Host.Outcome State Fault Refusal :=
  .next (s.stackWrite ln key mask data)
/-- PATROL_SCRUB (R170). -/
def execPatrolScrub (ln : Nat) (ecc : Ecc) (s : State) : Host.Outcome State Fault Refusal := .next (s.eccRead ln 3 ecc)
/-- REFRESH_TEMP_SAMPLE (R173). -/
def execRefreshTempSample (n t : Nat) (s : State) : Host.Outcome State Fault Refusal := .next (s.tempSample n t)
/-- REFRESH_COMMAND (R173). -/
def execRefreshCommand (n : Nat) (s : State) : Host.Outcome State Fault Refusal := .next (s.refresh n)
/-- STK_RETIRE_ACK (R171). -/
def execStkRetireAck (n : Nat) (s : State) : Host.Outcome State Fault Refusal := .next (s.retireAck n)

end Sys2Proof.Machine
end

