-- ==== Sys2Proof/Machine/Copy.lean ====
section
/-! DEFINITION. The copy engines: COPY, FILL, the captures of DUMP (13_command_submission.md R279-R281; 08_berim_stacks.md R469;
21_debug.md R427, R428), and QENQ (R282, R283). -/

namespace Sys2Proof.Machine

open Sys2Proof

/-! ### Pieces of a range (04_memory_model.md R97; 08_berim_stacks.md R169, R469; 09_caches.md R196, R197) -/

/-- Bytes of a range, from `pos` on, that lie in one line of its destination. -/
def pieceLen (dst len pos : Nat) : Nat := min (128 - (dst + pos) % 128) (len - pos)

/-- A command has sent one more piece of `n` bytes of its `total`, to be acknowledged under a serial where it goes to a home. -/
def State.sentPiece (s : State) (id : CmdId) (n total : Nat) (ser : Option Nat) : State :=
  (s.modCmd id (fun c => { c with pos := c.pos + n, sent := decide (total ≤ c.pos + n), outs := c.outs ++ ser.toList })).copyOver id

/-- A piece written: to host memory, or to the home of its line, as class 5 in the name of the service cluster; `pk` is what
its source read met. It waits while that cluster has the line under way. -/
def State.putPiece (s : State) (die : Nat) (id : CmdId) (va : Nat) (bs : List Byte) (pk : Poison) (total : Nat) : State :=
  match s.xlate die id.ctx va accWrite with
  | .host a _ => ((s.useLink die).wrHost a bs).sentPiece id bs.length total none
  | .pa a =>
    match s.svcWrite id.ctx die 5 (s.ctxKey id.ctx) a bs pk with
    | none => s
    | some (s, ser) => s.sentPiece id bs.length total (some ser)
  | _ => s

/-- The next piece of a copy from `src` to `dst`, the first `len` of the command's `total` bytes (DEDUCED, log 37). -/
def State.copyPiece (s : State) (die : Nat) (id : CmdId) (as : AccSrc) (src dst len pos total : Nat) : State :=
  let n := pieceLen dst len pos
  match s.vaStop die id.ctx accRead (src + pos) n with
  | some x => s.stopAt die id as accRead x
  | none =>
    match s.vaStop die id.ctx accWrite (dst + pos) n with
    | some x => s.stopAt die id as accWrite x
    | none =>
      match s.vaAsk die id.ctx 5 (src + pos) n with
      | (s, false) => s
      | (s, true) =>
        let pk := s.vaPoison die id.ctx (src + pos) n
        ((s.failCmd id pk.status).putPiece die id (dst + pos) (s.rdVas die id.ctx (src + pos) n) pk total).bump

/-- The next piece of a reducing COPY: the updates of one destination line go as one request; an element whose source is
poisoned makes none (R182, R185). -/
def State.redPiece (s : State) (die : Nat) (id : CmdId) (red : Nat) (strict : Bool) (src dst len pos : Nat) : State :=
  let n := pieceLen dst len pos
  let z := redSize red
  match s.vaStop die id.ctx accRead (src + pos) n with
  | some x => s.stopAt die id (copySrc die id) accRead x
  | none =>
    match s.vaStop die id.ctx accRed (dst + pos) n with
    | some x => s.stopAt die id (copySrc die id) accRed x
    | none =>
      match s.vaAsk die id.ctx 5 (src + pos) n, s.xlate die id.ctx (dst + pos) accRed with
      | (s, true), .pa a =>
        let key := s.ctxKey id.ctx
        let us := redPieces (a / 128) (a % 128) red key strict (s.rdVas die id.ctx (src + pos) n)
        let us := (us.zipIdx.filter (fun e => s.vaPoison die id.ctx (src + pos + z * e.2) z == .none)).map
          (fun e => { e.1 with cmd := some id })
        let s := s.failCmd id (s.vaPoison die id.ctx (src + pos) n).status
        if us.isEmpty then s.sentPiece id n len none
        else match s.svcSend id.ctx die (a / 128) (fun cl k => ⟨.redU, cl, a / 128, 5, false, key, 0, 0, us, k, .none⟩) with
          | none => s
          | some (s, ser) => s.sentPiece id n len (some ser)
      | (s, _), _ => s

/-! ### Parity of the copy engine (17_fault_tolerance.md R352, R353) -/

/-- CE_PARITY: the command is restarted from its first byte, or completes with ST_POISON. -/
def State.ceParity (s : State) (id : CmdId) (c : Cmd) (red : Bool) : State :=
  if c.replay && !red && c.timesReplayed 0 < s.rd F.REC_CTL_REPLAY_MAX then
    s.setCmd id { c with replayed := true, replays := aput c.replays 0 (c.timesReplayed 0 + 1), pos := 0, sent := false }
  else (s.setCmd id { c.note stPoison with sent := true }).copyOver id

/-- The copy engines of a queue's die are in reset (18_reset.md R371): they start no command, and run none. -/
def State.copyReset (s : State) (q : Nat) : Bool := (s.queueDie q).any (fun d => s.on F.RST_UNIT_COPY d)

/-- A command starts, or goes on where its engine's access had stopped. -/
def State.begin (s : State) (id : CmdId) (op : Nat) : Option (State × Cmd) :=
  match s.ready id op with
  | some c =>
    if s.copyReset c.q then none else
    let s := s.start id c (fun c => c)
    (s.cmdOf id).map (fun c => (s, c))
  | none =>
    match s.cmdOf id with
    | none => none
    | some c => if pkOp c.pkt == op && c.ph == .started && !c.done && !s.cmdWaits id then some (s, c) else none

/-- The die of a command's queue, with a service cluster for its context whose cache is awake (09_caches.md R196;
19_power_and_clocks.md R383): without one its requests wait. -/
def State.engineDie (s : State) (id : CmdId) (c : Cmd) : Option Nat :=
  match s.queueDie c.q with
  | none => none
  | some d => if s.svcOn id.ctx d && !s.copyReset c.q then some d else none

/-- A command's requests wake its service cluster's cache. -/
def State.engineWake (s : State) (id : CmdId) (c : Cmd) : State :=
  match s.queueDie c.q with
  | none => s
  | some d => s.svcWake id.ctx d

/-! ### COPY (R280) -/

/-- CE_PARITY of a COPY to a peer: its transfer is given up, and begins again from the first byte, or the command ends with
ST_POISON. -/
def State.peerParity (s : State) (id : CmdId) (c : Cmd) : State :=
  let s := match c.xfer with
    | some x => s.endSend x stPoison
    | none => s
  if c.replay && bitsOf (cpRed c.pkt) 0 2 == 0 && c.timesReplayed 0 < s.rd F.REC_CTL_REPLAY_MAX then
    s.setCmd id { c with replayed := true, replays := aput c.replays 0 (c.timesReplayed 0 + 1), xfer := none }
  else (s.failCmd id stPoison).modCmd id (fun c => { c with done := true, xfer := none })

/-- A COPY to a peer: its transfer begins, or sends on (16_yorin_fabric.md R332). -/
def State.copyPeer (s0 : State) (id : CmdId) (found : Found) : State :=
  match s0.begin id opCopy with
  | none => s0
  | some (s, c) =>
    if found == .pipe then s.peerParity id c
    else match c.xfer, s.queueDie c.q with
    | some x, _ => s.goSend x
    | none, none => s0
    | none, some die =>
      let p := c.pkt
      let va := s.moVa (cpSrc p % 2 ^ 20) + cpSrcOff p
      match s.beginSend ⟨.cmd id, cpMod p, die, s.ctxPart id.ctx, cpCtx p, cpDst p, cpDstOff p, cpLen p, cpRed p,
          (s.arithMode id.ctx 0).1, .va id.ctx va, false, false, 0, 0, false⟩ with
      | none => s0
      | some (x, s) => s.modCmd id (fun c => { c with xfer := some x })

/-- A COPY within the module: its next piece (DEDUCED, log 37). -/
def State.copyLocal (s0 : State) (id : CmdId) (found : Found) : State :=
  match s0.begin id opCopy with
  | none => s0
  | some (s, c) =>
    match s.engineDie id c with
    | none => s.engineWake id c
    | some die =>
      let p := c.pkt
      let red := bitsOf (cpRed p) 0 2 != 0
      let src := s.moVa (cpSrc p % 2 ^ 20) + cpSrcOff p
      let dst := s.moVa (cpDst p % 2 ^ 20) + cpDstOff p
      if c.sent then s
      else if found == .pipe then s.ceParity id c red
      else if red then s.redPiece die id (cpRed p) (s.arithMode id.ctx 0).1 src dst (cpLen p) c.pos
      else s.copyPiece die id (copySrc die id) src dst (cpLen p) c.pos (cpLen p)

/-- COPY. -/
def State.copyOp (s : State) (id : CmdId) (found : Found) : State :=
  match s.cmdOf id with
  | none => s
  | some c => if cpPeer c.pkt then s.copyPeer id found else s.copyLocal id found

/-! ### FILL (R279) -/

/-- FILL: the pattern goes to every aligned 8-byte unit, piece by piece (DEDUCED, log 37). -/
def State.fillOp (s0 : State) (id : CmdId) (found : Found) : State :=
  match s0.begin id opFill with
  | none => s0
  | some (s, c) =>
    match s.engineDie id c with
    | none => s.engineWake id c
    | some die =>
      let p := c.pkt
      let dst := s.moVa (flDst p % 2 ^ 20) + flOff p
      let n := pieceLen dst (flLen p) c.pos
      if c.sent then s
      else if found == .pipe then s.ceParity id c false
      else match s.vaStop die id.ctx accWrite (dst + c.pos) n with
        | some x => s.stopAt die id (copySrc die id) accWrite x
        | none => s.putPiece die id (dst + c.pos) ((List.range n).map (fun i => (leBytes 8 (flPattern p)).getD ((c.pos + i) % 8) 0)) .none
            (flLen p)

/-! ### DUMP (21_debug.md R427, R428) -/

/-- A capture armed: its step may lie ahead, run, or have completed (DEDUCED, log 37). -/
def State.arm (s : State) (id : CmdId) (c : Cmd) : State :=
  let n := dpStep c.pkt
  let put := fun (s : State) (a : Armed) => { s with dbg := { s.dbg with armed := s.dbg.armed ++ [a] } }
  if n = 2 ^ 64 - 1 then (put s ⟨id, none, none, none, false⟩).armEval
  else
    let a : Armed := ⟨id, some n, none, none, false⟩
    if s.nextSeq id.ctx ≤ n || (s.cmdOf ⟨id.ctx, n, 0⟩).isSome then (put s a).armEval
    else match aget s.cmd.past (id.ctx, n) with
      | some (op, st, q) =>
        if isStep op then (put s { a with q := some q, got := some (st, s.stamp), late := true }).bump else (put s a).armFail a
      | none => (put s a).armFail a

/-- DUMP starts and arms its capture. -/
def State.dumpOp (s : State) (id : CmdId) : State :=
  match s.ready id opDump with
  | none => s
  | some c => (s.start id c (fun c => c)).arm id c

/-- The header of a capture, Table 21.5. -/
def dumpHeader (p : List Byte) (step seq stamp bytes st : Nat) (late : Bool) : List Byte :=
  leBytes 4 0x5044584B ++ leBytes 4 0 ++ leBytes 8 (dpName p) ++ leBytes 8 step ++ leBytes 8 seq ++ leBytes 8 stamp
    ++ leBytes 8 bytes ++ leBytes 2 st ++ leBytes 1 (b2n late) ++ leBytes 13 0

/-- DUMP_CAPTURE: once its step has completed, the tensor is copied and the header written, piece by piece (DEDUCED, log 37). -/
def State.dumpCapture (s : State) (id : CmdId) (found : Found) : State :=
  match s.cmdOf id, s.dbg.armed.find? (fun a => a.dump == id) with
  | some c, some a =>
    match a.step, a.got, s.engineDie id c with
    | some _, some _, none => s.engineWake id c
    | some n, some (st, stamp), some die =>
      let p := c.pkt
      let k := dpTensor p % 2 ^ 20
      let len := s.moBytes k
      let dst := s.moVa (dpDst p % 2 ^ 20) + dpOff p
      let as : AccSrc := ⟨5, die * 16, some id, none, none⟩
      if c.ph != .started || c.done || c.sent || s.cmdWaits id then s
      else if found == .pipe then s.ceParity id c false
      else if c.pos < len then s.copyPiece die id as (s.moVa k) (dst + 64) len c.pos (len + 64)
      else
        let i := c.pos - len
        let m := pieceLen dst 64 i
        match s.vaStop die id.ctx accWrite (dst + i) m with
        | some x => s.stopAt die id as accWrite x
        | none => s.putPiece die id (dst + i) (((dumpHeader p n id.seq stamp len st a.late).drop i).take m) .none (len + 64)
    | _, _, _ => s
  | _, _ => s

/-! ### QENQ (R282, R283) -/

/-- A QENQ is issued, unless its clerk has it already. -/
def State.qenqIssued (s : State) (g : Gid) (x : Group) : State := if x.wait == .mem then s else s.issued g true true

/-- A QENQ's result goes to its register in every active lane, and the group goes on. -/
def State.qenqEnd (s : State) (g : Gid) (x : Group) (rd v : Nat) : State :=
  (((s.putAll g x rd (fun _ => BitVec.ofNat 32 v)).qenqIssued g x).modGroup g (fun y => { y with wait := .ready })).goOn g

/-- The clerk's access of a QENQ waits, and the group with it. -/
def State.qenqWait (s : State) (g : Gid) (x : Group) : State := (s.qenqIssued g x).modGroup g (fun y => { y with wait := .mem })

/-- The packet is in the ring: its queue takes it as from a doorbell write. -/
def State.qenqTake (s : State) (g : Gid) (x : Group) (id : CmdId) (rd q : Nat) (w : Swq) (met : Poison) : State :=
  if met != .none then (s.failCmd id met.status).qenqEnd g x rd 3
  else (((s.accept q w).setSwq q { w with tail := (w.tail + 1) % 2 ^ 32 }).placeQueue q).qenqEnd g x rd 0

/-- The packet at `va` appended to queue `q` (Table 13.5): read and written as class 1 (DEDUCED, log 38). -/
def State.qenqPut (s : State) (g : Gid) (x : Group) (id : CmdId) (rd q va : Nat) : State :=
  match s.swq q with
  | none => s.qenqEnd g x rd 2
  | some w =>
    if s.dying 1 q || w.ctx != id.ctx || !w.devEnq || s.rd F.SWQ_STAT_STATE q != 1 || s.ctxState id.ctx != ctxLive then s.qenqEnd g x rd 2
    else if 2 ^ w.ringLog ≤ (w.tail + 2 ^ 32 - s.rd F.SWQ_STAT_HEAD q) % 2 ^ 32 then s.qenqEnd g x rd 1
    else
      let at_ := w.ringVa + 64 * (w.tail % 2 ^ w.ringLog)
      let src := s.clerkSrc w.die q id
      match s.vaStop w.die id.ctx accRead va 64 with
      | some r => (s.stopAt w.die id src accRead r).qenqWait g x
      | none =>
        match s.vaStop w.die id.ctx accWrite at_ 64 with
        | some r => (s.stopAt w.die id src accWrite r).qenqWait g x
        | none =>
          match s.vaAsk w.die id.ctx 1 va 64 with
          | (s, false) => s.qenqWait g x
          | (s, true) =>
            let l := s.rdVas w.die id.ctx va 64
            let pk := s.vaPoison w.die id.ctx va 64
            if pk != .none then s.qenqTake g x id rd q w pk
            else match s.xlate w.die id.ctx at_ accWrite with
              | .host a _ => ((s.useLink w.die).wrHost a l).qenqTake g x id rd q w .none
              | .pa a =>
                match s.svcAsk id.ctx w.die 1 [a / 128] true with
                | (s, false) => s.qenqWait g x
                | (s, true) => let (s, p) := s.svcPut id.ctx w.die (s.ctxKey id.ctx) a l; s.qenqTake g x id rd q w p
              | _ => s

/-- What a QENQ does once it may: it waits until the group's earlier accesses are performed (a release at DEV scope) (DEDUCED,
log 38). -/
def State.qenqBody (s : State) (g : Gid) (x : Group) (id : CmdId) (rd rq ra : Nat) : State :=
  match (lanesOf x.active).head? with
  | none => (s.issued g true true).goOn g
  | some l =>
    let va := s.getRegs g x ra 2 l
    if va % 64 != 0 then s.trapNow g true tMisalign 0
    else if s.thr.ops.any (fun o => x.inOp g o) || s.cmdWaits id then s
    else s.qenqPut g x id rd (s.getReg g x rq l).toNat va

/-- QENQ: issued once for its group, or going on after its clerk's access had stopped (DEDUCED, log 38). -/
def State.qenq (s : State) (g : Gid) (rd rq ra : Nat) : State :=
  match s.group g with
  | none => s
  | some x =>
    if x.wait == .mem then
      match s.block x.bid with
      | none => s
      | some b => if s.thr.ops.any (fun o => x.inOp g o) then s else s.qenqBody g x b.cmd rd rq ra
    else s.issue g false [rd, rq, ra, ra + 1] (fun s x b _ => s.qenqBody g x b.cmd rd rq ra)

/-! ### Commands -/

/-- COPY (R280; 16_yorin_fabric.md R332). -/
def execCopy (id : CmdId) (found : Found) (s : State) : Host.Outcome State Fault Refusal := .next (s.copyOp id found)
/-- FILL (R279). -/
def execFill (id : CmdId) (found : Found) (s : State) : Host.Outcome State Fault Refusal := .next (s.fillOp id found)
/-- DUMP (21_debug.md R427). -/
def execDump (id : CmdId) (s : State) : Host.Outcome State Fault Refusal := .next (s.dumpOp id)
/-- DUMP_CAPTURE (21_debug.md R428). -/
def execDumpCapture (id : CmdId) (found : Found) (s : State) : Host.Outcome State Fault Refusal := .next (s.dumpCapture id found)
/-- QENQ (R282). -/
def execQenq (g : Gid) (rd rq ra : Nat) (s : State) : Host.Outcome State Fault Refusal := .next (s.qenq g rd rq ra)

end Sys2Proof.Machine
end

