-- ==== Sys2Proof/Machine/Folio.lean ====
section
/-! DEFINITION. The folio (02_folio.md): its checks, its load at runtime, its application, and the fields adjustable at runtime. -/

namespace Sys2Proof.Machine

open Sys2Proof

/-! ### Errors, Table 2.5, and phases, Table 2.6 -/

abbrev feNone : Nat := 0x0
abbrev feFetch : Nat := 0x2
abbrev feFormat : Nat := 0x3
abbrev feKey : Nat := 0x4
abbrev feSig : Nat := 0x5
abbrev feSvn : Nat := 0x6
abbrev feStep : Nat := 0x7
abbrev feRecord : Nat := 0x8
abbrev fePartition : Nat := 0x9
abbrev feQos : Nat := 0xA
abbrev feWays : Nat := 0xB
abbrev feRoute : Nat := 0xC
abbrev feGang : Nat := 0xD
abbrev feBusy : Nat := 0xE

abbrev phIdle : Nat := 0
abbrev phVerify : Nat := 1
abbrev phDrain : Nat := 2
abbrev phSwitch : Nat := 3
abbrev phPersist : Nat := 4

/-! ### The envelope (R34-R36) -/

/-- The header breaks a FORMAT rule: MAGIC, FMT_VER, reserved bits of FLAGS, TOTAL_LEN, reserved bytes. -/
def headBad (magic maxLen : Nat) (h : List Byte) : Bool :=
  leAt h 0 4 != magic || leAt h 4 2 != 1 || 2 ≤ leAt h 6 2 || leAt h 8 4 % 8 != 0 || leAt h 8 4 < 0x100 || maxLen < leAt h 8 4
  || leAt h 0x1A 6 != 0

/-- The signed region, the public key and the signature of an image of TOTAL_LEN bytes. -/
def signedPart (img : List Byte) : List Byte := img.take (img.length - 176)
def keyPart (img : List Byte) : List Byte := (img.drop (img.length - 176)).take 57
def sigPart (img : List Byte) : List Byte := (img.drop (img.length - 119)).take 114

/-- A public key is the one whose digest the fuse of a purpose holds; an all-zero field enrols none
(22_security_and_management.md R431, R432). -/
def State.keyFused (s : State) (purpose : Nat) (key : List Byte) : Bool :=
  let h := s.sec.keyHash.getD purpose []
  h.any (fun b => b != 0) && Config.shake256 64 key == h

/-- STEP_MASK accepts the device's stepping: bit 16 L + n of the 32 bytes at 0x20. -/
def State.stepOk (s : State) (img : List Byte) : Bool := bitsOf (leAt img 0x20 32) s.fol.step 1 == 1

/-! ### Records (R37-R44) -/

/-- A record: TYPE, INSTANCE, payload. -/
structure FRec where
  typ : Nat
  inst : Nat
  body : List Byte
  deriving DecidableEq, Repr

/-- The payload length that Table 2.2 gives a TYPE. -/
def recLenOk (typ len : Nat) : Bool :=
  match typ with
  | 1 => len == 64
  | 2 => len == 40
  | 3 => len == 64
  | 4 => len == 32
  | 5 => len == 8
  | 6 => len == 8192
  | 7 => len % 8 == 0 && len ≤ 5120
  | _ => false

/-- Exactly `n` records fill a region without gaps; none where their structure, type or length is wrong (DEDUCED, log 42). -/
def parseRecs (ok : Nat → Nat → Bool) : Nat → List Byte → Option (List FRec)
  | 0, l => if l.isEmpty then some [] else none
  | n + 1, l =>
    let len := leAt l 2 2
    if l.length < 8 + len || !ok (leAt l 0 2) len then none
    else (parseRecs ok n (l.drop (8 + len))).map (fun r => ⟨leAt l 0 2, leAt l 4 2, (l.drop 8).take len⟩ :: r)

/-- Instances of a TYPE, rising. -/
def instsOf (l : List FRec) (typ : Nat) : List Nat :=
  isort (fun a b => a ≤ b) ((l.filter (fun r => r.typ == typ)).map (fun r => r.inst))

/-- The payload of a record, empty where there is none. -/
def bodyOf (l : List FRec) (typ inst : Nat) : List Byte :=
  match l.find? (fun r => r.typ == typ && r.inst == inst) with
  | some r => r.body
  | none => []

/-- The cluster map of a folio, and the partitions it names. -/
def mapOf (l : List FRec) : List Nat := (bodyOf l 1 0).map (fun b => b.toNat)
def namedIn (m : List Nat) : List Nat := (List.range 16).filter (fun p => m.contains p)

/-- Counts and instances of Table 2.2. -/
def countsOk (l : List FRec) : Bool :=
  let named := namedIn (mapOf l)
  instsOf l 1 == [0] && instsOf l 2 == named && instsOf l 3 == [0, 1, 2] && instsOf l 4 == named && instsOf l 5 == [0]
  && instsOf l 6 == [0] && (instsOf l 7 == [] || instsOf l 7 == [0])

/-- A PART_DEF payload, Table 2.3. -/
def defOf (l : List FRec) (p : Nat) : PartDef :=
  let b := bodyOf l 2 p
  ⟨BitVec.ofNat 128 (leAt b 0 16), BitVec.ofNat 128 (leAt b 16 16), BitVec.ofNat 8 (leAt b 32 1), leAt b 33 1⟩

/-- A definition keeps R39. -/
def PartDef.ok (d : PartDef) : Bool := d.permit.toNat < 2 ^ 81 && d.dflt &&& ~~~ d.permit == 0 && d.group < 16

/-- R38 and R39 hold. -/
def partsOk (l : List FRec) : Bool :=
  (mapOf l).all (fun p => p < 16 || p == 255) && !(namedIn (mapOf l)).isEmpty && (namedIn (mapOf l)).all (fun p => (defOf l p).ok)

/-- (SHARE, MIN, MAX) of a class and partition. -/
def qosOf (l : List FRec) (c p : Nat) : Nat × Nat × Nat :=
  let b := bodyOf l 3 c
  (leAt b (4 * p) 1, leAt b (4 * p + 1) 1, leAt b (4 * p + 2) 1)

/-- R41 holds in a class. -/
def qosOk (l : List FRec) (c : Nat) : Bool :=
  let named := namedIn (mapOf l)
  let q := qosOf l c
  named.all (fun p => 1 ≤ (q p).2.1 && (q p).2.1 ≤ (q p).1 && (q p).1 ≤ (q p).2.2)
  && (List.range 16).all (fun p => named.contains p || leAt (bodyOf l 3 c) (4 * p) 4 == 0)
  && (named.map (fun p => (q p).1)).sum ≤ 256 && (named.map (fun p => (q p).2.1)).sum ≤ 256

/-- (default, permitted) masks of a partition by class. -/
def waysOf (l : List FRec) (p : Nat) : List (BitVec 16 × BitVec 16) :=
  (List.range 8).map (fun c =>
    (BitVec.ofNat 16 (leAt (bodyOf l 4 p) (4 * c) 2), BitVec.ofNat 16 (leAt (bodyOf l 4 p) (4 * c + 2) 2)))

/-- Victim counts of classes 0, 1 and 2. -/
def victimOf (l : List FRec) : List Nat := (List.range 3).map (fun c => leAt (bodyOf l 5 0) c 1)

/-- R42 holds. -/
def waysOk (l : List FRec) : Bool :=
  (namedIn (mapOf l)).all (fun p => (waysOf l p).all (fun m => m.1 != 0 && m.1 &&& ~~~ m.2 == 0))
  && (victimOf l).all (fun n => 8 ≤ n) && (victimOf l).sum == 64

/-- Two bytes at a time, little-endian. -/
def halfWords : List Byte → List Nat
  | a :: b :: r => (a.toNat + 256 * b.toNat) :: halfWords r
  | _ => []

/-- Entries of FAB_ROUTE that are not zero, by destination. -/
def routeOf (l : List FRec) : List (Nat × BitVec 12) :=
  ((halfWords (bodyOf l 6 0)).zipIdx.filter (fun (e : Nat × Nat) => e.1 != 0)).map (fun (e : Nat × Nat) => (e.2, BitVec.ofNat 12 e.1))

/-- Reserved bits are zero and so is the module's own entry (R43). -/
def State.routeOk (s : State) (l : List FRec) : Bool :=
  (halfWords (bodyOf l 6 0)).all (fun x => x < 4096)
  && (!s.on F.FAB_MODULE_VALID || (aget (routeOf l) (s.rd F.FAB_MODULE_MODULE)).isNone)

/-- GANG entries: FIRST, COUNT, GANG_ID (R44). -/
def gangOf (l : List FRec) : List (Nat × Nat × Nat) :=
  (List.range ((bodyOf l 7 0).length / 8)).map (fun i =>
    (leAt (bodyOf l 7 0) (8 * i) 2, leAt (bodyOf l 7 0) (8 * i + 2) 2, leAt (bodyOf l 7 0) (8 * i + 4) 1))

/-- Two gang entries put no domain into two gangs. -/
def gangApart (a b : Nat × Nat × Nat) : Bool := a.2.2 == b.2.2 || a.1 + a.2.1 ≤ b.1 || b.1 + b.2.1 ≤ a.1 || a.2.1 == 0 || b.2.1 == 0

/-- R44 holds: no uncore or island domain is in a gang, and each domain in at most one. -/
def gangOk (l : List FRec) : Bool :=
  (gangOf l).all (fun e => e.2.1 == 0 || e.1 + e.2.1 ≤ 620) && (gangOf l).all (fun a => (gangOf l).all (gangApart a))

/-- The folio of an image whose records are these. SERIAL is not kept: Table 2.1 calls it reported, and no register,
capability word or measurement of the spec reports it (DESIGN CHOICE, log 78). -/
def folioOf (img : List Byte) (l : List FRec) : Folio :=
  let named := namedIn (mapOf l)
  { clusters := mapOf l
    defs := named.map (fun p => (p, defOf l p))
    qos := (List.range 3).map (fun c => (List.range 16).map (qosOf l c))
    ways := named.map (fun p => (p, waysOf l p))
    victim := victimOf l
    route := routeOf l
    gang := gangOf l
    svn := leAt img 0xC 4
    raise := bitsOf (leAt img 6 2) 0 1 == 1
    ident := Config.shake256 32 (signedPart img) }

/-- The checks of Table 2.5 beyond FETCH and FORMAT, in its order, over a whole image. -/
def State.imageErr (s : State) (img : List Byte) : Nat :=
  if !s.keyFused 1 (keyPart img) then feKey
  else if !Config.ed448Verify (keyPart img) (signedPart img) (sigPart img) then feSig
  else if leAt img 0xC 4 < s.fol.svnMin then feSvn
  else if !s.stepOk img then feStep
  else match parseRecs recLenOk (leAt img 0x18 2) ((signedPart img).drop 64) with
  | none => feRecord
  | some l =>
    if leAt img 0x18 2 < 1 || 4096 < leAt img 0x18 2 || !countsOk l then feRecord
    else if !partsOk l then fePartition
    else if !(List.range 3).all (qosOk l) then feQos
    else if !waysOk l then feWays
    else if !s.routeOk l then feRoute
    else if !gangOk l then feGang
    else feNone

/-- The checks of R45 on an image read through `fetch`, which gives its first bytes where they can be read: the first failing
check, and the image (DEDUCED, log 41). -/
def State.folioCheck (s : State) (fetch : Nat → Option (List Byte)) : Nat × List Byte :=
  match fetch 64 with
  | none => (feFetch, [])
  | some h =>
    if headBad 0x4F46584B 0x100000 h then (feFormat, [])
    else match fetch (leAt h 8 4) with
    | none => (feFetch, [])
    | some img => (s.imageErr img, img)

/-- The folio of an image that passed. -/
def folioIn (img : List Byte) : Folio :=
  folioOf img ((parseRecs recLenOk (leAt img 0x18 2) ((signedPart img).drop 64)).getD [])

/-! ### The safe folio (R47) -/

/-- The folio of the boot ROM. -/
def safeFolio : Folio where
  clusters := List.replicate 64 0
  defs := [(0, ⟨BitVec.ofNat 128 (2 ^ 64 - 1 + 2 ^ 80), BitVec.ofNat 128 (2 ^ 64 - 1 + 2 ^ 80), 4#8, 0⟩)]
  qos := List.replicate 3 ((255, 1, 255) :: List.replicate 15 (0, 0, 0))
  ways := [(0, List.replicate 8 (0xFFFF#16, 0xFFFF#16))]
  victim := [22, 21, 21]
  route := []
  gang := []
  svn := 0
  raise := false
  ident := List.replicate 32 0

/-- Contexts, not FREE, of the partitions that the folio being loaded affects. -/
def State.affectedCtxs (s : State) (f : Folio) : List Nat :=
  (s.obj.ctxs.filter (fun e => s.ctxState e.1 != ctxFree && affected s.fol.cur f e.2.part)).map (fun e => e.1)

/-! ### Application -/

/-- SHARE, MIN, MAX and way masks of one partition set to the folio's values. -/
def State.adjDefaults (f : Folio) (s : State) (p : Nat) : State :=
  let ex := (aget f.defs p).isSome
  let s := (List.range 3).foldl (fun s c =>
    let q := if ex then (f.qos.getD c []).getD p (0, 0, 0) else (0, 0, 0)
    ((s.wr F.QOS_ADJ_SHARE q.1 c p).wr F.QOS_ADJ_MIN q.2.1 c p).wr F.QOS_ADJ_MAX q.2.2 c p) s
  (List.range 8).foldl (fun s c =>
    let m := ((aget f.ways p).getD []).getD c (0#16, 0#16)
    (s.wr F.WAY_ADJ_MASK m.1.toNat p c).wr F.WAY_ADJ_PERMIT m.2.toNat p c) s

/-- A cluster that no partition owns under the folio is written back and held off (R38). -/
def State.unassign (s : State) (cl : Nat) : State :=
  if s.on F.REC_CNT_QUAR cl then s
  else
    let s := s.flushCluster cl
    if s.flushing cl then { s with rcv := { s.rcv with wb := s.rcv.wb ++ [cl] } } else s.clusterOff cl

/-- Every record of a folio takes force: adjustable fields, FOLIO_ID, SAFE (DEDUCED, log 41). -/
def State.applyFolio (s : State) (f : Folio) (safe : Bool) : State :=
  let s := { s with fol := { s.fol with cur := f } }
  let s := (List.range 16).foldl (State.adjDefaults f) s
  let s := (List.range 4).foldl (fun s n => s.wr F.FOLIO_ID_ID (leAt f.ident (8 * n) 8) n) s
  s.wr F.FOLIO_STAT_SAFE (b2n safe)

/-- The new IRQ_DEFAULT, or zero, for every source of a context (15_interrupts.md R311) (DEDUCED, log 41). -/
def State.retarget (s : State) (c : Nat) : State :=
  let m := match s.partDef (s.ctxPart c) with
    | some d => d.dflt
    | none => 0
  (ctxSrcs c).foldl (fun s n => s.setMask n m) s

/-- The load returns to IDLE: DONE is set and the source raised (R49). -/
def State.loadEnd (s : State) : State :=
  let s := { s with fol := { s.fol with next := none, img := [] } }
  ((s.wr F.FOLIO_STAT_PHASE phIdle).wr F.FOLIO_STAT_DONE 1).raise 0x000

/-- The load is rejected. -/
def State.loadFail (s : State) (e : Nat) : State := (s.wr F.FOLIO_STAT_ERR e).loadEnd

/-! ### The load at runtime (R49-R56) -/

/-- FOLIO_LOAD: a LOAD during a load starts nothing and sets BUSY_HIT (R54). A load runs with FORCE and PERSIST as its LOAD
wrote them (DESIGN CHOICE, log 63). -/
def State.folioLoad (s : State) (force persist : Bool) : State :=
  let s := (s.wr F.FOLIO_CTL_FORCE (b2n force)).wr F.FOLIO_CTL_PERSIST (b2n persist)
  if s.rd F.FOLIO_STAT_PHASE != phIdle then s.wr F.FOLIO_STAT_BUSY_HIT 1
  else
    let q := (List.range 64).filter (fun n => s.on F.REC_CNT_QUAR n)
    ({ s with fol := { s.fol with force := force, persist := persist, quarAt := q } }).wr F.FOLIO_STAT_PHASE phVerify

/-- The first bytes of the staged image, as K0 reads them under the device key when VERIFY ends, at the address FOLIO_STAGE
then holds (DESIGN CHOICE, log 63). -/
def State.staged (s : State) (n : Nat) : Option (List Byte) :=
  let a := s.rd F.FOLIO_STAGE_ADDR * 8
  if stackTop < a + n || s.poisonOf a n != .none then none else some (s.rdBytes devKey a n)

/-- FOLIO_VERIFY_DONE. -/
def State.folioVerify (s : State) : State :=
  if s.rd F.FOLIO_STAT_PHASE != phVerify then s
  else
    let (e, img) := s.folioCheck s.staged
    if e = feNone then
      ({ s with fol := { s.fol with img := img, next := some (folioIn img) } }).wr F.FOLIO_STAT_PHASE phDrain
    else s.loadFail e

/-- FOLIO_DRAIN_DONE: without FORCE a context that is not FREE rejects the load; with it, contexts are aborted and SWITCH begins
once none is ABORTING or DESTROYING. -/
def State.folioDrain (s : State) : State :=
  match s.rd F.FOLIO_STAT_PHASE == phDrain, s.fol.next with
  | true, some f =>
    let cs := s.affectedCtxs f
    if !s.fol.force then if cs.isEmpty then s.wr F.FOLIO_STAT_PHASE phSwitch else s.loadFail feBusy
    else
      let s := cs.foldl (fun s c => s.abortCtx c stAborted) s
      if cs.any (fun c => s.ctxState c == ctxAborting || s.ctxState c == ctxDestroying) then s
      else s.wr F.FOLIO_STAT_PHASE phSwitch
  | _, _ => s

/-- FOLIO_SWITCH_DONE: the folio is applied on all dies, and clusters that were quarantined before the load begin their
self-test (17_fault_tolerance.md R348) (DEDUCED, log 41). -/
def State.folioSwitch (s : State) : State :=
  match s.rd F.FOLIO_STAT_PHASE == phSwitch, s.fol.next with
  | true, some f =>
    let old := s
    let hit := s.affectedCtxs f
    let off := (List.range 64).filter (fun n => s.clusterPart n != 255 && f.clusters.getD n 255 == 255)
    let on_ := (List.range 64).filter (fun n => s.clusterPart n == 255 && f.clusters.getD n 255 != 255 && !s.on F.REC_CNT_QUAR n)
    let back := s.fol.quarAt.filter (fun n => s.on F.REC_CNT_QUAR n && f.clusters.getD n 255 != 255
      && bitsOf (s.rd F.REC_HOLD_HOLD) n 1 == 0)
    let s := off.foldl State.unassign s
    let s := (s.applyFolio f false).wr F.FOLIO_STAT_ERR feNone
    let s := hit.foldl State.retarget s
    let s := on_.foldl (fun s n => (clusterDoms n).foldl (fun s d => s.setDom domWaking d) s) s
    let s := { s with rcv := { s.rcv with testing := s.rcv.testing ++ back.filter (fun n => !s.rcv.testing.contains n) } }
    let s := if f.raise then
        ({ s with fol := { s.fol with svnMin := max s.fol.svnMin f.svn } }).wr F.FOLIO_STAT_SVN_MIN (max s.fol.svnMin f.svn)
      else s
    let s := s.capFrom old
    if s.fol.persist then s.wr F.FOLIO_STAT_PHASE phPersist else s.loadEnd
  | _, _ => s

/-- FOLIO_PERSIST_DONE: the spare slot holds the image and becomes the boot slot; the write waits for a firmware image write
in progress, and one that waits begins at its end (22_security_and_management.md Table 22.3). -/
def State.folioPersist (s : State) : State :=
  if s.rd F.FOLIO_STAT_PHASE != phPersist || s.sec.writing == 2 then s
  else
    let f := s.fol
    let f := if f.boot = some false then { f with slot1 := f.img, boot := some true } else { f with slot0 := f.img, boot := some false }
    { s with fol := f, sec := { s.sec with writing := if s.sec.writing == 1 then 2 else s.sec.writing } }.loadEnd

/-! ### The boot folio (R46) -/

/-- The boot folio is checked and applied, or the safe folio. -/
def State.bootFolio (s : State) : State :=
  match s.fol.boot with
  | none => s.applyFolio safeFolio true
  | some b =>
    let img := if b then s.fol.slot1 else s.fol.slot0
    let r := s.folioCheck (fun n => if img.length < n then none else some (img.take n))
    if r.1 = feNone then s.applyFolio (folioIn r.2) false else (s.applyFolio safeFolio true).wr F.FOLIO_STAT_ERR r.1

/-! ### Runtime adjustment (R57) -/

/-- QOS_ADJ_WRITE. The fields of a partition that does not exist ignore a write, in SWITCH too, where it sets no ADJ_DROP
(DESIGN CHOICE, log 79). -/
def State.qosAdj (s : State) (c p v : Nat) : State :=
  if 3 ≤ c || (s.partDef p).isNone then s
  else if s.rd F.FOLIO_STAT_PHASE == phSwitch then s.wr F.FOLIO_STAT_ADJ_DROP 1
  else
    let sum := ((s.fol.cur.defs.filter (fun e => e.1 != p)).map (fun e => s.rd F.QOS_ADJ_SHARE c e.1)).sum + v
    if v < s.rd F.QOS_ADJ_MIN c p || s.rd F.QOS_ADJ_MAX c p < v || 256 < sum then s.wr F.FOLIO_STAT_ADJ_REJ 1
    else s.wr F.QOS_ADJ_SHARE v c p

/-- WAY_ADJ_WRITE; a partition that does not exist as for QOS_ADJ (DESIGN CHOICE, log 79). -/
def State.wayAdj (s : State) (p c : Nat) (m : BitVec 16) : State :=
  if 8 ≤ c || (s.partDef p).isNone then s
  else if s.rd F.FOLIO_STAT_PHASE == phSwitch then s.wr F.FOLIO_STAT_ADJ_DROP 1
  else if m == 0 || m &&& ~~~ BitVec.ofNat 16 (s.rd F.WAY_ADJ_PERMIT p c) != 0 then s.wr F.FOLIO_STAT_ADJ_REJ 1
  else s.wr F.WAY_ADJ_MASK m.toNat p c

/-- FOLIO_LOAD (R49, R54). -/
def execFolioLoad (force persist : Bool) (s : State) : Host.Outcome State Fault Refusal := .next (s.folioLoad force persist)
/-- FOLIO_VERIFY_DONE (R45). -/
def execFolioVerifyDone (s : State) : Host.Outcome State Fault Refusal := .next s.folioVerify
/-- FOLIO_DRAIN_DONE (R48). -/
def execFolioDrainDone (s : State) : Host.Outcome State Fault Refusal := .next s.folioDrain
/-- FOLIO_SWITCH_DONE (R49, R53). -/
def execFolioSwitchDone (s : State) : Host.Outcome State Fault Refusal := .next s.folioSwitch
/-- FOLIO_PERSIST_DONE (R52). -/
def execFolioPersistDone (s : State) : Host.Outcome State Fault Refusal := .next s.folioPersist
/-- QOS_ADJ_WRITE (R57). -/
def execQosAdjWrite (c p : Nat) (v : Byte) (s : State) : Host.Outcome State Fault Refusal := .next (s.qosAdj c p v.toNat)
/-- WAY_ADJ_WRITE (R57). -/
def execWayAdjWrite (p c : Nat) (m : BitVec 16) (s : State) : Host.Outcome State Fault Refusal := .next (s.wayAdj p c m)

end Sys2Proof.Machine
end

