-- ==== Sys2Proof/Machine/Firmware.lean ====
section
/-! DEFINITION. The firmware image: its checks, its keys, its start, and the calibration applied at boot
(22_security_and_management.md R431-R438, R442). -/

namespace Sys2Proof.Machine

open Sys2Proof

/-! ### The image (R435, Table 22.2) -/

/-- Sections have lengths that are multiples of 8; KEYS has 128 bytes (DEDUCED, log 42). -/
def sectionLenOk (typ len : Nat) : Bool := 1 ≤ typ && typ ≤ 4 && len % 8 == 0 && (typ != 4 || len == 128)

/-- The sections of an image, where their structure is right. -/
def sectionsOf (img : List Byte) : Option (List FRec) := parseRecs sectionLenOk 4 ((signedPart img).drop 64)

/-- The KEYS section. -/
def keysOf (img : List Byte) : List Byte :=
  match sectionsOf img with
  | some l => match l.find? (fun r => r.typ == 4) with
    | some r => r.body
    | none => []
  | none => []

/-- The debug and the fabric public key of an image. -/
def debugKey (img : List Byte) : List Byte := (keysOf img).take 57
def fabricKey (img : List Byte) : List Byte := ((keysOf img).drop 57).take 57

/-- One section of each TYPE, and KEYS padded with zeros. -/
def sectionsOk (img : List Byte) : Bool :=
  match sectionsOf img with
  | some l => isort (fun a b => a ≤ b) (l.map (fun r => r.typ)) == [1, 2, 3, 4] && ((keysOf img).drop 114).all (fun b => b == 0)
  | none => false

/-- The header keeps the FORMAT rules of R435. -/
def imageFormatOk (img : List Byte) : Bool :=
  !headBad 0x5746584B 0x1000000 (img.take 64) && leAt img 8 4 == img.length && leAt img 0x18 2 == 4

/-- SVN and RAISE_SVN of an image. -/
def imageSvn (img : List Byte) : Nat := leAt img 0xC 4
def imageRaises (img : List Byte) : Bool := bitsOf (leAt img 6 2) 0 1 == 1

/-- An image passes R435 and R437. -/
def State.imageOk (s : State) (img : List Byte) : Bool :=
  imageFormatOk img && s.keyFused 0 (keyPart img) && Config.ed448Verify (keyPart img) (signedPart img) (sigPart img)
  && s.sec.svnMin ≤ imageSvn img && s.stepOk img && sectionsOk img

/-- SEC_FW.STATE changes: FW_EVENT (R445). -/
def State.fwState (s : State) (v : Nat) : State :=
  if s.rd F.SEC_FW_STATE == v then s else (s.wr F.SEC_FW_STATE v).raise 0x030

/-- The image in flash is started (step 7): its registers, and its keys against their fuses (R436). -/
def State.startImage (s : State) : State :=
  let img := s.sec.image
  let s := { s with sec := { s.sec with running := img } }
  let s := (s.wr F.SEC_FW_SVN (imageSvn img)).wr F.SEC_FW_VER_VERSION (leAt img 0x10 8)
  let s := (s.wr F.SEC_FW_KEYS_OK (b2n (s.keyFused 2 (debugKey img)))).wr F.SEC_FW_FABKEY_OK (b2n (s.keyFused 3 (fabricKey img)))
  s.fwState 0

/-- The running image reached READY: RAISE_SVN raises FW_SVN_MIN (R437). -/
def State.raiseSvn (s : State) : State :=
  if imageRaises s.sec.running then
    let v := max s.sec.svnMin (imageSvn s.sec.running)
    ({ s with sec := { s.sec with svnMin := v } }).wr F.SEC_FW_MIN_SVN_MIN v
  else s

/-! ### Identity (R433) and calibration (R442) -/

/-- The identity public key. -/
def State.devKeyPub (s : State) : List Byte :=
  Config.ed448Public (Config.shake256 57 (s.sec.idSeed ++ [0x4B, 0x58, 0x34, 0x2D, 0x49, 0x44]))

/-- The device identity. -/
def State.devId (s : State) : List Byte := Config.shake256 32 s.devKeyPub

/-- SEC_DEVID reports the identity. -/
def State.showId (s : State) : State :=
  (List.range 4).foldl (fun s n => s.wr F.SEC_DEVID_ID (leAt s.devId (8 * n) 8) n) s

/-- A calibration set passes its CRC. -/
def Cal.ok (c : Cal) : Bool := !c.torn && crc64 c.data == c.crc

/-- The set as stored in flash: its bytes, SOURCE, CRC (DEDUCED, log 42). -/
def Cal.stored (c : Cal) : List Byte := c.data ++ [c.source] ++ leBytes 8 c.crc.toNat

/-- Calibration applied at step 5, or safe defaults: without it the clock cap of R388 holds. -/
def State.applyCal (s : State) : State :=
  match s.sec.cal with
  | some c =>
    if c.ok && s.rd F.SEC_FW_STATE != 2 then
      (s.wr F.SEC_CAL_VALID 1).wr F.SEC_CAL_SOURCE c.source.toNat
    else s.wr F.PWR_CLK_NOCAL 1
  | none => s.wr F.PWR_CLK_NOCAL 1

end Sys2Proof.Machine
end

