-- ==== Sys2Proof/Machine/Threads.lean ====
section
/-! DEFINITION. The rows of 03_thread_execution.md: placement of blocks, the mask stack, identity, votes, exchanges, barriers,
LKG, regroup points and traps; and the ordinary vector-engine instruction. -/

namespace Sys2Proof.Machine

open Sys2Proof

/-! ### Placement (R58-R61, R186-R188, R275) -/

/-- Blocks of a core. -/
def State.blocksOn (s : State) (core : Nat) : List (Nat × Block) := s.thr.blocks.filter (fun e => e.2.core == core)

/-- Slots, pages and granules of a core in use. -/
def State.usedSlots (s : State) (core : Nat) : List Nat := (s.blocksOn core).flatMap (fun e => e.2.slots)
def State.usedPages (s : State) (core : Nat) : List Nat :=
  (s.thr.groups.filter (fun e => e.1.core == core)).flatMap (fun e => e.2.pages)
def State.usedGran (s : State) (core : Nat) : List Nat := (s.blocksOn core).flatMap (fun e => e.2.gran)

/-- The slot of the next group: the lowest free one of the port with the fewest occupied, ties to the lower port (R60). -/
def nextSlot (used : List Nat) : Option Nat :=
  let free := (List.range 64).filter (fun k => !used.contains k)
  let load := fun (p : Nat) => (used.filter (fun k => k % 4 == p)).length
  match isort (fun a b => load a < load b || (load a == load b && a ≤ b)) ((List.range 4).filter (fun p => free.any (fun k => k % 4 == p))) with
  | [] => none
  | p :: _ => free.find? (fun k => k % 4 == p)

/-- Slots of `n` groups in group order. -/
def placeSlots : Nat → List Nat → List Nat → Option (List Nat)
  | 0, _, acc => some acc
  | n + 1, used, acc =>
    match nextSlot used with
    | none => none
    | some k => placeSlots n (used ++ [k]) (acc ++ [k])

/-- The domain of a core is ready for a block, after an OFF core has been woken on the device's own authority, its cluster
cache first (19_power_and_clocks.md R383, R384). -/
def State.wakeCore (s : State) (core : Nat) : State × Bool :=
  let cc := 512 + core / 8
  if s.dom core == domOn && s.dom cc == domOn then (s, true)
  else if s.dom core == domDraining then ((s.setDom domOn core).gateSettle, s.dom cc == domOn)
  else if !s.on F.PWR_POLICY_AUTO || s.heldOff (core / 8) then (s, false)
  else if s.dom cc == domDraining then ((s.setDom domOn cc).gateSettle, false)
  else if s.dom cc == domOff then (s.setDom domWaking cc, false)
  else if s.dom cc == domOn && s.dom core == domOff then (s.setDom domWaking core, false)
  else (s, false)

/-- The lines of an L1 in the ways beyond a size (R186). -/
def State.beyondL1 (s : State) (core steps : Nat) : List Nat :=
  (s.coh.l1.filter (fun e => e.1.unit == core && 4 * steps ≤ e.2.way)).map (fun e => e.1.line)

/-- An empty core that a launch asks for a smaller L1 gives up the lines of the ways that are removed (R186). -/
def State.shrinkL1 (s : State) (core steps : Nat) : State :=
  if (s.blocksOn core).isEmpty then (s.beyondL1 core steps).foldl (fun s ln => s.evictL1 core ln) s else s

/-- The L1 size of an empty core set to the one that a launch requests; none while a line of the ways that are removed is
still to be written back (R186). -/
def State.resizeL1 (s : State) (core steps : Nat) : Option State :=
  if !(s.blocksOn core).isEmpty then some s
  else if (s.beyondL1 core steps).isEmpty then some (s.wr F.LS_SPLIT_L1_STEPS steps (core / 8) (core % 8))
  else none

/-- A core can take a block of a launch: it is in service for the launch's partition, and every resource is free at once. -/
def State.fits (s : State) (core : Nat) (id : CmdId) (p : List Byte) : Bool :=
  core < 512 && s.clusterPart (core / 8) == s.ctxPart id.ctx && !s.on F.REC_CNT_QUAR (core / 8)
  && !s.rcv.cores.contains core && !s.clusterReset (core / 8)
  && (placeSlots (lnGroups p) (s.usedSlots core) []).isSome
  && (s.usedPages core).length + lnGroups p * lnPages p ≤ 512
  && (s.usedGran core).length + lnScratch p ≤ 64 * (6 - s.l1Steps core)
  && (!lnM0 p || (s.blocksOn core).all (fun e => !e.2.m0)) && (!lnM1 p || (s.blocksOn core).all (fun e => !e.2.m1))

/-- An empty shadow slot, and a fresh engine (05_matrix_engines.md R105). -/
def emptySlot : MxSlot := ⟨none, 0, 0, [], [], false⟩
def freshEngine (bid : Nat) : Engine := ⟨bid, [], none, [], none, [], [], emptySlot, emptySlot, []⟩

/-- A group at launch (R58, R67, R80) (DEDUCED, log 14). -/
def freshGroup (bid k slot threads entry : Nat) (pages : List Nat) : Group :=
  let live : Mask := BitVec.ofNat 32 (2 ^ min 32 (threads - 32 * k) - 1)
  ⟨bid, k, BitVec.ofNat 57 entry, live, live, [], pages, .ready, 0, 0, none, 0, 0, 0, false, List.replicate 32 slot,
    List.replicate 32 0, List.replicate 32 0⟩

/-- The registers of a group at launch: 0 and 1 hold ARGS in every thread, every other zero (13_command_submission.md R280). -/
def argEntries (core : Nat) (pages : List Nat) (args : Nat) (live : Mask) : List (RfKey × W32) :=
  match pages.head? with
  | none => []
  | some g => (lanesOf live).flatMap (fun l =>
    [(RfKey.mk core g 0 l, BitVec.ofNat 32 args), (RfKey.mk core g 1 l, BitVec.ofNat 32 (args / 2 ^ 32))])

/-- The pages of a block's groups take their values at launch. -/
def State.loadPages (s : State) (core : Nat) (groups : List (Gid × Group)) (args : Nat) : State :=
  let mine := groups.flatMap (fun e => e.2.pages)
  let kept := s.thr.rf.filter (fun e => !(e.1.core == core && mine.contains e.1.page))
  { s with thr := { s.thr with rf := kept ++ groups.flatMap (fun e => argEntries core e.2.pages args e.2.live) } }

/-- One block placed on a core; its groups take the lowest-numbered free register pages in group order (R59) (DESIGN CHOICE,
log 77). -/
def State.putBlock (s : State) (id : CmdId) (p : List Byte) (core index : Nat) (cohort : Option (Nat × Nat)) : State :=
  match placeSlots (lnGroups p) (s.usedSlots core) [] with
  | none => s
  | some slots =>
    let bid := s.thr.serial
    let pages := (List.range 512).filter (fun k => !(s.usedPages core).contains k)
    let gran := ((List.range (64 * (6 - s.l1Steps core))).filter (fun k => !(s.usedGran core).contains k)).take (lnScratch p)
    let groups := slots.zipIdx.map (fun (slot, k) =>
      (Gid.mk core slot, freshGroup bid k slot (lnThreads p) (lnEntry p) ((pages.drop (k * lnPages p)).take (lnPages p))))
    let m0 := if lnM0 p then [(MxKey.mk core 0, freshEngine bid)] else []
    let m1 := if lnM1 p then [(MxKey.mk core 1, freshEngine bid)] else []
    let s := { s with
      thr := { s.thr with
        blocks := s.thr.blocks ++ [(bid, Block.mk id index core slots gran (lnM0 p) (lnM1 p) cohort gran.isEmpty false)]
        groups := s.thr.groups ++ groups
        serial := bid + 1 }
      mx := { s.mx with eng := s.mx.eng ++ m0 ++ m1 } }
    ((s.loadPages core groups (lnArgs p)).coreTag core id).clockCore core

/-- Free cohort of a cluster's barrier unit (R73). -/
def State.freeCohort (s : State) (cl : Nat) : Option Nat :=
  (List.range 16).find? (fun k => s.thr.blocks.all (fun e => e.2.cohort != some (cl, k)))

/-- The indices of the next blocks of a launch: lost ones first, those of one cohort of `n` together as far as they had not ended
(17_fault_tolerance.md R352, R353), with whether they are such (DEDUCED, log 19). -/
def Cmd.nextBlocks (c : Cmd) (n : Nat) : Option (List Nat × Bool) :=
  match c.again with
  | i :: _ => some (c.again.filter (fun j => j / n == i / n), true)
  | [] => if !c.noMore && c.blocks + n ≤ lnBlocks c.pkt then some ((List.range n).map (fun k => c.blocks + k), false) else none

/-- Every core has its L1 size set, or one cannot yet. -/
def State.resizeAll (steps : Nat) : List Nat → State → Option State
  | [], s => some s
  | k :: r, s =>
    match s.resizeL1 k steps with
    | none => none
    | some s => State.resizeAll steps r s

/-- A launch could place its next block, or its next cohort, where these cores are (R60, R73). -/
def State.competes (s : State) (cores : List Nat) (id : CmdId) (c : Cmd) : Bool :=
  let p := c.pkt
  let n := max 1 (lnCohort p)
  let free := fun (k : Nat) => ((s.resizeL1 k (lnSteps p)).getD s).fits k id p
  pkOp p == opLaunch && c.ph == .started && s.ctxState id.ctx != ctxSaved && !s.isSaving id.ctx
  && cores.any free && (match c.nextBlocks n with
    | none => false
    | some (l, _) => lnCohort p == 0 ||
      (l.length ≤ ((coresOf (cores.headD 0 / 8)).filter free).length && (s.freeCohort (cores.headD 0 / 8)).isSome))

/-- A launch comes before another: the higher PRIO of its queue, then the one that placed a block less recently
(13_command_submission.md R275). -/
def State.comesFirst (s : State) (a b : Cmd) : Bool :=
  let prio := fun (c : Cmd) => match s.swq c.q with
    | some w => w.prio
    | none => 0
  prio b < prio a || (prio a == prio b && a.turn < b.turn)

/-- A running launch of the partition that competes for these cores comes before this one (R275). -/
def State.outranked (s : State) (cores : List Nat) (id : CmdId) (c : Cmd) : Bool :=
  s.cmd.cmds.any (fun e => e.1 != id && s.ctxPart e.1.ctx == s.ctxPart id.ctx && s.comesFirst e.2 c && s.competes cores e.1 e.2)

/-- BLOCK_PLACE (R60, R73; 13_command_submission.md R275): one block on one core, or one cohort on as many distinct cores of
one cluster, all at once. -/
def State.blockPlace (s : State) (id : CmdId) (cores : List Nat) : State :=
  match s.cmdOf id with
  | none => s
  | some c =>
    let p := c.pkt
    let n := max 1 (lnCohort p)
    let cl := cores.headD 0 / 8
    let coh : Option (Option (Nat × Nat)) := if lnCohort p = 0 then some none else (s.freeCohort cl).map (fun k => some (cl, k))
    match c.nextBlocks n, coh with
    | some (idx, lost), some coh =>
      if pkOp p != opLaunch || c.ph != .started || cores.length != idx.length || cores.dedup.length != idx.length
          || cores.any (fun k => k / 8 != cl) || s.ctxState id.ctx == ctxSaved || s.isSaving id.ctx || s.outranked cores id c then s
      else
        let (s, ready) := cores.foldl (fun (s, ok) k => let (s, r) := s.wakeCore k; (s, ok && r)) (s, true)
        let s := cores.foldl (fun s k => s.shrinkL1 k (lnSteps p)) s
        if !ready then s
        else match State.resizeAll (lnSteps p) cores s with
          | none => s
          | some s' =>
            if !cores.all (fun k => s'.fits k id p) then s
            else
              let s' := (cores.zip idx).foldl (fun s (k, i) => s.putBlock id p k i coh) s'
              let s' := s'.modCmd id (fun c => if lost then { c with again := c.again.filter (fun j => !idx.contains j) } else { c with blocks := c.blocks + n })
              { s'.modCmd id (fun c => { c with turn := s'.cmd.order }) with cmd.order := s'.cmd.order + 1 }
    | _, _ => s

/-- SCRATCH_ZERO_DONE (09_caches.md R188): the block's granules read zero, and its groups are ready. -/
def State.scratchZeroed (s : State) (bid : Nat) : State :=
  match s.block bid with
  | none => s
  | some b =>
    if b.zeroed then s
    else
      let mine := fun (a : Nat) => a / 2 ^ 20 == b.core && b.gran.contains (a % 2 ^ 20 / 1024)
      ({ s with thr := { s.thr with scr := s.thr.scr.filter (fun e => !mine e.1) } }).setBlock bid { b with zeroed := true }

/-! ### The mask stack, Table 3.4 -/

/-- An instruction of the vector engine that passes the port alone. -/
def State.vec (s : State) (g : Gid) (bad : Bool) (regs : List Nat) (body : State → Group → Block → Cmd → State) : State :=
  s.issue g bad regs (fun s x b c => body ((s.issued g true false).tallyG g 0x020 (lanesOf x.active).length) x b c)

/-- An instruction that leaves the group's masks and goes on. -/
def State.plain (s : State) (g : Gid) (bad : Bool) (regs : List Nat) (body : State → Group → Block → State) : State :=
  s.vec g bad regs (fun s x b _ => (body s x b).goOn g)

/-- RPUSH. -/
def State.rpush (s : State) (g : Gid) (target : Pc) : State :=
  s.vec g false [] (fun s x _ _ =>
    if 32 ≤ x.stack.length then s.trapAfter g tDepth 0
    else (s.modGroup g (fun y => { y with stack := ⟨.sync, x.active, target, 0, .grp⟩ :: y.stack })).goOn g)

/-- BRA.DIV. -/
def State.braDiv (s : State) (g : Gid) (pd : Nat) (target : Pc) : State :=
  s.vec g false [] (fun s x _ _ =>
    let taken : Mask := (lanesOf x.active).foldl (fun m l => if s.getPred g x pd l then m ||| laneBit l else m) 0
    if taken == 0 then s.goOn g
    else if taken == x.active then s.modGroup g (fun y => { y with pc := target })
    else if 32 ≤ x.stack.length then s.trapAfter g tDepth 0
    else s.modGroup g (fun y =>
      { y with stack := ⟨.pend, x.active &&& ~~~taken, Config.nextPc x.pc, 0, .grp⟩ :: y.stack, active := taken, pc := target }))

/-- The top entry is a LOCK. -/
def Group.inLock (x : Group) : Bool :=
  match x.stack with
  | e :: _ => e.kind == SKind.lock
  | [] => false

/-- The top entry popped as RSYNC does. -/
def Group.rsync (x : Group) : Group :=
  match x.stack with
  | [] => { x with pc := Config.nextPc x.pc }
  | e :: r =>
    if e.kind == SKind.pend then { x with stack := r, active := e.mask, pc := e.pc }
    else { x with stack := r, active := e.mask &&& x.live, pc := e.pc }

/-- RSYNC. -/
def State.rsyncOp (s : State) (g : Gid) : State :=
  s.vec g false [] (fun s x _ _ => if x.inLock then s.trapAfter g tIllegal 0 else s.modGroup g Group.rsync)

/-- Lanes that exit leave the live mask, the active mask and every entry. -/
def Group.dropLanes (x : Group) : Group :=
  { x with
    live := x.live &&& ~~~x.active
    active := 0
    stack := x.stack.map (fun e => { e with mask := e.mask &&& ~~~x.active, pset := e.pset &&& ~~~x.active }) }

/-- EXIT: a group without live lanes ends, which may complete a barrier or fill a regroup point. -/
def State.exitOp (s : State) (g : Gid) : State :=
  s.vec g false [] (fun s x _ _ =>
    if x.inLock then s.trapAfter g tIllegal 0
    else ((s.modGroup g (fun y => y.dropLanes.rsync)).evalBlock x.bid).retryOps g.core)

/-! ### Identity, votes and exchanges (R70, R71) -/

/-- A value that SVAL reads, Table 3.5. -/
def State.svalOf (s : State) (g : Gid) (x : Group) (b : Block) (l : Nat) : SvalName → Nat
  | .lane => l
  | .tidx => 32 * s.ogrpOf g x l + l
  | .ogrp => s.ogrpOf g x l
  | .slot => g.slot
  | .core => g.core
  | .block => b.index % 2 ^ 32
  | .active => x.active.toNat
  | .live => x.live.toNat
  | .rgcnt => s.rgOf g x l

/-- SVAL. -/
def State.sval (s : State) (g : Gid) (rd : Nat) (n : SvalName) : State :=
  s.plain g false [rd] (fun s x b => s.putAll g x rd (fun l => BitVec.ofNat 32 (s.svalOf g x b l n)))

/-- A vote's answer written to a predicate of every active lane. -/
def State.vote (s : State) (g : Gid) (pd ps : Nat) (f : List Bool → Bool) : State :=
  s.plain g false [] (fun s x _ =>
    let v := f ((lanesOf x.active).map (s.getPred g x ps))
    (lanesOf x.active).foldl (fun s l => s.putPred g x pd l v) s)

/-- The active lanes in which a predicate is true. -/
def State.trueLanes (s : State) (g : Gid) (x : Group) (ps : Nat) : List Nat := (lanesOf x.active).filter (s.getPred g x ps)

/-- LMASK, LCOUNT and LPEER. -/
def State.lmask (s : State) (g : Gid) (rd ps : Nat) : State :=
  s.plain g false [rd] (fun s x _ => s.putAll g x rd (fun _ => BitVec.ofNat 32 ((s.trueLanes g x ps).map (2 ^ ·)).sum))
def State.lcount (s : State) (g : Gid) (rd ps : Nat) : State :=
  s.plain g false [rd] (fun s x _ => s.putAll g x rd (fun _ => BitVec.ofNat 32 (s.trueLanes g x ps).length))
def State.lpeer (s : State) (g : Gid) (rd rs : Nat) : State :=
  s.plain g false [rd, rs] (fun s x _ => s.putAll g x rd (fun l =>
    BitVec.ofNat 32 (((lanesOf x.active).filter (fun j => s.getReg g x rs j == s.getReg g x rs l)).map (2 ^ ·)).sum))

/-- An exchange: `src` gives a lane's source, if it is valid. -/
def State.exchange (s : State) (g : Gid) (bad : Bool) (rd pd rs : Nat) (more : List Nat) (src : State → Group → Nat → Option Nat) : State :=
  s.plain g bad (rd :: rs :: more) (fun s x _ =>
    (lanesOf x.active).foldl (fun t l =>
      match src s x l with
      | some j => if x.active.getLsbD j then (t.putReg g x rd l (s.getReg g x rs j)).putPred g x pd l true
          else (t.putReg g x rd l (s.getReg g x rs l)).putPred g x pd l false
      | none => (t.putReg g x rd l (s.getReg g x rs l)).putPred g x pd l false) s)

/-- A legal segment size. -/
def segOk (n : Nat) : Bool := n == 2 || n == 4 || n == 8 || n == 16 || n == 32

/-- An exchange by an immediate `n`, from lane `L` and segment base `b`. -/
def State.exchangeImm (s : State) (g : Gid) (rd pd rs n z : Nat) (f : Nat → Nat → Option Nat) : State :=
  s.exchange g (!segOk z || z ≤ n) rd pd rs [] (fun _ _ l => f l (z * (l / z)))

/-! ### Barriers (R72-R74) -/

/-- BAR.BLK: arrival, which acts as FENCE.BLK. -/
def State.barBlk (s : State) (g : Gid) (id : Nat) : State :=
  s.vec g (16 ≤ id) [] (fun s x b _ =>
    if x.active != x.live then s.trapAfter g tBarrier id
    else
      let s := (s.modGroup g (fun y => { y with wait := .bar id, pc := Config.nextPc y.pc })).pushOp
        (fun n => fenceOf n g x b.cmd .blk x.active)
      (s.evalBlock x.bid).retryOps g.core)

/-- BAR.CLU: arrival; it orders nothing (DEDUCED, log 19). -/
def State.barClu (s : State) (g : Gid) (id : Nat) : State :=
  s.vec g (4 ≤ id) [] (fun s x _ _ =>
    if x.active != x.live then s.trapAfter g tBarrier (128 + id)
    else ((s.modGroup g (fun y => { y with wait := .cbar id, pc := Config.nextPc y.pc })).evalBlock x.bid).retryOps g.core)

/-! ### LKG (R77, R78) -/

/-- A lane's owner word. -/
def ownerWord (g : Gid) (l : Nat) : Nat := 0x80000000 + g.core * 0x800 + g.slot * 0x20 + l

/-- LKG.ENTER: a LOCK entry where the top is not this instruction's, then the pending lanes try the lock in lane order
(DEDUCED, log 20). A full stack traps before a watchpoint or a misaligned address is looked at (DESIGN CHOICE, log 70). -/
def State.lkgEnter (s : State) (g : Gid) (sc : Scope) (sp : Space) (ra : Nat) : State :=
  s.issue g (sc == .grp) (addrRegs sp ra) (fun s x b _ =>
    if 16 ≤ s.lsuHeld g.core then (s.lsuRefuses g).tallyG g 0x031 1
    else
      let top := match x.stack with
        | e :: _ => if e.kind == SKind.lock && e.pc == x.pc then some e else none
        | [] => none
      let pset := match top with
        | some e => e.pset
        | none => x.active
      let lanes := (lanesOf pset).map (fun l => LaneAcc.mk l (x.homeSlot g l) 0 (s.laneAddr g x sp ra l) (ownerWord g l) 0 .need)
      if top.isNone && 32 ≤ x.stack.length then s.trapNow g true tDepth 0
      else match if sp == .dev then s.watchAt b.cmd.ctx false true 4 (lanes.map (fun l => l.va)) else none with
        | some n => s.matchHalt g x b.cmd.ctx 4 n
        | none =>
          if lanes.any (fun l => l.va % 4 != 0) then s.trapNow g true tMisalign 0
          else
            let s := (s.issued g true true).tallyG g 0x034 1
            let s := s.modGroup g (fun y => { y with
              wait := if lanes.isEmpty then .backoff 64 else .mem
              lastLen := if top.isSome then y.lastLen else 0
              stack := if top.isSome then y.stack else ⟨.lock, x.active, x.pc, x.active, sc⟩ :: y.stack })
            if lanes.isEmpty then s
            else (s.pushOp (fun n => ⟨n, g, b.cmd, x.bid, .lock, sc, true, false, 256, 4, sp, .none, lanes⟩)).retryOps g.core)

/-- LKG_BACKOFF_EXPIRE: the wait is over, unless a debugger holds the group; its next issue tries again (DEDUCED, log 20). -/
def State.backoffOver (s : State) (g : Gid) : State :=
  match s.group g with
  | none => s
  | some x =>
    match x.wait with
    | .backoff _ => if x.halt == 0 && (s.block x.bid).any (fun b => !b.trapped) then s.setGroup g { x with wait := .ready } else s
    | _ => s

/-- LKG.EXIT: the active lane's word is given back, as a release at the LKG.ENTER's scope (DEDUCED, log 20). Without an active
lane it stores nothing, removes no lane and goes on as after a lane's turn (DESIGN CHOICE, log 73). -/
def State.lkgExit (s : State) (g : Gid) (sp : Space) (ra : Nat) : State :=
  s.issue g false (addrRegs sp ra) (fun s x b _ =>
    match x.stack with
    | [] => s.trapNow g true tIllegal 0
    | e :: _ =>
      if e.kind != SKind.lock then s.trapNow g true tIllegal 0
      else if 16 ≤ s.lsuHeld g.core then (s.lsuRefuses g).tallyG g 0x031 1
      else
        let lanes := (lanesOf x.active).map (fun l => LaneAcc.mk l (x.homeSlot g l) 0 (s.laneAddr g x sp ra l) (ownerWord g l) 0 .need)
        match if sp == .dev then s.watchAt b.cmd.ctx false true 4 (lanes.map (fun l => l.va)) else none with
        | some n => s.matchHalt g x b.cmd.ctx 4 n
        | none =>
          if lanes.any (fun l => l.va % 4 != 0) then s.trapNow g true tMisalign 0
          else
            let s := (s.issued g true true).tallyG g 0x034 1
            if lanes.isEmpty then s.modGroup g (fun y => y.leaveLock 0)
            else ((s.modGroup g (fun y => { y with wait := .mem })).pushOp
              (fun n => ⟨n, g, b.cmd, x.bid, .unlock, e.scope, false, true, 256, 4, sp, .none, lanes⟩)).retryOps g.core)

/-! ### Regroup points (R81) -/

/-- REGROUP. A stepped one has no effect (21_debug.md R422). -/
def State.regroupOp (s : State) (g : Gid) (w : Nat) : State :=
  s.vec g false [] (fun s x b _ =>
    if x.stepping = 1 then (s.modGroup g (fun y => { y with stepping := 3 })).goOn g
    else if !x.stack.isEmpty || x.live == BitVec.allOnes 32 then s.goOn g
    else
      let s := s.modGroup g (fun y => { y with wait := .regroup x.pc s.thr.serial w })
      let s := { s with thr := { s.thr with serial := s.thr.serial + 1 } }
      let s := if w = 0 then (s.repack x.bid x.pc).evalBlock x.bid else s.evalBlock x.bid
      s.retryOps b.core)

/-- REGROUP_WAIT_EXPIRE: `w` cycles have passed since the first of the waiting groups arrived (DEDUCED, log 22). -/
def State.regroupExpire (s : State) (bid : Nat) (pc : Pc) : State :=
  match s.block bid with
  | none => s
  | some b => if (s.atPoint bid pc).isEmpty then s else ((s.repack bid pc).evalBlock bid).retryOps b.core

/-- TRAP n. -/
def State.trapOp (s : State) (g : Gid) (n : Byte) : State := s.issue g false [] (fun s _ _ _ => s.trapNow g true tTrap n.toNat)

/-! ### Ordinary vector-engine instructions (07_arithmetic_rules.md R156-R158, 06_number_formats.md R140-R144) -/

/-- Bits of a format's code. -/
def fmtBits : Fmt → Nat
  | .b32 | .int32 => 32
  | .b16 | .bf16 => 16
  | .q4 | .mxfp4 => 4
  | _ => 8

/-- The 4-bit format that a launch reads and writes, whichever an instruction names (06_number_formats.md R133). -/
def ArMode.four (md : ArMode) (f : Fmt) : Fmt :=
  match f with
  | .q4 => if md.mx then .mxfp4 else .q4
  | .mxfp4 => if md.mx then .mxfp4 else .q4
  | f => f

/-- Registers an operation names. -/
def vecRegs (op : VecOp) (rd ra rb rc : Nat) : List Nat :=
  match op with
  | .dfma => regRun rd 2 ++ regRun ra 2 ++ regRun rb 2 ++ regRun rc 2
  | .cvt _ _ => [rd, ra]
  | .double o => regRun rd 2 ++ (fopOps o ra rb rc).flatMap (fun r => regRun r 2)
  | .float o _ => rd :: fopOps o ra rb rc
  | .ffma => [rd, ra, rb, rc]
  | .corpin _ => [rd, ra, rb, rc]
  | .jump _ => []
  | _ => [rd, ra, rb]

/-- A lane's 32-bit result; a narrow format's code lies in the lowest bits of a source register, the bits above it ignored (DESIGN
CHOICE, log 85), and of the result, where the bits above it are a free value (DESIGN CHOICE, log 6). -/
def State.vecResult (s : State) (g : Gid) (x : Group) (md : ArMode) (op : VecOp) (ra rb rc l : Nat) : W32 :=
  let a := s.getReg g x ra l
  let b := s.getReg g x rb l
  let c := s.getReg g x rc l
  match op with
  | .fadd => fadd md a b
  | .fmul => fmul md a b
  | .ffma => ffma md a b c
  | .fmax => BitVec.ofNat 32 (numMaxMin .b32 md true a.toNat b.toNat)
  | .fmin => BitVec.ofNat 32 (numMaxMin .b32 md false a.toNat b.toNat)
  | .cvt src dst =>
    let v := fmtEnc (md.four dst) md (fmtDec (md.four src) (a.toNat % 2 ^ fmtBits src))
    BitVec.ofNat 32 (v + s.freeVal (1300 + l) (32 - fmtBits dst) * 2 ^ fmtBits dst)
  | .float o f =>
    let n := fmtBits (ffmtOf f)
    let v := floatOp md o f (a.toNat % 2 ^ n) (b.toNat % 2 ^ n) (c.toNat % 2 ^ n)
    BitVec.ofNat 32 (v + s.freeVal (1300 + l) (32 - n) * 2 ^ n)
  | .corpin opc => Config.corpinResult opc md.strict md.sat md.mx a b c
  | _ => 0

/-- A binary64 operation on register pairs in every active lane. -/
def State.putDoubles (s : State) (g : Gid) (x : Group) (rd ra rb rc : Nat) (f : W64 → W64 → W64 → W64) : State :=
  (lanesOf x.active).foldl (fun t l =>
    let v := f (BitVec.ofNat 64 (s.getRegs g x ra 2 l)) (BitVec.ofNat 64 (s.getRegs g x rb 2 l))
      (BitVec.ofNat 64 (s.getRegs g x rc 2 l))
    (t.putReg g x rd l (v.extractLsb' 0 32)).putReg g x (rd + 1) l (v.extractLsb' 32 32)) s

/-- VECTOR_ENGINE_INSTRUCTION: it executes, or is issued again or contained by what its checks found. -/
def State.vecOp (s : State) (g : Gid) (op : VecOp) (rd ra rb rc : Nat) (found : Found) : State :=
  s.issue g false (vecRegs op rd ra rb rc) (fun s x b c =>
    match s.foundAt g x b none found with
    | (s, false) => s
    | (s, true) =>
      let s := (s.issued g true false).tallyG g 0x020 (lanesOf x.active).length
      match op with
      | .jump t => s.modGroup g (fun y => { y with pc := t })
      | .dfma => ((s.tallyG g 0x010 1).putDoubles g x rd ra rb rc dfma).goOn g
      | .double o => ((if o == .fma then s.tallyG g 0x010 1 else s).putDoubles g x rd ra rb rc (doubleOp o)).goOn g
      | _ => ((s.putAll g x rd (s.vecResult g x c.mode op ra rb rc)).bump).goOn g)

/-! ### The rows -/

/-- SCRATCH_ZERO_DONE (09_caches.md R188). -/
def execScratchZeroDone (bid : Nat) (s : State) : Host.Outcome State Fault Refusal := .next (s.scratchZeroed bid)
/-- BLOCK_END (R62). -/
def execBlockEnd (bid : Nat) (s : State) : Host.Outcome State Fault Refusal := .next (s.blockEnd bid)
/-- RPUSH (R68). -/
def execRpush (g : Gid) (target : Pc) (s : State) : Host.Outcome State Fault Refusal := .next (s.rpush g target)
/-- BRA.DIV (R68, R69). -/
def execBraDiv (g : Gid) (pd : Nat) (target : Pc) (s : State) : Host.Outcome State Fault Refusal := .next (s.braDiv g pd target)
/-- RSYNC (R68). -/
def execRsync (g : Gid) (s : State) : Host.Outcome State Fault Refusal := .next (s.rsyncOp g)
/-- EXIT (R68). -/
def execExit (g : Gid) (s : State) : Host.Outcome State Fault Refusal := .next (s.exitOp g)
/-- SVAL (R70). -/
def execSval (g : Gid) (rd : Nat) (n : SvalName) (s : State) : Host.Outcome State Fault Refusal := .next (s.sval g rd n)
/-- LVOTE.EVERY (R71). -/
def execLvoteEvery (g : Gid) (pd ps : Nat) (s : State) : Host.Outcome State Fault Refusal := .next (s.vote g pd ps (·.all id))
/-- LVOTE.SOME (R71). -/
def execLvoteSome (g : Gid) (pd ps : Nat) (s : State) : Host.Outcome State Fault Refusal := .next (s.vote g pd ps (·.any id))
/-- LVOTE.NONE (R71). -/
def execLvoteNone (g : Gid) (pd ps : Nat) (s : State) : Host.Outcome State Fault Refusal := .next (s.vote g pd ps (·.all (!·)))
/-- LVOTE.SAME (R71). -/
def execLvoteSame (g : Gid) (pd ps : Nat) (s : State) : Host.Outcome State Fault Refusal :=
  .next (s.vote g pd ps (fun l => l.all id || l.all (!·)))
/-- LMASK (R71). -/
def execLmask (g : Gid) (rd ps : Nat) (s : State) : Host.Outcome State Fault Refusal := .next (s.lmask g rd ps)
/-- LCOUNT (R71). -/
def execLcount (g : Gid) (rd ps : Nat) (s : State) : Host.Outcome State Fault Refusal := .next (s.lcount g rd ps)
/-- LPEER (R71). -/
def execLpeer (g : Gid) (rd rs : Nat) (s : State) : Host.Outcome State Fault Refusal := .next (s.lpeer g rd rs)
/-- XCH.SEL (R71). -/
def execXchSel (g : Gid) (rd pd rs ri z : Nat) (s : State) : Host.Outcome State Fault Refusal :=
  .next (s.exchange g (!segOk z) rd pd rs [ri] (fun s x l => some (z * (l / z) + (s.getReg g x ri l).toNat % z)))
/-- XCH.RUP (R71). -/
def execXchRup (g : Gid) (rd pd rs n z : Nat) (s : State) : Host.Outcome State Fault Refusal :=
  .next (s.exchangeImm g rd pd rs n z (fun l b => some (b + (l + z - b - n) % z)))
/-- XCH.RDN (R71). -/
def execXchRdn (g : Gid) (rd pd rs n z : Nat) (s : State) : Host.Outcome State Fault Refusal :=
  .next (s.exchangeImm g rd pd rs n z (fun l b => some (b + (l - b + n) % z)))
/-- XCH.SUP (R71). -/
def execXchSup (g : Gid) (rd pd rs n z : Nat) (s : State) : Host.Outcome State Fault Refusal :=
  .next (s.exchangeImm g rd pd rs n z (fun l b => if b + n ≤ l then some (l - n) else none))
/-- XCH.SDN (R71). -/
def execXchSdn (g : Gid) (rd pd rs n z : Nat) (s : State) : Host.Outcome State Fault Refusal :=
  .next (s.exchangeImm g rd pd rs n z (fun l b => if l + n ≤ b + z - 1 then some (l + n) else none))
/-- XCH.MIR (R71). -/
def execXchMir (g : Gid) (rd pd rs n z : Nat) (s : State) : Host.Outcome State Fault Refusal :=
  .next (s.exchangeImm g rd pd rs n z (fun l _ => some (l ^^^ n)))
/-- BAR.BLK (R72, R74). -/
def execBarBlk (g : Gid) (id : Nat) (s : State) : Host.Outcome State Fault Refusal := .next (s.barBlk g id)
/-- BAR.CLU (R73, R74). -/
def execBarClu (g : Gid) (id : Nat) (s : State) : Host.Outcome State Fault Refusal := .next (s.barClu g id)
/-- LKG.ENTER (R77). -/
def execLkgEnter (g : Gid) (sc : Scope) (sp : Space) (ra : Nat) (s : State) : Host.Outcome State Fault Refusal :=
  .next (s.lkgEnter g sc sp ra)
/-- LKG_BACKOFF_EXPIRE (R77). -/
def execLkgBackoffExpire (g : Gid) (s : State) : Host.Outcome State Fault Refusal := .next (s.backoffOver g)
/-- LKG.EXIT (R78). -/
def execLkgExit (g : Gid) (sp : Space) (ra : Nat) (s : State) : Host.Outcome State Fault Refusal := .next (s.lkgExit g sp ra)
/-- REGROUP (R81). -/
def execRegroup (g : Gid) (w : Nat) (s : State) : Host.Outcome State Fault Refusal := .next (s.regroupOp g w)
/-- REGROUP_WAIT_EXPIRE (R81). -/
def execRegroupWaitExpire (bid : Nat) (pc : Pc) (s : State) : Host.Outcome State Fault Refusal := .next (s.regroupExpire bid pc)
/-- TRAP (R84). -/
def execTrap (g : Gid) (n : Byte) (s : State) : Host.Outcome State Fault Refusal := .next (s.trapOp g n)
/-- TRAPPED_BLOCK_END (R84). -/
def execTrappedBlockEnd (bid : Nat) (s : State) : Host.Outcome State Fault Refusal := .next (s.trappedEnd bid)
/-- VECTOR_ENGINE_INSTRUCTION (R59, R63, R66). -/
def execVectorEngineInstruction (g : Gid) (op : VecOp) (rd ra rb rc : Nat) (found : Found) (s : State) :
    Host.Outcome State Fault Refusal := .next (s.vecOp g op rd ra rb rc found)

end Sys2Proof.Machine
end

