-- ==== Sys2Proof/Machine/Matrix.lean ====
section
/-! DEFINITION. The matrix engines (05_matrix_engines.md R102-R127): tile descriptors and issue checks, the queue and the three
pipes, passes, tile loads and stores, element-wise work, the ramp, poison marks and residue replays. The cycle occupancies of
Table 5.5 are not modelled: rows of the table say when a pipe starts, advances and completes. -/

namespace Sys2Proof.Machine

open Sys2Proof

/-! ### Engines -/

/-- An engine that a block holds, and an engine replaced. -/
def State.engine (s : State) (k : MxKey) : Option Engine := aget s.mx.eng k
def State.setEngine (s : State) (k : MxKey) (e : Engine) : State := { s with mx := { s.mx with eng := aput s.mx.eng k e } }

/-- Element (i, j) of a tile (R104). -/
def accIdx (t i j : Nat) : Nat := 1024 * t + 32 * i + j
def Engine.elem (e : Engine) (t i j : Nat) : W32 := (mget e.acc (accIdx t i j)).getD 0

/-- An element written; zero is what an unlisted element is. -/
def Engine.put (e : Engine) (t i j : Nat) (v : W32) : Engine :=
  { e with acc := if v == 0 then mdel e.acc (accIdx t i j) else mput e.acc (accIdx t i j) v }

/-- Columns `[0, n)` of a row written. -/
def Engine.putRow (e : Engine) (t i n : Nat) (f : Nat → W32) : Engine := (List.range n).foldl (fun e j => e.put t i j (f j)) e

/-- A whole tile written. -/
def Engine.setTile (e : Engine) (t : Nat) (f : Nat → Nat → W32) : Engine :=
  let tile := (List.range 1024).filterMap (fun k =>
    let v := f (k / 32) (k % 32)
    if v == 0 then none else some (1024 * t + k, v))
  { e with acc := e.acc.filter (fun x => x.1 < 1024 * t) ++ tile ++ e.acc.filter (fun x => 1024 * t + 1024 ≤ x.1) }

/-- The poison mark of a tile, read and set (R125). -/
def Engine.marked (e : Engine) (t : Nat) : Bool := e.marks.contains t
def Engine.mark (e : Engine) (t : Nat) (p : Bool) : Engine :=
  { e with marks := if p then t :: e.marks.erase t else e.marks.erase t }

/-! ### Formats (R103, R107, R145) -/

/-- The element format of a FMT code under a launch's 4-bit reading (06_number_formats.md R133). -/
def fmtNum (mx : Bool) : Nat → Fmt
  | 0 => .b32
  | 1 => .b16
  | 2 => .bf16
  | 3 => .e4m3
  | 4 => .e5m2
  | 5 => if mx then .mxfp4 else .q4
  | 6 => .int8
  | _ => .int32

/-- Bits of an element, and K_s, Table 5.1. -/
def fmtWidth : Nat → Nat
  | 0 => 32
  | 1 => 16
  | 2 => 16
  | 5 => 4
  | 7 => 32
  | _ => 8
def fmtKs : Nat → Nat
  | 5 => 256
  | 3 => 128
  | 4 => 128
  | 6 => 128
  | _ => 64

/-- Bytes of a run of `k` elements (06_number_formats.md R134). -/
def runBytes (fmt k : Nat) : Nat := cdiv (k * fmtWidth fmt) 8

/-- Code of element `e` of a run. -/
def elemCode (fmt : Nat) (run : List Byte) (e : Nat) : Nat :=
  if fmt = 5 then bitsOf (leAt run (e / 2) 1) (4 * (e % 2)) 4 else leAt run (e * (fmtWidth fmt / 8)) (fmtWidth fmt / 8)

/-- Value of element `e` of a run under its scale byte, if it has one (06_number_formats.md R138). -/
def elemVal (mx : Bool) (fmt : Nat) (run scales : List Byte) (e : Nat) : V :=
  let v := fmtDec (fmtNum mx fmt) (elemCode fmt run e)
  match scales[e / 32]? with
  | none => v
  | some b => scaled v b.toNat

/-- Element codes as the bytes of a run. -/
def packRun (fmt : Nat) : List Nat → List Byte
  | [] => []
  | [c] => if fmt = 5 then [BitVec.ofNat 8 (c % 16)] else leBytes (fmtWidth fmt / 8) c
  | c :: d :: r =>
    if fmt = 5 then BitVec.ofNat 8 (c % 16 + d % 16 * 16) :: packRun fmt r
    else leBytes (fmtWidth fmt / 8) c ++ packRun fmt (d :: r)

/-! ### Descriptors and issue checks (R107, R108) -/

/-- The descriptor in eight registers of a lane. -/
def State.tdesc (s : State) (g : Gid) (x : Group) (ra l : Nat) : TDesc :=
  let r := fun (i : Nat) => (s.getReg g x (ra + i) l).toNat
  let b := r 0 + r 1 * 2 ^ 32
  let sb := r 4 + r 5 * 2 ^ 32
  ⟨bitsOf b 63 1 == 1, bitsOf b 0 57, r 2, bitsOf (r 3) 0 8, bitsOf (r 3) 8 9, bitsOf (r 3) 17 4, bitsOf (r 3) 21 1 == 1,
    bitsOf sb 63 1 == 1, bitsOf sb 0 57, r 6⟩

/-- A reserved field of a descriptor's registers is nonzero. -/
def State.tdescRsv (s : State) (g : Gid) (x : Group) (ra l : Nat) : Bool :=
  let r := fun (i : Nat) => (s.getReg g x (ra + i) l).toNat
  bitsOf (r 1) 25 6 != 0 || bitsOf (r 3) 22 10 != 0 || r 7 != 0 || (bitsOf (r 3) 21 1 == 1 && bitsOf (r 5) 25 6 != 0)

/-- A descriptor breaks R108 for an instruction that permits these formats and at most `cols` elements per run. -/
def TDesc.bad (d : TDesc) (fmts : List Nat) (cols : Nat) : Bool :=
  !fmts.contains d.fmt || d.base % 16 != 0 || d.stride % 16 != 0 || (d.scr && 2 ^ 19 ≤ d.base) || 32 < d.rows || cols < d.cols
  || (d.scaled && (d.fmt < 3 || 5 < d.fmt || d.sbase % 8 != 0 || d.sstride % 8 != 0 || (d.sscr && 2 ^ 19 ≤ d.sbase)))

/-- Format and COLS of the two slots after some MLDS (R109): a binary32 load fills both, and a later load to either empties the
other. -/
def slotsAfter : List MxIns → (Option Nat × Nat) × (Option Nat × Nat) → (Option Nat × Nat) × (Option Nat × Nat)
  | [], z => z
  | i :: r, (a, b) =>
    match i.op with
    | .lds sh d =>
      let n := (some d.fmt, d.cols)
      if d.fmt = 0 then slotsAfter r (n, n)
      else if sh = 0 then slotsAfter r (n, if b.1 = some 0 then (none, 0) else b)
      else slotsAfter r (if a.1 = some 0 then (none, 0) else a, n)
    | _ => slotsAfter r (a, b)

/-- The slots as the MLDS accepted so far will leave them. -/
def Engine.expect (e : Engine) : (Option Nat × Nat) × (Option Nat × Nat) :=
  slotsAfter (e.feeder.toList ++ e.queue) ((e.slot0.fmt, e.slot0.cols), (e.slot1.fmt, e.slot1.cols))

/-- The stationary that an MMA names does not pair with its A operand. -/
def pairBad (split : Nat) (st : Option Nat × Nat) (d : TDesc) : Bool :=
  st.2 != d.cols || (match st.1 with
    | none => false
    | some f => if split = 0 then f == 0 || !(f == d.fmt || ((f == 3 || f == 4) && (d.fmt == 3 || d.fmt == 4))) else f != 0)

/-- Operand formats of MLDS and MMA, beside binary32. -/
def opFmts : List Nat := [1, 2, 3, 4, 5, 6]

/-- An instruction breaks R108 at its engine. -/
def Engine.illegal (e : Engine) : MxOp → Bool
  | .lds sh d => 1 < sh || d.bad (if sh = 0 then 0 :: opFmts else opFmts) (fmtKs d.fmt)
  | .mma _ split t sh d =>
    63 < t || 1 < sh || (split != 0 && sh != 0) || d.bad (if split = 0 then opFmts else [0]) (fmtKs d.fmt)
    || pairBad split (if sh = 0 then e.expect.1 else e.expect.2) d
  | .ldc t d => 63 < t || d.bad [0, 1, 2, 7] 32
  | .stc t d => 63 < t || d.bad [0, 1, 2, 3, 4, 5, 6, 7] 32
  | .ew op _ t u _ _ d => 63 < t || 63 < u || (op == 5 && (d.bad [0, 7] 32 || d.rows != 1 || d.cols != 32))

/-- Issue of a matrix instruction (R65, R106, R112): checked, then accepted at the tail of its engine's queue. `mk` makes it from
the lowest active lane; its truth value says that a reserved field is set. Without an active lane it has no effect, whatever its
registers. A register beyond the allocation is reported before a check of R106 or R108 that fails too (DESIGN CHOICE, log 70). -/
def State.mxIssue (s : State) (g : Gid) (mx : Nat) (regs : List Nat) (mk : State → Group → Nat → MxOp × Bool) : State :=
  s.issueVia g false false (if (s.group g).any (fun x => x.active == 0) then [] else regs) (fun s x b _ =>
    match (lanesOf x.active).head? with
    | none => (s.issued g false false).goOn g
    | some l =>
      let k : MxKey := ⟨g.core, mx⟩
      match s.engine k with
      | none => s.trap g tIllegal 0
      | some e =>
        let (op, rsv) := mk s x l
        if e.bid != x.bid || rsv || e.illegal op then s.trap g tIllegal 0
        else if 8 ≤ e.queue.length then s
        else
          let ins : MxIns := ⟨s.thr.serial, g, b.cmd, x.bid, op⟩
          let s := { s with thr := { s.thr with serial := s.thr.serial + 1 } }
          let s := (s.setEngine k { e with queue := e.queue ++ [ins] }).tallyG g 0x021 1
          let p := s.ptr g.core
          ((s.setPtr g.core { p with mx := lset p.mx mx ((g.slot + 1) % 64) }).issued g false false).goOn g)

/-- An instruction with a tile descriptor. -/
def State.mxDesc (s : State) (g : Gid) (mx ra : Nat) (op : TDesc → MxOp) : State :=
  s.mxIssue g mx (regRun ra 8) (fun s x l => (op (s.tdesc g x ra l), s.tdescRsv g x ra l))

/-- The descriptor of an instruction that has none. -/
def noDesc : TDesc := ⟨false, 0, 0, 0, 0, 0, false, false, 0, 0⟩

/-- A MEW (Table 5.4): operation number, other tile, and scalar registers. -/
def State.mew (s : State) (g : Gid) (op : Nat) (ty : MewTy) (mx t u : Nat) (rs rb : Option Nat) : State :=
  s.mxIssue g mx (rs.toList ++ rb.toList) (fun s x l =>
    let v := fun (r : Option Nat) => match r with
      | some r => s.getReg g x r l
      | none => 0
    (.ew op ty t u (v rs) (v rb) noDesc, false))

/-! ### Dependences and starts (R113, R114, R118) -/

/-- The pipe of an instruction. -/
def MxOp.pipe : MxOp → Pipe
  | .lds _ _ => .feeder
  | .mma _ _ _ _ _ => .array
  | _ => .side

/-- The tiles an instruction reads and the tile it writes. -/
def MxOp.reads : MxOp → List Nat
  | .lds _ _ => []
  | .mma acc _ t _ _ => if acc then [t] else []
  | .ldc _ _ => []
  | .stc t _ => [t]
  | .ew op _ t u _ _ _ => (if op < 2 then [] else [t]) ++ (if op = 1 ∨ op = 2 ∨ op = 3 then [u] else [])
def MxOp.writes : MxOp → Option Nat
  | .lds _ _ => none
  | .mma _ _ t _ _ => some t
  | .ldc t _ => some t
  | .stc _ _ => none
  | .ew _ _ t _ _ _ _ => some t

/-- An MLDS fills, or an MMA uses, a slot. -/
def MxOp.slot (o : MxOp) (sh : Nat) : Bool :=
  match o with
  | .lds k d => k == sh || d.fmt == 0
  | .mma _ split _ k _ => k == sh || split != 0
  | _ => false

/-- Instructions of an engine that have been accepted and not completed, without a pipe's last MMA where `but`. -/
def Engine.open_ (e : Engine) : List MxIns :=
  e.feeder.toList ++ e.array.map (fun r => r.ins) ++ e.side.toList ++ e.queue

/-- The dependences of an instruction are met (R114): an MMA on the tile of the MMA immediately before it in the array pipe is
chained to it, whatever older MMAs of that tile the pipe still holds. -/
def Engine.met (e : Engine) (i : MxIns) : Bool :=
  let old := e.open_.filter (fun o => o.ser < i.ser)
  let queued := e.queue.filter (fun o => o.ser < i.ser)
  let chain := match i.op, e.array.getLast? with
    | .mma _ _ t _ _, some r => if r.ins.op.writes == some t then e.array.map (fun (q : MxRun) => q.ins.ser) else []
    | _, _ => []
  let slots := match i.op with
    | .mma _ _ _ _ _ => old.all (fun o => o.op.pipe != .feeder || !([0, 1].any (fun k => i.op.slot k &&
        (o.op.slot k || (if k = 0 then e.slot0 else e.slot1).fmt == some 0))))
    | .lds _ _ => queued.all (fun o => o.op.pipe != .array || !([0, 1].any (fun k => i.op.slot k && o.op.slot k)))
    | _ => true
  let reads := old.all (fun o => match o.op.writes with
    | some t => chain.contains o.ser || !(i.op.reads.contains t || i.op.writes == some t)
    | none => true)
  let writes := match i.op.writes with
    | some t => old.all (fun o => chain.contains o.ser || !o.op.reads.contains t)
    | none => true
  slots && reads && writes

/-- Rows per sub-pass take one advance each, or eight in strict mode except for INT8 (Table 5.5). -/
def advPerRow (md : ArMode) (fmt : Nat) : Nat := if md.strict && fmt != 6 then 8 else 1

/-- Sub-passes of a split. -/
def subCount (split : Nat) : Nat := if split = 0 then 1 else split

/-- Advances of an MMA, Table 5.5. -/
def passAdvances (md : ArMode) (split fmt : Nat) : Nat := 32 * advPerRow md fmt * subCount split

/-- The mode of an instruction's launch. -/
def State.mxMode (s : State) (i : MxIns) : ArMode :=
  match s.cmdOf i.cmd with
  | some c => c.mode
  | none => ⟨false, false, false⟩

/-- Advances of an instruction in the array. -/
def State.advancesOf (s : State) (i : MxIns) : Nat :=
  match i.op with
  | .mma _ split _ _ d => passAdvances (s.mxMode i) split d.fmt
  | _ => 0

/-- An MLDS that replaces a binary32 stationary waits until the last sub-pass of a split MMA has committed (R122). -/
def State.splitHolds (s : State) (e : Engine) (i : MxIns) : Bool :=
  match i.op with
  | .lds _ _ => e.array.any (fun r => match r.ins.op with
    | .mma _ split _ _ d => split != 0 && decide (r.advanced < 32 * advPerRow (s.mxMode r.ins) d.fmt * (subCount split - 1))
    | _ => false)
  | _ => false

/-- The array pipe is free: every MMA in it has made its advances. -/
def State.arrayFree (s : State) (e : Engine) : Bool := e.array.all (fun r => s.advancesOf r.ins ≤ r.advanced)

/-- Scratch operands wait for the accesses that the group made before it issued the instruction (R115) (DESIGN CHOICE, log 28). -/
def State.mxReady (s : State) (i : MxIns) : Bool :=
  let scr := match i.op with
    | .lds _ d => d.scr || (d.scaled && d.sscr)
    | .mma _ _ _ _ d => d.scr || (d.scaled && d.sscr)
    | .ldc _ d => d.scr
    | .ew op _ _ _ _ _ d => op == 5 && d.scr
    | .stc _ _ => false
  !scr || s.thr.ops.all (fun o => !(o.g == i.g && o.ser < i.ser) || o.lanes.all (fun l => l.ph.isDone))

/-- An array that has work while it is gated begins its first ramp step, at level 1/4 (R123). -/
def State.mxRamp (s : State) (k : MxKey) : State :=
  if (aget s.mx.level k).isSome then s
  else { s with mx := { s.mx with level := aput s.mx.level k 1, calm := adel s.mx.calm k, made := adel s.mx.made k } }

/-- MX_PIPE_START: a pipe starts the oldest queued instruction of its kind (R113). An MMA commits its stationary; a gated array
begins its first ramp step at level 1/4 (R118, R123). -/
def State.mxStart (s : State) (k : MxKey) (p : Pipe) : State :=
  match s.engine k with
  | none => s
  | some e =>
    match e.queue.find? (fun i => i.op.pipe == p) with
    | none => s
    | some i =>
      if !e.met i || !s.mxReady i || s.splitHolds e i then s
      else
        let e' := { e with queue := e.queue.erase i }
        match p with
        | .feeder => if e.feeder.isSome then s else s.setEngine k { e' with feeder := some i }
        | .side => if e.side.isSome then s else s.setEngine k { e' with side := some i }
        | .array =>
          if !s.arrayFree e then s
          else
            let sh := match i.op with
              | .mma _ _ _ sh _ => sh
              | _ => 0
            let cells := if sh = 0 then e.slot0 else e.slot1
            (s.setEngine k { e' with array := e.array ++ [⟨i, cells, [], 0, [], false, cells.poison⟩] }).mxRamp k

/-! ### Operands in memory -/

/-- One run: data or scales, in scratch or at a virtual address. -/
structure Run where
  scr : Bool
  at_ : Nat
  len : Nat
  deriving DecidableEq, Repr

/-- The data run and the scale run of run `i` of a descriptor. -/
def TDesc.data (d : TDesc) (i : Nat) : Run := ⟨d.scr, d.base + i * d.stride, runBytes d.fmt d.cols⟩
def TDesc.scale (d : TDesc) (i n : Nat) : Run := ⟨d.sscr, d.sbase + i * d.sstride, if d.scaled then n else 0⟩

/-- A pipe waits on the blotter (R125). -/
def State.mxWaits (s : State) (k : MxKey) (p : Pipe) : Bool :=
  s.xlt.blots.any (fun b => b.2.waiting.any (fun w => w.src.pipe == some (k, p)))

/-- The pages of some runs are asked of the caches that serve a core, and held in its micro TLB (11_translation.md Table 11.5). -/
def State.mxFill (s : State) (k : MxKey) (i : MxIns) (rs : List Run) : State :=
  if !s.on F.XLT_CTX_EN i.cmd.ctx then s
  else ((rs.flatMap (fun r => (linesOf r.at_ r.len).map (fun l => l / 32))).dedup).foldl
    (fun s p => s.tlbFill k.core i.cmd.ctx (p * 4096)) s

/-- What stops an engine's access to some runs: the state after the first fault, or with a walk begun. -/
def State.mxStop (s : State) (k : MxKey) (i : MxIns) (acc : Nat) (rs : List Run) : State × Bool :=
  let src : AccSrc := ⟨1, k.core, some i.cmd, some (k, i.op.pipe), none⟩
  let rs := rs.filter (fun r => !r.scr && r.len != 0)
  let s := s.mxFill k i rs
  match rs.findSome? (fun r => firstStop (fun a => s.xlateMx k.core i.cmd.ctx a acc) r.at_ r.len) with
  | none =>
    (if rs.any (fun r => (List.range r.len).any (fun j => match s.xlateMx k.core i.cmd.ctx (r.at_ + j) acc with
      | .host _ _ => true
      | _ => false)) then s.useLink (k.core / 128) else s, false)
  | some (a, .fault ca l) => (s.blotWait i.cmd.ctx a ca l acc src, true)
  | some (a, .walk) => (s.needWalk (k.core / 128) i.cmd.ctx a acc src (.micro k.core), true)
  | some (_, .off) => (s.xltOff i.cmd.ctx i.cmd, true)
  | some (_, _) => (s, false)

/-- One byte of a line at the cluster cache, which does not look into the L1s (R115). -/
def State.ccByte (s : State) (cl key a : Nat) : Byte :=
  match (s.ccLine cl (a / 128)).bind (fun x => x.stale) with
  | some d => d.extractLsb' (8 * (a % 128)) 8
  | none => s.rdByte key a

/-- One run as its engine reads it; bytes of a poisoned line are free values, told apart by `n`. -/
def State.mxBytes (s : State) (k : MxKey) (i : MxIns) (b : Block) (n : Nat) (r : Run) : List Byte :=
  if r.scr then leBytes r.len (s.rdScr b r.at_ r.len)
  else (List.range r.len).map (fun j => match s.xlateMx k.core i.cmd.ctx (r.at_ + j) 0 with
    | .pa a => if s.kindIn (k.core / 8) (a / 128) != .none then BitVec.ofNat 8 (s.freeVal (4000 + 512 * n + j) 8)
        else s.ccByte (k.core / 8) (s.ctxKey i.cmd.ctx) a
    | .host a _ => s.rdHost a
    | _ => 0)

/-- The lines of device memory that a run lies in. -/
def State.mxLines (s : State) (k : MxKey) (i : MxIns) (r : Run) : List Nat :=
  if r.scr || r.len = 0 then []
  else (linesOf r.at_ r.len).filterMap (fun l =>
    match s.xlateMx k.core i.cmd.ctx (max r.at_ (128 * l)) 0 with
    | .pa a => some (a / 128)
    | _ => none)

/-- A run holds poison (DEDUCED, log 55). -/
def State.mxPoison (s : State) (k : MxKey) (i : MxIns) (r : Run) : Bool :=
  (s.mxLines k i r).any (fun ln => s.kindIn (k.core / 8) ln != .none)

/-- The path's grant goes to an engine's feeders where it asks for a line (09_caches.md R194). -/
def State.mxGrant (s : State) (k : MxKey) (lns : List Nat) : State := if lns.isEmpty then s else s.pathGrant k.core (1 + k.mx)

/-- The lines that the instruction in progress of a pipe has obtained or written. -/
def Engine.gotOf (e : Engine) (p : Pipe) : List Nat := (aget e.got p).getD []

/-- The lines of some runs are read at the cluster cache as class 4, each once, and whether all of them have been (09_caches.md
R194-R199). -/
def State.mxAsk (s : State) (k : MxKey) (i : MxIns) (rs : List Run) : State × Bool :=
  let lns := (rs.flatMap (s.mxLines k i)).dedup
  match s.engine k with
  | none => (s, lns.isEmpty)
  | some e =>
    let p := i.op.pipe
    let (s, got) := lns.foldl (fun (s, got) ln =>
      if got.contains ln then (s, got)
      else
        let (s, y) := s.ccAsk (k.core / 8) 4 ln false
        (s, if y then ln :: got else got)) (s.mxGrant k lns, e.gotOf p)
    if lns.all (fun ln => got.contains ln) then (s.setEngine k { e with got := adel e.got p }, true)
    else (s.setEngine k { e with got := aput e.got p got }, false)

/-- Accesses beyond the scratch allocation are counted (09_caches.md R189). -/
def State.mxOor (s : State) (k : MxKey) (b : Block) (rs : List Run) : State :=
  rs.foldl (fun s r => if r.scr && (List.range r.len).any (fun j => b.scrAddr (r.at_ + j) == none)
    then s.tallyCtx k.core b.cmd.ctx 0x036 1 else s) s

/-! ### The shadow feeder -/

/-- An MLDS completes: the slot is filled (DEDUCED, log 27). -/
def State.ldsDone (s : State) (k : MxKey) (e : Engine) (i : MxIns) (b : Block) (sh : Nat) (d : TDesc) : State :=
  let rows := List.range d.rows
  let rs := rows.flatMap (fun r => [d.data r, d.scale r (cdiv d.cols 32)])
  match s.mxStop k i accRead rs with
  | (s, true) => s
  | (s, false) =>
    match s.mxAsk k i rs with
    | (s, false) => s
    | (s, true) =>
    let slot : MxSlot := ⟨some d.fmt, d.rows, d.cols, rows.map (fun r => s.mxBytes k i b (2 * r) (d.data r)),
      rows.map (fun r => s.mxBytes k i b (2 * r + 1) (d.scale r (cdiv d.cols 32))), rs.any (s.mxPoison k i)⟩
    let e := { e with feeder := none, got := adel e.got .feeder }
    let e := if d.fmt = 0 then { e with slot0 := slot, slot1 := slot }
      else if sh = 0 then { e with slot0 := slot, slot1 := if e.slot1.fmt = some 0 then emptySlot else e.slot1 }
      else { e with slot1 := slot, slot0 := if e.slot0.fmt = some 0 then emptySlot else e.slot0 }
    (s.bump.mxOor k b rs).setEngine k e

/-! ### The array -/

/-- Advances after which the result row of A row `r` leaves the array. -/
def rowDoneAt (md : ArMode) (split fmt r : Nat) : Nat :=
  32 * advPerRow md fmt * (subCount split - 1) + advPerRow md fmt * (r + 1)

/-- An advance or a dummy operation of the ramp step. -/
def State.madeOne (s : State) (k : MxKey) : State :=
  { s with mx := { s.mx with made := aput s.mx.made k ((aget s.mx.made k).getD 0 + 1) } }

/-- MX_ADVANCE: the oldest MMA that has advances left makes one, at a level above 0, where the step allows one more (Table
5.7); an A row enters in its first. With no work the advance is a dummy (R124) (DEDUCED, log 27). -/
def State.mxAdvance (s : State) (k : MxKey) : State :=
  if 2 * (aget s.mx.level k).getD 0 ≤ (aget s.mx.made k).getD 0 then s
  else match s.engine k with
  | none => (s.madeOne k).tallyCore k.core 0x023 1
  | some e =>
    match e.array.find? (fun r => r.advanced < s.advancesOf r.ins) with
    | none => (s.madeOne k).tallyCore k.core 0x023 1
    | some r =>
      match r.ins.op, s.block e.bid with
      | .mma _ _ _ _ d, some b =>
        if s.mxWaits k .array then s
        else
          let per := advPerRow (s.mxMode r.ins) d.fmt
          let row := r.advanced / per
          let enters := r.advanced % per == 0 && row < d.rows
          let dr := d.data row
          let sr := d.scale row (cdiv d.cols 32)
          let step := fun (s : State) (r : MxRun) =>
            ((s.madeOne k).setEngine k { e with got := adel e.got .array, array := e.array.map (fun q =>
              if q.ins.ser == r.ins.ser then { r with advanced := r.advanced + 1 } else q) }).tallyCtx k.core r.ins.cmd.ctx 0x022 1
          if !enters then step s r
          else match s.mxStop k r.ins accRead [dr, sr] with
          | (s, true) => s
          | (s, false) =>
            match s.mxAsk k r.ins [dr, sr] with
            | (s, false) => s
            | (s, true) =>
            let data := s.mxBytes k r.ins b 0 dr
            let scales := s.mxBytes k r.ins b 1 sr
            let p := s.mxPoison k r.ins dr || s.mxPoison k r.ins sr
            let r := { r with
              rows := if r.added.contains row then r.rows else r.rows ++ [(row, data, scales)]
              poison := r.poison || p }
            step (s.mxOor k b [dr, sr]).bump r
      | _, _ => s

/-- One element of a result row (R109, R121, R149-R161). -/
def rowElem (md : ArMode) (acc : Bool) (split : Nat) (d : TDesc) (cells : MxSlot) (data scales : List Byte) (c : W32) (j : Nat) :
    W32 :=
  let b := cells.runs.getD j []
  let bs := cells.scales.getD j []
  let bf := cells.fmt.getD d.fmt
  let ks := List.range d.cols
  if d.cols = 0 then (if acc then c else 0)
  else if split != 0 then
    dotSplit md split (if acc then some c else none) (ks.map (fun l => (elemCode 0 data l, elemCode 0 b l)))
  else if d.fmt = 6 then dotInt (if acc then c else 0) (ks.map (fun l => (elemCode 6 data l, elemCode 6 b l)))
  else dotElem md (if acc then some c else none)
    (ks.map (fun l => (elemVal md.mx d.fmt data scales l, elemVal md.mx bf b bs l)))

/-- ACC_UE: what the check of the accumulators finds as they are read (17_fault_tolerance.md R343; Table 17.1). -/
def State.accCheck (s : State) (core : Nat) (reads : Bool) : Bool × State :=
  match s.takeFind (.acc core), reads with
  | some (_, s), true => (true, s)
  | _, _ => (false, s)

/-- MX_ROW_ADD: the next result row of the oldest MMA is checked by residue and added into its tile; a row that fails is not
added, and the pass is repeated, or the core contained (R119, R126) (DEDUCED, log 27). An uncorrectable error of the tile read
poisons the tile (R125). -/
def State.mxRowAdd (s : State) (k : MxKey) (ok : Bool) : State :=
  match s.engine k with
  | none => s
  | some e =>
    match e.array with
    | [] => s
    | r :: rest =>
      match r.ins.op with
      | .mma acc split t _ d =>
        let md := s.mxMode r.ins
        match r.rows.find? (fun x => rowDoneAt md split d.fmt x.1 ≤ r.advanced) with
        | none => s
        | some (row, data, scales) =>
          if ok then
            let (ue, s) := s.accCheck k.core acc
            let e := e.putRow t row r.cells.rows (fun j => rowElem md acc split d r.cells data scales (e.elem t row j) j)
            s.setEngine k { e with array := { r with
              rows := r.rows.filter (fun x => x.1 != row), added := r.added ++ [row], poison := r.poison || ue } :: rest }
          else if r.again then s.contain k.core fMxResidue2
          else
            let s := (s.setEngine k { e with array := { r with rows := [], advanced := 0, again := true } :: rest }).mxRamp k
            ((s.modCmd r.ins.cmd (fun c => { c with replayed := true })).countReplay (k.core / 8)).tallyCtx k.core r.ins.cmd.ctx 0x047 1
      | _ => s

/-- An MMA completes once its last row is added (R119); its tile's mark follows R125. -/
def State.mmaDone (s : State) (k : MxKey) (e : Engine) : State :=
  match e.array with
  | [] => s
  | r :: rest =>
    match r.ins.op with
    | .mma acc _ t _ d =>
      if s.advancesOf r.ins ≤ r.advanced && r.added.length == d.rows then
        let part := d.rows < 32 || r.cells.rows < 32
        s.setEngine k ({ e with array := rest }.mark t (r.poison || ((acc || part) && e.marked t)))
      else s
    | _ => s

/-! ### The side port -/

/-- The value MLDC writes for an element's code (06_number_formats.md R145). -/
def widen (fmt c : Nat) : W32 :=
  match fmtDec (fmtNum false fmt) c, fmt with
  | _, 0 => BitVec.ofNat 32 c
  | _, 7 => BitVec.ofNat 32 c
  | .nan w, _ => BitVec.ofNat 32 w
  | v, _ => BitVec.ofNat 32 (fmtEnc .b32 ⟨true, false, false⟩ v)

/-- An MLDC completes. -/
def State.ldcDone (s : State) (k : MxKey) (e : Engine) (i : MxIns) (b : Block) (t : Nat) (d : TDesc) : State :=
  let rs := (List.range d.rows).map d.data
  match s.mxStop k i accRead rs with
  | (s, true) => s
  | (s, false) =>
    match s.mxAsk k i rs with
    | (s, false) => s
    | (s, true) =>
    let p := rs.any (s.mxPoison k i) || ((d.rows < 32 || d.cols < 32) && e.marked t)
    let e := (List.range d.rows).foldl (fun e r =>
      let run := s.mxBytes k i b r (d.data r)
      e.putRow t r d.cols (fun j => widen d.fmt (elemCode d.fmt run j))) e
    (s.bump.mxOor k b rs).setEngine k ({ e with side := none, got := adel e.got .side }.mark t p)

/-- The code of one element that MSTC stores (06_number_formats.md R145). -/
def narrow (md : ArMode) (fmt x : Nat) : Nat :=
  if fmt = 0 ∨ fmt = 7 then x
  else if fmt = 6 then fmtEnc .int8 md (fmtDec .int32 x)
  else fmtEnc (fmtNum md.mx fmt) md (fmtDec .b32 x)

/-- The larger of two magnitudes. -/
def maxMag (a b : V) : V :=
  match a, b with
  | .inf _, _ => .inf false
  | _, .inf _ => .inf false
  | .fin _ m e, .fin _ n f => if vLt (.fin false m e) (.fin false n f) then .fin false n f else .fin false m e
  | _, v => v

/-- emax of R111. -/
def emaxOf (fmt : Nat) : Int := if fmt = 3 then 8 else if fmt = 4 then 15 else 2

/-- A scaled row: its scale byte and its codes (R111; 06_number_formats.md R139). An element that is a NaN is written without its
payload, in strict mode too (DESIGN CHOICE, log 72). -/
def scaledRow (md : ArMode) (fmt : Nat) (xs : List Nat) : Nat × List Nat :=
  let f := fmtNum md.mx fmt
  let vs := xs.map (fmtDec .b32)
  if (firstNan vs).isSome then
    (0xFF, xs.map (fun x => fmtOfNan f md (if 2 ^ 31 ≤ x then 0xFFC00000 else 0x7FC00000)))
  else match vs.foldl maxMag (.fin false 0 0) with
    | .fin _ 0 _ => (0, vs.map (fmtEnc f md))
    | big =>
      let x : Int := match big with
        | .fin _ m e => max (-127) (min 127 (flog m + e - emaxOf fmt))
        | _ => 127
      ((x + 127).toNat, vs.map (fun v => match v with
        | .fin n m e => fmtEnc f md (.fin n m (e - x))
        | v => fmtEnc f md v))

/-- Bytes that an engine writes within one line that the cluster cache holds in O, as poisoned where the tile is marked. A
partial write of a poisoned line is dropped and fails the launch (09_caches.md R195). -/
def State.mxPutLine (s : State) (k : MxKey) (i : MxIns) (poison : Bool) (va : Nat) (bs : List Byte) : State :=
  let cl := k.core / 8
  match s.xlateMx k.core i.cmd.ctx va 0 with
  | .pa a =>
    if poison then (match s.ccLine cl (a / 128) with
      | some x => s.setCc cl (a / 128) { x with pk := .poison }
      | none => s)
    else
      let (s, p) := s.ccWrite cl (s.ctxKey i.cmd.ctx) a bs
      s.failCmd i.cmd p.status
  | _ => s

/-- The pieces of a run in device memory, by line of virtual addresses. -/
def Run.pieces (r : Run) (bs : List Byte) : List (Nat × List Byte) :=
  if r.scr then []
  else (linesOf r.at_ r.len).map (fun l =>
    let lo := max r.at_ (128 * l)
    (lo, (bs.drop (lo - r.at_)).take (min (r.at_ + r.len) (128 * l + 128) - lo)))

/-- The runs that an MSTC writes, with their bytes (R109, R111, R116). With COLS 0 no scale byte is written (DESIGN CHOICE,
log 71). -/
def stcRuns (md : ArMode) (e : Engine) (t : Nat) (d : TDesc) : List (Run × List Byte) :=
  (List.range d.rows).flatMap (fun r =>
    let xs := (List.range d.cols).map (fun j => (e.elem t r j).toNat)
    if d.scaled && d.cols != 0 then
      let (sc, cs) := scaledRow md d.fmt xs
      [(d.data r, packRun d.fmt cs), (d.scale r 1, [BitVec.ofNat 8 sc])]
    else [(d.data r, packRun d.fmt (xs.map (narrow md d.fmt)))])

/-- The lines of an MSTC that the cluster cache holds in O now, as class 3, are written, each once; whether all of them have
been. Where runs or scales of one MSTC overlap the later run's bytes last, a run's data before its scale (DESIGN CHOICE, log
71). -/
def State.stcLines (s : State) (k : MxKey) (e : Engine) (i : MxIns) (poison : Bool) (ps : List (Nat × List Byte)) : State × Bool :=
  let lineAt := fun (s : State) (va : Nat) => match s.xlateMx k.core i.cmd.ctx va 0 with
    | .pa a => some (a / 128)
    | _ => none
  let lns := (ps.filterMap (fun q => lineAt s q.1)).dedup
  let (s, got) := lns.foldl (fun (s, got) ln =>
    if got.contains ln then (s, got)
    else match s.ccAsk (k.core / 8) 3 ln true with
      | (s, false) => (s, got)
      | (s, true) =>
        ((ps.filter (fun q => lineAt s q.1 == some ln)).foldl (fun s q => s.mxPutLine k i poison q.1 q.2) s, ln :: got))
    (s.mxGrant k lns, e.gotOf .side)
  (s.setEngine k { e with got := aput e.got .side got }, lns.all (fun ln => got.contains ln))

/-- An MSTC completes once its lines have been written, scratch and host memory with the last of them (R109, R125) (DEDUCED,
log 27). -/
def State.stcDone (s : State) (k : MxKey) (e : Engine) (i : MxIns) (b : Block) (t : Nat) (d : TDesc) : State :=
  let rbs := stcRuns (s.mxMode i) e t d
  let rs := rbs.map (fun q => q.1)
  match s.mxStop k i accWrite rs with
  | (s, true) => s
  | (s, false) =>
    let (ue, s) := s.accCheck k.core true
    let e := if ue then e.mark t true else e
    let p := e.marked t
    let s := if p then s.failCmd i.cmd stPoison else s
    let ps := rbs.flatMap (fun q => q.1.pieces q.2)
    match s.stcLines k e i p ps with
    | (s, false) => s
    | (s, true) =>
      let s := rbs.foldl (fun s q => if q.1.scr then s.wrScr b q.1.at_ q.2 else s) s
      let s := ps.foldl (fun s q => match s.xlateMx k.core i.cmd.ctx q.1 0 with
        | .host a _ => (s.useLink (k.core / 128)).wrHost a q.2
        | _ => s) s
      (s.mxOor k b rs).setEngine k { e with side := none, got := adel e.got .side }

/-- New value of an element, Table 5.4: `y` is the other tile's element, or the BIAS value in the instruction's type. -/
def mewElem (md : ArMode) (op : Nat) (ty : MewTy) (x y sc b : W32) : W32 :=
  if op = 0 then 0
  else if op = 1 then y
  else if op = 2 ∨ op = 5 then (if ty = MewTy.f32 then fadd md x y else x + y)
  else if op = 3 then (if ty = MewTy.f32 then fmul md x y else x * y)
  else if op = 4 then (if ty = MewTy.f32 then ffma md x sc b else x * sc + b)
  else if op = 6 then
    (if ty = MewTy.f32 then BitVec.ofNat 32 (numMaxMin .b32 md true x.toNat sc.toNat) else if BitVec.slt x sc then sc else x)
  else if op = 7 then
    (if ty = MewTy.f32 then BitVec.ofNat 32 (numMaxMin .b32 md false x.toNat sc.toNat) else if BitVec.slt sc x then sc else x)
  else if ty = MewTy.f32 then BitVec.ofNat 32 (fmtEnc .b32 md (fmtDec .int32 x.toNat))
  else BitVec.ofNat 32 (fmtEnc .int32 md (fmtDec .b32 x.toNat))

/-- A BIAS value converted to the instruction's type. -/
def biasVal (md : ArMode) (fmt : Nat) (ty : MewTy) (c : Nat) : W32 :=
  if fmt = 0 ∧ ty = MewTy.i32 then BitVec.ofNat 32 (fmtEnc .int32 md (fmtDec .b32 c))
  else if fmt = 7 ∧ ty = MewTy.f32 then BitVec.ofNat 32 (fmtEnc .b32 md (fmtDec .int32 c))
  else BitVec.ofNat 32 c

/-- A MEW completes. -/
def State.ewDone (s : State) (k : MxKey) (e : Engine) (i : MxIns) (b : Block) (op : Nat) (ty : MewTy) (t u : Nat) (sc sb : W32)
    (d : TDesc) : State :=
  let rs := if op = 5 then [d.data 0] else []
  match s.mxStop k i accRead rs with
  | (s, true) => s
  | (s, false) =>
    match s.mxAsk k i rs with
    | (s, false) => s
    | (s, true) =>
    let (ue, s) := s.accCheck k.core (op != 0)
    let md := s.mxMode i
    let run := s.mxBytes k i b 0 (d.data 0)
    let y := fun (r j : Nat) => if op = 5 then biasVal md d.fmt ty (elemCode d.fmt run j) else e.elem u r j
    let p := ue || (op != 0 && op != 1 && e.marked t) || ((op == 1 || op == 2 || op == 3) && e.marked u) || rs.any (s.mxPoison k i)
    let e := e.setTile t (fun r j => mewElem md op ty (e.elem t r j) (y r j) sc sb)
    (s.bump.mxOor k b rs).setEngine k ({ e with side := none, got := adel e.got .side }.mark t p)

/-- MX_INSTR_COMPLETE: the instruction of a pipe completes (R119), unless a fault holds it (R125). The oldest MMA whose last
row has been added completes whatever a later one waits for. -/
def State.mxComplete (s : State) (k : MxKey) (p : Pipe) : State :=
  match s.engine k with
  | none => s
  | some e =>
    match s.block e.bid with
    | none => s
    | some b =>
      if p != .array && s.mxWaits k p then s
      else match p with
        | .array => s.mmaDone k e
        | .feeder => match e.feeder with
          | some i => match i.op with
            | .lds sh d => s.ldsDone k e i b sh d
            | _ => s
          | none => s
        | .side => match e.side with
          | none => s
          | some i => match i.op with
            | .ldc t d => s.ldcDone k e i b t d
            | .stc t d => s.stcDone k e i b t d
            | .ew op ty t u sc sb d => s.ewDone k e i b op ty t u sc sb d
            | _ => s

/-! ### The ramp (R123, R124; 19_power_and_clocks.md R389, R393) -/

/-- The matrix activity cap in quarters. -/
def State.mxCap (s : State) : Nat := 4 - s.rd F.PWR_CLK_MX_CAP

/-- MX_RAMP_STEP_END: the level rises with work, not above the cap and not after a droop, and falls without; at 0 without work the
array is gated. -/
def State.rampStep (s : State) (k : MxKey) : State :=
  match aget s.mx.level k with
  | none => s
  | some l =>
    let work := match s.engine k with
      | some e => !s.arrayFree e
      | none => false
    let calm := (aget s.mx.calm k).getD 0
    let s := { s with mx := { s.mx with calm := if calm ≤ 1 then adel s.mx.calm k else aput s.mx.calm k (calm - 1), made := adel s.mx.made k } }
    let put := fun (l : Nat) => { s with mx := { s.mx with level := aput s.mx.level k l } }
    if s.mxCap < l then put (l - 1)
    else if work then (if calm = 0 then put (min s.mxCap (l + 1)) else s)
    else if l = 0 then { s with mx := { s.mx with level := adel s.mx.level k } }
    else put (l - 1)

/-! ### MWAIT (R116) -/

/-- MWAIT through the group's port; the group waits for what it issued before (DEDUCED, log 57). -/
def State.mwaitOp (s : State) (g : Gid) (m0 m1 : Bool) : State :=
  s.issue g false [] (fun s _ _ _ =>
    (s.issued g true false).modGroup g (fun y => { y with wait := .mwait m0 m1 s.thr.serial, pc := Config.nextPc y.pc }))

/-- Instructions of a group older than a serial that an engine has not completed (DEDUCED, log 57). -/
def State.mxOwes (s : State) (g : Gid) (mx upto : Nat) : Bool :=
  match s.engine ⟨g.core, mx⟩ with
  | none => false
  | some e => e.open_.any (fun i => i.g == g && i.ser < upto)

/-- MWAIT_SATISFIED. -/
def State.mwaitOver (s : State) (g : Gid) : State :=
  match s.group g with
  | none => s
  | some x =>
    match x.wait with
    | .mwait m0 m1 n => if (m0 && s.mxOwes g 0 n) || (m1 && s.mxOwes g 1 n) then s else s.modGroup g (fun y => { y with wait := .ready })
    | _ => s

/-! ### The rows -/

/-- MLDS (R109). -/
def execMlds (g : Gid) (mx sh ra : Nat) (s : State) : Host.Outcome State Fault Refusal := .next (s.mxDesc g mx ra (.lds sh))
/-- MMA.Z (R109). -/
def execMmaZ (g : Gid) (mx t sh ra : Nat) (s : State) : Host.Outcome State Fault Refusal := .next (s.mxDesc g mx ra (.mma false 0 t sh))
/-- MMA.A (R109). -/
def execMmaA (g : Gid) (mx t sh ra : Nat) (s : State) : Host.Outcome State Fault Refusal := .next (s.mxDesc g mx ra (.mma true 0 t sh))
/-- MMA.Z.S3 (R122). -/
def execMmaZS3 (g : Gid) (mx t sh ra : Nat) (s : State) : Host.Outcome State Fault Refusal := .next (s.mxDesc g mx ra (.mma false 3 t sh))
/-- MMA.A.S3 (R122). -/
def execMmaAS3 (g : Gid) (mx t sh ra : Nat) (s : State) : Host.Outcome State Fault Refusal := .next (s.mxDesc g mx ra (.mma true 3 t sh))
/-- MMA.Z.S6 (R122). -/
def execMmaZS6 (g : Gid) (mx t sh ra : Nat) (s : State) : Host.Outcome State Fault Refusal := .next (s.mxDesc g mx ra (.mma false 6 t sh))
/-- MMA.A.S6 (R122). -/
def execMmaAS6 (g : Gid) (mx t sh ra : Nat) (s : State) : Host.Outcome State Fault Refusal := .next (s.mxDesc g mx ra (.mma true 6 t sh))
/-- MLDC (R109). -/
def execMldc (g : Gid) (mx t ra : Nat) (s : State) : Host.Outcome State Fault Refusal := .next (s.mxDesc g mx ra (.ldc t))
/-- MSTC (R109). -/
def execMstc (g : Gid) (mx t ra : Nat) (s : State) : Host.Outcome State Fault Refusal := .next (s.mxDesc g mx ra (.stc t))
/-- MEW.ZERO (R110). -/
def execMewZero (g : Gid) (ty : MewTy) (mx t : Nat) (s : State) : Host.Outcome State Fault Refusal := .next (s.mew g 0 ty mx t 0 none none)
/-- MEW.COPY (R110). -/
def execMewCopy (g : Gid) (ty : MewTy) (mx t u : Nat) (s : State) : Host.Outcome State Fault Refusal := .next (s.mew g 1 ty mx t u none none)
/-- MEW.ADD (R110). -/
def execMewAdd (g : Gid) (ty : MewTy) (mx t u : Nat) (s : State) : Host.Outcome State Fault Refusal := .next (s.mew g 2 ty mx t u none none)
/-- MEW.MUL (R110). -/
def execMewMul (g : Gid) (ty : MewTy) (mx t u : Nat) (s : State) : Host.Outcome State Fault Refusal := .next (s.mew g 3 ty mx t u none none)
/-- MEW.AXPB (R110). -/
def execMewAxpb (g : Gid) (ty : MewTy) (mx t rs rb : Nat) (s : State) : Host.Outcome State Fault Refusal :=
  .next (s.mew g 4 ty mx t 0 (some rs) (some rb))
/-- MEW.BIAS (R110). -/
def execMewBias (g : Gid) (ty : MewTy) (mx t ra : Nat) (s : State) : Host.Outcome State Fault Refusal :=
  .next (s.mxDesc g mx ra (.ew 5 ty t 0 0 0))
/-- MEW.MAX (R110). -/
def execMewMax (g : Gid) (ty : MewTy) (mx t rs : Nat) (s : State) : Host.Outcome State Fault Refusal :=
  .next (s.mew g 6 ty mx t 0 (some rs) none)
/-- MEW.MIN (R110). -/
def execMewMin (g : Gid) (ty : MewTy) (mx t rs : Nat) (s : State) : Host.Outcome State Fault Refusal :=
  .next (s.mew g 7 ty mx t 0 (some rs) none)
/-- MEW.CVT (R110). -/
def execMewCvt (g : Gid) (ty : MewTy) (mx t : Nat) (s : State) : Host.Outcome State Fault Refusal := .next (s.mew g 8 ty mx t 0 none none)
/-- MWAIT (R116). -/
def execMwait (g : Gid) (m0 m1 : Bool) (s : State) : Host.Outcome State Fault Refusal := .next (s.mwaitOp g m0 m1)
/-- MWAIT_SATISFIED (R116). -/
def execMwaitSatisfied (g : Gid) (s : State) : Host.Outcome State Fault Refusal := .next (s.mwaitOver g)
/-- MX_PIPE_START (R113). -/
def execMxPipeStart (core mx : Nat) (p : Pipe) (s : State) : Host.Outcome State Fault Refusal := .next (s.mxStart ⟨core, mx⟩ p)
/-- MX_ADVANCE (R118, R123). -/
def execMxAdvance (core mx : Nat) (s : State) : Host.Outcome State Fault Refusal := .next (s.mxAdvance ⟨core, mx⟩)
/-- MX_ROW_ADD (R119, R126). -/
def execMxRowAdd (core mx : Nat) (ok : Bool) (s : State) : Host.Outcome State Fault Refusal := .next (s.mxRowAdd ⟨core, mx⟩ ok)
/-- MX_INSTR_COMPLETE (R119). -/
def execMxInstrComplete (core mx : Nat) (p : Pipe) (s : State) : Host.Outcome State Fault Refusal := .next (s.mxComplete ⟨core, mx⟩ p)
/-- MX_RAMP_STEP_END (R123). -/
def execMxRampStepEnd (core mx : Nat) (s : State) : Host.Outcome State Fault Refusal := .next (s.rampStep ⟨core, mx⟩)

end Sys2Proof.Machine
end

