-- ==== Sys2Proof/Machine/SaveRestore.lean ====
section
/-! DEFINITION. Saving and restoring a context (12_shared_objects.md R258; 05_matrix_engines.md R127; 14_synchronisation.md R307).
What a save writes is held in the state; the bytes of the save area are open, for their layout is internal. -/

namespace Sys2Proof.Machine

open Sys2Proof

/-! ### SAVE -/

/-- Blocks of a context. -/
def State.ctxBlocks (s : State) (c : Nat) : List (Nat × Block) := s.thr.blocks.filter (fun e => e.2.cmd.ctx == c)

/-- A stocktake of a queue of the context is in progress. -/
def State.stockGoing (s : State) (c : Nat) : Bool := s.cmd.swqs.any (fun e => e.2.ctx == c && e.2.taking.isSome)

/-- A save begins once no stocktake is in progress: parsing stops and the context's groups issue no more. -/
def State.beginSave (s : State) (c : Nat) : State := { s with obj := { s.obj with saving := s.obj.saving ++ [c] } }

/-- CTX_SAVE. -/
def State.ctxSave (s : State) : State :=
  match s.headOp 0 oSave with
  | none => s
  | some o =>
    if s.ctxState o.index != ctxLive || s.isSaving o.index then s.refuse o.seq eState
    else if s.stockGoing o.index then s
    else { s with obj := { s.obj with busy := true } }.beginSave o.index

/-- An access has a part that a home or another unit is performing. -/
def MemOp.sentOn (o : MemOp) : Bool := o.lanes.any (fun l => match l.ph with
  | .sent _ => true
  | _ => false)

/-- An engine has completed every instruction it accepted. -/
def Engine.idle (e : Engine) : Bool := e.queue.isEmpty && e.feeder.isNone && e.array.isEmpty && e.side.isNone

/-- What a context's blocks have started outside is over, its engines are idle, and no WAIT of it is being withdrawn
(14_synchronisation.md R301). -/
def State.saveReady (s : State) (c : Nat) : Bool :=
  s.thr.ops.all (fun o => o.cmd.ctx != c || !o.sentOn)
  && s.mx.eng.all (fun e => e.2.idle || (s.thr.blocks.all (fun b => b.1 != e.2.bid || b.2.cmd.ctx != c)))
  && (s.ctxBlocks c).all (fun b => b.2.zeroed) && !s.stockGoing c
  && s.cmd.cmds.all (fun e => e.1.ctx != c || e.2.wait != .withdrawing)

/-- An access as it is saved: what waited on the blotter translates again after the restore. -/
def MemOp.held (o : MemOp) : MemOp :=
  { o with lanes := o.lanes.map (fun l => { l with ph := match l.ph with
    | .done v => .done v
    | _ => .need }) }

/-- One block as it is saved. Registers are kept by group and page position, scratch by offset. -/
def State.saveBlock (s : State) (bid : Nat) (b : Block) : SavedBlk :=
  let gs := b.slots.filterMap (fun k => s.group ⟨b.core, k⟩)
  let regs := (gs.zipIdx).flatMap (fun (g, i) => (g.pages.zipIdx).flatMap (fun (p, j) =>
    (s.thr.rf.filter (fun e => e.1.core == b.core && e.1.page == p)).map (fun e => (RfKey.mk i j e.1.reg e.1.lane, e.2))))
  let scr := (b.gran.zipIdx).flatMap (fun (k, i) =>
    (s.thr.scr.filter (fun e => e.1 / 1024 == b.core * 1024 + k)).map (fun e => (i * 1024 + e.1 % 1024, e.2)))
  ⟨bid, b, gs, regs, scr, (s.thr.ops.filter (fun o => o.bid == bid)).map MemOp.held,
    (s.mx.eng.filter (fun e => e.2.bid == bid)).map (fun e => (e.1.mx, e.2))⟩

/-- Bytes of a context's save area (R258; CAP.SAVE_CTX and CAP.SAVE_CORE). -/
def State.saveBytes (s : State) (c : Nat) : Nat :=
  65536 + 1572864 * (8 * (s.fol.cur.clusters.filter (fun p => p == s.ctxPart c)).length)

/-- A WAIT of the context is registered, or on its way to be: it is saved (DEDUCED, log 39). -/
def State.savedWait (s : State) (c : Nat) : List Waiter :=
  (s.syn.waiters.filter (fun w => w.cmd.ctx == c))
    ++ s.syn.ops.filterMap (fun o => match o.2 with
      | .register n i v id => if id.ctx == c && (s.cmdOf id).any (fun k => k.wait == .registering) then
          some ⟨n, i, v, id, (((s.cmdOf id).bind (fun k => s.queueDie k.q))).getD 0⟩ else none
      | _ => none)

/-- The save: blocks leave their cores, registered waits leave their units, and the context is SAVED; its ledgers stop
(20_tally_and_ledger.md R408) (DEDUCED, log 39). -/
def State.saveNow (s : State) (c : Nat) : State :=
  let blks := s.ctxBlocks c
  let saved := blks.map (fun e => (c, s.saveBlock e.1 e.2))
  let ws := s.savedWait c
  let keys := (s.mx.eng.filter (fun e => blks.any (fun b => b.1 == e.2.bid))).map (fun e => e.1)
  let s := s.dropBlocks (fun _ b => b.cmd.ctx == c)
  let s := ws.foldl (fun s w => s.modCmd w.cmd (fun k => { k with wait := .saved })) s
  let s := { s with
    mx := { s.mx with
      level := s.mx.level.filter (fun e => !keys.contains e.1)
      calm := s.mx.calm.filter (fun e => !keys.contains e.1)
      made := s.mx.made.filter (fun e => !keys.contains e.1) }
    syn := { s.syn with
      waiters := s.syn.waiters.filter (fun w => w.cmd.ctx != c)
      saved := s.syn.saved ++ ws
      ops := s.syn.ops.filter (fun o => match o.2 with
        | .register _ _ _ id => id.ctx != c
        | _ => true) }
    obj := { s.obj with saving := s.obj.saving.filter (fun x => x != c), saved := s.obj.saved ++ saved } }
  ((s.openRange (s.rd F.CTX_CSAVE_BASE c * 65536) (s.saveBytes c)).wr F.CTX_STAT_STATE ctxSaved c).ledCtxGone c

/-- The operation at the head is this context's SAVE, in progress. -/
def State.headSaves (s : State) (c : Nat) : Option ObjOp :=
  match s.obj.ops with
  | o :: _ => if s.obj.busy && o.typ == 0 && o.op == oSave && o.index == c then some o else none
  | [] => none

/-- CTX_SAVE_DONE: a save ends, with its operation where K0 was asked for it; one whose context was aborted ends refused. -/
def State.ctxSaveDone (s : State) (c : Nat) : State :=
  if s.isSaving c then
    if !s.saveReady c then s
    else
      let op := (s.headSaves c).isSome
      let s := s.saveNow c
      if op then s.endOp else s
  else match s.headSaves c with
    | some o => s.refuse o.seq eState
    | none => s

/-! ### RESTORE -/

/-- The pages, granules and slots that a saved block takes on a core; none where they do not fit (R60, R105). -/
def State.fitSaved (s : State) (core : Nat) (x : SavedBlk) : Option (List Nat × List Nat × List Nat) :=
  let slots := placeSlots x.groups.length (s.usedSlots core) []
  let pages := (List.range 512).filter (fun k => !(s.usedPages core).contains k)
  let gran := (List.range (64 * (6 - s.l1Steps core))).filter (fun k => !(s.usedGran core).contains k)
  let np := (x.groups.map (fun g => g.pages.length)).sum
  match slots with
  | none => none
  | some l =>
    if np ≤ pages.length && x.blk.gran.length ≤ gran.length
        && (!x.blk.m0 || (s.blocksOn core).all (fun e => !e.2.m0)) && (!x.blk.m1 || (s.blocksOn core).all (fun e => !e.2.m1)) then
      some (l, pages, gran.take x.blk.gran.length)
    else none

/-- The free pages dealt out to the groups of a block, in order. -/
def dealPages : List Group → List Nat → List (List Nat)
  | [], _ => []
  | g :: r, l => l.take g.pages.length :: dealPages r (l.drop g.pages.length)

/-- A saved block placed on a core, resuming where it was saved, with the arrays of its engines gated (05_matrix_engines.md R127).
`co` is its cohort's number there (DEDUCED, log 39). -/
def State.placeSaved (s : State) (x : SavedBlk) (core : Nat) (co : Option (Nat × Nat)) (slots pages gran : List Nat) : State :=
  let at_ := fun (k : Nat) => slots.getD (x.blk.slots.idxOf k) k
  let deal := dealPages x.groups pages
  let groups := (x.groups.zipIdx).map (fun (e : Group × Nat) =>
    (Gid.mk core (slots.getD e.2 0), { e.1 with bid := x.bid, pages := deal.getD e.2 [], irt := e.1.irt.map at_ }))
  let rf := x.regs.foldl (fun m e =>
    aput m (RfKey.mk core ((deal.getD e.1.core []).getD e.1.page 0) e.1.reg e.1.lane) e.2)
    (s.thr.rf.filter (fun e => !(e.1.core == core && deal.any (fun l => l.contains e.1.page))))
  let scr := x.scr.foldl (fun m e => mput m (core * 2 ^ 20 + gran.getD (e.1 / 1024) 0 * 1024 + e.1 % 1024) e.2)
    (s.thr.scr.filter (fun e => !(e.1 / 2 ^ 20 == core && gran.contains (e.1 % 2 ^ 20 / 1024))))
  let ops := x.ops.map (fun o => { o with
    g := ⟨core, at_ o.g.slot⟩, lanes := o.lanes.map (fun l => { l with home := at_ l.home }) })
  let s := { s with
    thr := { s.thr with
      blocks := s.thr.blocks ++ [(x.bid, { x.blk with core := core, slots := slots, gran := gran, cohort := co })]
      groups := s.thr.groups ++ groups
      rf := rf
      scr := scr
      ops := s.thr.ops ++ ops }
    mx :=
      let here := fun (k : MxKey) => k.core == core && x.engs.any (fun e => e.1 == k.mx)
      ⟨s.mx.eng ++ x.engs.map (fun (e : Nat × Engine) => (MxKey.mk core e.1, { e.2 with got := [] })), s.mx.level.filter (fun e => !here e.1),
        s.mx.calm.filter (fun e => !here e.1), s.mx.made.filter (fun e => !here e.1)⟩ }
  (s.coreTag core x.blk.cmd).clockCore core

/-- A core may take a saved block: in service for the context's partition. -/
def State.coreTakes (s : State) (core c : Nat) : Bool :=
  core < 512 && s.clusterPart (core / 8) == s.ctxPart c && !s.on F.REC_CNT_QUAR (core / 8) && !s.rcv.cores.contains core
  && !s.clusterReset (core / 8)

/-- The L1 size that a saved block's launch asks for. -/
def State.stepsOf (s : State) (x : SavedBlk) : Nat :=
  match s.cmdOf x.blk.cmd with
  | some k => lnSteps k.pkt
  | none => 1

/-- Saved blocks placed one after the other; `cos` maps cohorts saved to their numbers here. None where one does not fit. -/
def State.placeAll (c : Nat) : List (SavedBlk × Nat) → List ((CmdId × (Nat × Nat)) × (Nat × Nat)) → State → Option State
  | [], _, s => some s
  | (x, core) :: r, cos, s =>
    let steps := s.stepsOf x
    if !s.coreTakes core c then none
    else match s.resizeL1 core steps with
      | none => none
      | some s =>
        if s.l1Steps core != steps && (s.blocksOn core).isEmpty then none
        else
          let co : Option (Option (Nat × Nat)) := match x.blk.cohort with
            | none => some none
            | some k => match aget cos (x.blk.cmd, k) with
              | some n => if n.1 == core / 8 && (s.blocksOn core).all (fun e => e.2.cohort != some n) then some (some n) else none
              | none => (s.freeCohort (core / 8)).map (fun n => some (core / 8, n))
          match co, s.fitSaved core x with
          | some co, some (slots, pages, gran) =>
            let cos := match x.blk.cohort, co with
              | some k, some n => aput cos (x.blk.cmd, k) n
              | _, _ => cos
            State.placeAll c r cos (s.placeSaved x core co slots pages gran)
          | _, _ => none

/-- The wait tables have entries for the saved WAITs of a context. -/
def State.waitsFit (s : State) (c : Nat) : Bool :=
  (List.range 4).all (fun d =>
    s.waitEntries d + (s.syn.saved.filter (fun w => w.cmd.ctx == c && w.die == d)).length ≤ 1024)

/-- The WAITs of a restored context take their entries and are registered again in saved order (14_synchronisation.md R307). -/
def State.restoreWaits (s : State) (c : Nat) : State :=
  let ws := s.syn.saved.filter (fun w => w.cmd.ctx == c)
  let s := { s with syn := { s.syn with saved := s.syn.saved.filter (fun w => w.cmd.ctx != c) } }
  ws.foldl (fun s w => (s.modCmd w.cmd (fun k => { k with wait := .registering })).pushSync w.idx
    (.register w.note w.idx w.v w.cmd)) s

/-- Two saved blocks are of one cohort. -/
def SavedBlk.mates (a b : SavedBlk) : Bool := a.blk.cohort.isSome && a.blk.cohort == b.blk.cohort && a.blk.cmd == b.blk.cmd

/-- The first of some saved blocks placed on the cores that a list gives, cohorts whole; `ready` is false while a core wakes. -/
def State.placeFirst (s : State) (c : Nat) (blks : List SavedBlk) (cores : List Nat) : Option (State × Bool) :=
  let now := blks.take cores.length
  if (blks.drop cores.length).any (fun b => now.any (SavedBlk.mates b)) then none
  else
    let (s1, ready) := cores.foldl (fun (e : State × Bool) k => let (s, r) := e.1.wakeCore k; (s, e.2 && r)) (s, true)
    let first := cores.dedup.filterMap (fun k => (now.zip cores).find? (fun e => e.2 == k))
    let s1 := first.foldl (fun s e => s.shrinkL1 e.2 (s.stepsOf e.1)) s1
    let ready := ready && first.all (fun e => (s1.resizeL1 e.2 (s1.stepsOf e.1)).isSome)
    if !ready then some (s1, false)
    else (State.placeAll c (now.zip cores) [] s1).map (fun s =>
      ({ s with obj := { s.obj with saved := s.obj.saved.filter (fun b => !(b.1 == c && now.any (fun x => x.bid == b.2.bid))) } }, true))

/-- A saved context restored on the cores that a list gives, one for each saved block in order; it waits while they are
occupied. Of an adopted context the blocks that its cores cannot hold at once are placed later (17_fault_tolerance.md R362)
(DEDUCED, log 39). -/
def State.restoreCtx (s : State) (c : Nat) (cores : List Nat) : Option State :=
  let blks := (s.obj.saved.filter (fun b => b.1 == c)).map (fun b => b.2)
  if !s.waitsFit c || blks.length < cores.length || (cores.length < blks.length && !s.rcv.adopted.contains c) then none
  else (s.placeFirst c blks cores).map (fun (s, ready) =>
    if !ready then s
    else
      let s := { s with obj := { s.obj with restoring := s.obj.restoring.filter (fun x => x != c) } }
      (s.wr F.CTX_STAT_STATE ctxLive c).restoreWaits c)

/-- Saved blocks of a launch that wait for cores: those of a context go before any block of it not yet placed
(17_fault_tolerance.md R362). -/
def State.placeMore (s : State) (id : CmdId) (cores : List Nat) : State :=
  let blks := ((s.obj.saved.filter (fun b => b.1 == id.ctx && b.2.blk.cmd == id)).map (fun b => b.2))
  if s.obj.saved.all (fun b => b.1 != id.ctx) || s.ctxState id.ctx != ctxLive then s.blockPlace id cores
  else if blks.isEmpty then s
  else if blks.length < cores.length then s
  else match s.placeFirst id.ctx blks cores with
    | some (s, _) => s
    | none => s

/-- CTX_RESTORE: of a context that a cut has saved, else K0's operation. -/
def State.ctxRestore (s : State) (cores : List Nat) : State :=
  match s.obj.restoring with
  | c :: _ => (s.restoreCtx c cores).getD s
  | [] =>
    match s.headOp 0 oRestore with
    | none => s
    | some o =>
      if s.ctxState o.index != ctxSaved then s.refuse o.seq eState
      else match s.restoreCtx o.index cores with
        | none => s
        | some s => if s.ctxState o.index == ctxLive then s.endOp else s

/-- BLOCK_PLACE (03_thread_execution.md R60). -/
def execBlockPlace (id : CmdId) (cores : List Nat) (s : State) : Host.Outcome State Fault Refusal := .next (s.placeMore id cores)
/-- CTX_SAVE (R258). -/
def execCtxSave (s : State) : Host.Outcome State Fault Refusal := .next s.ctxSave
/-- CTX_SAVE_DONE (R258; 14_synchronisation.md R307). -/
def execCtxSaveDone (c : Nat) (s : State) : Host.Outcome State Fault Refusal := .next (s.ctxSaveDone c)
/-- CTX_RESTORE (R258). -/
def execCtxRestore (cores : List Nat) (s : State) : Host.Outcome State Fault Refusal := .next (s.ctxRestore cores)

end Sys2Proof.Machine
end

