-- ==== Sys2Proof/Machine/Snapshots.lean ====
section
/-! DEFINITION. The rolling snapshot, pushes and adoption (17_fault_tolerance.md R356-R363). -/

namespace Sys2Proof

/-- The context image that a body written by another module holds: its layout is internal (17_fault_tolerance.md R357)
(DESIGN CHOICE, log 44). -/
opaque Config.foreignImage : List Byte → Machine.Image

end Sys2Proof

namespace Sys2Proof.Machine

open Sys2Proof

/-! ### Errors: SNAP_STAT.ERR, SNAP_PUSH.ERR, SNAP_ADOPT.CODE -/

abbrev snDesc : Nat := 1
abbrev snRange : Nat := 2
abbrev snXfer : Nat := 4
abbrev snPoison : Nat := 5
abbrev snAbort : Nat := 6

/-! ### Descriptors (Tables 17.5 and 17.7) -/

/-- A target field, and whether its zero bits are zero. -/
def tgtOf (l : List Byte) (off : Nat) : Tgt :=
  let x := leAt l off 8
  ⟨bitsOf x 0 32, bitsOf x 32 12, bitsOf x 44 6, bitsOf x 50 1 == 1⟩
def tgtBad (l : List Byte) (off : Nat) : Bool := 2 ^ 51 ≤ leAt l off 8

/-- Range `r` of a descriptor. -/
def rangeOf (l : List Byte) (r : Nat) : SnapRange :=
  ⟨leAt l (64 + 32 * r) 8, leAt l (64 + 32 * r + 8) 8, tgtOf l (64 + 32 * r + 16), leAt l (64 + 32 * r + 24) 8⟩

/-- A range breaks a rule of Table 17.5. -/
def SnapRange.bad (r : SnapRange) : Bool :=
  r.va % 2 ^ 21 != 0 || r.len % 2 ^ 21 != 0 || r.len == 0 || 2 ^ 57 < r.va + r.len || r.off % 4096 != 0

/-- Two ranges overlap. -/
def SnapRange.meets (a b : SnapRange) : Bool := a.va < b.va + b.len && b.va < a.va + a.len

/-- The first 64 bytes of a descriptor break Table 17.5. -/
def snapHeadBad (l : List Byte) : Bool :=
  tgtBad l 0 || leAt l 8 8 % 4096 != 0 || leAt l 16 1 == 0 || 16 < leAt l 16 1 || !zeroIn l 17 24 || leAt l 24 8 == 0 || !zeroIn l 32 64

/-- The ranges of a descriptor. -/
def snapRanges (l : List Byte) : List SnapRange := (List.range (leAt l 16 1)).map (rangeOf l)

/-- The ranges break Table 17.5. -/
def snapRangesBad (l : List Byte) : Bool :=
  let rs := snapRanges l
  rs.any SnapRange.bad || (List.range (leAt l 16 1)).any (fun r => tgtBad l (64 + 32 * r + 16))
  || (rs.zipIdx).any (fun (e : SnapRange × Nat) => (rs.zipIdx).any (fun (f : SnapRange × Nat) => e.2 != f.2 && e.1.meets f.1))

/-- Bytes of a target that a range takes (R357). -/
def SnapRange.size (r : SnapRange) : Nat := r.len / 256 + 2 * r.len

/-- Bytes of the context image body, rounded up to 4 KiB. -/
def State.bodySize (s : State) (c : Nat) : Nat := cdiv (s.rd F.SNAP_STAT2_CIMG_KIB c) 4 * 4096

/-- A tag that a local target of a range holds is not below FIRST_EPOCH (Table 17.5). What a peer's target holds only its
module can tell (DEDUCED, log 45). -/
def State.tagsHeld (s : State) (c first : Nat) (r : SnapRange) : Bool :=
  !r.tgt.peer && (List.range (r.len / 4096)).any (fun g =>
    let t := s.rdVas 0 c (s.moVa (r.tgt.handle % 2 ^ 20) + r.off + 16 * g) 16
    first ≤ leAt t 0 8 || first ≤ leAt t 8 8)

/-- A local target object does not bind, or is shorter than `n` bytes from an offset. -/
def State.tgtShort (s : State) (c : Nat) (t : Tgt) (off n : Nat) : Bool :=
  !t.peer && (!s.moBinds c (s.nextSeq c) t.handle || s.pastEnd t.handle off n)

/-! ### Accesses of the snapshot engine (R356; 09_caches.md R196, R197; 11_translation.md R244) -/

/-- Source of the snapshot engine of a die (11_translation.md Table 11.8). -/
def snapSrc (die : Nat) : AccSrc := ⟨4, die * 16, none, none, none⟩

/-- A write to a target: the die whose engine makes it, the target, an offset, bytes. -/
structure TWrite where
  die : Nat
  tgt : Tgt
  off : Nat
  bytes : List Byte
  deriving DecidableEq, Repr

/-- What a list of writes comes to. -/
inductive TRes where
  | done (s : State)
  | wait (s : State)
  | fail

/-- A range cut by lines: address and bytes of each piece. -/
def linePieces (va : Nat) (l : List Byte) : List (Nat × List Byte) :=
  (linesOf va l.length).map (fun ln =>
    let lo := max va (128 * ln)
    (lo, (l.drop (lo - va)).take (min (va + l.length) (128 * (ln + 1)) - lo)))

/-- One write of an owner begins: to a peer as a transfer, else line by line as the engine comes to it. -/
def State.putWrite (s : State) (own : XOwner) (c : Nat) (w : TWrite) : State :=
  if w.tgt.peer then
    match s.beginSend ⟨own, w.tgt.mod, w.die, s.ctxPart c, w.tgt.ctx, w.tgt.handle, w.off, w.bytes.length, 0, false, .bytes w.bytes,
        false, false, 0, 0, false⟩ with
    | some (_, s) => s
    | none => s
  else
    let ws := (linePieces (s.moVa (w.tgt.handle % 2 ^ 20) + w.off) w.bytes).map (fun q => EngWrite.mk own w.die c q.1 q.2)
    { s with rcv := { s.rcv with writes := s.rcv.writes ++ ws } }

/-- Writes of an owner begin together, once the transfers have entries; they fail where a local target does not hold them. -/
def State.putTargets (s : State) (own : XOwner) (c : Nat) (l : List TWrite) : TRes :=
  let near := l.filter (fun w => !w.tgt.peer)
  if 4096 < s.fab.send.length + (l.length - near.length) then .wait s
  else if near.any (fun w => s.tgtShort c w.tgt w.off w.bytes.length) then .fail
  else .done (l.foldl (fun s w => s.putWrite own c w) s)

/-- A write is sent, or waits: as class 6 to the home of its line in the name of the service cluster, or to host memory
(DEDUCED, log 45). -/
def State.sendWrite6 (s : State) (w : EngWrite) : State :=
  let gone := fun (s : State) => { s with rcv := { s.rcv with writes := s.rcv.writes.erase w } }
  if s.snapWaits w.ctx || !s.rcv.writes.contains w then s
  else match s.xlate w.die w.ctx w.va accWrite with
    | .pa a =>
      match s.svcWrite w.ctx w.die 6 (s.ctxKey w.ctx) a w.bytes .none with
      | none => s.svcWake w.ctx w.die
      | some (s, n) => let s := gone s; { s with rcv := { s.rcv with outs := s.rcv.outs ++ [(n, w.own)] } }
    | .host a _ => gone ((s.useLink w.die).wrHost a w.bytes)
    | .fault ca l => s.blotWait w.ctx w.va ca l accWrite (snapSrc w.die)
    | .walk => s.needWalk w.die w.ctx w.va accWrite (snapSrc w.die) (.die w.die)
    | .off => s.abortCtx w.ctx stFaultXlate

/-- The writes of an owner are sent as far as they can be. -/
def State.snapFlush (s : State) (own : XOwner) : State := (s.rcv.writes.filter (fun w => w.own == own)).foldl State.sendWrite6 s

/-- What a read of the snapshot engine comes to. -/
inductive SRead where
  | ok (s : State) (l : List Byte)
  | wait (s : State)
  | bad (s : State)

/-- Lines are read as class 6 through the service cluster's cache, each once, and whether all of them have been (09_caches.md
R196). -/
def State.readLines (s : State) (own : XOwner) (die c : Nat) (lns : List Nat) : State × Bool :=
  let got0 := (aget s.rcv.reads own).getD []
  let (s, got) := lns.foldl (fun (s, got) ln =>
    if got.contains ln then (s, got)
    else
      let (s, y) := s.svcAsk c die 6 [ln] false
      (s, if y then ln :: got else got)) (s, got0)
  let over_ := lns.all (fun ln => got.contains ln)
  let left := if over_ then got.filter (fun ln => !lns.contains ln) else got
  ({ s with rcv := { s.rcv with reads := if left.isEmpty then adel s.rcv.reads own else aput s.rcv.reads own left } }, over_)

/-- An access of the snapshot engine that cannot go on (11_translation.md R244, R470). -/
def State.snapStopAt (s : State) (die c acc : Nat) : Nat × Xlate → State
  | (a, .fault ca l) => s.blotWait c a ca l acc (snapSrc die)
  | (a, .walk) => s.needWalk die c a acc (snapSrc die) (.die die)
  | (_, .off) => s.abortCtx c stFaultXlate
  | _ => s

/-- Bytes of a context's space read by the snapshot engine, which needs no permission (11_translation.md Table 11.4). -/
def State.snapRead (s : State) (own : XOwner) (die c va n : Nat) : SRead :=
  if s.snapWaits c then .wait s
  else match s.vaStop die c accSnap va n with
    | some x => .wait (s.snapStopAt die c accSnap x)
    | none =>
      match s.readLines own die c (s.vaLines die c va n) with
      | (s, false) => .wait s
      | (s, true) => if s.vaPoison die c va n != .none then .bad s else .ok s (s.rdVas die c va n)

/-! ### Enabling and disabling (R356, R360) -/

/-- A snapshot's record replaced. -/
def State.setSnap (s : State) (c : Nat) (x : Snap) : State := { s with rcv := { s.rcv with snaps := aput s.rcv.snaps c x } }

/-- SNAP_ENABLE: the descriptor is read once. The size of the image body is this implementation's: a free value. -/
def State.snapEnable (s : State) (c : Nat) : State :=
  if 64 ≤ c || s.on F.SNAP_CFG_EN c then s
  else
    let a := s.rd F.SNAP_DESC_ADDR c * 64
    let l := s.rdBytes devKey a (64 + 32 * 16)
    let x : Snap := ⟨tgtOf l 0, leAt l 8 8, snapRanges l, leAt l 24 8, leAt l 24 8, [], [], 0, [], none, 0, false, 0, false, false, none⟩
    let s := (((s.wr F.SNAP_CFG_EN 1 c).wr F.SNAP_STAT_ERR 0 c).wr F.SNAP_STAT_PHASE 1 c).setSnap c x
    let s := (s.wr F.SNAP_STAT2_CIMG_KIB (s.freeVal 0 32) c).bump
    let n := 64 + 32 * leAt l 16 1
    if s.ctxState c == ctxFree || s.ctxState c == ctxAborting || s.ctxState c == ctxAborted || s.ctxState c == ctxDestroying then
      s.snapStop c snAbort
    else if stackTop < a + 64 || s.poisonOf a 64 != .none || snapHeadBad l then s.snapStop c snDesc
    else if stackTop < a + n || s.poisonOf a n != .none || snapRangesBad l then s.snapStop c snDesc
    else if x.ranges.any (fun r => s.tgtShort c r.tgt r.off r.size) || s.tgtShort c x.img x.imgOff (4096 + 2 * s.bodySize c) then
      s.snapStop c snRange
    else if x.ranges.any (s.tagsHeld c x.first) then s.snapStop c snDesc
    else s

/-- SNAP_DISABLE. -/
def State.snapDisable (s : State) (c : Nat) : State :=
  if 64 ≤ c then s
  else
    let s := s.wr F.SNAP_CFG_EN 0 c
    match aget s.rcv.snaps c with
    | none => s.wr F.SNAP_STAT_PHASE 0 c
    | some x => (s.setSnap c { x with stopping := true }).snapIdle c

/-! ### Page copies (R357, R358) -/

/-- A page, or what stands in its place, at `va`: base and size; leaf entry, its address and the page's. -/
structure Leaf where
  base : Nat
  size : Nat
  pte : Nat
  ptePa : Nat
  pa : Nat
  valid : Bool
  deriving DecidableEq, Repr

/-- The leaf that maps an address of a context; a leaf that is not valid, or marked HOST, is not copied. -/
def State.leafAt (s : State) (c va : Nat) : Leaf :=
  match s.walkFrom (s.ctxKey c) va 4 (s.xltRoot c) with
  | .fault _ l => let z := levelSize (if l < 5 then l else 0); ⟨va / z * z, z, 0, 0, 0, false⟩
  | .leaf e l pa => let z := levelSize l; ⟨va / z * z, z, e, pa, ptePa e, !pteHost e⟩

/-- A store to a page is on its way with the translation it had (R241). -/
def State.pageBusy (s : State) (pa n : Nat) : Bool :=
  s.thr.ops.any (fun o => o.lanes.any (fun l => match l.ph with
    | .sent ln => pa ≤ 128 * ln && 128 * ln < pa + n
    | _ => false))

/-- The slot a granule goes to: the slot tagged E, else the one with the smaller tag; `tag` are its tags where the target is
local. A peer's tags that this engine has not written are open (DEDUCED, log 45). -/
def State.slotFor (s : State) (x : Snap) (r g : Nat) (tag : Option (List Byte)) : Nat :=
  match aget x.tags (r, g), tag with
  | some (k, e), _ => if e = x.epoch then k else 1 - k
  | none, none => s.freeVal (2000 + g) 1
  | none, some t => if leAt t 0 8 = x.epoch then 0 else if leAt t 8 8 = x.epoch then 1 else if leAt t 8 8 < leAt t 0 8 then 1 else 0

/-- The granules of a leaf in a range. -/
def SnapRange.granules (q : SnapRange) (lf : Leaf) : List Nat := (List.range (lf.size / 4096)).map (fun i => (lf.base - q.va) / 4096 + i)

/-- The writes of a leaf's granules and tags. -/
def State.leafWrites (s : State) (c : Nat) (x : Snap) (q : SnapRange) (lf : Leaf) (gs : List (Nat × Nat)) : List TWrite :=
  let die := lf.pa / 320000000000
  gs.flatMap (fun (g, k) =>
    [⟨die, q.tgt, q.off + q.len / 256 + k * q.len + 4096 * g, s.rdBytes (s.ctxKey c) (lf.pa + (q.va + 4096 * g - lf.base)) 4096⟩,
      ⟨die, q.tgt, q.off + 16 * g + 8 * k, leBytes 8 x.epoch⟩])

/-- Steps 1 and 2 of R358: D is cleared at its home, and the page's cached translations are removed on all dies. None while a
message for the entry's line is under way (DESIGN CHOICE, log 75). -/
def State.cleanLeaf (s : State) (c : Nat) (lf : Leaf) : Option State :=
  let k := s.ctxKey c
  let s := { s with xlt := { s.xlt with
    tlbs := s.xlt.tlbs.filter (fun (t : Tlb) => !(t.ctx == c && t.vpn * 4096 < lf.base + lf.size && lf.base < (t.vpn + t.pages) * 4096))
    walks := s.xlt.walks.map (fun (w : Walk) => if w.ctx == c && w.va / lf.size == lf.base / lf.size then { w with stale := true } else w) } }
  if !pteD lf.pte then some s
  else if s.underWay (lf.ptePa / 128) then none
  else some ((s.purge (lf.ptePa / 128)).wrNat k lf.ptePa 1 (s.rdNat k lf.ptePa 1 &&& 0xDF))

/-- A leaf is to be copied: D is set, or it has not been copied in the first epoch. -/
def Snap.wants (x : Snap) (lf : Leaf) : Bool :=
  lf.valid && (pteD lf.pte || (x.epoch == x.first && !x.once.contains lf.base))

/-- A leaf scanned; a scan that has met every byte of the ranges is full. -/
def Snap.scan (x : Snap) (lf : Leaf) (dirty : Nat) : Snap :=
  let l := if x.scanned.any (fun e => e.1 == lf.base) then x.scanned else (lf.base, lf.size, dirty) :: x.scanned
  if (x.ranges.map (fun r => r.len)).sum ≤ (l.map (fun e => e.2.1)).sum then
    { x with scanned := [], dirty := (l.map (fun e => e.2.2)).sum }
  else { x with scanned := l }

/-- What copying one leaf comes to: the snapshot's error where it stops. -/
inductive LeafRes where
  | ok (s : State) (x : Snap)
  | wait (s : State)
  | stop (err : Nat)

/-- Steps 3 and 4 of R358: a page whose D is clear is read as class 6, with the local tags it needs, and its writes begin. To
a peer it goes as many granules at a time as there are entries for transfers. -/
def State.sendLeaf (s : State) (c : Nat) (x : Snap) (r : Nat) (q : SnapRange) (lf : Leaf) : LeafRes :=
  let die := lf.pa / 320000000000
  let total := lf.size / 4096
  let sent := match x.leaf with
    | some (r', b, k) => if r' == r && b == lf.base then k else 0
    | none => 0
  let gs := (q.granules lf).drop sent
  let gs := if q.tgt.peer then gs.take ((4096 - s.fab.send.length) / 2) else gs
  let tags := !q.tgt.peer && gs.any (fun g => (aget x.tags (r, g)).isNone)
  let tva := s.moVa (q.tgt.handle % 2 ^ 20) + q.off + 16 * gs.headD 0
  let n := 16 * gs.length
  let x := { x with leaf := some (r, lf.base, sent) }
  if gs.isEmpty then .wait (s.setSnap c x) else
  match if tags then s.vaStop die c accSnap tva n else none with
  | some e => .wait ((s.setSnap c x).snapStopAt die c accSnap e)
  | none =>
    let lns := linesOf (lf.pa + 4096 * sent) (4096 * gs.length) ++ (if tags then s.vaLines die c tva n else [])
    match s.readLines (.snap c) die c lns with
    | (s, false) => .wait (s.setSnap c x)
    | (s, true) =>
      if lns.any (fun ln => s.svcKind c die ln != .none) then .stop snPoison
      else
        let t := s.rdVas die c tva n
        let gs := gs.zipIdx.map (fun (e : Nat × Nat) =>
          (e.1, s.slotFor x r e.1 (if q.tgt.peer then none else some ((t.drop (16 * e.2)).take 16))))
        match s.putTargets (.snap c) c (s.leafWrites c x q lf gs) with
        | .wait s => .wait (s.setSnap c x)
        | .fail => .stop snXfer
        | .done s =>
          if sent + gs.length < total then
            .wait (s.bump.setSnap c { x with
              tags := gs.foldl (fun m (g, k) => aput m (r, g) (k, x.epoch)) x.tags, leaf := some (r, lf.base, sent + gs.length) })
          else
          let x := { x with
            once := if x.epoch == x.first then lf.base :: x.once else x.once
            tags := gs.foldl (fun m (g, k) => aput m (r, g) (k, x.epoch)) x.tags
            leaf := none }
          .ok s.bump (x.scan lf lf.size)

/-- One leaf of range `r` copied, or passed over. -/
def State.copyLeaf (s : State) (c : Nat) (x : Snap) (r : Nat) (q : SnapRange) (lf : Leaf) : LeafRes :=
  if s.snapWaits c then .wait (s.setSnap c x)
  else if (lf.valid || pteHost lf.pte) && (lf.base < q.va || q.va + q.len < lf.base + lf.size) then .stop snRange
  else if x.leaf.any (fun e => e.1 == r && e.2.1 == lf.base) then (if lf.valid then s.sendLeaf c x r q lf else .ok s { x.scan lf 0 with leaf := none })
  else if !x.wants lf then .ok s { x.scan lf 0 with leaf := none }
  else if s.pageBusy lf.pa lf.size then .wait (s.setSnap c x)
  else match s.cleanLeaf c lf with
    | none => .wait (s.setSnap c x)
    | some s => s.sendLeaf c x r q lf

/-- SNAP_PAGE_COPY: pre-copy of the leaf that maps an address of a range; one whose read goes on comes first (DEDUCED, log 45). -/
def State.snapPageCopy (s : State) (c r va : Nat) : State :=
  let s := s.snapFlush (.snap c)
  match aget s.rcv.snaps c with
  | none => s
  | some x =>
    let (r, va) := (x.leaf.map (fun e => (e.1, e.2.1))).getD (r, va)
    match x.ranges[r]? with
    | none => s
    | some q =>
      if x.stopping then s.snapIdle c
      else if 2 ≤ x.step || va < q.va || q.va + q.len ≤ va then s
      else if !s.on F.XLT_CTX_EN c then s.abortCtx c stFaultXlate
      else match s.copyLeaf c x r q (s.leafAt c va) with
        | .ok s x => (s.setSnap c x).snapFlush (.snap c)
        | .wait s => s
        | .stop e => s.snapStop c e

/-! ### The cut (R359) -/

/-- SNAP_CUT_REQUEST and the periods: a cut starts (DEDUCED, log 45). -/
def State.cutStart (s : State) (c : Nat) : State :=
  match aget s.rcv.snaps c with
  | none => s
  | some x => if x.step != 0 || x.stopping || x.waiting then s
    else (s.setSnap c { x with step := 1, deferred := 0 }).wr F.SNAP_STAT_PHASE 3 c

/-- SNAP_CUT_DEFER_EXPIRE: a deferred cut is attempted again. -/
def State.cutAgain (s : State) (c : Nat) : State :=
  match aget s.rcv.snaps c with
  | none => s
  | some x => if !x.waiting || x.stopping then s
    else (s.setSnap c { x with step := 1, waiting := false }).wr F.SNAP_STAT_PHASE 3 c

/-- A running COPY, FILL or DUMP of a context. -/
def State.copiesRun (s : State) (c : Nat) : Bool :=
  (s.ctxCmds c).any (fun e => (e.2.ph == .started || e.2.ph == .ending)
    && (pkOp e.2.pkt == opCopy || pkOp e.2.pkt == opFill || pkOp e.2.pkt == opDump))

/-- Addresses of a range at which its leaves begin. -/
def State.leavesOf (s : State) (c stop : Nat) : Nat → Nat → List Nat
  | 0, _ => []
  | n + 1, va => if stop ≤ va then [] else
    let lf := s.leafAt c va
    va :: State.leavesOf s c stop n (lf.base + lf.size)

/-- Every leaf of the ranges that still has to be copied (step 4). -/
def State.copyRest (c : Nat) : List (Nat × Nat) → State → Snap → LeafRes
  | [], s, x => .ok s x
  | (r, va) :: rest, s, x =>
    match x.ranges[r]? with
    | none => State.copyRest c rest s x
    | some q =>
      match s.copyLeaf c x r q (s.leafAt c va) with
      | .ok s x => State.copyRest c rest s x
      | .wait s => .wait s
      | .stop e => .stop e

/-- What the image body records of a context (step 5) (DEDUCED, log 45). -/
def State.imageOf (s : State) (c : Nat) : Image :=
  { seq := s.nextSeq c
    tls := (s.syn.tls.filter (fun e => e.2.ctx == c)).map (fun e => (e.1, s.reg .TL_VAL e.1 0))
    notes := (s.syn.notes.filter (fun e => e.2.ctx == c)).map (fun e => (e.1, s.reg .NOTE_VAL e.1 0))
    queues := (s.cmd.swqs.filter (fun e => e.2.ctx == c)).map (fun e =>
      (e.1, e.2.tail, [s.reg .SWQ_STAT e.1 0, s.reg .SWQ_CMPL e.1 0, s.reg .SWQ_ERRSEQ e.1 0, s.reg .SWQ_STK e.1 0]))
    mos := (s.obj.mos.filter (fun i => s.moCtx i == c && s.moState i == 1)).map (fun i => (i, s.moGen i, s.moVa i, s.moBytes i))
    cmds := s.ctxCmds c
    blks := (s.obj.saved.filter (fun b => b.1 == c)).map (fun b => b.2)
    waits := s.syn.saved.filter (fun w => w.cmd.ctx == c) }

/-- The bytes of a body: they name the image that this module keeps (DESIGN CHOICE, log 44). -/
def State.bodyBytes (s : State) (n size : Nat) : List Byte :=
  (leBytes 8 n ++ leBytes 8 (s.rd F.SEC_DEVID_ID 0) ++ (List.range (size - 16)).map (fun i => Config.imageByte n i)).take size

/-- The header of a context image (R357). -/
def State.headBytes (s : State) (c slot epoch : Nat) : List Byte :=
  leBytes 4 0x4E53584B ++ leBytes 2 1 ++ leBytes 1 slot ++ leBytes 1 s.fol.step ++ leBytes 8 epoch ++ leBytes 8 s.stamp
    ++ leBytes 4 (s.rd F.SNAP_STAT2_CIMG_KIB c) ++ zeros 100

/-- The body slot that the header does not name; it is read where the target is local. A peer's is open (DEDUCED, log 45). -/
def State.bodySlot (s : State) (c : Nat) (x : Snap) : SRead :=
  match x.body with
  | some k => .ok s [BitVec.ofNat 8 (1 - k)]
  | none =>
    if x.img.peer then .ok s.bump [BitVec.ofNat 8 (s.freeVal 1 1)]
    else match s.snapRead (.snap c) 0 c (s.moVa (x.img.handle % 2 ^ 20) + x.imgOff + 6) 1 with
      | .ok s l => .ok s [BitVec.ofNat 8 (1 - leNat l % 2)]
      | r => r

/-- Steps 4 and 5: what is still dirty is copied, and the body written. With EN 0 the engine's accesses abort the context
(11_translation.md R470). -/
def State.cutCopy (s : State) (c : Nat) (x : Snap) : State :=
  if !s.on F.XLT_CTX_EN c then s.abortCtx c stFaultXlate else
  let l := (x.leaf.map (fun e => (e.1, e.2.1))).toList ++ (x.ranges.zipIdx).flatMap (fun (e : SnapRange × Nat) =>
    (s.leavesOf c (e.1.va + e.1.len) (e.1.len / 4096 + 1) e.1.va).map (fun va => (e.2, va)))
  match State.copyRest c l s x with
  | .wait s => s
  | .stop e => s.snapStop c e
  | .ok s x =>
    match s.bodySlot c x with
    | .wait s => s.setSnap c x
    | .bad s => s.snapStop c snPoison
    | .ok s k =>
      let k := leNat k
      let n := s.thr.serial
      let b := s.bodySize c
      match s.putTargets (.snap c) c [⟨0, x.img, x.imgOff + 4096 + k * b, s.bodyBytes n b⟩] with
      | .wait s => s.setSnap c x
      | .fail => s.snapStop c snXfer
      | .done s =>
        let s := { s with
          thr := { s.thr with serial := n + 1 }
          rcv := { s.rcv with images := aput s.rcv.images n (s.imageOf c) } }
        ((s.setSnap c { x with step := 3, body := some k }).bump).snapFlush (.snap c)

/-- SNAP_CUT_COPY: the cut goes on. It may be deferred, at most 8 times, where the dirty bytes exceed what the engines send in
MAX_PAUSE_MS: their speed is open, so whether it is deferred is free. Once EN is 0 it goes on no further (R360). -/
def State.snapCutCopy (s : State) (c : Nat) : State :=
  let s := s.snapFlush (.snap c)
  match aget s.rcv.snaps c with
  | none => s
  | some x =>
    if x.stopping then s.snapIdle c
    else if x.step == 1 then
      if s.copiesRun c then s
      else if x.dirty != 0 && x.deferred < 8 && s.freeVal 0 1 == 1 then
        (((s.setSnap c { x with step := 0, waiting := true, deferred := x.deferred + 1 }).wr F.SNAP_STAT_DEFER 1 c).wr
          F.SNAP_STAT_PHASE (if x.epoch = x.first then 1 else 2) c).bump
      else if !s.on F.XLT_CTX_EN c then s.abortCtx c stFaultXlate
      else if s.ctxState c == ctxSaved then (s.setSnap c { x with step := 2 }).bump
      else if s.isSaving c || s.stockGoing c || s.ctxState c != ctxLive then s
      else ((s.setSnap c { x with step := 2, mine := true }).beginSave c).bump
    else if x.step == 2 && s.ctxState c == ctxSaved then s.cutCopy c x
    else s

/-- Step 7: epoch E is committed, the context restored, and E + 1 open. -/
def State.cutDone (s : State) (c : Nat) (x : Snap) (us : Nat) : State :=
  let s := (((s.wr F.SNAP_STAT_EPOCH x.epoch c).wr F.SNAP_STAT2_PAUSE_US (satTo 0xFFFFFF us) c).wr F.SNAP_STAT_PHASE 2 c).raise
    (0x410 + c)
  (s.cutEnd c x).setSnap c { x with epoch := x.epoch + 1, once := [], step := 0, mine := false, deferred := 0 }

/-- SNAP_COMMIT: once every transfer of steps 4 and 5 has completed the header is written; once that write has completed the epoch
is committed. -/
def State.snapCommit (s : State) (c us : Nat) : State :=
  let s := s.snapFlush (.snap c)
  match aget s.rcv.snaps c with
  | none => s
  | some x =>
    if s.snapBusy (.snap c) then s
    else if x.stopping then s.snapIdle c
    else if x.step == 4 then s.cutDone c x us
    else if x.step != 3 then s
    else match s.putTargets (.snap c) c [⟨0, x.img, x.imgOff, s.headBytes c (x.body.getD 0) x.epoch⟩] with
      | .wait s => s
      | .fail => s.snapStop c snXfer
      | .done s => ((s.setSnap c { x with step := 4 }).bump).snapFlush (.snap c)

/-! ### Pushes (R361) -/

/-- A push ends: DONE, ERR, and its source. -/
def State.pushEnd (s : State) (k err : Nat) : State :=
  let s := (s.sendsOf (.push k)).foldl (fun s x => s.endSend x stAborted) s
  let s := { s with rcv := { s.rcv with push := adel s.rcv.push k } }.snapDrop (.push k)
  (((s.wr F.SNAP_PUSH_BUSY 0 k).wr F.SNAP_PUSH_DONE 1 k).wr F.SNAP_PUSH_ERR err k).raise (0x490 + k)

/-- A push's record, with the error it met. -/
def State.pushFail (s : State) (k err : Nat) : State :=
  { s with rcv := { s.rcv with push := amod s.rcv.push k (fun p => { p with err := if p.err = 0 then err else p.err }) } }

/-- SNAP_PUSH_GO: the descriptor is read (Table 17.7). -/
def State.pushGo (s : State) (k : Nat) : State :=
  if 16 ≤ k || s.on F.SNAP_PUSH_BUSY k then s
  else
    let a := s.rd F.SNAP_PUSH_DESC k * 64
    let l := s.rdBytes devKey a 64
    let p : Push := ⟨leAt l 0 4, leAt l 4 1 == 1, leAt l 5 1 % 64, leAt l 8 8, leAt l 16 8, leAt l 24 8, tgtOf l 32, leAt l 40 8, 0, 0⟩
    let bad := stackTop < a + 64 || s.poisonOf a 64 != .none || 2 ≤ leAt l 4 1 || 64 ≤ leAt l 5 1 || !zeroIn l 6 8 || tgtBad l 32
      || !zeroIn l 48 64 || (p.image && p.dstOff % 4096 != 0)
    let s := ((s.wr F.SNAP_PUSH_BUSY 1 k).wr F.SNAP_PUSH_ERR 0 k).setReg .SNAP_PUSH_CNT k 0 0
    let s := { s with rcv := { s.rcv with push := aput s.rcv.push k p } }
    if bad || !s.moBinds p.ctx (s.nextSeq p.ctx) p.src then s.pushFail k snDesc else s

/-- Address of the source object of a push at an offset. -/
def State.pushVa (s : State) (p : Push) (off : Nat) : Nat := s.moVa (p.src % 2 ^ 20) + p.off + off

/-- Bytes of the source of a push, with what follows them; a read that passes the object's end or meets poison ends the push. -/
def State.pushRead (s : State) (k : Nat) (p : Push) (off n : Nat) (f : State → List Byte → State) : State :=
  if s.pastEnd p.src (p.off + off) n then s.pushFail k 3
  else match s.snapRead (.push k) (k % 4) p.ctx (s.pushVa p off) n with
    | .wait s => s
    | .bad s => s.pushFail k 4
    | .ok s l => f s l

/-- The slot a granule is taken from: the largest tag not above EPOCH. -/
def pickSlot (t0 t1 epoch : Nat) : Option Nat :=
  let a := t0 != 0 && t0 ≤ epoch
  let b := t1 != 0 && t1 ≤ epoch
  if a && (!b || t1 ≤ t0) then some 0 else if b then some 1 else none

/-- The writes of a push begin, and its next granule is due. -/
def State.pushPut (s : State) (k : Nat) (p : Push) (l : List TWrite) (f : State → State) : State :=
  match s.putTargets (.push k) p.ctx l with
  | .wait s => s
  | .fail => s.pushFail k 3
  | .done s => f { s with rcv := { s.rcv with push := aput s.rcv.push k { p with next := p.next + 1 } } }

/-- Granules of a range sent on, while there are entries. -/
def State.pushGranules (k : Nat) : Nat → State → State
  | 0, s => s
  | n + 1, s =>
    match aget s.rcv.push k with
    | none => s
    | some p =>
      if p.err != 0 || p.len ≤ 4096 * p.next then s
      else s.pushRead k p (16 * p.next) 16 (fun s t =>
        match pickSlot (leAt t 0 8) (leAt t 8 8) p.epoch with
        | none => s.pushPut k p [] (fun s => State.pushGranules k n (s.inc F.SNAP_PUSH_CNT_SKIPPED k))
        | some b => s.pushRead k p (p.len / 256 + b * p.len + 4096 * p.next) 4096 (fun s l =>
          s.pushPut k p [⟨k % 4, p.dst, p.dstOff + 4096 * p.next, l⟩] (fun s =>
            State.pushGranules k n (s.inc F.SNAP_PUSH_CNT_SENT k))))

/-- The header and the body slot that it names, sent. -/
def State.pushImage (s : State) (k : Nat) (p : Push) : State :=
  s.pushRead k p 0 128 (fun s h =>
    let b := cdiv (leAt h 24 4) 4 * 4096
    let o := 4096 + leAt h 6 1 % 2 * b
    s.pushRead k p o b (fun s l =>
      s.pushPut k p [⟨k % 4, p.dst, p.dstOff, h⟩, ⟨k % 4, p.dst, p.dstOff + o, l⟩] (fun s => s)))

/-- SNAP_PUSH_DONE: the push sends on what it may, and ends once nothing is left and no transfer is out, or with an error. -/
def State.pushStep (s : State) (k : Nat) : State :=
  let s := s.snapFlush (.push k)
  match aget s.rcv.push k with
  | none => s
  | some p =>
    if p.err != 0 then s.pushEnd k p.err
    else if p.image && p.next == 0 then (s.pushImage k p).snapFlush (.push k)
    else if !p.image && 4096 * p.next < p.len then (State.pushGranules k 4096 s).snapFlush (.push k)
    else if s.snapBusy (.push k) then s else s.pushEnd k 0

/-! ### Adoption (R362) -/

/-- SNAP_ADOPT_GO: BUSY; the checks and the installation come with its end. -/
def State.adoptGo (s : State) (c handle off4k : Nat) : State :=
  if 64 ≤ c || s.on F.SNAP_ADOPT_BUSY c then s
  else (({ s with rcv := { s.rcv with adopt := aput s.rcv.adopt c (handle, off4k) } }).wr F.SNAP_ADOPT_BUSY 1 c).wr F.SNAP_ADOPT_CODE 0 c

/-- ADOPT ends with a code. -/
def State.adoptEnd (s : State) (c code : Nat) : State :=
  let s := { s with rcv := { s.rcv with adopt := adel s.rcv.adopt c } }.snapDrop (.adopt c)
  (((s.wr F.SNAP_ADOPT_BUSY 0 c).wr F.SNAP_ADOPT_DONE 1 c).wr F.SNAP_ADOPT_CODE code c).raise (0x4A0 + c)

/-- The image that a body stands for (DESIGN CHOICE, log 44). -/
def State.decodeBody (s : State) (l : List Byte) : Image :=
  match aget s.rcv.images (leAt l 0 8), leAt l 8 8 == s.rd F.SEC_DEVID_ID 0 with
  | some i, true => i
  | _, _ => Config.foreignImage l

/-- Every object that an image records exists in the context, memory objects with their VA and BYTES. -/
def State.imageFits (s : State) (c : Nat) (i : Image) : Bool :=
  i.tls.all (fun e => (aget s.syn.tls e.1).any (fun o => o.ctx == c))
  && i.notes.all (fun e => (aget s.syn.notes e.1).any (fun o => o.ctx == c))
  && i.queues.all (fun e => (s.swq e.1).any (fun w => w.ctx == c))
  && i.mos.all (fun e => s.moState e.1 == 1 && s.moCtx e.1 == c && s.moVa e.1 == e.2.2.1 && s.moBytes e.1 == e.2.2.2)

/-- A command of an image in its new context. -/
def reCtx (c : Nat) (id : CmdId) : CmdId := { id with ctx := c }
def SavedBlk.reCtx (c : Nat) (b : SavedBlk) : SavedBlk :=
  { b with blk := { b.blk with cmd := Machine.reCtx c b.blk.cmd }, ops := b.ops.map (fun o => { o with cmd := Machine.reCtx c o.cmd }) }

/-- The words of a queue's registers. -/
def State.queueWords (s : State) (q tail : Nat) (l : List W64) : State :=
  let s := ((s.setReg .SWQ_STAT q 0 (l.getD 0 0)).setReg .SWQ_CMPL q 0 (l.getD 1 0)).setReg .SWQ_ERRSEQ q 0 (l.getD 2 0)
  let s := s.setReg .SWQ_STK q 0 (l.getD 3 0)
  { s with cmd := { s.cmd with swqs := amod s.cmd.swqs q (fun w => { w with tail := tail }) } }

/-- Steps 1 to 5 of ADOPT. -/
def State.install (s : State) (c : Nat) (i : Image) : State :=
  let s := i.tls.foldl (fun s e => s.setReg .TL_VAL e.1 0 e.2) s
  let s := i.notes.foldl (fun s e => s.setReg .NOTE_VAL e.1 0 e.2) s
  let s := if i.tls.isEmpty && i.notes.isEmpty then s else s.storeOpen
  let s := i.queues.foldl (fun s e => s.queueWords e.1 e.2.1 e.2.2) s
  let s := i.mos.foldl (fun s e => s.wrNat devKey (s.moAt e.1 + 18) 2 e.2.1) s
  let s := s.wr F.CTX_STAT_NEXT_SEQ i.seq c
  { s with
    obj := { s.obj with
      ctxs := amod s.obj.ctxs c (fun x => { x with next := i.seq })
      saved := s.obj.saved ++ i.blks.map (fun (b : SavedBlk) => (c, b.reCtx c)) }
    cmd := { s.cmd with cmds := s.cmd.cmds ++ i.cmds.map (fun (e : CmdId × Cmd) => (reCtx c e.1, e.2)) }
    syn := { s.syn with saved := s.syn.saved ++ i.waits.map (fun (w : Waiter) => { w with cmd := reCtx c w.cmd }) }
    rcv := { s.rcv with adopted := c :: s.rcv.adopted.filter (fun k => k != c) } }.wr F.CTX_STAT_STATE ctxSaved c |>.ledCtxGone c

/-- SNAP_ADOPT_DONE: 1 FORMAT, 2 STATE, 3 OBJECT, 4 FETCH (DEDUCED, log 45). -/
def State.adoptStep (s : State) (c : Nat) : State :=
  match aget s.rcv.adopt c with
  | none => s
  | some (h, o4) =>
    let off := o4 * 4096
    let va := s.moVa (h % 2 ^ 20) + off
    if s.ctxState c != ctxLive || s.nextSeq c != 0 then s.adoptEnd c 2
    else if !s.moBinds c (s.nextSeq c) h || s.pastEnd h off 128 then s.adoptEnd c 3
    else match s.snapRead (.adopt c) 0 c va 128 with
    | .wait s => s
    | .bad s => s.adoptEnd c 4
    | .ok s hd =>
      let b := cdiv (leAt hd 24 4) 4 * 4096
      let o := 4096 + leAt hd 6 1 % 2 * b
      if leAt hd 0 4 != 0x4E53584B || leAt hd 4 2 != 1 || leAt hd 7 1 != s.fol.step then s.adoptEnd c 1
      else if s.pastEnd h (off + o) b then s.adoptEnd c 3
      else match s.snapRead (.adopt c) 0 c (va + o) b with
      | .wait s => s
      | .bad s => s.adoptEnd c 4
      | .ok s l =>
        let i := s.decodeBody l
        if s.imageFits c i then (s.install c i).adoptEnd c 0 else s.adoptEnd c 2

/-- SNAP_ENABLE (R356). -/
def execSnapEnable (c : Nat) (s : State) : Host.Outcome State Fault Refusal := .next (s.snapEnable c)
/-- SNAP_DISABLE (R360). -/
def execSnapDisable (c : Nat) (s : State) : Host.Outcome State Fault Refusal := .next (s.snapDisable c)
/-- SNAP_PAGE_COPY (R358). -/
def execSnapPageCopy (c r va : Nat) (s : State) : Host.Outcome State Fault Refusal := .next (s.snapPageCopy c r va)
/-- SNAP_CUT_REQUEST (R359). -/
def execSnapCutRequest (c : Nat) (s : State) : Host.Outcome State Fault Refusal := .next (s.cutStart c)
/-- SNAP_CUT_TIMER (R359): CUT_MS 0 gives no period. -/
def execSnapCutTimer (c : Nat) (s : State) : Host.Outcome State Fault Refusal :=
  .next (if s.rd F.SNAP_CFG_CUT_MS c == 0 then s else s.cutStart c)
/-- SNAP_CUT_DEFER_EXPIRE (R359). -/
def execSnapCutDeferExpire (c : Nat) (s : State) : Host.Outcome State Fault Refusal := .next (s.cutAgain c)
/-- SNAP_CUT_COPY (R359). -/
def execSnapCutCopy (c : Nat) (s : State) : Host.Outcome State Fault Refusal := .next (s.snapCutCopy c)
/-- SNAP_COMMIT (R359). -/
def execSnapCommit (c us : Nat) (s : State) : Host.Outcome State Fault Refusal := .next (s.snapCommit c us)
/-- SNAP_PUSH_GO (R361). -/
def execSnapPushGo (k : Nat) (s : State) : Host.Outcome State Fault Refusal := .next (s.pushGo k)
/-- SNAP_PUSH_DONE (R361). -/
def execSnapPushDone (k : Nat) (s : State) : Host.Outcome State Fault Refusal := .next (s.pushStep k)
/-- SNAP_ADOPT_GO (R362). -/
def execSnapAdoptGo (c h o : Nat) (s : State) : Host.Outcome State Fault Refusal := .next (s.adoptGo c h o)
/-- SNAP_ADOPT_DONE (R362). -/
def execSnapAdoptDone (c : Nat) (s : State) : Host.Outcome State Fault Refusal := .next (s.adoptStep c)

end Sys2Proof.Machine
end

