-- ==== Sys2Proof/Machine/Reset.lean ====
section
/-! DEFINITION. Reset (18_reset.md): module reset and its release, partition resets, unit resets, and the RESET packet
(16_yorin_fabric.md R338). -/

namespace Sys2Proof.Machine

open Sys2Proof

/-! ### Module reset (R365-R368, R372) -/

/-- Bits of RST_CAUSE. -/
inductive Cause where
  | power | pin | warden | pkgWdt | fabric
  deriving DecidableEq, Repr

/-- RST_CAUSE with one cause. -/
def causeBits : Cause → Nat
  | .power => 1
  | .pin => 2
  | .warden => 4
  | .pkgWdt => 8
  | .fabric => 16

/-- What the warden keeps through a module reset: fuses and flash. An image write cut short leaves a slot that fails its check
(22_security_and_management.md Table 22.3). Power-good also resets the warden. -/
def SecSt.keep (x : SecSt) (power : Bool) : SecSt :=
  { x with
    image := if x.writing == 2 then [] else x.image
    running := []
    received := none
    writing := 0
    fetching := false
    mgmtReset := false
    spdm := if power then 0 else x.spdm
    transcript := if power then [] else x.transcript
    eid := if power then 0 else x.eid
    number := if power then none else x.number }

/-- Module reset asserted: every unit but the warden reaches its reset state; memory is kept as stored, under keys that are new
(Table 18.2). -/
def State.moduleReset (s : State) (c : Cause) : State :=
  let pw := c == .power
  let r := State.reset
  let n := if pw then 0 else (s.rd F.RST_CAUSE_COUNT + 1) % 2 ^ 32
  { r with
    pending := s.pending
    free := s.free
    out := s.out
    mem := s.mem
    lines := s.lines
    hostMem := s.hostMem
    regs := [(⟨.RST_CAUSE, 0, 0⟩, BitVec.ofNat 64 (causeBits c + n * 2 ^ 32))]
    fol := { r.fol with slot0 := s.fol.slot0, slot1 := s.fol.slot1, boot := s.fol.boot, svnMin := s.fol.svnMin, step := s.fol.step }
    stk := { r.stk with
      keys := (List.range 17).map (fun i => s.stk.keyNext + i), keyNext := s.stk.keyNext + 17, retired := s.stk.retired, full := s.stk.full }
    fab := { r.fab with seated := s.fab.seated, counter := s.fab.counter }
    rcv := { r.rcv with images := s.rcv.images }
    rst := { r.rst with power := s.rst.power, hot := s.rst.hot, fault := s.rst.fault && !pw }
    pwr := { r.pwr with temps := s.pwr.temps, samples := s.pwr.samples }
    sec := s.sec.keep pw }

/-- POWER_GOOD_RISE (19_power_and_clocks.md R377): module reset stays asserted until MOD_RESET_N is released. -/
def State.powerRise (s : State) : State := { s with rst := { s.rst with power := true } }

/-- POWER_GOOD_FALL. -/
def State.powerFall (s : State) : State :=
  let s := s.moduleReset .power
  { s with rst := { s.rst with power := false, hot := false, fault := false } }

/-- MOD_RESET_ASSERT: a low level of some nanoseconds. From 100 ns to 1 us the device may ignore it: free. -/
def State.resetPin (s : State) (ns : Nat) : State :=
  if !s.rst.power || ns < 100 then s
  else if ns < 1000 then if s.freeVal 0 1 == 1 then s.bump.moduleReset .pin else s.bump
  else s.moduleReset .pin

/-- MOD_RESET_RELEASE: the release sequence begins; the warden's boot ROM checks the image in flash
(22_security_and_management.md R438) (DEDUCED, log 42). -/
def State.resetRelease (s : State) : State :=
  if !s.rst.power || !s.rst.asserted || s.rst.hot then s
  else
    let s := { s with rst := { s.rst with asserted := false, step := 0 } }
    if s.imageOk s.sec.image then s else s.wr F.SEC_FW_STATE 2

/-- Domains of a kind switched on. -/
def State.domsOn (s : State) (l : List Nat) : State := l.foldl (fun s d => s.setDom domOn d) s

/-- The effect of a step of Table 18.3 that succeeds (DEDUCED, log 43). Whether a module trains at 16 GT/s
(19_power_and_clocks.md R396) is a free bit. -/
def State.bootStep (s : State) (n : Nat) : State :=
  match n with
  | 1 => s.domsOn [620, 625, 630, 635]
  | 2 => { s with rst := { s.rst with faultN := s.rst.fault } }.showId
  | 4 => s.domsOn ((List.range 20).filterMap (fun i => if i % 5 = 0 then none else some (620 + i)))
  | 5 => (((s.applyCal).wr F.FOLIO_STAT_SVN_MIN s.fol.svnMin).wr F.SEC_FW_MIN_SVN_MIN s.sec.svnMin)
  | 6 => (List.range 16).foldl (fun s k => s.showList k) (s.domsOn ((List.range 16).map (fun i => 576 + i)))
  | 7 => s.startImage.domsOn ((List.range 16).map (fun i => 604 + i))
  | 8 => ((List.range 8).foldl (fun s m =>
      ((s.wr F.UCIE_STAT_STATE 5 m).wr F.UCIE_STAT_SLOW (s.freeVal (2000 + m) 1) m).raise (0x0AC + m)) s).bump
  | 9 =>
    let s := match s.sec.number with
      | some k => ((s.wr F.FAB_MODULE_MODULE k).wr F.FAB_MODULE_VALID 1).stampEval
      | none => s
    let s1 := s.bootFolio
    { s1 with rcv := { s1.rcv with testing := (List.range 64).filter (fun c => s1.clusterPart c != 255) } }
  | 10 =>
    let cs := s.rcv.testing
    let s1 := cs.foldl (fun s c => s.domsOn (clusterDoms c)) { s with rcv := { s.rcv with testing := [] } }
    s1.domsOn ((List.range 12).map (fun p => 592 + p))
  | 11 => ((s.wr F.RST_CAUSE_READY 1).raise 0x022).raiseSvn
  | _ => s

/-- One step of the release ends, or fails: step 7 waits while the module is in recovery. CAP_GEN follows (12_shared_objects.md
R270). -/
def State.releaseStep (s : State) (ok : Bool) : State :=
  let n := s.rst.step + 1
  if s.rst.asserted || !s.rst.power || 11 < n || s.rd F.RST_CAUSE_FAIL_STEP != 0 then s
  else if !ok then s.wr F.RST_CAUSE_FAIL_STEP n
  else if n = 7 && s.rd F.SEC_FW_STATE == 2 then s
  else (({ s with rst := { s.rst with step := n } }).bootStep n).capFrom s

/-! ### Connector signals (R374, R375; 23_connectors.md R451, R452) -/

/-- What the module drives on a signal. -/
inductive Drive where
  | hiZ | low | high | pullUp
  deriving DecidableEq, Repr

/-- Codes of Table 18.5 during reset and after release. -/
def duringCode (x : Nat) : Drive :=
  if x % 4 = 0 then .hiZ else if x % 4 = 1 then .low else if x % 4 = 2 then .high else .pullUp
def afterCode (x : Nat) : Drive :=
  if x / 4 % 4 = 0 then duringCode x else if x / 4 % 4 = 1 then .hiZ else if x / 4 % 4 = 2 then .low else .high

/-- A signal of the fuse map (1 MOD_FAULT_N, 2 MOD_READY, 15 + n FAB_LINK_N of Fn): its entry, until its owner drives it
(DEDUCED, log 43). -/
def State.pin (s : State) (k : Nat) : Drive :=
  let e := s.sec.fuseMap.getD k 0
  if s.rst.asserted || !s.rst.power || s.rst.step < 2 then
    if k = 1 && s.rst.faultN then .low else duringCode e
  else if k = 1 && s.rst.faultN then .low
  else if k = 2 && s.on F.RST_CAUSE_READY then .high
  else if 15 ≤ k && k < 27 && s.portUp (k - 15) then .low
  else afterCode e

/-! ### Partition reset (R369, R370) -/

/-- Partitions under a reset of group `g`, as the assertion found it: a folio switch meanwhile may remove or regroup one
(R372). -/
def State.groupParts (s : State) (g : Nat) : List Nat :=
  s.rst.parts.filter (fun p => (aget s.rst.groups p).getD ((s.partDef p).map (fun d => d.group) |>.getD 256) == g)

/-- Clusters under that reset that are not quarantined. -/
def State.groupClusters (s : State) (g : Nat) : List Nat :=
  (List.range 64).filter (fun c => ((s.groupParts g).contains (s.clusterPart c) || aget s.rst.closed c == some g)
    && !s.on F.REC_CNT_QUAR c)

/-- Writes of copy engines that a cluster was asked for and that no home has accepted complete with an error response: they
are not performed, and a command that is not already aborted completes with ST_ABORTED (R370). -/
def State.errorWrites (s : State) (cl : Nat) : State :=
  let sent := s.coh.bq ++ s.coh.want ++ s.coh.bn.filterMap (fun n => match n with
    | .retry m _ => some m
    | _ => none)
  let ops := (sent.filter (fun m => m.r == cl)).map (fun m => m.op)
  { s with cmd := { s.cmd with cmds := s.cmd.cmds.map (fun e =>
    let bad := e.2.outs.filter (fun n => ops.contains n)
    if bad.isEmpty then e
    else (e.1, { e.2.note stAborted with outs := e.2.outs.filter (fun n => !ops.contains n), sent := true })) } }

/-- A cluster's wrapper closes: what it has sent and no home has accepted completes with an error response. Requests of the
snapshot engine and the ledger writer go on through another cluster (17_fault_tolerance.md R347) (DEDUCED, log 46). -/
def State.closeWrapper (s : State) (cl : Nat) : State :=
  let s := (s.errorWrites cl).rehome cl
  { s with coh := { s.coh with bq := s.coh.bq.filter (fun m => m.r != cl), want := s.coh.want.filter (fun m => m.r != cl) } }

/-- Registers of a unit at their reset values (Table 18.2). -/
def State.regsReset (s : State) (rs : List Reg) (i : Nat) : State :=
  { s with regs := s.regs.filter (fun e => !(rs.contains e.1.reg && e.1.i == i)) }

/-- Counters of a tally set cleared (Table 18.2). -/
def State.talClear (s : State) (n : Nat) : State := s.regsReset [.TAL_CNT, .TAL_CYC] n

/-- Registers of a cluster, whose unit reset gives them their reset values (Table 18.2) (DEDUCED, log 46). -/
def clusterRegs : List Reg := [.CC_ECNT, .VC_STAT, .LS_SPLIT, .DROOP_CTL, .DROOP_CNT]

/-- Registers, scratch and ramp levels of a cluster's cores are empty, and its counters cleared (Table 18.2). -/
def State.emptyCluster (s : State) (cl : Nat) : State :=
  let mine := fun (core : Nat) => core / 8 == cl
  let s := ((coresOf cl).map coreSet ++ [talSet (cl / 16) (128 + cl % 16)]).foldl State.talClear s
  { s with
    thr := { s.thr with
      rf := s.thr.rf.filter (fun e => !mine e.1.core)
      scr := s.thr.scr.filter (fun e => !mine (e.1 / 2 ^ 20))
      ptrs := s.thr.ptrs.filter (fun e => !mine e.1)
      streams := s.thr.streams.filter (fun e => !mine e.1) }
    mx := { s.mx with
      level := s.mx.level.filter (fun e => !mine e.1.core), calm := s.mx.calm.filter (fun e => !mine e.1.core)
      made := s.mx.made.filter (fun e => !mine e.1.core) } }

/-- Steps 1 to 3 on one partition. -/
def State.partReset (s : State) (p : Nat) : State :=
  let g := ((s.partDef p).map (fun d => d.group)).getD 256
  let mine := (List.range 64).filter (fun c => s.clusterPart c == p && !s.on F.REC_CNT_QUAR c)
  let s := ({ s with rst := { s.rst with
    parts := s.rst.parts ++ [p]
    groups := aput s.rst.groups p g
    closed := s.rst.closed.filter (fun (e : Nat × Nat) => !mine.contains e.1) ++ mine.map (fun c => (c, g)) } }.wr F.RST_PART_ASSERT
    (s.rd F.RST_PART_ASSERT ||| 2 ^ p)).partSrcClear p
  let cs := (s.obj.ctxs.filter (fun (e : Nat × Ctx) => e.2.part == p)).map (fun e => e.1)
  let s := cs.foldl (fun s c => s.abortCtx c stAborted) s
  mine.foldl (fun s c => (s.closeWrapper c).flushCluster c) s

/-- RST_PART_ASSERT: every partition of the groups named; a partition in reset merges, one that does not exist refuses the write
(R369, R372). -/
def State.partAssert (s : State) (bits : BitVec 16) : State :=
  let ps := (List.range 16).filter (fun p => bits.getLsbD p)
  if ps.any (fun p => (s.partDef p).isNone) then s.wr F.RST_ERR_REFUSED 1
  else
    let gs := ps.filterMap (fun p => (s.partDef p).map (fun d => d.group))
    let all := (s.fol.cur.defs.filter (fun e => gs.contains e.2.group && !s.rst.parts.contains e.1)).map (fun e => e.1)
    all.foldl State.partReset s

/-- PART_RESET_WB_TIMEOUT: clusters with write-backs out are declared dead (17_fault_tolerance.md R346 step 2). -/
def State.partWbTimeout (s : State) (g : Nat) : State :=
  if (s.groupParts g).isEmpty then s
  else ((s.groupClusters g).filter (fun c => s.flushing c)).foldl (fun s c =>
    ({ s with coh := { s.coh with cc := s.coh.cc.filter (fun e => e.1.unit != c), vc := s.coh.vc.filter (fun e => e.1 != c) } }).giveDead c) s

/-- A new key for a partition: lines under the old one are unreadable, buffered lines under it discarded (step 4;
08_berim_stacks.md R177, R184) (DEDUCED, log 46). -/
def State.newKey (s : State) (p : Nat) : State :=
  { s with stk := { s.stk with
    keys := s.stk.keys.set p s.stk.keyNext
    keyNext := s.stk.keyNext + 1
    comb := s.stk.comb.filter (fun x => x.key != p) } }.inc F.KEY_GEN_GEN p

/-- SHARE and MIN return to their folio values. -/
def State.folioShares (s : State) (p : Nat) : State :=
  (List.range 3).foldl (fun s c =>
    let q := (s.fol.cur.qos.getD c []).getD p (0, 0, 0)
    (s.wr F.QOS_ADJ_SHARE q.1 c p).wr F.QOS_ADJ_MIN q.2.1 c p) s

/-- Nothing is left in a cluster's cache. -/
def State.ccEmpty (s : State) (cl : Nat) : Bool := s.coh.cc.all (fun e => e.1.unit != cl)

/-- What came into the caches of clusters under reset since they were emptied is given up in turn. -/
def State.flushAgain (s : State) (cs : List Nat) : State :=
  (cs.filter (fun c => !s.ccEmpty c)).foldl (fun s c => s.flushCluster c) s

/-- Containments and resets of a cluster's cores end with the reset of the cluster: their records are written
(17_fault_tolerance.md R355), and their bits of RST_CORE read 0. -/
def State.coresOver (s : State) (cl : Nat) : State :=
  let s := (coresOf cl).foldl (fun s k => s.closeRec 1 k) s
  let w := 2 * (cl / 16) + cl % 16 / 8
  { s with rcv := { s.rcv with cores := s.rcv.cores.filter (fun k => k / 8 != cl) } }.wr F.RST_CORE_CORE
    (s.rd F.RST_CORE_CORE w &&& (2 ^ 64 - 1 - 255 * 2 ^ (8 * (cl % 8)))) w

/-- One cluster released: its cores and cache are empty, unit resets merged into the partition's are over. Its domains stay as
they are, and its AGENT_DEAD bit is kept (Table 18.2). -/
def State.releaseCluster (s : State) (cl : Nat) : State :=
  let d := cl / 16
  ((s.emptyCluster cl).wr F.RST_UNIT_CLUSTER (s.rd F.RST_UNIT_CLUSTER d &&& (2 ^ 16 - 1 - 2 ^ (cl % 16))) d).coresOver cl

/-- PART_RESET_RELEASE: steps 4 and 5, once the updates that homes have accepted are applied (08_berim_stacks.md R185) (DEDUCED,
log 46). -/
def State.partRelease (s : State) (g : Nat) : State :=
  let ps := s.groupParts g
  let cs := s.groupClusters g
  let s := s.flushAgain cs
  let quiet := cs.all (fun c => s.ccEmpty c && s.coh.reclaim.all (fun e => e.2 != c))
    && s.obj.ctxs.all (fun e => !ps.contains e.2.part || s.ctxState e.1 != ctxAborting || !(List.range 64).any s.ccServes)
    && s.stk.upd.all (fun u => !ps.contains u.key)
  if ps.isEmpty || !quiet then s
  else
    let s := ps.foldl State.newKey s
    let s := cs.foldl State.releaseCluster s
    let s := ps.foldl State.folioShares s
    let s := { s with rst := { s.rst with
      parts := s.rst.parts.filter (fun p => !ps.contains p)
      groups := s.rst.groups.filter (fun e => !ps.contains e.1)
      closed := s.rst.closed.filter (fun e => e.2 != g) } }
    let s := s.wr F.RST_PART_ASSERT (s.rd F.RST_PART_ASSERT &&& (2 ^ 16 - 1 - (ps.map (fun p => 2 ^ p)).sum))
    (s.adoptOrphans).raise 0x020

/-! ### Unit resets (R371, R372) -/

/-- A bit of a field of RST_UNIT. -/
def State.unitBit (s : State) (f : Fld) (d i : Nat) : Bool := bitsOf (s.rd f d) i 1 == 1
def State.setUnit (s : State) (f : Fld) (d i : Nat) : State := s.wr f (s.rd f d ||| 2 ^ i) d
def State.clrUnit (s : State) (f : Fld) (d i : Nat) : State := s.wr f (s.rd f d &&& (2 ^ f.wid - 1 - 2 ^ i)) d

/-- The word and bit of RST_CORE for a core. -/
def coreWord (core : Nat) : Nat × Nat := (core / 64, core % 64)

/-- RST_CORE: as containment, without a count or a record. -/
def State.rstCore (s : State) (core : Nat) : State :=
  let cl := core / 8
  if 512 ≤ core then s
  else if s.heldOff cl then s.wr F.RST_ERR_REFUSED 1
  else
    let s := s.setUnit F.RST_CORE_CORE (coreWord core).1 (coreWord core).2
    if s.inPartReset cl || s.rcv.cores.contains core then s
    else
      let old := s
      let mine := fun (b : Block) => b.core == core
      let s := { s with rcv := { s.rcv with cores := s.rcv.cores ++ [core] } }
      let s := s.cutLost (s.ctxsOf mine)
      (((s.loseBlocks mine stPoison).1.l1Parity core).dropCore core true).capFrom old

/-- RST_UNIT.CLUSTER: wrapper closed, write-back, self-test; lost blocks as the core row of Table 17.3. -/
def State.rstCluster (s0 : State) (cl : Nat) : State :=
  let s := s0
  if 64 ≤ cl then s
  else if s.heldOff cl then s.wr F.RST_ERR_REFUSED 1
  else if s.clusterReset cl then s
  else
    let s := s.setUnit F.RST_UNIT_CLUSTER (cl / 16) (cl % 16)
    if s.inPartReset cl then s
    else
      let mine := fun (b : Block) => b.core / 8 == cl
      let s := s.cutLost (s.ctxsOf mine)
      let s := (s.loseBlocks mine stPoison).1
      let s := { s with rcv := { s.rcv with testing := s.rcv.testing ++ [cl], cores := s.rcv.cores.filter (fun k => k / 8 != cl) } }
      ((s.closeWrapper cl).flushCluster cl).capFrom s0

/-- A clerk is cut off: the lowest-numbered clerk of its die in service takes its slots (17_fault_tolerance.md R351), and where K0
is the clerk, the read of a folio image begins again. An object operation that begins again finds what it has done, and goes on
(DEDUCED, log 95). -/
def State.clerkOut (s : State) (k : Nat) : State :=
  let next := (List.range 4).find? (fun i => k / 4 * 4 + i != k && s.clerkIn (k / 4 * 4 + i))
  let s := match next with
    | some i => s.passSlots k (k / 4 * 4 + i)
    | none => s
  if k == 0 && s.rd F.FOLIO_STAT_PHASE == phVerify then { s with fol := { s.fol with img := [] } } else s

/-- RST_UNIT.CLERK. -/
def State.rstClerk (s : State) (k : Nat) : State :=
  if 16 ≤ k then s else (s.setUnit F.RST_UNIT_CLERK (k / 4) (k % 4)).clerkOut k

/-- A clerk's restart is over: its record and its source (17_fault_tolerance.md R351, R355; 15_interrupts.md R308). Started
commands run on (DEDUCED, log 46). -/
def State.clerkRestart (s : State) (k : Nat) : State :=
  (s.logWrite (s.newRec fClerkWdt 5 (k / 4 * 16 + k % 4) 0xFF)).bump.raise (0x0B4 + k)

/-- Directory entries of a home that no transaction works on are evicted. -/
def State.drainHome (s : State) (h : Nat) : State :=
  (s.coh.dir.filter (fun e => homeOf e.1 == h)).foldl (fun s e => if s.lineBusy e.1 then s else s.evictEntry e.1 e.2) s

/-- RST_UNIT.HOME. -/
def State.rstHome (s : State) (h : Nat) : State :=
  if 16 ≤ h || (aget s.rst.homes h).isSome then s
  else
    let rs := (s.coh.credq.filter (fun c => c.1 == h)).map (fun c => c.2)
    let s := s.setUnit F.RST_UNIT_HOME (h / 4) (h % 4)
    let s := { s with
      rst := { s.rst with homes := aput s.rst.homes h rs }
      coh := { s.coh with credq := s.coh.credq.filter (fun c => c.1 != h) } }
    s.drainHome h

/-- A home has nothing in hand. -/
def State.homeIdle (s : State) (h : Nat) : Bool :=
  s.coh.txns.all (fun t => homeOf t.msg.line != h) && s.coh.queued.all (fun t => homeOf t.msg.line != h)
  && s.stk.upd.all (fun u => homeOf u.line != h)

/-- A home's release: CrGnt to every requester it owes, in ascending order (R371). -/
def State.homeRelease (s : State) (h : Nat) : State :=
  let rs := isort (fun a b => a ≤ b) ((aget s.rst.homes h).getD [])
  let s := { s with
    rst := { s.rst with homes := adel s.rst.homes h }
    coh := { s.coh with
      dir := s.coh.dir.filter (fun (e : Nat × Dir) => homeOf e.1 != h)
      aside := s.coh.aside.filter (fun (a : Nat × Nat × Nat) => a.1 != h) ++ rs.map (fun r => (h, r, r))
      bn := s.coh.bn ++ rs.map (fun r => BNote.crGnt r h) }
    stk := { s.stk with comb := s.stk.comb.filter (fun (x : Comb) => homeOf x.line != h) } }
  (s.regsReset [.HS_CNT] h).talClear (talSet (h / 4) (144 + h % 4))

/-- A UCIe host module is out of service (17_fault_tolerance.md R350): requester 64 + m is dead, and what the device had asked
of the HTU is asked again on the die's other module. What becomes of the host's own accesses is the Tonan host die manual's.
-/
def State.ucieOut (s : State) (m state : Nat) : State :=
  let d := m / 2
  let s := (s.wr F.UCIE_STAT_STATE state m).setDead (64 + m)
  let s := { s with
    rcv := { s.rcv with ucie := m :: s.rcv.ucie.filter (fun x => x != m) }
    held := s.held.filter (fun a => a.mod != m) }
  let s := (s.xlt.walks.filter (fun w => w.die == d && w.ph == .htu)).foldl (fun s w =>
    s.send (.htuRequest d w.ctx (s.rd F.XLT_PASID_PASID w.ctx) (w.va / 4096) w.setD)) s
  s.raise (0x0AC + m)

/-- RST_UNIT.PORT. -/
def State.rstPort (s : State) (p : Nat) : State :=
  if 12 ≤ p then s
  else
    let s := ((s.setUnit F.RST_UNIT_PORT (p / 3) (p % 3)).regsReset [.FAB_PORT_CNT] p).talClear (talSet (p / 3) (148 + p % 3))
    (if s.rd F.FAB_PORT_STAT_STATE p == 0 then s else s.portDown p).regsReset [.FAB_PORT_STAT] p

/-- A module fault: MOD_FAULT_N, the record where the log is enabled, and a module reset by the warden (23_connectors.md R452). -/
def State.moduleFault (s : State) (c : Cause) (cause unit : Nat) : State :=
  let cs := s.obj.ctxs.map (fun e => e.1)
  let s := s.logWrite { s.newRec cause 4 unit 0xFF with aborted := ctxMask cs }
  { s with rst := { s.rst with fault := true } }.bump.moduleReset c

/-- The loss of both modules of a die is a module fault (01_five_levels.md R20; Table 17.2) (DEDUCED, log 43). -/
def State.ucieLost (s : State) (m : Nat) : State :=
  if s.rcv.ucie.contains (m / 2 * 2 + (1 - m % 2)) then s.moduleFault .warden fUcieDown (m / 2 * 16 + m % 2) else s

/-- RST_UNIT.UCIE: as UCIE_DOWN, with its record (17_fault_tolerance.md R350, R355) (DEDUCED, log 46). A module under reset
stays so. -/
def State.rstUcie (s : State) (m : Nat) : State :=
  if 8 ≤ m || s.unitBit F.RST_UNIT_UCIE (m / 2) (m % 2) then s
  else
    let s := (((s.setUnit F.RST_UNIT_UCIE (m / 2) (m % 2)).ucieOut m 0).wr F.UCIE_STAT_SLOW 0 m)
    ((s.logWrite (s.newRec fUcieDown 6 (m / 2 * 16 + m % 2) 0xFF)).bump).ucieLost m

/-- RST_UNIT.DTC: entries removed, walks begun again from their roots. -/
def State.rstDtc (s : State) (d : Nat) : State :=
  if 4 ≤ d then s
  else
    let again := fun (w : Walk) => if w.die == d then
      { w with level := 4, table := s.xltRoot w.ctx, leaf := 0, leafPa := 0, ph := .table } else w
    (({ s with xlt := { s.xlt with
      tlbs := s.xlt.tlbs.filter (fun (t : Tlb) => t.place != TlbPlace.die d)
      walkc := s.xlt.walkc.filter (fun (t : WalkC) => t.die != d)
      walks := s.xlt.walks.map again } }).setUnit F.RST_UNIT_DTC d 0)

/-- Running copy commands of a die's queues. -/
def State.dieCopies (s : State) (d : Nat) : List CmdId :=
  (s.cmd.cmds.filter (fun e => e.2.ph == .started && s.queueDie e.2.q == some d
    && (pkOp e.2.pkt == opCopy || pkOp e.2.pkt == opFill || pkOp e.2.pkt == opDump))).map (fun e => e.1)

/-- RST_UNIT.COPY. -/
def State.rstCopy (s : State) (d : Nat) : State :=
  if 4 ≤ d then s else ((s.dieCopies d).foldl (fun s id => s.abortCmd stAborted id) s).setUnit F.RST_UNIT_COPY d 0

/-- RST_UNIT.SNAP: every snapshot copies with every die's engine, so each stops as EN = 0; pushes of the die's engine end
(DEDUCED, log 46). -/
def State.rstSnap (s : State) (d : Nat) : State :=
  if 4 ≤ d then s
  else
    let s := (s.rcv.snaps.map (fun e => e.1)).foldl (fun s c => s.snapDisable c) s
    let s := ((s.rcv.push.filter (fun e => e.1 % 4 == d)).map (fun e => e.1)).foldl (fun s k => s.pushEnd k 3) s
    s.setUnit F.RST_UNIT_SNAP d 0

/-- Registers of the ledger writer of a die. -/
def ledgerRegs : List Reg := [.LED_CFG, .LED_BASE, .LED_INT, .LED_START, .LED_END, .LED_TRIG, .LED_PTR, .LED_STAT, .LED_TAGQ]

/-- RST_UNIT.LEDGER: its registers take their reset values, and what it has queued is gone. -/
def State.rstLedger (s : State) (d : Nat) : State :=
  if 4 ≤ d then s
  else
    ({ s with
      regs := s.regs.filter (fun e => !(ledgerRegs.contains e.1.reg && e.1.i == d))
      tal := { s.tal with leds := adel s.tal.leds d } }).setUnit
        F.RST_UNIT_LEDGER d 0

/-- A unit's bit reads 0 again and the source is raised. -/
def State.unitOver (s : State) (f : Fld) (d i : Nat) : State := (s.clrUnit f d i).raise 0x021

/-- UNIT_RESET_RELEASE: the unit whose bit of RST_UNIT this is leaves reset once its work is over. -/
def State.unitRelease (s : State) (d b : Nat) : State :=
  if 4 ≤ d then s
  else if b < 16 then
    let cl := 16 * d + b
    if !s.clusterReset cl || s.inPartReset cl || s.rcv.testing.contains cl then s
    else
      let s := s.flushAgain [cl]
      if !s.ccEmpty cl || s.flushing cl then s
      else (((s.emptyCluster cl).regsReset clusterRegs cl).coresOver cl |>.unitOver F.RST_UNIT_CLUSTER d b).adoptOrphans
  else if b < 20 then
    if s.unitBit F.RST_UNIT_CLERK d (b - 16) then (s.clerkRestart (4 * d + b - 16)).unitOver F.RST_UNIT_CLERK d (b - 16) else s
  else if b < 24 then
    let h := 4 * d + b - 20
    if (aget s.rst.homes h).isNone then s
    else if !s.homeIdle h then s
    else if s.coh.dir.any (fun e => homeOf e.1 == h) then s.drainHome h
    else (s.homeRelease h).unitOver F.RST_UNIT_HOME d (b - 20)
  else if b < 27 then
    let p := 3 * d + b - 24
    if !s.unitBit F.RST_UNIT_PORT d (b - 24) then s
    else
      let s := s.unitOver F.RST_UNIT_PORT d (b - 24)
      if s.mayTrain p then s.train p true else s
  else if b < 29 then
    if s.unitBit F.RST_UNIT_UCIE d (b - 27) then
      ((s.unitOver F.RST_UNIT_UCIE d (b - 27)).wr F.UCIE_STAT_STATE 1 (2 * d + b - 27)).raise (0x0AC + 2 * d + b - 27)
    else s
  else if b = 29 then if s.on F.RST_UNIT_DTC d then s.unitOver F.RST_UNIT_DTC d 0 else s
  else if b = 30 then if s.on F.RST_UNIT_COPY d then s.unitOver F.RST_UNIT_COPY d 0 else s
  else if b = 31 then if s.on F.RST_UNIT_SNAP d then s.unitOver F.RST_UNIT_SNAP d 0 else s
  else if b = 32 then if s.on F.RST_UNIT_LEDGER d then s.unitOver F.RST_UNIT_LEDGER d 0 else s
  else s

/-! ### The RESET packet (16_yorin_fabric.md R338) -/

/-- The warden's checks of a RESET payload, Table 16.6. -/
def State.resetOk (s : State) (l : List Byte) : Bool :=
  s.on F.FAB_RESET_CTL_EN && s.fab.counter < leAt l 2 8 && s.on F.FAB_MODULE_VALID && leAt l 10 2 == s.rd F.FAB_MODULE_MODULE
  && (l.drop 12).take 16 == s.devId.take 16 && s.on F.SEC_FW_FABKEY_OK
  && Config.ed448Verify (fabricKey s.sec.running) (l.take 28) ((l.drop 28).take 114) && leAt l 0 1 ≤ 1

/-- FAB_RESET. -/
def State.fabReset (s : State) : State :=
  match s.takeHere (fun p => p.typ == .reset) with
  | none => s
  | some (a, s) =>
    let l := a.pkt.payload
    if !s.resetOk l then (match a.port with
      | some p => s.incSat F.FAB_PORT_CNT_DROP p
      | none => s)
    else
      let s := { s with fab := { s.fab with counter := leAt l 2 8 } }
      if leAt l 0 1 = 0 then s.moduleReset .fabric
      else s.partAssert (BitVec.ofNat 16 (2 ^ (leAt l 1 1 % 16)))

/-- POWER_GOOD_RISE (19_power_and_clocks.md R377). -/
def execPowerGoodRise (s : State) : Host.Outcome State Fault Refusal := .next s.powerRise
/-- POWER_GOOD_FALL (19_power_and_clocks.md R377). -/
def execPowerGoodFall (s : State) : Host.Outcome State Fault Refusal := .next s.powerFall
/-- MOD_RESET_ASSERT (R366). -/
def execModResetAssert (ns : Nat) (s : State) : Host.Outcome State Fault Refusal := .next (s.resetPin ns)
/-- MOD_RESET_RELEASE (R365, R373). -/
def execModResetRelease (s : State) : Host.Outcome State Fault Refusal := .next s.resetRelease
/-- RST_PART_ASSERT (R369). -/
def execRstPartAssert (bits : BitVec 16) (s : State) : Host.Outcome State Fault Refusal := .next (s.partAssert bits)
/-- PART_RESET_WB_TIMEOUT (R369). -/
def execPartResetWbTimeout (g : Nat) (s : State) : Host.Outcome State Fault Refusal := .next (s.partWbTimeout g)
/-- PART_RESET_RELEASE (R369). -/
def execPartResetRelease (g : Nat) (s : State) : Host.Outcome State Fault Refusal := .next (s.partRelease g)
/-- RST_CORE (R371). -/
def execRstCore (core : Nat) (s : State) : Host.Outcome State Fault Refusal := .next (s.rstCore core)
/-- RST_UNIT_CLUSTER (R371). -/
def execRstUnitCluster (cl : Nat) (s : State) : Host.Outcome State Fault Refusal := .next (s.rstCluster cl)
/-- RST_UNIT_CLERK (R371). -/
def execRstUnitClerk (k : Nat) (s : State) : Host.Outcome State Fault Refusal := .next (s.rstClerk k)
/-- RST_UNIT_HOME (R371). -/
def execRstUnitHome (h : Nat) (s : State) : Host.Outcome State Fault Refusal := .next (s.rstHome h)
/-- RST_UNIT_PORT (R371). -/
def execRstUnitPort (p : Nat) (s : State) : Host.Outcome State Fault Refusal := .next (s.rstPort p)
/-- RST_UNIT_UCIE (R371). -/
def execRstUnitUcie (m : Nat) (s : State) : Host.Outcome State Fault Refusal := .next (s.rstUcie m)
/-- RST_UNIT_DTC (R371). -/
def execRstUnitDtc (d : Nat) (s : State) : Host.Outcome State Fault Refusal := .next (s.rstDtc d)
/-- RST_UNIT_COPY (R371). -/
def execRstUnitCopy (d : Nat) (s : State) : Host.Outcome State Fault Refusal := .next (s.rstCopy d)
/-- RST_UNIT_SNAP (R371). -/
def execRstUnitSnap (d : Nat) (s : State) : Host.Outcome State Fault Refusal := .next (s.rstSnap d)
/-- RST_UNIT_LEDGER (R371). -/
def execRstUnitLedger (d : Nat) (s : State) : Host.Outcome State Fault Refusal := .next (s.rstLedger d)
/-- UNIT_RESET_RELEASE (R371). -/
def execUnitResetRelease (d b : Nat) (s : State) : Host.Outcome State Fault Refusal := .next (s.unitRelease d b)
/-- FAB_RESET (16_yorin_fabric.md R338). -/
def execFabReset (s : State) : Host.Outcome State Fault Refusal := .next s.fabReset

end Sys2Proof.Machine
end

