-- ==== Sys2Proof/Machine/Debug.lean ====
section
/-! DEFINITION. Debug (21_debug.md): attachment, halting and stepping, inspection, events, and the connector's lock. -/

namespace Sys2Proof.Machine

open Sys2Proof

/-- Error codes, Table 21.3. -/
abbrev dbNotAttached : Nat := 1
abbrev dbNotHalted : Nat := 2
abbrev dbRange : Nat := 3
abbrev dbBusy : Nat := 4
abbrev dbGone : Nat := 5
abbrev dbReadOnly : Nat := 6

/-- The first refusal since VALID was cleared is recorded (DEDUCED, log 52). -/
def State.dbgErr (s : State) (e : Nat) : State :=
  if s.on F.DBG_STAT_VALID then s else (s.wr F.DBG_STAT_ERR e).wr F.DBG_STAT_VALID 1

/-! ### Attachment (R418) -/

/-- The connector is unlocked with a context's partition in its scope. -/
def State.inScope (s : State) (c : Nat) : Bool :=
  s.rd F.DBG_LOCK_STATE == 2 && bitsOf (s.rd F.DBG_LOCK_PMASK) (s.ctxPart c) 1 == 1

/-- An agent may change a context's EN. -/
def State.mayAttach (s : State) (src : Src) (c : Nat) : Bool :=
  c < 64 && (match src with
    | .host _ => true
    | .connector => s.inScope c)

/-- DBG_ATTACH. -/
def State.attach (s : State) (src : Src) (c : Nat) : State :=
  if !s.mayAttach src c || s.on F.DBG_ATTACH_EN c then s
  else (s.wr F.DBG_ATTACH_EN 1 c).wr F.DBG_ATTACH_ORIGIN (match src with | .host _ => 0 | .connector => 1) c

/-- DBG_DETACH. -/
def State.dbgDetach (s : State) (src : Src) (c : Nat) : State :=
  if !s.mayAttach src c || !s.on F.DBG_ATTACH_EN c then s else s.detach c

/-! ### Halting, resuming, stepping (R420-R423) -/

/-- A group of a context; none where the slot holds none. -/
def State.groupOfCtx (s : State) (c : Nat) (g : Gid) : Option Group :=
  match s.group g with
  | none => none
  | some x => if (s.block x.bid).any (fun b => b.cmd.ctx == c) && x.live != 0 then some x else none

/-- A control on one group of an attached context. -/
def State.onGroup (s : State) (c : Nat) (g : Gid) (f : Group → Group) : State :=
  if !s.on F.DBG_ATTACH_EN c then s.dbgErr dbNotAttached
  else match s.groupOfCtx c g with
    | none => s.dbgErr dbGone
    | some x => s.setGroup g (f x)

/-- HALT: a HALTED event is owed; a group at a regroup point leaves that wait. -/
def Group.halted (x : Group) : Group :=
  if x.halt != 0 then x
  else { x with
    halt := 1, stepping := 0, evt := 1
    wait := match x.wait with
      | .regroup _ _ _ => .ready
      | w => w }

/-- RESUME. -/
def Group.resumed (x : Group) : Group := if x.halt == 0 then x else x.resume

/-- STEP; a group halted by a trap cannot issue, and one stepped from BREAK meets its breakpoint (R422). -/
def Group.stepped (x : Group) : Group :=
  if x.halt == 0 || x.halt == 5 then x
  else { x with halt := 0, stepping := 1, evt := 0, bpSkip := if x.halt == 3 then none else x.bpSkip }

/-- A control on every group of an attached context. -/
def State.onAll (s : State) (c : Nat) (f : Group → Group) : State :=
  if !s.on F.DBG_ATTACH_EN c then s.dbgErr dbNotAttached
  else { s with thr := { s.thr with groups := s.thr.groups.map (fun e =>
    if (s.groupOfCtx c e.1).isSome then (e.1, f e.2) else e) } }

/-- RESUME_ALL leaves groups that a trap halted. -/
def Group.resumedAll (x : Group) : Group := if x.halt == 5 then x else x.resumed

/-- Results of the group are in flight, a QENQ's among them. -/
def State.resultsOut (s : State) (g : Gid) (x : Group) : Bool :=
  s.thr.ops.any (fun o => x.inOp g o && o.rd != 256) || s.qenqOut g x

/-- An access of the group waits on the blotter: a lane's, or that of a QENQ's clerk (a clerk's wait names its command). -/
def State.heldByFault (s : State) (g : Gid) (x : Group) (id : CmdId) : Bool :=
  s.waitsFault g x
  || (s.qenqOut g x && (s.blot id.ctx).waiting.any (fun w => w.src.source == 3 && w.src.cmd == some id))

/-- HALTED_EVENT: every result has been written, or one waits on the blotter (PENDING), with a second event once the group's
accesses are over (DEDUCED, log 52). -/
def State.haltedEvt (s : State) (g : Gid) : State :=
  match s.group g with
  | none => s
  | some x =>
    match s.block x.bid with
    | none => s
    | some b =>
      let put := fun (pending : Bool) (evt : Nat) =>
        (s.setGroup g { x with evt := evt }).dbgEvent b.cmd.ctx ⟨1, pending, false, g.core, g.slot, 0, x.pc⟩
      if x.halt == 0 || x.evt == 0 then s
      else if s.heldByFault g x b.cmd then (if x.evt = 1 then put true 2 else s)
      else if s.resultsOut g x || (x.evt == 2 && s.thr.ops.any (fun o => x.inOp g o && o.op != .fence)) then s
      else put false 0

/-- STEP_DONE: the stepped group would next issue. -/
def State.stepOver (s : State) (g : Gid) : State :=
  match s.group g with
  | none => s
  | some x =>
    match s.block x.bid with
    | none => s
    | some b =>
      if x.stepping < 2 || x.wait != .ready || x.live == 0 || s.waitsFault g x then s
      else (s.setGroup g { x with halt := 2, stepping := 0 }).dbgEvent b.cmd.ctx
        ⟨2, false, x.stepping == 3, g.core, g.slot, 0, x.pc⟩

/-! ### Inspection (R425, Table 21.2) -/

/-- What DBG_SEL names: a value and how it is written, or an error. -/
inductive Item where
  | ro (v : Nat)
  | rw (v : Nat) (put : W64 → State)
  | bad (e : Nat)

/-- Group state items (DEDUCED, log 52). -/
def State.groupItem (s : State) (g : Gid) (x : Group) (lane k : Nat) : Item :=
  let st := x.stack.reverse
  if k = 0 then .rw x.pc.toNat (fun v => s.setGroup g { x with pc := BitVec.ofNat 57 v.toNat })
  else if k = 1 then .ro x.active.toNat
  else if k = 2 then .ro x.live.toNat
  else if k = 3 then .ro st.length
  else if k = 68 then .ro (32 * s.ogrpOf g x lane + lane)
  else if k = 69 then .ro (s.ogrpOf g x lane)
  else if k = 70 then .ro (s.rgOf g x lane)
  else match st[(k - 4) / 2]? with
    | none => .bad dbRange
    | some e =>
      if k % 2 = 1 then .ro e.pc.toNat
      else .ro (e.mask.toNat + Config.kindCode (match e.kind with | .sync => 0 | .pend => 1 | .lock => 2) % 4 * 2 ^ 32)

/-- Eight bytes of an engine's accumulator memory. -/
def State.accItem (s : State) (core mx bid k : Nat) : Item :=
  match s.engine ⟨core, mx⟩ with
  | none => .bad dbRange
  | some e =>
    if e.bid != bid || 32768 ≤ k then .bad dbRange
    else if !e.open_.isEmpty then .bad dbBusy
    else
      let rd := fun (i : Nat) => ((mget e.acc i).getD 0).toNat
      let put := fun (acc : List (Nat × W32)) (i v : Nat) => if v % 2 ^ 32 = 0 then mdel acc i else mput acc i (BitVec.ofNat 32 v)
      .rw (rd (2 * k) + rd (2 * k + 1) * 2 ^ 32) (fun v =>
        s.setEngine ⟨core, mx⟩ { e with acc := put (put e.acc (2 * k) v.toNat) (2 * k + 1) (v.toNat / 2 ^ 32) })

/-- The selected item (DEDUCED, log 52). -/
def State.dbgItem (s : State) : Item :=
  let g : Gid := ⟨s.rd F.DBG_SEL_CORE, s.rd F.DBG_SEL_SLOT⟩
  let lane := s.rd F.DBG_SEL_LANE
  let kind := s.rd F.DBG_SEL_KIND
  let k := s.rd F.DBG_SEL_INDEX
  match s.group g with
  | none => .bad dbNotAttached
  | some x =>
    match s.block x.bid with
    | none => .bad dbNotAttached
    | some b =>
      if !s.on F.DBG_ATTACH_EN b.cmd.ctx then .bad dbNotAttached
      else if kind < 3 && x.halt == 0 && !b.trapped then .bad dbNotHalted
      else if kind = 0 then
        if 8 * x.pages.length ≤ k then .bad dbRange
        else .rw (s.getReg g x k lane).toNat (fun v => s.putReg g x k lane (v.setWidth 32))
      else if kind = 1 then
        if 16 ≤ k then .bad dbRange else .rw (b2n (s.getPred g x k lane)) (fun v => s.putPred g x k lane (v.getLsbD 0))
      else if kind = 2 then s.groupItem g x lane k
      else if kind = 3 then .rw (s.rdScr b (8 * k) 8) (fun v => s.wrScr b (8 * k) (leBytes 8 v.toNat))
      else if kind < 6 then s.accItem g.core (kind - 4) x.bid k
      else .bad dbRange

/-- DBG_DATA read: its value and the state after. -/
def State.dbgRead (s : State) : Nat × State :=
  match s.dbgItem with
  | .ro v => (v, s)
  | .rw v _ => (v, s)
  | .bad e => (0, s.dbgErr e)

/-- DBG_DATA written. -/
def State.dbgWrite (s : State) (v : W64) : State :=
  match s.dbgItem with
  | .ro _ => s.dbgErr dbReadOnly
  | .rw _ put => put v
  | .bad e => s.dbgErr e

/-! ### Events (R426) -/

/-- The head entry of a context's queue. -/
def State.evtHead (s : State) (c : Nat) : Option DbgEvt := ((aget s.dbg.evts c).getD []).head?

/-- DBG_EVT_PC read: the head entry's PC; the entry is removed. -/
def State.evtPop (s : State) (c : Nat) : Nat × State :=
  match (aget s.dbg.evts c).getD [] with
  | [] => (0, s)
  | e :: r => (e.pc.toNat, { s with dbg := { s.dbg with evts := if r.isEmpty then adel s.dbg.evts c else aput s.dbg.evts c r } })

/-! ### The connector's lock (R429, R430) -/

/-- The lock state changes: DBG_UNLOCK. -/
def State.lockState (s : State) (v : Nat) : State := (s.wr F.DBG_LOCK_STATE v).raise 0x3C0

/-- SUBMIT: a locked connector's token goes to the warden. -/
def State.tokenSubmit (s : State) : State := if s.rd F.DBG_LOCK_STATE == 0 then s.lockState 1 else s

/-- The token buffer. -/
def State.token (s : State) : List Byte := (List.range 21).flatMap (fun n => leBytes 8 (s.rd F.DBG_TOK_TOKEN n))

/-- The token is accepted (Table 21.8; 22_security_and_management.md R432, R436). -/
def State.tokenOk (s : State) : Bool :=
  let t := s.token
  leAt t 0 4 == 0x4B55584B && leAt t 4 2 == 1 && (t.drop 16).take 16 == (List.range 2).flatMap (fun n => leBytes 8 (s.rd F.DBG_CHAL_NONCE n))
  && (t.drop 32).take 16 == s.devId.take 16 && s.on F.SEC_FW_KEYS_OK
  && Config.ed448Verify (debugKey s.sec.running) (t.take 48) ((t.drop 48).take 114)

/-- TOKEN_VERIFY_DONE: accepted or not, a new nonce is drawn; a third failure sets LOCKOUT. -/
def State.tokenVerified (s : State) : State :=
  if s.rd F.DBG_LOCK_STATE != 1 then s
  else
    let t := s.token
    let s1 := ((s.wr F.DBG_CHAL_NONCE (s.freeVal 0 64) 0).wr F.DBG_CHAL_NONCE (s.freeVal 1 64) 1).bump
    if s.tokenOk then ((s1.wr F.DBG_LOCK_PMASK (leAt t 6 2)).wr F.DBG_LOCK_FULL (leAt t 8 1 % 2)).lockState 2
    else
      let n := s.rd F.DBG_LOCK_FAILS + 1
      (s1.wr F.DBG_LOCK_FAILS (satTo 3 n)).lockState (if 3 ≤ n then 3 else 0)

/-- RELOCK: every connector attachment is cleared. -/
def State.relock (s : State) : State :=
  if s.rd F.DBG_LOCK_STATE != 2 then s
  else
    let s := ((List.range 64).filter (fun c => s.on F.DBG_ATTACH_EN c && s.on F.DBG_ATTACH_ORIGIN c)).foldl State.detach s
    ((s.wr F.DBG_LOCK_PMASK 0).wr F.DBG_LOCK_FULL 0).lockState 0

/-- DBG_ATTACH (R418). -/
def execDbgAttach (src : Src) (c : Nat) (s : State) : Host.Outcome State Fault Refusal := .next (s.attach src c)
/-- DBG_DETACH (R418). -/
def execDbgDetach (src : Src) (c : Nat) (s : State) : Host.Outcome State Fault Refusal := .next (s.dbgDetach src c)
/-- HALT (R420). -/
def execHalt (c : Nat) (g : Gid) (s : State) : Host.Outcome State Fault Refusal := .next (s.onGroup c g Group.halted)
/-- RESUME (R420, R423). -/
def execResume (c : Nat) (g : Gid) (s : State) : Host.Outcome State Fault Refusal := .next (s.onGroup c g Group.resumed)
/-- STEP (R422). -/
def execStep (c : Nat) (g : Gid) (s : State) : Host.Outcome State Fault Refusal := .next (s.onGroup c g Group.stepped)
/-- HALT_ALL (R420). -/
def execHaltAll (c : Nat) (s : State) : Host.Outcome State Fault Refusal := .next (s.onAll c Group.halted)
/-- RESUME_ALL (R420). -/
def execResumeAll (c : Nat) (s : State) : Host.Outcome State Fault Refusal := .next (s.onAll c Group.resumedAll)
/-- HALTED_EVENT (R421). -/
def execHaltedEvent (g : Gid) (s : State) : Host.Outcome State Fault Refusal := .next (s.haltedEvt g)
/-- STEP_DONE (R422). -/
def execStepDone (g : Gid) (s : State) : Host.Outcome State Fault Refusal := .next (s.stepOver g)
/-- DBG_DATA_READ (R425). -/
def execDbgDataRead (s : State) : Host.Outcome State Fault Refusal :=
  .next (s.dbgRead.2.send (.debug 0 (BitVec.ofNat 64 s.dbgRead.1)))
/-- DBG_DATA_WRITE (R425). -/
def execDbgDataWrite (v : W64) (s : State) : Host.Outcome State Fault Refusal := .next (s.dbgWrite v)
/-- DBG_EVT_PC_READ (R426). -/
def execDbgEvtPcRead (c : Nat) (s : State) : Host.Outcome State Fault Refusal :=
  .next (if c < 64 then (s.evtPop c).2.send (.debug 0 (BitVec.ofNat 64 (s.evtPop c).1)) else s)
/-- TOKEN_SUBMIT (R429). -/
def execTokenSubmit (s : State) : Host.Outcome State Fault Refusal := .next s.tokenSubmit
/-- TOKEN_VERIFY_DONE (R429). -/
def execTokenVerifyDone (s : State) : Host.Outcome State Fault Refusal := .next s.tokenVerified
/-- RELOCK (R430). -/
def execRelock (s : State) : Host.Outcome State Fault Refusal := .next s.relock

end Sys2Proof.Machine
end

