-- ==== Sys2Proof/Machine/Recovery.lean ====
section
/-! DEFINITION. What ends a response to a fault, and faults of dies and of the package (17_fault_tolerance.md R345-R351). -/

namespace Sys2Proof.Machine

open Sys2Proof

/-! ### Cores and clusters (R345-R348) -/

/-- A contained or reset core is back: its registers, scratch and ramp levels are empty, its local store split and its counters at
their reset values (18_reset.md Table 18.2) (DEDUCED, log 46). -/
def State.coreBack (s : State) (core : Nat) : State :=
  let s := s.talClear (coreSet core)
  { s with
    regs := s.regs.filter (fun e => !(e.1.reg == .LS_SPLIT && e.1.i == core / 8 && e.1.j == core % 8))
    rcv := { s.rcv with cores := s.rcv.cores.filter (fun k => k != core) }
    thr := { s.thr with
      rf := s.thr.rf.filter (fun e => e.1.core != core)
      scr := s.thr.scr.filter (fun e => e.1 / 2 ^ 20 != core) }
    mx := { s.mx with
      level := s.mx.level.filter (fun e => e.1.core != core)
      calm := s.mx.calm.filter (fun e => e.1.core != core)
      made := s.mx.made.filter (fun e => e.1.core != core) } }

/-- A unit reset of a core is over. -/
def State.coreUnitOver (s : State) (core : Nat) : State :=
  if s.unitBit F.RST_CORE_CORE (coreWord core).1 (coreWord core).2 then
    (s.clrUnit F.RST_CORE_CORE (coreWord core).1 (coreWord core).2).raise 0x021
  else s

/-- CORE_SELFTEST_DONE: back to service, or CL_TEST. -/
def State.coreTested (s : State) (core : Nat) (pass : Bool) : State :=
  if !s.rcv.cores.contains core then s
  else
    let old := s
    let s := (((s.coreBack core).closeRec 1 core).coreUnitOver core).capFrom old
    if pass then s else s.quarantine (core / 8) fClTest

/-- QUARANTINE_WB_TIMEOUT: write-backs are out 5 ms into a quarantine. -/
def State.wbTimeout (s : State) (cl : Nat) : State :=
  if !s.rcv.wb.contains cl || !s.flushing cl then s
  else
    let s := { s with
      rcv := { s.rcv with wb := s.rcv.wb.erase cl }
      coh := { s.coh with cc := s.coh.cc.filter (fun e => e.1.unit != cl), vc := s.coh.vc.filter (fun e => e.1 != cl) } }
    s.giveDead cl

/-- A quarantine has been answered: nothing of it is written back or reclaimed any more. -/
def State.quarSettled (s : State) (cl : Nat) : Bool := !s.rcv.wb.contains cl && s.coh.reclaim.all (fun e => e.2 != cl)

/-- REPARTITION: for every quarantine that has settled, its record, after those of containments of its cores that it ended
(DEDUCED, log 46); one REPART (R347). A re-partition that finds no clerk of its die awake wakes one first
(19_power_and_clocks.md R383). Placement, service clusters and lost blocks follow from the state. -/
def State.repartition (s : State) : State :=
  let cs := s.rcv.repart.filter s.quarSettled
  if cs.isEmpty then s
  else if cs.any (fun c => !s.clerkAwake (c / 16)) then
    cs.foldl (fun s c => if s.clerkAwake (c / 16) then s else s.wakeClerk (c / 16)) s
  else
    let s := { s with rcv := { s.rcv with repart := s.rcv.repart.filter (fun c => !cs.contains c) } }
    (cs.foldl (fun s c => ((coresOf c).foldl (fun s k => s.closeRec 1 k) s).closeRec 2 c) s).raise 0x401

/-- CLUSTER_SELFTEST_DONE: at boot, after a folio switch (R348), or in a unit reset (DEDUCED, log 43). -/
def State.clusterTested (s : State) (cl : Nat) (pass : Bool) : State :=
  if !s.rcv.testing.contains cl then s
  else
    let old := s
    let s := { s with rcv := { s.rcv with testing := s.rcv.testing.filter (fun c => c != cl) } }
    if s.on F.REC_CNT_QUAR cl then
      if pass then
        let s := (((s.clearDead cl).wr F.REC_CNT_CONTAIN 0 cl).wr F.REC_CNT_QUAR 0 cl).emptyCluster cl |>.regsReset clusterRegs cl
        let s := if s.heldOff cl then s else (clusterDoms cl).foldl (fun s d => s.setDom domWaking d) s
        (((s.logWrite (s.newRec 0 8 cl (s.clusterPart cl))).bump).capFrom old).adoptOrphans
      else (s.logWrite (s.newRec fClTest 2 cl (s.clusterPart cl))).bump
    else if pass then
      (if s.rst.step < 10 && !s.heldOff cl then s.domsOn (clusterDoms cl) else s).capFrom old
    else
      let s := if s.clusterReset cl then s.clrUnit F.RST_UNIT_CLUSTER (cl / 16) (cl % 16) else s
      s.quarantine cl fClTest

/-- CONTAIN_WINDOW_EXPIRE: a containment ages out of the window. -/
def State.containAges (s : State) (cl : Nat) : State :=
  if s.rd F.REC_CNT_CONTAIN cl == 0 then s else s.wr F.REC_CNT_CONTAIN (s.rd F.REC_CNT_CONTAIN cl - 1) cl

/-! ### Dies and the package (R349-R351) -/

/-- CLERK_WDT: the clerk restarts, its slots pass on; started commands run on. -/
def State.clerkWdt (s : State) (k : Nat) : State := if 16 ≤ k then s else (s.clerkOut k).clerkRestart k

/-- UCIE_DOWN; the loss of both modules of a die is a module fault (Table 17.2) (DEDUCED, log 43). -/
def State.ucieDown (s : State) (m : Nat) : State :=
  if 8 ≤ m || s.rcv.ucie.contains m then s
  else
    let s := s.ucieOut m 7
    ((s.logWrite (s.newRec fUcieDown 6 (m / 2 * 16 + m % 2) 0xFF)).bump).ucieLost m

/-- UCIE_LINK_TRAINED: a module that was out returns (R350); retraining clears its freeze bit (19_power_and_clocks.md R394). -/
def State.ucieBack (s : State) (m : Nat) (slow : Bool) : State :=
  if !s.rcv.ucie.contains m || s.unitBit F.RST_UNIT_UCIE (m / 2) (m % 2) then s
  else
    let s := { s with rcv := { s.rcv with ucie := s.rcv.ucie.filter (fun x => x != m) } }
    let s := (s.clearDead (64 + m)).wr F.EQ_CTL_UCIE (s.rd F.EQ_CTL_UCIE &&& (255 - 2 ^ m))
    let s := ((s.wr F.UCIE_STAT_STATE 5 m).wr F.UCIE_STAT_SLOW (b2n slow) m).raise (0x0AC + m)
    (s.logWrite (s.newRec fUcieDown 7 (m / 2 * 16 + m % 2) 0xFF)).bump

/-- CORE_SELFTEST_DONE (R345). -/
def execCoreSelftestDone (core : Nat) (pass : Bool) (s : State) : Host.Outcome State Fault Refusal := .next (s.coreTested core pass)
/-- HEARTBEAT_TIMEOUT (R342). -/
def execHeartbeatTimeout (cl : Nat) (s : State) : Host.Outcome State Fault Refusal := .next (s.quarantine cl fClHeart)
/-- QUARANTINE_WB_TIMEOUT (R346). -/
def execQuarantineWbTimeout (cl : Nat) (s : State) : Host.Outcome State Fault Refusal := .next (s.wbTimeout cl)
/-- REPARTITION (R347). -/
def execRepartition (s : State) : Host.Outcome State Fault Refusal := .next s.repartition
/-- CLUSTER_SELFTEST_DONE (R348). -/
def execClusterSelftestDone (cl : Nat) (pass : Bool) (s : State) : Host.Outcome State Fault Refusal :=
  .next (s.clusterTested cl pass)
/-- CLERK_WDT (R351). -/
def execClerkWdt (k : Nat) (s : State) : Host.Outcome State Fault Refusal := .next (s.clerkWdt k)
/-- UCIE_DOWN (R350). -/
def execUcieDown (m : Nat) (s : State) : Host.Outcome State Fault Refusal := .next (s.ucieDown m)
/-- D2D_DOWN (R349): the die-to-die module pair is lost. -/
def execD2dDown (pair : Nat) (s : State) : Host.Outcome State Fault Refusal := .next (s.moduleFault .warden fD2dDown pair)
/-- PKG_WDT (R349). -/
def execPkgWdt (s : State) : Host.Outcome State Fault Refusal := .next (s.moduleFault .pkgWdt fPkgWdt 0)
/-- UCIE_LINK_TRAINED (R350). -/
def execUcieLinkTrained (m : Nat) (slow : Bool) (s : State) : Host.Outcome State Fault Refusal := .next (s.ucieBack m slow)
/-- CONTAIN_WINDOW_EXPIRE (R345). -/
def execContainWindowExpire (cl : Nat) (s : State) : Host.Outcome State Fault Refusal := .next (s.containAges cl)

end Sys2Proof.Machine
end

