-- ==== Sys2Proof/Machine/Power.lean ====
section
/-! DEFINITION. Power and clocks (19_power_and_clocks.md). Time is not modelled: a row stands for the moment its rule names, and what a
window of time still holds is a free value. -/

namespace Sys2Proof.Machine

open Sys2Proof

/-! ### Gating (R381-R384) -/

/-- A debugger is attached to a context that has a block on a core (21_debug.md R419). -/
def State.debugged (s : State) (core : Nat) : Bool := (s.blocksOn core).any (fun e => s.on F.DBG_ATTACH_EN e.2.cmd.ctx)

/-- The condition of Table 19.1 for switching a domain off (DEDUCED, log 47). -/
def State.gateCond (s : State) (d : Nat) : Bool :=
  if d < 512 then (s.blocksOn d).isEmpty && !s.debugged d
  else if d < 576 then (coresOf (d - 512)).all (fun k => s.dom k == domOff)
  else if d < 592 then s.obj.ctxs.isEmpty
  else if d < 604 then !s.on F.FAB_PORT_CTL_EN (d - 592)
  else if d < 620 then d != 604 && !s.clerkServes (d - 604)
  else false

/-- The cluster of a core or cluster-cache domain. -/
def domCluster (d : Nat) : Option Nat := if d < 512 then some (d / 8) else if d < 576 then some (d - 512) else none

/-- A domain of a quarantined cluster. -/
def State.domQuar (s : State) (d : Nat) : Bool :=
  match domCluster d with
  | some c => s.heldOff c
  | none => false

/-- What a gate command names: a domain, or the domains of a gang of the folio (R44). -/
def State.gateTargets (s : State) (target : Nat) (gang : Bool) : List Nat :=
  if gang then (s.fol.cur.gang.filter (fun e => e.2.2 == target)).flatMap (fun e => (List.range e.2.1).map (fun i => e.1 + i))
  else [target]

/-- What a domain holds is written back or given up as it drains (R205, R381). -/
def State.drainDom (s : State) (d : Nat) : State :=
  if d < 512 then (s.coh.l1.filter (fun e => e.1.unit == d)).foldl (fun s e => s.evictL1 d e.1.line) s
  else if d < 576 then s.flushCluster (d - 512)
  else if d < 592 then s.drainHome (d - 576)
  else if d < 604 && s.rd F.FAB_PORT_STAT_STATE (d - 592) != 0 then s.portDown (d - 592)
  else s

/-- A draining domain has nothing left. -/
def State.domQuiet (s : State) (d : Nat) : Bool :=
  if d < 512 then s.coh.l1.all (fun e => e.1.unit != d) && s.coh.aq.all (fun e => e.1 != d) && s.coh.ar.all (fun e => e.1 != d)
    && s.coh.am.all (fun e => e.1 != d)
  else if d < 576 then s.coh.cc.all (fun e => e.1.unit != d - 512) && s.coh.vc.all (fun e => e.1 != d - 512)
  else if d < 592 then s.coh.dir.all (fun e => homeOf e.1 != d - 576) && s.homeIdle (d - 576)
  else true

/-- A domain begins to drain. -/
def State.startDrain (s : State) (d : Nat) : State := (s.setDom domDraining d).drainDom d

/-- Why a gate command is refused: 0, or ERR of PWR_GATE_STAT (R382). -/
def State.gateErr (s : State) (l : List Nat) (off : Bool) : Nat :=
  if l.isEmpty || l.any (fun d => 620 ≤ d) then 1
  else if l.any s.domQuar then 3
  else if off && l.any (fun d => d == 604 || ((s.dom d == domOn || s.dom d == domWaking) && !s.gateCond d)) then 2
  else 0

/-- GO with OP OFF or ON: PWR_GATE holds what was written; while a command is in progress GO is ignored (DEDUCED, log 47). -/
def State.gate (s : State) (target : Nat) (gang off : Bool) : State :=
  let t := target % 1024
  let s := ((s.wr F.PWR_GATE_TARGET t).wr F.PWR_GATE_GANG (b2n gang)).wr F.PWR_GATE_OP (b2n (!off))
  if s.on F.PWR_GATE_STAT_BUSY then s
  else
    let l := s.gateTargets t gang
    let e := s.gateErr l off
    if e != 0 then (s.wr F.PWR_GATE_STAT_ERR e).raise 0x013
    else
      let go := l.filter (fun d => s.dom d != (if off then domOff else domOn))
      let s := if off then (go.filter (fun d => s.dom d == domOn)).foldl State.startDrain s
        else (go.filter (fun d => s.dom d == domOff)).foldl (fun s d => s.setDom domWaking d) s
      if go.isEmpty then s.raise 0x013
      else { s with pwr := { s.pwr with gate := go, gateOff := off, gateErr := false } }.wr F.PWR_GATE_STAT_BUSY 1

/-- DOMAIN_WAKE_DONE: a port trains; a domain that an OFF command found waking drains (DEDUCED, log 47). -/
def State.domainOn (s : State) (d : Nat) : State :=
  if s.dom d != domWaking || 640 ≤ d then s
  else
    let s := s.setDom domOn d
    let s := if 592 ≤ d && d < 604 && s.mayTrain (d - 592) then s.train (d - 592) true else s
    let s := if s.pwr.gateOff && s.pwr.gate.contains d && s.gateCond d then s.startDrain d else s
    s.gateSettle

/-- What is left in a core is empty once it is OFF. -/
def State.coreEmpty (s : State) (core : Nat) : State :=
  { s with
    thr := { s.thr with
      rf := s.thr.rf.filter (fun e => e.1.core != core)
      scr := s.thr.scr.filter (fun e => e.1 / 2 ^ 20 != core) }
    mx := { s.mx with
      level := s.mx.level.filter (fun e => e.1.core != core)
      calm := s.mx.calm.filter (fun e => e.1.core != core)
      made := s.mx.made.filter (fun e => e.1.core != core) } }

/-- DOMAIN_DRAIN_DONE: the domain goes OFF once it has nothing left; one that an ON command found draining wakes again, and a
cluster cache one of whose cores has been turned on meanwhile stays on (09_caches.md R205) (DEDUCED, log 47). -/
def State.domainOff (s : State) (d : Nat) : State :=
  if s.dom d != domDraining || 640 ≤ d then s
  else
    let s := s.drainDom d
    if !s.domQuiet d then s
    else
      let s := if d < 512 then s.coreEmpty d else s
      if 512 ≤ d && d < 576 && !s.gateCond d then (s.setDom domOn d).gateSettle else
      let again := !s.pwr.gateOff && s.pwr.gate.contains d
      (s.setDom (if again then domWaking else domOff) d).gateSettle

/-- AUTO_GATE_IDLE: cores, cluster caches and clerks (R383). -/
def State.autoGate (s : State) (d : Nat) : State :=
  if s.on F.PWR_POLICY_AUTO && (d < 576 || (604 ≤ d && d < 620)) && s.dom d == domOn && s.gateCond d then s.startDrain d else s

/-! ### Clocks (R386, R387) -/

/-- One of a core's groups is ready. -/
def State.coreReady (s : State) (core : Nat) : Bool :=
  s.thr.groups.any (fun e => e.1.core == core && (match s.block e.2.bid with
    | some b => s.canIssue e.1 e.2 b && !s.thr.ops.any (fun o => e.2.inOp e.1 o)
    | none => false))

/-- The clock of a core's pipes stands: it was stopped, and no group of it has become ready since (R387) (DEDUCED, log 50). -/
def State.coreStopped (s : State) (core : Nat) : Bool := s.pwr.stopped.contains core && !s.coreReady core

/-- A die's clerks, copy engines, owning unit, snapshot engine and ledger writer have something to do, or a transfer or packet
of its fabric ports is under way. -/
def State.dieWorks (s : State) (d : Nat) : Bool :=
  s.cmd.swqs.any (fun e => e.2.die == d && (s.eligible e.1 || e.2.taking.isSome))
  || s.cmd.cmds.any (fun e => s.queueDie e.2.q == some d && (e.2.ph == .ending || (e.2.ph == .started
    && (e.2.done || pkOp e.2.pkt == opCopy || pkOp e.2.pkt == opFill || pkOp e.2.pkt == opDump))))
  || s.syn.ops.any (fun e => e.1 == d) || s.rcv.writes.any (fun w => w.die == d)
  || !(s.led d).queue.isEmpty || (s.led d).out.isSome
  || s.fab.send.any (fun e => e.2.die == d) || s.fab.recv.any (fun e => e.2.die == d && !e.2.ended)
  || s.fab.here.any (fun a => a.die == d) || s.fab.ports.any (fun e => e.1 / 3 == d && !e.2.egress.isEmpty)

/-- No request crosses a die's network and every unit on it is idle, OFF or clock-gated (DEDUCED, log 50). -/
def State.dieIdle (s : State) (d : Nat) : Bool :=
  s.coh.bq.isEmpty && s.coh.bn.isEmpty && s.coh.txns.isEmpty && s.coh.queued.isEmpty
  && s.coh.aq.all (fun e => e.1 / 128 != d) && s.coh.ar.all (fun e => e.1 / 128 != d) && s.coh.am.all (fun e => e.1 / 128 != d)
  && s.xlt.walks.all (fun w => w.die != d) && s.thr.ops.all (fun o => o.g.core / 128 != d)
  && s.thr.blocks.all (fun e => e.2.core / 128 != d || s.coreStopped e.2.core)
  && s.mx.eng.all (fun e => e.1.core / 128 != d || e.2.open_.isEmpty) && s.fab.arrivals.all (fun a => a.die != d)
  && !s.dieWorks d

/-- NOC_CLOCK_STOP (DEDUCED, log 50). -/
def State.nocStop (s : State) (d : Nat) : State := if d < 4 && s.dieIdle d then s.wr F.INT_ISL_STOPPED 1 d else s

/-- NOC_CLOCK_START: the latches move into PEND (15_interrupts.md R317). -/
def State.nocStart (s : State) (d : Nat) : State :=
  if d < 4 && s.on F.INT_ISL_STOPPED d then ((s.wr F.INT_ISL_STOPPED 0 d).wr F.INT_ISL_WAKING 0 d).moveLatches d else s

/-- CORE_CLOCK_STOP: none of the core's groups is ready. -/
def State.coreStop (s : State) (core : Nat) : State :=
  if core < 512 && s.dom core == domOn && !s.coreReady core && !s.pwr.stopped.contains core then
    { s with pwr := { s.pwr with stopped := s.pwr.stopped ++ [core] } }
  else s

/-- A fast PLL of a die: the clock it makes (R385). -/
inductive Pll where
  | arith | noc | stack | fabric
  deriving DecidableEq, Repr

/-- A PLL runs: power-good is high, and a unit that it clocks is neither OFF nor clock-stopped (R385). The arithmetic PLL
clocks the cores, the stack interface's the home slices, the fabric's the ports (DEDUCED, log 50). -/
def State.pllOn (s : State) (d : Nat) (p : Pll) : Bool :=
  s.rst.power && d < 4 && (match p with
    | .arith => (List.range 128).any (fun k => s.dom (128 * d + k) != domOff && !s.coreStopped (128 * d + k))
    | .noc => !s.on F.INT_ISL_STOPPED d
    | .stack => (List.range 4).any (fun h => s.dom (576 + 4 * d + h) != domOff)
    | .fabric => (List.range 3).any (fun k => s.dom (592 + 3 * d + k) != domOff))

/-! ### Input power and temperature (R377, R378, R380) -/

/-- A quotient whose rounding is a free value (DESIGN CHOICE, log 5). -/
def State.quot (s : State) (n a b : Nat) : Nat := if a % b = 0 then a / b else a / b + s.freeVal n 1

/-- PWR_SAMPLE: voltage in units of 10 mV, current in units of 10 mA (DEDUCED, log 48). -/
def State.pwrSample (s : State) (cv ci : Nat) : State :=
  if !s.rst.power then s
  else
    let w := s.quot 0 (cv * ci) 10000
    let l := (w :: s.pwr.samples).take 10000
    let a := l.take 100
    let n := if cv < 4200 || 6200 < cv then s.pwr.outOf + 1 else 0
    let s1 := { s with pwr := { s.pwr with samples := l, outOf := n } }.bump
    if s.rst.asserted then s1
    else
      let s1 := ((s1.wr F.PWR_IN_VOLT (satTo 0xFFFF cv)).wr F.PWR_IN_CURR (satTo 0xFFFF ci)).wr F.PWR_IN_WATTS (satTo 0xFFFF w)
      let s1 := s1.wr F.PWR_IN_PGOOD 1
      let s1 := (s1.wr F.PWR_AVG_W10MS (satTo 0xFFFF (s.quot 1 a.sum a.length))).wr F.PWR_AVG_W1S
        (satTo 0xFFFF (s.quot 2 l.sum l.length))
      if n = 10 then s1.raise 0x011 else s1

/-- The temperature of a die. -/
def State.dieTemp (s : State) (d : Nat) : Nat := s.pwr.temps.getD d 0

/-- DIE_TEMP_SAMPLE: at 120 C the warden asserts module reset, and holds it until every die reads below 90 C (DEDUCED, log 50). -/
def State.dieSample (s : State) (die temp : Nat) : State :=
  if !s.rst.power || 4 ≤ die then s
  else
    let s := { s with pwr := { s.pwr with temps := (List.range 4).map (fun d => if d = die then temp else s.dieTemp d) } }
    let cool := (List.range 4).all (fun d => s.dieTemp d < 90)
    let s := if cool then { s with rst := { s.rst with hot := false } } else s
    if s.rst.asserted then (if 120 ≤ temp then { s with rst := { s.rst with hot := true } } else s)
    else
      let s := s.wr F.PWR_TEMP_TEMP ((List.range 4).map (fun d => satTo 255 (s.dieTemp d) * 2 ^ (8 * d))).sum
      let s := if 105 < temp then s.raise 0x012 else s
      if 120 ≤ temp then { s with rst := { s.rst with hot := true } }.moduleReset .warden else s

/-! ### The power-limit loop (R388-R390) -/

/-- The highest target of R388. -/
def State.clkTop (s : State) : Nat := if s.on F.SEC_CAL_VALID then s.rd F.PWR_LIMIT_CLK_MAX else min 1000 (s.rd F.PWR_LIMIT_CLK_MAX)

/-- The target and the cap (in quarters taken away) after one run, from whether the limit is exceeded, whether it leaves room,
and the runs since the last change of either and since the cap was last lowered (DEDUCED, log 48). -/
def loopNext (clk cap top : Nat) (exceeded room : Bool) (since sinceCap : Nat) : Nat × Nat :=
  if exceeded then
    if 600 < clk then (min top (max 600 (clk - 25)), cap)
    else (clk, if cap < 3 && 10 ≤ sinceCap then cap + 1 else cap)
  else if room && 10 ≤ since then
    if cap != 0 then (min top clk, cap - 1) else (min top (clk + 25), cap)
  else (min top clk, cap)

/-- POWER_LOOP_RUN (DESIGN CHOICE, log 5) (DEDUCED, log 48). -/
def State.powerLoop (s : State) : State :=
  if s.rst.asserted || !s.rst.power then s
  else
    let mean := s.rd F.PWR_AVG_W10MS
    let lim := s.rd F.PWR_LIMIT_WATTS
    let hot := (List.range 4).any (fun d => 105 < s.dieTemp d)
    let exceeded := lim < mean || hot
    let room := !exceeded && 100 * mean < 97 * lim
    let clk := s.rd F.PWR_CLK_TARGET
    let cap := s.rd F.PWR_CLK_MX_CAP
    let (clk1, cap1) := loopNext clk cap s.clkTop exceeded room (s.pwr.since + 1) (s.pwr.sinceCap + 1)
    let down := clk1 < s.clkTop || cap1 != 0
    let s1 := { s with pwr := { s.pwr with
      since := if clk1 == clk && cap1 == cap then satTo 10 (s.pwr.since + 1) else 0
      sinceCap := if cap1 ≤ cap then satTo 10 (s.pwr.sinceCap + 1) else 0 } }
    let s1 := (s1.wr F.PWR_CLK_TARGET clk1).wr F.PWR_CLK_MX_CAP cap1
    let s1 := (s1.wr F.PWR_CLK_LIMITED (b2n (down && 97 * lim ≤ 100 * mean))).wr F.PWR_CLK_THERMAL (b2n (down && hot))
    let s1 := if clk1 == clk && cap1 == cap then s1 else s1.raise 0x010
    s1.capFrom s

/-- PWR_LIMIT_WRITE: each field on its own (DEDUCED, log 48). -/
def State.limitWrite (s : State) (watts clk : Nat) : State :=
  let okW := 1000 ≤ watts && watts ≤ 3000 && watts % 25 == 0
  let okC := 600 ≤ clk && clk ≤ 1500 && clk % 25 == 0
  let s := if okW then s.wr F.PWR_LIMIT_WATTS watts else s
  let s := if okC then s.wr F.PWR_LIMIT_CLK_MAX clk else s
  if okW && okC then s else s.wr F.PWR_LIMIT_REJ 1

/-! ### The droop loop (R391-R393) -/

/-- Clock steps of 25 MHz that a cluster's divider stays below the target. -/
def State.clkTrim (s : State) (cl : Nat) : Nat := (aget s.pwr.slow cl).getD 0

/-- DROOP_DETECT: the cluster's engines hold their levels for this step and three more; more than TRIM_COUNT detections within
10 us (how many of the earlier ones still lie in the window is free) give a trim (DEDUCED, log 49). -/
def State.droop (s : State) (cl : Nat) : State :=
  if 64 ≤ cl || s.dom (512 + cl) != domOn then s
  else
    let n := s.freeVal 0 32 % ((aget s.pwr.droops cl).getD 0 + 1) + 1
    let calm := (s.mx.level.filter (fun e => e.1.core / 8 == cl)).foldl (fun m e => aput m e.1 4) s.mx.calm
    let s := ({ s with mx := { s.mx with calm := calm }, pwr := { s.pwr with droops := aput s.pwr.droops cl n } }).bump
    let s := s.incSat F.DROOP_CNT_DETECT cl
    if n ≤ max 1 (s.rd F.DROOP_CTL_TRIM_COUNT cl) then s
    else
      let s := s.incSat F.DROOP_CNT_TRIMS cl
      if s.rd F.DROOP_CNT_STEPS cl < min 15 (Config.voltCeiling cl) then s.inc F.DROOP_CNT_STEPS cl
      else { s with pwr := { s.pwr with slow := aput s.pwr.slow cl (s.clkTrim cl + 1) } }

/-- DROOP_TRIM_DECAY: the clock trim goes first, then the voltage (DEDUCED, log 49). -/
def State.droopDecay (s : State) (cl : Nat) : State :=
  if s.clkTrim cl != 0 then { s with pwr := { s.pwr with slow := aput s.pwr.slow cl (s.clkTrim cl - 1) } }
  else if s.rd F.DROOP_CNT_STEPS cl != 0 then s.wr F.DROOP_CNT_STEPS (s.rd F.DROOP_CNT_STEPS cl - 1) cl
  else s

/-! ### UCIe (R396) -/

/-- UCIE_L1_ENTRY and UCIE_L1_EXIT: ACTIVE and L1. -/
def State.ucieL1 (s : State) (m : Nat) (from_ dst : Nat) : State :=
  if m < 8 && s.rd F.UCIE_STAT_STATE m == from_ then (s.wr F.UCIE_STAT_STATE dst m).raise (0x0AC + m) else s

/-- GATE_OFF (R382). -/
def execGateOff (t : Nat) (gang : Bool) (s : State) : Host.Outcome State Fault Refusal := .next (s.gate t gang true)
/-- GATE_ON (R382). -/
def execGateOn (t : Nat) (gang : Bool) (s : State) : Host.Outcome State Fault Refusal := .next (s.gate t gang false)
/-- DOMAIN_WAKE_DONE (R381). -/
def execDomainWakeDone (d : Nat) (s : State) : Host.Outcome State Fault Refusal := .next (s.domainOn d)
/-- DOMAIN_DRAIN_DONE (R381). -/
def execDomainDrainDone (d : Nat) (s : State) : Host.Outcome State Fault Refusal := .next (s.domainOff d)
/-- AUTO_GATE_IDLE (R383). -/
def execAutoGateIdle (d : Nat) (s : State) : Host.Outcome State Fault Refusal := .next (s.autoGate d)
/-- NOC_CLOCK_STOP (R386). -/
def execNocClockStop (d : Nat) (s : State) : Host.Outcome State Fault Refusal := .next (s.nocStop d)
/-- CORE_CLOCK_STOP (R387). -/
def execCoreClockStop (core : Nat) (s : State) : Host.Outcome State Fault Refusal := .next (s.coreStop core)
/-- POWER_LOOP_RUN (R388, R389). -/
def execPowerLoopRun (s : State) : Host.Outcome State Fault Refusal := .next s.powerLoop
/-- PWR_SAMPLE (R378). -/
def execPwrSample (cv ci : Nat) (s : State) : Host.Outcome State Fault Refusal := .next (s.pwrSample cv ci)
/-- DIE_TEMP_SAMPLE (R380). -/
def execDieTempSample (die temp : Nat) (s : State) : Host.Outcome State Fault Refusal := .next (s.dieSample die temp)
/-- DROOP_DETECT (R391-R393). -/
def execDroopDetect (cl : Nat) (s : State) : Host.Outcome State Fault Refusal := .next (s.droop cl)
/-- DROOP_TRIM_DECAY (R392). -/
def execDroopTrimDecay (cl : Nat) (s : State) : Host.Outcome State Fault Refusal := .next (s.droopDecay cl)
/-- PWR_LIMIT_WRITE (R390). -/
def execPwrLimitWrite (w clk : Nat) (s : State) : Host.Outcome State Fault Refusal := .next (s.limitWrite w clk)
/-- UCIE_L1_ENTRY (R396). -/
def execUcieL1Entry (m : Nat) (s : State) : Host.Outcome State Fault Refusal := .next (s.ucieL1 m 5 8)
/-- UCIE_L1_EXIT (R396). -/
def execUcieL1Exit (m : Nat) (s : State) : Host.Outcome State Fault Refusal := .next (s.ucieL1 m 8 5)

end Sys2Proof.Machine
end

