-- ==== Sys2Proof/Machine/Translation.lean ====
section
/-! DEFINITION. The rows of 11_translation.md: walk steps, the HTU's answers, invalidations, quires and the blotter's tail. -/

namespace Sys2Proof.Machine

open Sys2Proof

/-! ### Walks (R230-R239) -/

/-- The `idx`-th walk of a die, in order of their start. -/
def State.walkAt (s : State) (die idx : Nat) : Option Walk := (s.xlt.walks.filter (fun w => w.die == die))[idx]?

/-- A walk removed, or replaced. -/
def State.delWalk (s : State) (w : Walk) : State := { s with xlt := { s.xlt with walks := s.xlt.walks.erase w } }
def State.setWalk (s : State) (w w' : Walk) : State :=
  { s with xlt := { s.xlt with walks := s.xlt.walks.map (fun x => if x == w then w' else x) } }

/-- A table entry remembered by its walker's cache; the oldest of the 64 goes (Table 11.5) (DESIGN CHOICE, log 25). -/
def State.putWalkc (s : State) (e : WalkC) : State :=
  let own := fun (x : WalkC) => x.die == e.die && x.walker == e.walker
  let l := s.xlt.walkc.filter (fun x => !(own x && x.ctx == e.ctx && x.level == e.level && x.tag == e.tag))
  let l := if 64 ≤ (l.filter own).length then
      (match l.find? own with
      | some x => l.erase x
      | none => l)
    else l
  { s with xlt := { s.xlt with walkc := l ++ [e] } }

/-- The accesses that wait for a walk: the lanes of the core's accesses of that context, page and kind. -/
def State.walkLanes (s : State) (w : Walk) (core : Nat) : List (Nat × Nat) :=
  (s.coreOps core).flatMap (fun o => if o.cmd.ctx == w.ctx && o.sp == .dev && o.op != .fence && o.op.access == w.acc then
    (o.lanes.filter (fun l => l.ph == .need && o.turn l && l.va / 4096 == w.va / 4096)).map (fun l => (o.ser, l.key)) else [])

/-- A lane of an access faults. -/
def State.faultSer (cause level : Nat) (s : State) (e : Nat × Nat) : State :=
  match s.thr.ops.find? (fun o => o.ser == e.1) with
  | none => s
  | some o =>
    match o.lanes.find? (fun l => l.key == e.2) with
    | none => s
    | some l => s.faultLane o l cause level

/-- A walk ends with a fault: every access that waited for it goes to the blotter (R244). The write of a completion record and the
read of an aborted packet go another way (13_command_submission.md R288, R291). -/
def State.walkFault (s : State) (w : Walk) (cause level : Nat) : State :=
  let s := s.delWalk w
  match w.src.source, w.place, w.src.cmd with
  | 0, .micro core, _ => ((s.walkLanes w core).foldl (State.faultSer cause level) s).retryDie w.die
  | 6, _, some id => s.modCmd id (fun c => { c with noRing := true })
  | 7, _, some id =>
    match s.cmdOf id with
    | some c => if c.pkt.isEmpty then (s.abortPkt id c (leBytes 64 0)).1 else s
    | none => s
  | 8, _, _ => s.listFault w.ctx
  | _, _, _ => (s.blotWait w.ctx w.va cause level w.acc w.src).retryDie w.die

/-- A translation installed where its walk serves (Table 11.5); D bits already recorded for the same entry stay. -/
def State.installAll (s : State) (w : Walk) (t : Tlb) : State :=
  let old := s.xlt.tlbs.filter (fun x => x.ctx == t.ctx && x.vpn == t.vpn && x.pages == t.pages && x.host == t.host)
  let t := { t with dirty := (t.dirty ++ old.flatMap (fun (x : Tlb) => x.dirty)).dedup }
  let s := s.installTlb { t with place := .die w.die }
  match w.place with
  | .micro core => (s.installTlb { t with place := .cluster (core / 8) }).installTlb { t with place := .micro core }
  | _ => s

/-- A walk asks the HTU for its page (R236). -/
def State.askHtu (s : State) (w : Walk) (e l pa : Nat) : State :=
  ((s.setWalk w { w with ph := .htu, level := l, leaf := BitVec.ofNat 64 e, leafPa := pa }).useLink w.die).send
    (.htuRequest w.die w.ctx (s.rd F.XLT_PASID_PASID w.ctx) (w.va / 4096) w.setD)

/-- A leaf with CONT in a run that breaks R232: its entries differ in R, W, A, HOST or CONT, or their pages do not form one
aligned block in index order. -/
def State.runBroken (s : State) (key e l pa : Nat) : Bool :=
  let n := 2 ^ pteCont e
  let i0 := pa % 4096 / 8 / n * n
  (List.range n).any (fun i =>
    let x := s.rdNat key (pa / 4096 * 4096 + 8 * (i0 + i)) 8
    !pteV x || bitsOf x 1 4 != bitsOf e 1 4 || bitsOf x 6 1 != bitsOf e 6 1 || pteCont x != pteCont e
    || (!pteHost e && ptePa x != ptePa e / (n * levelSize l) * (n * levelSize l) + i * levelSize l))

/-- The entry that translates a page of a broken run: a free choice among the valid leaves of the run, which are the context's own
(R232; 00_scope.md R13) (DEDUCED, log 76). -/
def State.runEntry (s : State) (key e l pa : Nat) : Nat :=
  let n := 2 ^ pteCont e
  let i0 := pa % 4096 / 8 / n * n
  let x := s.rdNat key (pa / 4096 * 4096 + 8 * (i0 + s.freeVal 1404 64 % n)) 8
  if pteV x && !pteBad x l && pteLeaf x then (if pteD e then pteDirty x else x) else e

/-- A page of a broken run: the translation of one entry of the run, by itself. -/
def State.walkBroken (s : State) (w : Walk) (e l pa : Nat) : State :=
  let z := levelSize l
  let x := s.runEntry (s.ctxKey w.ctx) e l pa
  let s := s.bump
  if !pteHost x && stackTop < ptePa x + z then s.walkFault w caBadPa l
  else if !permOk (pteR x) (pteW x) (pteA x) w.acc then s.walkFault w caPerm l
  else if pteHost x && w.acc == accRed then s.walkFault w caHostOp l
  else if pteHost x then s.askHtu w x l pa
  else
    let t : Tlb := ⟨.die w.die, w.ctx, w.va / z * z / 4096, z / 4096, ptePa x / 4096, pteR x, pteW x, pteA x, false,
      if pteD x then [w.va / z] else [], l⟩
    ((s.delWalk w).installAll w t).retryDie w.die

/-- A walk ends at a leaf whose D is as the access needs it: a device page is installed, a run of CONT as one entry where it
lies in stack memory whole (R228, R232); a host page is asked of the HTU (R236). -/
def State.walkLeaf (s : State) (w : Walk) (e l pa : Nat) : State :=
  if s.runBroken (s.ctxKey w.ctx) e l pa then s.walkBroken w e l pa
  else if pteHost e then s.askHtu w e l pa
  else
    let dirty := if pteD e then [w.va / levelSize l] else []
    let run := levelSize l * 2 ^ pteCont e
    if stackTop < ptePa e / run * run + run then
      let z := levelSize l
      ((s.delWalk w).installAll w ⟨.die w.die, w.ctx, w.va / z * z / 4096, z / 4096, ptePa e / 4096, pteR e, pteW e, pteA e, false,
        dirty, l⟩).retryDie w.die
    else
      let z := levelSize l * 2 ^ pteCont e
      let t : Tlb := ⟨.die w.die, w.ctx, w.va / z * z / 4096, z / 4096, ptePa e / z * z / 4096, pteR e, pteW e, pteA e, false, dirty, l⟩
      ((s.delWalk w).installAll w t).retryDie w.die

/-- WALK_STEP: a walker reads one entry as class 0 through the service cluster's cache and goes on, sets D, or ends (R230,
R235, R239); it waits while that cache does not serve the line. A walk that an invalidation overtook is discarded (R241). -/
def State.walkStep (s : State) (w : Walk) : State :=
  let key := s.ctxKey w.ctx
  let ask := fun (pa : Nat) (write : Bool) (f : State → Poison → State) =>
    if stackTop ≤ pa then f s .none
    else match s.svcAsk w.ctx w.die 0 [pa / 128] write with
      | (s, false) => s
      | (s, true) => f s (s.svcKind w.ctx w.die (pa / 128))
  if w.stale && w.ph != .htu then (s.delWalk w).retryDie w.die
  else match w.ph with
    | .htu => s
    | .dirty => ask w.leafPa true (fun s pk =>
      if pk != .none then s.walkFault w caWalkPoison w.level
      else if s.rdNat key w.leafPa 8 == w.leaf.toNat then
        let e := pteDirty w.leaf.toNat
        ((s.svcPut w.ctx w.die key w.leafPa (leBytes 1 (e % 256))).1).walkLeaf w e w.level w.leafPa
      else s.setWalk w { w with ph := .table, level := 4, table := s.xltRoot w.ctx })
    | .table =>
      let pa := w.table + 8 * levelIndex w.va w.level
      ask pa false (fun s pk =>
      match s.readPte key pa w.level pk with
      | .fault c => s.walkFault w c w.level
      | .table t =>
        (s.putWalkc ⟨w.die, w.walker, w.ctx, w.level - 1, w.va / levelSize w.level, t⟩).setWalk w
          { w with level := w.level - 1, table := t }
      | .leaf e =>
        if !permOk (pteR e) (pteW e) (pteA e) w.acc then s.walkFault w caPerm w.level
        else if pteHost e && w.acc == accRed then s.walkFault w caHostOp w.level
        else if w.setD && !pteD e then s.setWalk w { w with ph := .dirty, leaf := BitVec.ofNat 64 e, leafPa := pa }
        else s.walkLeaf w e w.level pa)

/-- HTU_RESPONSE (R236): `size` is the HTU's page in bytes, and `host` the host address of the page asked for. -/
def State.htuAnswer (s : State) (w : Walk) : HtuAns → State
  | .fault => if w.stale then (s.delWalk w).retryDie w.die else s.walkFault w caHtuFault 0xFF
  | .ok host size r wr =>
    if w.stale then (s.delWalk w).retryDie w.die
    else if !permOk r wr (r && wr) (w.acc % 16) then s.walkFault w caHtuPerm 0xFF
    else
      let e := w.leaf.toNat
      let z := max 4096 (min (levelSize w.level) size)
      let base := w.va / z * z
      let t : Tlb := ⟨.die w.die, w.ctx, base / 4096, z / 4096, host / 4096 - (w.va / 4096 - base / 4096), pteR e && r, pteW e && wr,
        pteA e && r && wr, true, if pteD e then [w.va / levelSize w.level] else [], w.level⟩
      ((s.delWalk w).installAll w t).retryDie w.die

/-! ### Invalidations (R237, R240-R243) -/

/-- PENDING of XLT_INV_STAT. -/
def State.invCount (s : State) : State := s.wr F.XLT_INV_STAT_PENDING s.xlt.invs.length

/-- Accesses of some contexts whose transfers are on their way: of threads, of the fabric's receivers, of copy and snapshot
engines. -/
def State.flights (s : State) (cs : List Nat) : List Nat :=
  (s.thr.ops.filter (fun p => cs.contains p.cmd.ctx && p.lanes.any (fun l => match l.ph with
    | .sent _ => true
    | _ => false))).map (fun p => p.ser)
  ++ (s.fab.recv.filter (fun e => cs.contains e.2.ctx)).flatMap (fun e => e.2.outs.map (fun o => o.1))
  ++ (s.cmd.cmds.filter (fun e => cs.contains e.1.ctx)).flatMap (fun e => e.2.outs)
  ++ (s.rcv.outs.filter (fun e => match e.2 with
    | .snap c => cs.contains c
    | .push k => (aget s.rcv.push k).any (fun p => cs.contains p.ctx)
    | _ => false)).map (fun e => e.1)

/-- Accesses still on their way, under the keys of some contexts, of which no access, transfer or command stands any more
(R241). -/
def State.strays (s : State) (cs : List Nat) : List Nat :=
  let known := s.flights (List.range 64)
  ((s.coh.bq ++ s.coh.want ++ (s.coh.txns ++ s.coh.queued).map (fun t => t.msg)).filter (fun m =>
    m.op != 0 && (cs.map s.ctxKey).contains m.key && !known.contains m.op)).map (fun m => m.op)

/-- An invalidation enters the queue: every structure removes what it names, walks of its contexts become stale, and accesses
translated before are noted. -/
def State.pushInv (s : State) (o : InvOp) : State :=
  let hit := fun (c lo hi : Nat) => o.ctxs.contains c && lo < o.hi && o.lo < hi
  ({ s with xlt := { s.xlt with
    tlbs := s.xlt.tlbs.filter (fun (t : Tlb) => !hit t.ctx (t.vpn * 4096) ((t.vpn + t.pages) * 4096))
    walkc := s.xlt.walkc.filter (fun (t : WalkC) => !hit t.ctx (t.tag * levelSize (t.level + 1)) ((t.tag + 1) * levelSize (t.level + 1)))
    walks := s.xlt.walks.map (fun (w : Walk) => if o.ctxs.contains w.ctx then { w with stale := true } else w)
    invs := s.xlt.invs ++ [{ o with flight := s.flights o.ctxs ++ s.strays o.ctxs }] } }).invCount

/-- A driver's invalidation: refused while 48 are pending, or while no entry is free (R243). -/
def State.driverInv (s : State) (ctxs : List Nat) (lo hi : Nat) (irq : Bool) : State :=
  if 48 ≤ (s.xlt.invs.filter (fun o => o.host.isNone)).length || 64 ≤ s.xlt.invs.length then s.wr F.XLT_INV_STAT_DROP 1
  else (s.inc F.XLT_INV_SEQ_ISSUED).pushInv ⟨none, ctxs, lo, hi, irq, []⟩

/-- INV_RANGE: from XLT_INV_ADDR, COUNT units of SIZE. -/
def State.invRange (s : State) (c size count : Nat) (irq : Bool) : State :=
  if 3 ≤ size || count = 0 then s.wr F.XLT_INV_STAT_DROP 1
  else
    let lo := s.rd F.XLT_INV_ADDR_VA * 4096
    s.driverInv [c] lo (lo + count * levelSize size) irq

/-- INV_CONTEXT and INV_ALL. -/
def State.invContexts (s : State) (cs : List Nat) (irq : Bool) : State := s.driverInv cs 0 (2 ^ 57) irq

/-- HTU_INVALIDATE: taken into a free entry, or held (R237). -/
def State.htuInv (s : State) (pasid va pages tag : Nat) : State :=
  let cs := (List.range 64).filter (fun c => s.rd F.XLT_PASID_PASID c == pasid)
  let o : InvOp := ⟨some tag, cs, va / 4096 * 4096, (va / 4096 + pages) * 4096, false, []⟩
  if s.xlt.invs.length < 64 then s.pushInv o else { s with xlt := { s.xlt with htuHeld := s.xlt.htuHeld ++ [o] } }

/-- INV_COMPLETE: the oldest invalidation is complete (R241): an access whose command has been aborted counts until its
transfer is over. -/
def State.invComplete (s : State) : State :=
  match s.xlt.invs with
  | [] => s
  | o :: r =>
    if s.xlt.walks.any (fun w => w.stale && o.ctxs.contains w.ctx)
        || (s.flights o.ctxs ++ s.strays o.ctxs).any (fun n => o.flight.contains n) then s
    else
      let s := ({ s with xlt := { s.xlt with invs := r } }).invCount
      let s := match o.host with
        | some tag => s.send (.htuInvDone tag)
        | none =>
          let s := s.inc F.XLT_INV_SEQ_DONE
          if o.irq then s.raise 0x002 else s
      match s.xlt.htuHeld with
      | [] => s
      | h :: more => ({ s with xlt := { s.xlt with htuHeld := more } }).pushInv h

/-! ### Quires (R246-R250, R470) -/

/-- Lanes of a context's accesses in some phase. -/
def State.lanesIn (s : State) (c : Nat) (p : LanePh → Bool) : List (MemOp × LaneAcc) :=
  (s.thr.ops.filter (fun o => o.cmd.ctx == c)).flatMap (fun o => (o.lanes.filter (fun l => p l.ph)).map (fun l => (o, l)))

/-- Cores with accesses of a context. -/
def State.ctxCores (s : State) (c : Nat) : List Nat := ((s.thr.ops.filter (fun o => o.cmd.ctx == c)).map (fun o => o.g.core)).dedup

/-- A write to XLT_RESOLVE that is refused: RES_ERR, except once the context is aborted (R250). -/
def State.resolveErr (s : State) (c : Nat) : State :=
  if s.ctxState c == ctxAborting || s.ctxState c == ctxAborted then s else s.wr F.XLT_BLOT_PTR_RES_ERR 1 c

/-- A lane waits on a quire. -/
def LanePh.onQuire (q : Nat) : LanePh → Bool
  | .quire n _ => n == q
  | _ => false

/-- A page's translations above the die's cache are dropped for a core, whose access translates from there downwards (R247). -/
def State.fromDie (s : State) (core c va : Nat) : State :=
  { s with xlt := { s.xlt with
    tlbs := s.xlt.tlbs.filter (fun t => !(t.covers c va && (t.place == .micro core || t.place == .cluster (core / 8)))) } }

/-- RESOLVE_RETRY: every access that waits on the quire translates again, from the die's cache downwards. -/
def State.resolveRetry (s : State) (c q : Nat) : State :=
  let b := s.blot c
  if !b.closed.contains q then s.resolveErr c
  else
    let ls := s.lanesIn c (LanePh.onQuire q)
    let ws := b.waiting.filter (fun w => w.quire == some q)
    let s := s.setBlot c { b with
      closed := b.closed.erase q
      recs := b.recs.filter (fun r => r.quire != q)
      waiting := b.waiting.filter (fun w => w.quire != some q) }
    let s := ls.foldl (fun s (o, l) => (s.fromDie o.g.core c l.va).setLane o.ser l.key .need) s
    let s := ws.foldl (fun s w => if w.src.source == 1 then s.fromDie w.src.unit c w.va else s) s
    (s.ctxCores c).foldl State.retryOps s

/-- STATUS of the record that a lane waits with. -/
def LanePh.status : LanePh → Nat
  | .quire _ cause => causeStatus cause
  | _ => stFaultXlate

/-- RESOLVE_ABORT: commands with an access on the quire complete with its record's status, and the context is aborted with that
of the first record. -/
def State.resolveAbort (s : State) (c q : Nat) : State :=
  let b := s.blot c
  if !b.closed.contains q then s.resolveErr c
  else
    let st := match b.recs.find? (fun r => r.quire == q) with
      | some r => r.status
      | none => stFaultXlate
    let lanes := (s.lanesIn c (LanePh.onQuire q)).map (fun e => (e.1.cmd, e.2.ph.status))
    let ws := b.waiting.filter (fun w => w.quire == some q)
    let s := s.failAll (lanes ++ ws.filterMap (fun w => w.src.cmd.map (fun id => (id, causeStatus w.cause))))
    let s := (ws.filter (fun w => w.src.cmd.isNone)).foldl (fun s w => s.failWait w (causeStatus w.cause)) s
    s.abortCtx c st

/-- A fault of a context enters the blotter now: it merges, or a record is free (R249). -/
def State.blotTakes (s : State) (c va cause acc : Nat) : Bool :=
  !s.blotFull c || (s.blot c).recs.any (fun r => r.page == va / 4096 && r.cause == cause && r.acc == acc % 16)

/-- A stalled lane, and a stalled access of an engine, a clerk or a transfer, enter the blotter where they may (R249). -/
def State.reenter (c : Nat) (s : State) (e : MemOp × LaneAcc) : State :=
  match e.2.ph with
  | .stalled cause level => if s.blotTakes c e.2.va cause e.1.op.access then s.faultLane e.1 e.2 cause level else s
  | _ => s
def State.reenterWait (c : Nat) (s : State) (w : BWait) : State :=
  if !s.blotTakes c w.va w.cause w.acc then s
  else
    let (s, q) := s.blotFault c w.va w.cause w.level w.acc w.src
    s.setBlot c { s.blot c with waiting := (s.blot c).waiting.map (fun x => if x == w then { w with quire := q } else x) }

/-- A TAIL write would move TAIL before its value or past HEAD (R248). -/
def State.tailBad (s : State) (c tail : Nat) : Bool :=
  let t := s.rd F.XLT_BLOT_PTR_TAIL c
  decide ((s.rd F.XLT_BLOT_PTR_HEAD c + 8192 - t) % 8192 < (tail + 8192 - t) % 8192) || decide (8192 ≤ tail)

/-- BLOTTER_TAIL_WRITE (R248, R249). -/
def State.tailWrite (s : State) (c tail : Nat) : State :=
  if s.tailBad c tail then s.wr F.XLT_BLOT_PTR_PTR_ERR 1 c
  else
    let s := s.wr F.XLT_BLOT_PTR_TAIL tail c
    let s := s.wr F.XLT_BLOT_PTR_FULL (b2n (s.blotFull c)) c
    let s := (s.lanesIn c (fun p => match p with | .stalled _ _ => true | _ => false)).foldl (State.reenter c) s
    ((s.blot c).waiting.filter (fun w => w.quire.isNone)).foldl (State.reenterWait c) s

/-- QUIRE_TIMEOUT: 20 us have passed since the open quire's first record (R246). -/
def State.quireTimeout (s : State) (c : Nat) : State := s.closeQuire c true

/-- XLT_CTX.EN set: quire numbers count from 0 (R246); HEAD stays. -/
def State.xltEnable (s : State) (c : Nat) : State :=
  (s.wr F.XLT_CTX_EN 1 c).setBlot c ⟨0, none, s.rd F.XLT_BLOT_PTR_HEAD c, [], [], []⟩

/-- XLT_CTX_DISABLE: cached translations and quires of the slot go; waiting accesses abort the context (R470). -/
def State.xltDisable (s : State) (c : Nat) : State :=
  if !s.on F.XLT_CTX_EN c then s
  else
    let s := s.wr F.XLT_CTX_EN 0 c
    let ls := s.lanesIn c (fun p => match p with | .stalled _ _ => true | .quire _ _ => true | _ => false)
    let ws := (s.blot c).waiting
    let walking := (s.xlt.walks.filter (fun w => w.ctx == c)).flatMap (fun w => match w.place with
      | .micro core => s.walkLanes w core
      | _ => [])
    let s := ls.foldl (fun s (o, _) => s.failWhole o.cmd stFaultXlate) s
    let s := ws.foldl (fun s w => s.failWait w stFaultXlate) s
    let s := if ls.isEmpty && ws.isEmpty then s else s.abortCtx c stFaultXlate
    walking.foldl (fun s e => s.tryLane e.1 e.2) ((s.dropQuires c).dropXlt c)

/-! ### The rows -/

/-- WALK_STEP (R230, R235). -/
def execWalkStep (die idx : Nat) (s : State) : Host.Outcome State Fault Refusal :=
  .next (match s.walkAt die idx with
    | some w => s.walkStep w
    | none => s)
/-- QUIRE_TIMEOUT (R246). -/
def execQuireTimeout (c : Nat) (s : State) : Host.Outcome State Fault Refusal := .next (s.quireTimeout c)
/-- HTU_RESPONSE (R236). -/
def execHtuResponse (die idx : Nat) (ans : HtuAns) (s : State) : Host.Outcome State Fault Refusal :=
  .next (match s.walkAt die idx with
    | some w => if w.ph == .htu then s.htuAnswer w ans else s
    | none => s)
/-- HTU_INVALIDATE (R237). -/
def execHtuInvalidate (pasid va pages tag : Nat) (s : State) : Host.Outcome State Fault Refusal :=
  .next (s.htuInv pasid va pages tag)
/-- INV_RANGE (R240, R243). -/
def execInvRange (c size count : Nat) (irq : Bool) (s : State) : Host.Outcome State Fault Refusal :=
  .next (s.invRange c size count irq)
/-- INV_CONTEXT (R240, R243). -/
def execInvContext (c : Nat) (irq : Bool) (s : State) : Host.Outcome State Fault Refusal := .next (s.invContexts [c] irq)
/-- INV_ALL (R240, R243). -/
def execInvAll (irq : Bool) (s : State) : Host.Outcome State Fault Refusal := .next (s.invContexts (List.range 64) irq)
/-- INV_COMPLETE (R241). -/
def execInvComplete (s : State) : Host.Outcome State Fault Refusal := .next s.invComplete
/-- RESOLVE_RETRY (R247). -/
def execResolveRetry (c q : Nat) (s : State) : Host.Outcome State Fault Refusal := .next (s.resolveRetry c q)
/-- RESOLVE_ABORT (R247). -/
def execResolveAbort (c q : Nat) (s : State) : Host.Outcome State Fault Refusal := .next (s.resolveAbort c q)
/-- BLOTTER_TAIL_WRITE (R248). -/
def execBlotterTailWrite (c tail : Nat) (s : State) : Host.Outcome State Fault Refusal := .next (s.tailWrite c tail)
/-- XLT_CTX_DISABLE (R470). -/
def execXltCtxDisable (c : Nat) (s : State) : Host.Outcome State Fault Refusal := .next (s.xltDisable c)

end Sys2Proof.Machine
end

