-- ==== Sys2Proof/Machine/RegWrite.lean ====
section
/-! DEFINITION. Accesses to the host register aperture (24_register_index.md R461-R467; 00_scope.md R9, R10): which register an offset
names, what a write does to it by its access codes, what else it starts, and what a read returns. -/

namespace Sys2Proof.Machine

open Sys2Proof

/-! ### Which register (R461-R463, R466) -/

/-- A register instance and the byte of it that an offset names. -/
structure RegAt where
  reg : Reg
  i : Nat
  j : Nat
  byte : Nat
  deriving DecidableEq, Repr

/-- An offset from a register's first instance, within one copy of its window. -/
def RegDesc.at_ (d : RegDesc) (n rel : Nat) : Option (Nat × Nat × Nat) :=
  let i := if d.s1 = 0 then 0 else rel / d.s1
  let r := rel - d.s1 * i
  let j := if d.s2 = 0 then 0 else r / d.s2
  let b := r - d.s2 * j
  if i < n && j < d.n2 && b < d.bytes then some (i, j, b) else none

/-- Instances that a window of 151 sets or of several kinds leaves out: TAL_CYC and TAL_SMP have core sets only, and a port's
set has four counters (20_tally_and_ledger.md R399). -/
def regExists (r : Reg) (i j : Nat) : Bool :=
  match r with
  | .TAL_CYC => i % 151 < 128
  | .TAL_SMP => i % 151 < 128
  | .TAL_SEL => j < setCounters (i % 151)
  | .TAL_CNT => j < setCounters (i % 151)
  | _ => true

/-- A register at an offset, if it is this one. -/
def Reg.find (r : Reg) (off : Nat) : Option RegAt :=
  let d := r.desc
  if d.perDie = 0 then
    if off < d.base || 0x4000000 ≤ off then none
    else (d.at_ d.n1 (off - d.base)).map (fun (i, j, b) => ⟨r, i, j, b⟩)
  else if off < 0x4000000 || 0x10000000 ≤ off then none
  else
    let die := (off - 0x4000000) / 0x3000000
    let rel := off - 0x4000000 - 0x3000000 * die
    if rel < d.base then none
    else (d.at_ d.perDie (rel - d.base)).map (fun (i, j, b) => ⟨r, die * d.perDie + i, j, b⟩)

/-- The primary place of DBG_BP and DBG_WP of context slots 0 to 15 is another name (R466). -/
def dbgAlias (off : Nat) : Nat := if 0x41000 ≤ off && off < 0x42000 then off + 0xF000 else off

/-- The register at an offset. -/
def regAt (off : Nat) : Option RegAt :=
  match Reg.all.findSome? (fun r => r.find (dbgAlias off)) with
  | some a => if regExists a.reg a.i a.j then some a else none
  | none => none

/-! ### Access codes (00_scope.md Table 0.2) -/

/-- A field after a write of `v` to the bits of `m`. -/
def Field.write (f : Field) (old v m : W64) : W64 :=
  let k := BitVec.ofNat 64 ((2 ^ f.wid - 1) * 2 ^ f.lo) &&& m
  match f.acc with
  | .ro => old
  | .wo => old
  | .rw => (old &&& ~~~k) ||| (v &&& k)
  | .w1c => old &&& ~~~(v &&& k)
  | .w1s => old ||| (v &&& k)

/-- A register after a write: fields by their codes; reserved bits stay (DEDUCED, log 11). -/
def RegDesc.write (d : RegDesc) (old v m : W64) : W64 := d.fields.foldl (fun x f => f.write x v m) old

/-- A reserved encoding of a field that software writes reads zero (00_scope.md R10). -/
def fixEnc (r : Reg) (i : Nat) (v : W64) : W64 :=
  match r with
  | .TAL_SEL => if eventListed (i % 151) (bitsOf v.toNat 0 12) then v else v &&& ~~~0xFFF#64
  | .LED_CFG => if bitsOf v.toNat 1 2 == 3 then v &&& ~~~0x6#64 else v
  | .LED_TRIG => if bitsOf v.toNat 4 2 == 3 then v &&& ~~~0x30#64 else v
  | .DBG_SEL => if 6 ≤ bitsOf v.toNat 20 3 then v &&& ~~~0x700000#64 else v
  | _ => v

/-- The bits of a register that a read shows: its fields, but those that read zero. -/
def RegDesc.shown (d : RegDesc) : W64 :=
  d.fields.foldl (fun x f => if f.acc == .wo then x else x ||| BitVec.ofNat 64 ((2 ^ f.wid - 1) * 2 ^ f.lo)) 0

/-! ### Writes -/

/-- A field of a written value. -/
def fieldOf (a : W64) (lo wid : Nat) : Nat := bitsOf a.toNat lo wid

/-- DBG_HALT (21_debug.md Table 21.1). -/
def State.dbgHalt (s : State) (a : W64) : State :=
  let g : Gid := ⟨fieldOf a 0 9, fieldOf a 9 6⟩
  let c := fieldOf a 16 6
  match fieldOf a 22 3 with
  | 0 => s.onGroup c g Group.halted
  | 1 => s.onGroup c g Group.resumed
  | 2 => s.onGroup c g Group.stepped
  | 3 => s.onAll c Group.halted
  | 4 => s.onAll c Group.resumedAll
  | _ => s

/-- RST_UNIT of a die (18_reset.md R371). The UCIe modules come last: the loss of both resets the module. -/
def State.unitWrite (s : State) (d : Nat) (a : W64) : State :=
  let s := (bitNumbers 16 (fieldOf a 0 16)).foldl (fun s c => s.rstCluster (16 * d + c)) s
  let s := (bitNumbers 4 (fieldOf a 16 4)).foldl (fun s k => s.rstClerk (4 * d + k)) s
  let s := (bitNumbers 4 (fieldOf a 20 4)).foldl (fun s k => s.rstHome (4 * d + k)) s
  let s := (bitNumbers 3 (fieldOf a 24 3)).foldl (fun s k => s.rstPort (3 * d + k)) s
  let s := if a.getLsbD 29 then s.rstDtc d else s
  let s := if a.getLsbD 30 then s.rstCopy d else s
  let s := if a.getLsbD 31 then s.rstSnap d else s
  let s := if a.getLsbD 32 then s.rstLedger d else s
  (bitNumbers 2 (fieldOf a 27 2)).foldl (fun s k => s.rstUcie (2 * d + k)) s

/-- XLT_INV_CMD (11_translation.md R240). -/
def State.invWrite (s : State) (a : W64) : State :=
  let irq := a.getLsbD 10
  if fieldOf a 8 2 = 3 then s.wr F.XLT_INV_STAT_DROP 1
  else match fieldOf a 6 2 with
  | 0 => s.invRange (fieldOf a 0 6) (fieldOf a 8 2) (fieldOf a 16 16) irq
  | 1 => s.invContexts [fieldOf a 0 6] irq
  | 2 => s.invContexts (List.range 64) irq
  | _ => s.wr F.XLT_INV_STAT_DROP 1

/-- A field that a rule keeps takes its old value. -/
def State.keepFld (p s : State) (f : Fld) (i : Nat) : State := p.wr f (s.rd f i) i

/-- An enable bit written: `p` holds the other fields as written; a change of EN runs `up` or `down` from its old value. -/
def State.enWrite (p s : State) (f : Fld) (i : Nat) (up down : State → State) : State :=
  if s.on f i == p.on f i then p
  else if p.on f i then up (p.wr f 0 i) else down (p.wr f 1 i)

/-- A register of a software queue, whose fields ignore writes while the queue does not exist (13_command_submission.md
"Registers"; 14_synchronisation.md R304) (DEDUCED, log 66). -/
def swqReg : Reg → Bool
  | .SWQ_CTL => true
  | .SWQ_STAT => true
  | .SWQ_CMPL => true
  | .SWQ_ERRSEQ => true
  | .SWQ_PAIR => true
  | .SWQ_STK => true
  | _ => false

/-- A write that a register ignores in this state: fields of a queue that does not exist; SYNC_BASE while a context is not FREE
(14_synchronisation.md R293); XLT_PASID and XLT_BLOT while EN is 1 (11_translation.md "Registers"). -/
def State.writeIgnored (s : State) (r : Reg) (i : Nat) : Bool :=
  (swqReg r && (s.swq i).isNone)
  || (r == .SYNC_BASE && (List.range 64).any (fun c => s.ctxState c != ctxFree))
  || ((r == .XLT_PASID || r == .XLT_BLOT) && s.on F.XLT_CTX_EN i)

/-- A write of `v` to the bits of `m` of a register: its fields by their codes, and what the register's chapter says the write
starts. A field of a command that the access does not cover acts as written with zero (R464) (DEDUCED, log 11). -/
def State.regWrite (s : State) (src : Src) (r : Reg) (i j : Nat) (v m : W64) : State :=
  let a := v &&& m
  let s := if r == .TAL_CTL || r == .TAL_SEL then s.catchUp (i / 151) (i % 151) else s
  let p := s.setReg r i j (fixEnc r i (r.desc.write (s.reg r i j) v m))
  if s.writeIgnored r i then s else
  match r with
  | .FOLIO_CTL => if a.getLsbD 0 then p.folioLoad (p.on F.FOLIO_CTL_FORCE) (p.on F.FOLIO_CTL_PERSIST) else p
  | .QOS_ADJ => s.qosAdj i j (fieldOf a 0 8)
  | .WAY_ADJ => s.wayAdj i j (a.setWidth 16)
  | .STK_RETIRE => if a.getLsbD 32 then p.retireAck i else p
  | .AGENT_DEAD => (bitNumbers 64 a.toNat).foldl (fun s n => if 64 * i + n < 84 then s.setDead (64 * i + n) else s) s
  | .XLT_CTX =>
    (if s.on F.XLT_CTX_EN i then p.keepFld s F.XLT_CTX_ROOT i else p).enWrite s F.XLT_CTX_EN i (fun s => s.xltEnable i)
      (fun s => s.xltDisable i)
  | .XLT_BLOT_PTR =>
    let t := p.rd F.XLT_BLOT_PTR_TAIL i
    if !m.getLsbD 16 then p
    else if s.tailBad i t then s.wr F.XLT_BLOT_PTR_PTR_ERR 1 i
    else (p.keepFld s F.XLT_BLOT_PTR_TAIL i).tailWrite i t
  | .XLT_RESOLVE =>
    if a.getLsbD 17 then s.resolveAbort i (fieldOf a 0 16)
    else if a.getLsbD 16 then s.resolveRetry i (fieldOf a 0 16) else s.resolveErr i
  | .XLT_INV_CMD => s.invWrite a
  | .OBJ_CMD => s.objPush a
  | .OBJ_BASE => if s.obj.mos.isEmpty then p else s
  | .GRAPH_STORE => if s.obj.graphs.isEmpty then p else s
  | .CTX_CFG => if s.ctxState i == ctxFree then p else s
  | .CTX_CSAVE => if s.ctxState i == ctxFree then p else s
  | .SWQ_DB => s.doorbell i (fieldOf a 0 32)
  | .SWQ_CTL =>
    let t := p.rd F.SWQ_CTL_TMO_MS i
    let p := if 1 ≤ t && t ≤ 3600000 then p else p.keepFld s F.SWQ_CTL_TMO_MS i
    if a.getLsbD 0 then p.swqResume i else p
  | .SWQ_CMPL => if m.getLsbD 0 then s.swqAck i (fieldOf a 0 32) else s
  | .CMPL_FB_CLR => if a.getLsbD 0 then p.fbClear i else p
  | .TL_SIG => s.hostSignal false i a.toNat
  | .NOTE_SIG => s.hostSignal true i (fieldOf a 0 32)
  | .HOST_WATCH_CTL => if a.getLsbD 0 then p.watchArm i else p
  | .INT_SRC_CTL => p.syncLevels
  | .INT_TGT_LO =>
    let old := (aget s.int.staged i).getD (s.reg .INT_TGT_LO i 0)
    s.stageLo i ((old &&& ~~~m) ||| a)
  | .INT_TGT_HI => s.commitMask i (p.rd F.INT_TGT_HI_TGT i)
  | .INT_EOI => s.eoi i (fieldOf a 0 11)
  | .INT_SWI => s.raise (0x600 + fieldOf a 0 8)
  | .FAB_STAMP_CTL => p.stampEval
  | .FAB_PORT_CTL =>
    let p := if s.rd F.FAB_PORT_STAT_STATE i == 0 then p else p.keepFld s F.FAB_PORT_CTL_DATELINE i
    let p := p.enWrite s F.FAB_PORT_CTL_EN i (fun s => s.portEnable i) (fun s => s.wr F.FAB_PORT_CTL_EN 0 i)
    if a.getLsbD 1 then p.portRetrain i else p
  | .REC_CTL => if p.rd F.REC_CTL_QUAR_THRESH = 0 then p.keepFld s F.REC_CTL_QUAR_THRESH 0 else p
  | .SNAP_CFG =>
    let p := p.enWrite s F.SNAP_CFG_EN i (fun s => s.snapEnable i) (fun s => s.snapDisable i)
    if a.getLsbD 1 then p.cutStart i else p
  | .SNAP_DESC => if s.on F.SNAP_CFG_EN i then s else p
  | .SNAP_ADOPT => if a.getLsbD 32 then p.adoptGo i (fieldOf a 0 32) (fieldOf a 40 24) else p
  | .SNAP_PUSH => if a.getLsbD 46 then p.pushGo i else p
  | .RST_PART => s.partAssert (a.setWidth 16)
  | .RST_CORE => (bitNumbers 64 a.toNat).foldl (fun s n => s.rstCore (64 * i + n)) s
  | .RST_UNIT => s.unitWrite i a
  | .PWR_LIMIT =>
    let p := (p.keepFld s F.PWR_LIMIT_WATTS 0).keepFld s F.PWR_LIMIT_CLK_MAX 0
    if m.getLsbD 0 then p.limitWrite (fieldOf a 0 12) (fieldOf a 16 12) else p
  | .PWR_GATE => if a.getLsbD 12 then p.gate (p.rd F.PWR_GATE_TARGET) (p.on F.PWR_GATE_GANG) (!p.on F.PWR_GATE_OP) else p
  | .TAL_CTL =>
    if s.on F.TAL_CTL_EN i then p else { p with tal := { p.tal with
      edge := p.tal.edge.filter (fun e => e.1 != i), slots := adel p.tal.slots i } }
  | .TAL_CYC => if s.on F.TAL_CTL_EN i then s else p
  | .TAL_CNT => if s.on F.TAL_CTL_EN i then s else p
  | .LED_CFG =>
    if s.on F.LED_CFG_EN i then (if p.on F.LED_CFG_EN i then s else s.ledDisable i)
    else p.enWrite s F.LED_CFG_EN i (fun s => s.ledEnable i) (fun s => s)
  | .LED_BASE => if s.on F.LED_CFG_EN i then s else p
  | .LED_TAGQ =>
    if s.on F.LED_CFG_EN i then s
    else
      let t := s.dieSetsReset p i
      t.setReg .LED_TAGQ i 0 (p.reg .LED_TAGQ i 0)
  | .LED_INT => p.newWindow i
  | .LED_START => p.newWindow i
  | .LED_TRIG =>
    let p := if a.getLsbD 0 then p.ledFire i else p
    if a.getLsbD 1 then p.ledArm i else p
  | .DBG_ATTACH =>
    let q := p.keepFld s F.DBG_ATTACH_EN i
    if !m.getLsbD 0 then q else if a.getLsbD 0 then q.attach src i else q.dbgDetach src i
  | .DBG_HALT => s.dbgHalt a
  | .DBG_DATA => s.dbgWrite ((BitVec.ofNat 64 s.dbgRead.1 &&& ~~~m) ||| a)
  | .DBG_LOCK =>
    let s := if a.getLsbD 4 then s.tokenSubmit else s
    if a.getLsbD 5 then s.relock else s
  | .DBG_TOK => s.setReg .DBG_TOK i 0 a
  | _ => p

/-- A write of one half, or of the whole, of the register at an offset (DEDUCED, log 11). -/
def State.writeAt (s : State) (src : Src) (off : Nat) (bytes : Nat) (v : W64) : State :=
  match regAt off with
  | none => s
  | some a => s.regWrite src a.reg a.i a.j (v <<< (8 * a.byte)) (BitVec.ofNat 64 ((2 ^ (8 * bytes) - 1) * 2 ^ (8 * a.byte)))

/-- The register at an offset is 4 bytes wide, or there is none (DEDUCED, log 11). -/
def narrowAt (off : Nat) : Bool :=
  match regAt off with
  | some a => a.reg.desc.bytes == 4
  | none => true

/-- A write to the aperture (R464): an access over two 4-byte registers acts on the lower one first. -/
def State.aperture (s : State) (src : Src) (off bytes : Nat) (v : W64) : State :=
  if bytes = 8 && off % 8 = 0 then
    if narrowAt off then (s.writeAt src off 4 (v &&& 0xFFFFFFFF)).writeAt src (off + 4) 4 (v >>> 32)
    else s.writeAt src off 8 v
  else if bytes = 4 && off % 4 = 0 then s.writeAt src off 4 (v &&& 0xFFFFFFFF)
  else s

/-! ### Reads -/

/-- A quarantined cluster's set reads zero (20_tally_and_ledger.md R401). -/
def State.talHidden (s : State) (n : Nat) : Bool :=
  match setCluster (n / 151) (n % 151) with
  | some cl => s.on F.REC_CNT_QUAR cl
  | none => false

/-- CAP_RET_DATA: the entry of a stack's persistent list that CAP_RET_SEL names (12_shared_objects.md). -/
def State.retEntry (s : State) : Nat :=
  match ((s.stk.retired.filter (fun e => e.1 == s.rd F.CAP_RET_SEL_STACK)).map (fun e => e.2))[s.rd F.CAP_RET_SEL_INDEX]? with
  | some g => g % 2 ^ 25 + 2 ^ 31
  | none => 0

/-- DBG_EVT: the head entry of a context's queue. -/
def State.evtWord (s : State) (c : Nat) : Nat :=
  let lost := s.rd F.DBG_EVT_LOST c * 2 ^ 32
  match s.evtHead c with
  | none => lost
  | some e => e.kind % 8 + b2n e.pending * 8 + b2n e.skip * 16 + e.core % 512 * 2 ^ 8 + e.slot % 64 * 2 ^ 17 + 2 ^ 23
      + e.aux % 256 * 2 ^ 24 + lost

/-- A register's value as a read returns it, where the read has no effect. -/
def State.regView (s : State) (r : Reg) (i j : Nat) : Nat :=
  let own := (s.reg r i j &&& r.desc.shown).toNat
  match r with
  | .CAP => s.capWord i
  | .CAP_RET_DATA => s.retEntry
  | .LS_SPLIT =>
    let core := 8 * i + j
    insNat own 4 9 (64 * (6 - s.l1Steps core) - (s.usedGran core).length)
  | .VC_STAT => insNat (insNat (insNat own 0 7 (s.vcCount i 0)) 8 7 (s.vcCount i 1)) 16 7 (s.vcCount i 2)
  | .HS_STAT => (s.trkUsed i).length + (s.coh.credq.filter (fun e => e.1 == i)).length * 2 ^ 16
      + b2n (s.coh.reclaim.any (fun e => e.1 == i)) * 2 ^ 32
  | .PART_ARITH => (match s.partDef i with
    | some d => d.arith.toNat % 8 + 256
    | none => 0)
  | .STAMP => s.stampOf 0
  | .DBG_EVT => s.evtWord i
  | .SEC_KEYHASH => leAt (s.sec.keyHash.getD i []) (8 * j) 8
  | .TAL_CTL => if s.talHidden i then 0 else own
  | .TAL_CYC => if s.talHidden i then 0 else own
  | .TAL_SMP => if s.talHidden i then 0 else own
  | .TAL_SEL => if s.talHidden i then 0 else own
  | .TAL_CNT => if s.talHidden i then 0 else own
  | _ => own

/-- A read of a register: its value, and the state after a read with an effect. -/
def State.regRead (s : State) (r : Reg) (i j : Nat) : Nat × State :=
  match r with
  | .INT_CLAIM => ((s.best i).getD 0x7FF, s.claim i)
  | .DBG_DATA => s.dbgRead
  | .DBG_EVT_PC => s.evtPop i
  | .TAL_CYC => let s := s.catchUp (i / 151) (i % 151); (s.regView r i j, s)
  | .TAL_CNT => let s := s.catchUp (i / 151) (i % 151); (s.regView r i j, s)
  | .STAMP => (s.stampOf 0, s.stampReadBy 0)
  | _ => (s.regView r i j, s)

/-- An 8-byte read of the aperture. -/
def State.readAt (s : State) (off : Nat) : Nat × State :=
  let one := fun (s : State) (off : Nat) => match regAt off with
    | none => (0, s)
    | some a => s.regRead a.reg a.i a.j
  if off % 8 != 0 then (0, s)
  else if narrowAt off then
    let (lo, s) := one s off
    let (hi, s) := one s (off + 4)
    (lo % 2 ^ 32 + hi % 2 ^ 32 * 2 ^ 32, s)
  else one s off

end Sys2Proof.Machine
end

