-- ==== Sys2Proof/Machine/HostIf.lean ====
section
/-! DEFINITION. What the host and the debug connector send: memory accesses and register writes over the UCIe host modules
(04_memory_model.md R98; 10_coherence.md R222; 18_reset.md R373; 24_register_index.md R465) and debug transactions
(23_connectors.md R456; 21_debug.md R429). -/

namespace Sys2Proof.Machine

open Sys2Proof

/-- The release sequence is over: RST_CAUSE.READY. -/
def State.hostReady (s : State) : Bool := s.on F.RST_CAUSE_READY

/-- The release sequence ended at a failed step. -/
def State.bootFailed (s : State) : Bool := s.rd F.RST_CAUSE_FAIL_STEP != 0

/-- A UCIe host module can deliver an access. -/
def State.moduleUp (s : State) (m : Nat) : Bool := m < 8 && s.rst.power && !s.rst.asserted && !s.rcv.ucie.contains m

/-- The offset lies in the RST window of the package, which answers before READY (R373). -/
def inRstWindow (off : Nat) : Bool := 0x23000 ≤ off && off < 0x24000

/-! ### Accesses in arrival order (R98) -/

/-- A memory access of a host module is under way at level B (DEDUCED, log 12). -/
def State.moduleBusy (s : State) (m : Nat) : Bool :=
  let r := 64 + m
  s.coh.bq.any (fun x => x.r == r) || s.coh.want.any (fun x => x.r == r)
  || s.coh.txns.any (fun t => !t.evict && t.msg.r == r) || s.coh.queued.any (fun t => t.msg.r == r)
  || s.coh.bn.any (fun n => match n with
    | .rdData r' _ _ _ _ => r' == r
    | .wrAck r' _ _ _ => r' == r
    | .retry x _ => x.r == r
    | _ => false)

/-- The die that an access addresses: that of its window or of its home. -/
def HeldAcc.target (a : HeldAcc) : Nat :=
  match a.op with
  | .reg off _ _ => if 0x4000000 ≤ off && off < 0x10000000 then (off - 0x4000000) / 0x3000000 else a.mod / 2
  | .mem m => homeOf m.line / 4

/-- The dies that an access and its answer cross: between diagonal dies each passes the die whose index is its sender's with bit 0
inverted (01_five_levels.md R21). -/
def HeldAcc.dies (a : HeldAcc) : List Nat :=
  let d := a.mod / 2
  if d ^^^ a.target == 3 then [d, d ^^^ 1, a.target, a.target ^^^ 1] else [d, a.target]

/-- Dies among them whose network-on-chip clock is stopped (R386, R465) (DEDUCED, log 12). -/
def State.asleep (s : State) (a : HeldAcc) : List Nat := a.dies.filter (fun d => s.on F.INT_ISL_STOPPED d)

/-- One access begins (DEDUCED, log 12). -/
def State.begin_ (s : State) (a : HeldAcc) : State :=
  match a.op with
  | .reg off bytes v => s.aperture (.host a.mod) off bytes v
  | .mem m => s.sendB m

/-- The first access of a module begins once nothing of the module is before it; then the next. -/
def State.pumpN (m : Nat) : Nat → State → State
  | 0, s => s
  | k + 1, s =>
    if !s.hostReady || s.moduleBusy m then s
    else match s.held.find? (fun a => a.mod == m) with
      | none => s
      | some a =>
        if (s.asleep a).isEmpty then State.pumpN m k (({ s with held := s.held.erase a }).begin_ a)
        else (s.asleep a).foldl (fun s d => s.wr F.INT_ISL_WAKING 1 d) s

def State.pumpMod (s : State) (m : Nat) : State := State.pumpN m s.held.length s

/-- Every module's accesses that can begin (DEDUCED, log 12). -/
def State.pumpMods (s : State) : State := (List.range 8).foldl (fun s m => s.pumpMod m) s

/-- How an access ends where the release sequence has failed (R373): reads of zero, writes without effect. -/
def State.voidAcc (s : State) (a : HeldAcc) : State :=
  match a.op with
  | .reg _ _ _ => s
  | .mem m =>
    let off := ((List.range 128).find? (fun i => m.mask.getLsbD i)).getD 0
    let n := ((List.range 128).filter (fun i => m.mask.getLsbD i)).length
    if m.req == .rdN then s.send (.hostData a.mod (128 * m.line + off) (List.replicate n 0) .none)
    else s.send (.hostAck a.mod (128 * m.line) false)

/-- An access arrives on a module (DEDUCED, log 12) (DESIGN CHOICE, log 60). -/
def State.arrive (s : State) (a : HeldAcc) : State :=
  if s.bootFailed then s.voidAcc a
  else if s.rst.step < 8 then s
  else (({ s with held := s.held ++ [a] }).useModule a.mod).pumpMod a.mod

/-- The line requests of a host access: a full line is WrF, a partial one WrP, a read RdN (R222). -/
def hostReq (q : Nat → BReq) (mod key pa : Nat) (data : List Byte) : List HeldAcc :=
  (recvSplit pa data).map (fun (lo, l) =>
    ⟨mod, .mem ⟨q l.length, 64 + mod, lo / 128, 3, false, key, BitVec.ofNat 128 ((2 ^ l.length - 1) * 2 ^ (lo % 128)),
      BitVec.ofNat 1024 (leNat l * 2 ^ (8 * (lo % 128))), [], 0, .none⟩⟩)

/-- HOST_WRITE. -/
def State.hostWrite (s : State) (mod key pa : Nat) (data : List Byte) : State :=
  if s.moduleUp mod then
    (hostReq (fun n => if n = 128 then .wrF else .wrP) mod key pa data).foldl (fun (s : State) a => s.arrive a) s
  else s

/-- HOST_READ. -/
def State.hostRead (s : State) (mod key pa len : Nat) : State :=
  if s.moduleUp mod then
    (hostReq (fun _ => .rdN) mod key pa (List.replicate len 0)).foldl (fun (s : State) a => s.arrive a) s
  else s

/-! ### Register writes (00_scope.md R9, R10) -/

/-- A host module's register write. -/
def State.hostRegister (s : State) (m off bytes : Nat) (v : W64) : State :=
  if !s.moduleUp m || s.rst.step < 8 then s
  else if inRstWindow off then (s.useModule m).aperture (.host m) off bytes v
  else s.arrive ⟨m, .reg off bytes v⟩

/-- What the debug connector reaches (21_debug.md R429): locked, DBG_LOCK, DBG_CHAL and DBG_TOK; unlocked, the DBG window, and
with FULL everything (DEDUCED, log 53). -/
def State.connectorReach (s : State) (off : Nat) : Bool :=
  if s.rd F.DBG_LOCK_STATE == 2 then s.on F.DBG_LOCK_FULL || (0x40000 ≤ off && off < 0x60000)
  else (0x44000 ≤ off && off < 0x44018) || (0x44100 ≤ off && off < 0x441A8)

/-- The connector can be served: the module has power and is out of reset (DEDUCED, log 53). -/
def State.connectorUp (s : State) : Bool := s.rst.power && !s.rst.asserted

/-- A register write from either side. -/
def State.registerWrite (s : State) (src : Src) (off bytes : Nat) (v : W64) : State :=
  match src with
  | .host m => s.hostRegister m off bytes v
  | .connector => if s.connectorUp && s.connectorReach off then s.aperture .connector off bytes v else s

/-- The offset of instance `i` of a package register. -/
def RegDesc.off (d : RegDesc) (i : Nat) : Nat := d.base + i * d.s1

/-- An access of a module has nothing before it and may begin at once. -/
def State.goesNow (s : State) (a : HeldAcc) : Bool :=
  s.moduleUp a.mod && 8 ≤ s.rst.step && !s.bootFailed && s.hostReady && !s.moduleBusy a.mod && s.held.all (fun b => b.mod != a.mod)
    && (s.asleep a).isEmpty

/-- A row that is a write of a register of the CMD window: its effect `f`, in its order among the accesses of its module (R98). -/
def State.cmdWrite (s : State) (src : Src) (off bytes : Nat) (v : W64) (f : State → State) : State :=
  match src with
  | .connector => if s.connectorUp && s.connectorReach off then f s else s
  | .host m => if s.goesNow ⟨m, .reg off bytes v⟩ then f (s.useModule m) else s.hostRegister m off bytes v

/-! ### Debug transactions (R456) -/

/-- DBG_TRANSACTION: its answer is an acknowledgement (0 done, 1 refused by the lock, 2 malformed) and the value read
(DEDUCED, log 53). -/
def State.dbgTransaction (s : State) (op off : Nat) (v : W64) : State :=
  if !s.connectorUp then s
  else if (op != 1 && op != 2) || off % 8 != 0 then s.send (.debug 2 0)
  else if !s.connectorReach off then s.send (.debug 1 0)
  else if op == 1 then
    let (x, s) := s.readAt off
    s.send (.debug 0 (BitVec.ofNat 64 x))
  else (s.aperture .connector off 8 v).send (.debug 0 0)

/-! ### Answers -/

/-- RDDATA (R222): the host gets the bytes it asked for, none where the line is poisoned (DEDUCED, log 54). -/
def State.takeRdData (s : State) (r ln : Nat) : State :=
  match s.coh.bn.find? (fun n => match n with
    | .rdData r' ln' _ _ _ => r' == r && ln' == ln
    | _ => false) with
  | some (.rdData r' ln' pk pa data) =>
    let s := { s with coh := { s.coh with bn := s.coh.bn.erase (.rdData r' ln' pk pa data) } }
    if 64 ≤ r && r < 72 then
      (s.send (.hostData (r - 64) pa (if pk == .none then data else []) pk)).pumpMod (r - 64)
    else s
  | _ => s

/-- WRACK (R222): a write is performed; the host's acknowledgement, or what a transfer's target does next (DEDUCED, log 54). -/
def State.wrAckAt (s : State) (r ln : Nat) : State :=
  match s.takeWrAck r ln with
  | (s, none) => s
  | (s, some (pk, op)) =>
    if 64 ≤ r && r < 72 then (s.send (.hostAck (r - 64) (128 * ln) (pk != .none))).pumpMod (r - 64)
    else if 72 ≤ r then s.recvWrAck op pk
    else s

/-! ### The steps that let held accesses go -/

/-- RESET_RELEASE_STEP. -/
def State.bootNext (s : State) (ok : Bool) : State :=
  let s := s.releaseStep ok
  if s.bootFailed then s.held.foldl (fun (s : State) a => s.voidAcc a) { s with held := [] }
  else if s.hostReady then s.pumpMods
  else s

/-! ### The commands -/

/-- REGISTER_WRITE (00_scope.md R9, R10). -/
def execRegisterWrite (src : Src) (off bytes : Nat) (val : W64) (s : State) : Host.Outcome State Fault Refusal :=
  .next (s.registerWrite src off bytes val)
/-- TL_SIG (14_synchronisation.md R299, R302). -/
def execTlSig (src : Src) (tl : Nat) (v : W64) (s : State) : Host.Outcome State Fault Refusal :=
  .next (if tl < 4096 then s.cmdWrite src (RegTable.TL_SIG.off tl) 8 v (fun s => s.hostSignal false tl v.toNat) else s)
/-- NOTE_SIG (14_synchronisation.md R299, R302). -/
def execNoteSig (src : Src) (n : Nat) (c : W32) (s : State) : Host.Outcome State Fault Refusal :=
  .next (if n < 65536 then s.cmdWrite src (RegTable.NOTE_SIG.off n) 8 (c.setWidth 64) (fun s => s.hostSignal true n c.toNat) else s)
/-- WATCH_ARM (14_synchronisation.md R303): KIND, INDEX and HOST_WATCH_VAL as they stand. -/
def execWatchArm (src : Src) (w : Nat) (s : State) : Host.Outcome State Fault Refusal :=
  .next (if w < 256 then s.cmdWrite src (RegTable.HOST_WATCH_CTL.off w) 4 ((s.reg .HOST_WATCH_CTL w 0 &&& 0xFFFF02) ||| 1)
    (fun s => s.watchArm w) else s)
/-- An access of a module reaches an address that 11_translation.md Table 11.1 (R228) reserves: it is delivered, and the
release sequence has not failed, which would end it without effect (18_reset.md R373). -/
def State.reaches (s : State) (m top : Nat) : Bool :=
  decide (stackTop < top) && s.moduleUp m && decide (8 ≤ s.rst.step) && !s.bootFailed

/-- HOST_WRITE (04_memory_model.md R98). -/
def execHostWrite (mod key pa : Nat) (data : List Byte) (s : State) : Host.Outcome State Fault Refusal :=
  if s.reaches mod (pa + data.length) then .fault .reservedAddress else .next (s.hostWrite mod key pa data)
/-- HOST_READ (10_coherence.md R222). -/
def execHostRead (mod key pa len : Nat) (s : State) : Host.Outcome State Fault Refusal :=
  if s.reaches mod (pa + len) then .fault .reservedAddress else .next (s.hostRead mod key pa len)
/-- RDDATA (10_coherence.md R222). -/
def execRddata (r ln : Nat) (s : State) : Host.Outcome State Fault Refusal :=
  .next (s.crossing r (homeOf ln) false (fun s => s.takeRdData r ln))
/-- WRACK (10_coherence.md R222). -/
def execWrack (r ln : Nat) (s : State) : Host.Outcome State Fault Refusal :=
  .next (s.crossing r (homeOf ln) false (fun s => s.wrAckAt r ln))
/-- RESET_RELEASE_STEP (18_reset.md R373). -/
def execResetReleaseStep (ok : Bool) (s : State) : Host.Outcome State Fault Refusal := .next (s.bootNext ok)
/-- NOC_CLOCK_START (19_power_and_clocks.md R386). -/
def execNocClockStart (d : Nat) (s : State) : Host.Outcome State Fault Refusal := .next (s.nocStart d).pumpMods
/-- DBG_TRANSACTION (23_connectors.md R456). -/
def execDbgTransaction (op off : Nat) (data : W64) (s : State) : Host.Outcome State Fault Refusal :=
  .next (s.dbgTransaction op off data)

end Sys2Proof.Machine
end

