-- ==== Sys2Proof/Machine/Memory.lean ====
section
/-! DEFINITION. The memory instructions of 04_memory_model.md and the accumulate-on-write of 08_berim_stacks.md R179. -/

namespace Sys2Proof.Machine

open Sys2Proof

/-- LD (R88). -/
def execLd (g : Gid) (rd ra size : Nat) (sp : Space) (found : Found) (s : State) : Host.Outcome State Fault Refusal :=
  .next (s.load g .grp false rd ra size sp found)

/-- ST (R88). -/
def execSt (g : Gid) (ra rs size : Nat) (sp : Space) (found : Found) (s : State) : Host.Outcome State Fault Refusal :=
  .next (s.store g .grp false ra rs size sp found)

/-- LD.ACQ (R92). -/
def execLdAcq (g : Gid) (sc : Scope) (rd ra size : Nat) (sp : Space) (s : State) : Host.Outcome State Fault Refusal :=
  .next (s.load g sc true rd ra size sp .none)

/-- ST.REL (R92). -/
def execStRel (g : Gid) (sc : Scope) (ra rs size : Nat) (sp : Space) (s : State) : Host.Outcome State Fault Refusal :=
  .next (s.store g sc true ra rs size sp .none)

/-- FENCE (R92). -/
def execFence (g : Gid) (sc : Scope) (s : State) : Host.Outcome State Fault Refusal := .next (s.fenceOp g sc)

/-- FENCE.SC (R92): the steps of the model are one total order. -/
def execFenceSc (g : Gid) (sc : Scope) (s : State) : Host.Outcome State Fault Refusal := .next (s.fenceOp g sc)

/-- ATOM.ADD (R95). -/
def execAtomAdd (g : Gid) (ty : AtomTy) (ord : MemOrd) (sc : Scope) (sp : Space) (rd ra rs : Nat) (s : State) :
    Host.Outcome State Fault Refusal := .next (s.atom g aAdd ty ord sc sp rd ra rs none)

/-- ATOM.MIN (R95). -/
def execAtomMin (g : Gid) (ty : AtomTy) (ord : MemOrd) (sc : Scope) (sp : Space) (rd ra rs : Nat) (s : State) :
    Host.Outcome State Fault Refusal := .next (s.atom g aMin ty ord sc sp rd ra rs none)

/-- ATOM.MAX (R95). -/
def execAtomMax (g : Gid) (ty : AtomTy) (ord : MemOrd) (sc : Scope) (sp : Space) (rd ra rs : Nat) (s : State) :
    Host.Outcome State Fault Refusal := .next (s.atom g aMax ty ord sc sp rd ra rs none)

/-- ATOM.AND (R95). -/
def execAtomAnd (g : Gid) (ty : AtomTy) (ord : MemOrd) (sc : Scope) (sp : Space) (rd ra rs : Nat) (s : State) :
    Host.Outcome State Fault Refusal := .next (s.atom g aAnd ty ord sc sp rd ra rs none)

/-- ATOM.OR (R95). -/
def execAtomOr (g : Gid) (ty : AtomTy) (ord : MemOrd) (sc : Scope) (sp : Space) (rd ra rs : Nat) (s : State) :
    Host.Outcome State Fault Refusal := .next (s.atom g aOr ty ord sc sp rd ra rs none)

/-- ATOM.XOR (R95). -/
def execAtomXor (g : Gid) (ty : AtomTy) (ord : MemOrd) (sc : Scope) (sp : Space) (rd ra rs : Nat) (s : State) :
    Host.Outcome State Fault Refusal := .next (s.atom g aXor ty ord sc sp rd ra rs none)

/-- ATOM.EXCH (R95). -/
def execAtomExch (g : Gid) (ty : AtomTy) (ord : MemOrd) (sc : Scope) (sp : Space) (rd ra rs : Nat) (s : State) :
    Host.Outcome State Fault Refusal := .next (s.atom g aExch ty ord sc sp rd ra rs none)

/-- ATOM.CAS (R95): operand 1 in `rs`, operand 2 in `rt`. -/
def execAtomCas (g : Gid) (ty : AtomTy) (ord : MemOrd) (sc : Scope) (sp : Space) (rd ra rs rt : Nat) (s : State) :
    Host.Outcome State Fault Refusal := .next (s.atom g aCas ty ord sc sp rd ra rs (some rt))

/-- RED.ADD (08_berim_stacks.md R179). -/
def execRedAdd (g : Gid) (ty : RedTy) (sp : Space) (ra rs : Nat) (s : State) : Host.Outcome State Fault Refusal :=
  .next (s.redOp g .add ty sp ra rs)

/-- RED.MAX (08_berim_stacks.md R179). -/
def execRedMax (g : Gid) (ty : RedTy) (sp : Space) (ra rs : Nat) (s : State) : Host.Outcome State Fault Refusal :=
  .next (s.redOp g .max ty sp ra rs)

/-- RED.MIN (08_berim_stacks.md R179). -/
def execRedMin (g : Gid) (ty : RedTy) (sp : Space) (ra rs : Nat) (s : State) : Host.Outcome State Fault Refusal :=
  .next (s.redOp g .min ty sp ra rs)

end Sys2Proof.Machine
end

