-- ==== Sys2Proof/Machine/Security.lean ====
section
/-! DEFINITION. The warden's management interfaces (22_security_and_management.md): firmware update and recovery, attestation, PLDM and
calibration. Answers leave as messages with a code of the model's own (log 40); formats of MCTP, PLDM and SPDM are those of their own
documents, and an answer's body holds the content that the spec gives it. -/

namespace Sys2Proof.Machine

open Sys2Proof

/-! ### Answers -/

/-- Codes of an answer: done, ALREADY_IN_UPDATE_MODE, ERROR_NOT_READY, any other refusal (PRESUMED, log 40). -/
abbrev mgOk : Nat := 0
abbrev mgUpdating : Nat := 1
abbrev mgNotReady : Nat := 2
abbrev mgError : Nat := 3

/-- An answer of the warden (PRESUMED, log 40). -/
def State.reply (s : State) (code : Nat) (body : List Byte) : State := s.send (.mgmt code body)

/-- The module is in recovery (R438). -/
def State.recovering (s : State) : Bool := s.rd F.SEC_FW_STATE == 2

/-- The warden answers a request that is not of those it answers in recovery. -/
def State.serves (s : State) : Bool := s.rst.power && !s.recovering

/-! ### Firmware update and recovery (R438, R439) -/

/-- REQUEST_UPDATE. -/
def State.requestUpdate (s : State) : State :=
  if !s.serves || s.rst.asserted then s
  else if s.rd F.SEC_FW_STATE == 1 then s.reply mgUpdating []
  else (s.fwState 1).reply mgOk []

/-- FW_IMAGE_VERIFY: the whole image has been received. Its flash write begins, or waits for a folio write (Table 22.3); an
image that fails is not written, and the update is over. -/
def State.imageVerify (s : State) (img : List Byte) : State :=
  if !s.serves || s.rd F.SEC_FW_STATE != 1 || s.sec.writing != 0 then s
  else if s.imageOk img then
    { s with sec := { s.sec with received := some img, writing := if s.rd F.FOLIO_STAT_PHASE == phPersist then 1 else 2 } }.reply mgOk []
  else (s.fwState 0).reply mgError []

/-- FW_FLASH_WRITE_DONE: ApplyComplete; PENDING is set. -/
def State.flashDone (s : State) : State :=
  match s.sec.received with
  | none => s
  | some img =>
    if s.sec.writing != 2 then s
    else
      let s := { s with sec := { s.sec with image := img, received := none, writing := 0 } }
      (((s.wr F.SEC_FW_PENDING 1).wr F.SEC_FW_STATE 0).raise 0x030).reply mgOk []

/-- FW_RECOVERY_FETCH: K0 checks what it fetched; an image that passes is written and the release goes on at step 7; else K0
fetches again (DESIGN CHOICE, log 63). -/
def State.recoveryFetch (s : State) (img : List Byte) : State :=
  if !s.recovering || s.rst.asserted || s.rst.step != 6 then s
  else if s.imageOk img then ({ s with sec := { s.sec with image := img, fetching := false } }).fwState 0
  else { s with sec := { s.sec with fetching := true } }

/-- FW_RECOVERY_TIMEOUT. -/
def State.recoveryTimeout (s : State) : State :=
  if !s.recovering || s.rst.asserted || s.rst.step != 6 then s else { s with sec := { s.sec with fetching := true } }

/-! ### Attestation (R440, R441) -/

/-- Request codes of SPDM 1.3 in the transcript. -/
abbrev spVersion : Byte := 0x84
abbrev spCaps : Byte := 0xE1
abbrev spAlgs : Byte := 0xE3
abbrev spDigests : Byte := 0x81
abbrev spCert : Byte := 0x82
abbrev spChallenge : Byte := 0x83
abbrev spMeas : Byte := 0xE0

/-- An SPDM request answered where the negotiation has reached `need`; it then stands at `next`, and the exchange is recorded
(PRESUMED, log 40). -/
def State.spdmAnswer (s : State) (req : Byte) (need next : Nat) (body : List Byte) : State :=
  if !s.serves then s
  else if s.sec.spdm < need then s.reply mgError []
  else ({ s with sec := { s.sec with
    spdm := next, transcript := (if need = 0 then [] else s.sec.transcript) ++ [req] ++ body } }).reply mgOk body

/-- NEGOTIATE_ALGORITHMS: Ed448 (bit 11 of BaseAsymAlgo) and SHA3-512 (bit 5 of BaseHashAlgo) only. -/
def State.spdmAlgs (s : State) (base hash : Nat) : State :=
  if !s.serves then s
  else if bitsOf base 11 1 = 0 || bitsOf hash 5 1 = 0 then s.reply mgError []
  else s.spdmAnswer spAlgs 2 3 (leBytes 4 0x800 ++ leBytes 4 0x20)

/-- The chain of slot 0 (R434). -/
def chain0 : List Byte := Config.certChain 0

/-- GET_CERTIFICATE. -/
def State.spdmCert (s : State) (slot off len : Nat) : State :=
  if !s.serves then s
  else if slot != 0 || chain0.length < off then s.reply mgError []
  else s.spdmAnswer spCert 3 3 ((chain0.drop off).take len)

/-- A response that ends in a signature under the identity key over the exchange and the response. -/
def State.spdmSigned (s : State) (req : Byte) (nonce body : List Byte) : State :=
  if !s.serves then s
  else if s.sec.spdm < 3 then s.reply mgError []
  else
    let sig := Config.ed448Sign 0 (s.sec.transcript ++ [req] ++ nonce ++ body)
    ({ s with sec := { s.sec with transcript := [] } }).reply mgOk (body ++ sig)

/-- CHALLENGE. -/
def State.spdmChallenge (s : State) (slot : Nat) (nonce : List Byte) : State :=
  if !s.serves then s
  else if slot != 0 then s.reply mgError []
  else s.spdmSigned spChallenge nonce (Config.sha3 chain0)

/-- The calibration digest in force, Table 22.5. -/
def State.calDigest (s : State) : List Byte :=
  match s.sec.cal with
  | some c => if s.on F.SEC_CAL_VALID then Config.shake256 64 c.stored else List.replicate 64 0
  | none => List.replicate 64 0

/-- The measurements of Table 22.5, by index from 1 (PRESUMED, log 40). -/
def State.measurements (s : State) : List (List Byte) :=
  [Config.shake256 64 (signedPart s.sec.running),
   leBytes 4 (s.rd F.SEC_FW_SVN) ++ leBytes 4 s.sec.svnMin,
   s.fol.cur.ident ++ leBytes 1 (s.rd F.FOLIO_STAT_SAFE),
   leBytes 4 s.fol.svnMin,
   leBytes 8 ((s.reg .DBG_LOCK 0 0).toNat % 2 ^ 33),
   s.calDigest ++ leBytes 1 (s.rd F.SEC_CAL_SOURCE),
   leBytes 1 s.fol.step ++ s.sec.keyHash.flatten]

/-- GET_MEASUREMENTS: the seal covers every index. -/
def State.seal (s : State) (nonce : List Byte) : State :=
  s.spdmSigned spMeas nonce (s.measurements.zipIdx.flatMap (fun (m, i) => leBytes 1 (i + 1) ++ leBytes 2 m.length ++ m))

/-! ### MCTP and PLDM (R443) -/

/-- MCTP_CONTROL: a message of type `typ`. The bus owner assigns the endpoint ID (command 1) or asks for it (command 2); messages
of types other than 0, 1 and 5 are dropped. -/
def State.mctp (s : State) (typ : Nat) (body : List Byte) : State :=
  if !s.rst.power || typ != 0 then s
  else match leAt body 0 1 with
    | 1 => ({ s with sec := { s.sec with eid := leAt body 2 1 } }).reply mgOk (leBytes 1 (leAt body 2 1))
    | 2 => s.reply mgOk (leBytes 1 s.sec.eid)
    | _ => s.reply mgError []

/-- PLDM_BASE: GetPLDMTypes (command 4) reports types 0, 2, 5 and 63. -/
def State.pldmBase (s : State) (cmd : Nat) : State :=
  if !s.rst.power then s
  else s.reply mgOk (if cmd = 4 then leBytes 8 (1 + 4 + 32 + 2 ^ 63) else [])

/-- Sensors, under the numbers of log 40: voltage, current, power, die temperatures, the means of the power, stack temperatures,
refresh levels, ECC counts, READY, SEC_FW.STATE, quarantined clusters, module fault, leak. -/
def State.sensor (s : State) (n : Nat) : Option (List Byte) :=
  if n = 0 then some (leBytes 2 (s.rd F.PWR_IN_VOLT))
  else if n = 1 then some (leBytes 2 (s.rd F.PWR_IN_CURR))
  else if n = 2 then some (leBytes 2 (s.rd F.PWR_IN_WATTS))
  else if n < 7 then some (leBytes 1 (s.pwr.temps.getD (n - 3) 0))
  else if n = 7 then some (leBytes 2 (s.rd F.PWR_AVG_W10MS))
  else if n = 8 then some (leBytes 2 (s.rd F.PWR_AVG_W1S))
  else if 16 ≤ n && n < 32 then some (leBytes 1 (s.rd F.STK_STAT_TEMP (n - 16)))
  else if 32 ≤ n && n < 48 then some (leBytes 1 (s.rd F.STK_STAT_LEVEL (n - 32)))
  else if 48 ≤ n && n < 64 then some (leBytes 4 (s.rd F.STK_ECC_CE (n - 48)) ++ leBytes 2 (s.rd F.STK_ECC_UE (n - 48)))
  else if n = 64 then some (leBytes 1 (s.rd F.RST_CAUSE_READY))
  else if n = 65 then some (leBytes 1 (s.rd F.SEC_FW_STATE))
  else if n = 66 then some (leBytes 8 (((List.range 64).map (fun c => if s.on F.REC_CNT_QUAR c then 2 ^ c else 0)).sum))
  else if n = 67 then some (leBytes 1 (b2n s.rst.fault))
  else if n = 68 then some (leBytes 1 (b2n s.sec.leak))
  else none

/-- PLDM_SENSOR_READ: reading the module-fault sensor releases MOD_FAULT_N (23_connectors.md R452). -/
def State.sensorRead (s : State) (n : Nat) : State :=
  if !s.rst.power || (s.recovering && n != 65) then s
  else match s.sensor n with
    | none => s.reply mgError []
    | some l =>
      let s := s.reply mgOk l
      if n = 67 then { s with rst := { s.rst with fault := false, faultN := false } } else s

/-- SET_MODULE_NUMBER: taken at the next module reset (16_yorin_fabric.md R327). -/
def State.setNumber (s : State) (n : Nat) : State :=
  if !s.serves then s
  else if 4096 ≤ n then s.reply mgError []
  else ({ s with sec := { s.sec with number := some n } }).reply mgOk []

/-- MODULE_RESET: MGMT_RESET is raised, and the warden resets the module 100 ms later. -/
def State.mgmtReset (s : State) : State :=
  if !s.serves || s.rst.asserted then s
  else (({ s with sec := { s.sec with mgmtReset := true } }).raise 0x032).reply mgOk []

/-- MGMT_RESET_EXPIRE. -/
def State.mgmtExpire (s : State) : State := if s.sec.mgmtReset then s.moduleReset .warden else s

/-- READ_RETIREMENT: a stack's persistent list (08_berim_stacks.md R171), and after it, where a granule found it full, four
bytes of ones: the list has overflowed (R172) (DESIGN CHOICE, log 80). -/
def State.readRetirement (s : State) (n : Nat) : State :=
  if !s.serves then s
  else if 16 ≤ n then s.reply mgError []
  else s.reply mgOk ((s.stk.retired.filter (fun e => e.1 == n)).flatMap (fun e => leBytes 4 e.2)
    ++ if s.stk.full.contains n then leBytes 4 0xFFFFFFFF else [])

/-- Four-bit entries packed, the lower half of a byte first. -/
def packNibbles : List Nat → List Byte
  | [] => []
  | [a] => [BitVec.ofNat 8 (a % 16)]
  | a :: b :: r => BitVec.ofNat 8 (a % 16 + 16 * (b % 16)) :: packNibbles r

/-- READ_FUSE_MAP (18_reset.md R374). -/
def State.readFuseMap (s : State) : State := if s.serves then s.reply mgOk (packNibbles s.sec.fuseMap) else s

/-- WRITE_CALIBRATION: the set and its CRC-64; SOURCE is then 1. A write interrupted leaves a set that fails its CRC (R442). -/
def State.writeCal (s : State) (body : List Byte) (interrupted : Bool) : State :=
  if !s.serves then s
  else if s.sec.writing != 0 || s.rd F.FOLIO_STAT_PHASE == phPersist then s.reply mgNotReady []
  else
    let n := body.length - 8
    let s := { s with sec := { s.sec with cal := some ⟨body.take n, BitVec.ofNat 64 (leAt body n 8), 1, interrupted⟩ } }
    if interrupted then s else (s.raise 0x031).reply mgOk []

/-- READ_CALIBRATION. -/
def State.readCal (s : State) : State :=
  if !s.serves then s
  else match s.sec.cal with
    | some c => s.reply mgOk c.stored
    | none => s.reply mgError []

/-- READ_RECOVERY_LOG: the records from TAIL to HEAD (17_fault_tolerance.md R355). -/
def State.readLog (s : State) : State :=
  if !s.serves then s
  else if !s.on F.REC_LOG_BASE_EN then s.reply mgOk []
  else
    let t := s.rd F.REC_LOG_PTR_TAIL
    let n := (s.rd F.REC_LOG_PTR_HEAD + 1024 - t) % 1024
    (s.reply mgOk ((List.range n).flatMap (fun i => s.rdBytes devKey (s.rd F.REC_LOG_BASE_BASE * 2 ^ 14 + 32 * ((t + i) % 512)) 32)))

/-- LEAK_DETECT (23_connectors.md R459): the state sensor reports it; nothing else follows. -/
def State.leak (s : State) : State := { s with sec := { s.sec with leak := true } }

/-- REQUEST_UPDATE (R439). -/
def execRequestUpdate (s : State) : Host.Outcome State Fault Refusal := .next s.requestUpdate
/-- FW_IMAGE_VERIFY (R439). -/
def execFwImageVerify (img : List Byte) (s : State) : Host.Outcome State Fault Refusal := .next (s.imageVerify img)
/-- FW_FLASH_WRITE_DONE (R439). -/
def execFwFlashWriteDone (s : State) : Host.Outcome State Fault Refusal := .next s.flashDone
/-- FW_RECOVERY_FETCH (R438). -/
def execFwRecoveryFetch (img : List Byte) (s : State) : Host.Outcome State Fault Refusal := .next (s.recoveryFetch img)
/-- FW_RECOVERY_TIMEOUT (R438). -/
def execFwRecoveryTimeout (s : State) : Host.Outcome State Fault Refusal := .next s.recoveryTimeout
/-- GET_VERSION (R440): SPDM 1.3 only; it begins an exchange. -/
def execGetVersion (s : State) : Host.Outcome State Fault Refusal := .next (s.spdmAnswer spVersion 0 1 [0x13])
/-- GET_CAPABILITIES (R440). -/
def execGetCapabilities (s : State) : Host.Outcome State Fault Refusal := .next (s.spdmAnswer spCaps 1 2 [])
/-- NEGOTIATE_ALGORITHMS (R440). -/
def execNegotiateAlgorithms (base hash : Nat) (s : State) : Host.Outcome State Fault Refusal := .next (s.spdmAlgs base hash)
/-- GET_DIGESTS (R440). -/
def execGetDigests (s : State) : Host.Outcome State Fault Refusal := .next (s.spdmAnswer spDigests 3 3 (Config.sha3 chain0))
/-- GET_CERTIFICATE (R434, R440). -/
def execGetCertificate (slot off len : Nat) (s : State) : Host.Outcome State Fault Refusal := .next (s.spdmCert slot off len)
/-- CHALLENGE (R440). -/
def execChallenge (slot : Nat) (nonce : List Byte) (s : State) : Host.Outcome State Fault Refusal :=
  .next (s.spdmChallenge slot nonce)
/-- GET_MEASUREMENTS (R441). -/
def execGetMeasurements (nonce : List Byte) (s : State) : Host.Outcome State Fault Refusal := .next (s.seal nonce)
/-- MCTP_CONTROL (R443). -/
def execMctpControl (typ : Nat) (body : List Byte) (s : State) : Host.Outcome State Fault Refusal := .next (s.mctp typ body)
/-- PLDM_BASE (R443). -/
def execPldmBase (cmd : Nat) (s : State) : Host.Outcome State Fault Refusal := .next (s.pldmBase cmd)
/-- PLDM_SENSOR_READ (R443). -/
def execPldmSensorRead (n : Nat) (s : State) : Host.Outcome State Fault Refusal := .next (s.sensorRead n)
/-- SET_MODULE_NUMBER (16_yorin_fabric.md R327). -/
def execSetModuleNumber (n : Nat) (s : State) : Host.Outcome State Fault Refusal := .next (s.setNumber n)
/-- MODULE_RESET (18_reset.md R367). -/
def execModuleReset (s : State) : Host.Outcome State Fault Refusal := .next s.mgmtReset
/-- MGMT_RESET_EXPIRE (R445). -/
def execMgmtResetExpire (s : State) : Host.Outcome State Fault Refusal := .next s.mgmtExpire
/-- READ_RETIREMENT (08_berim_stacks.md R171). -/
def execReadRetirement (n : Nat) (s : State) : Host.Outcome State Fault Refusal := .next (s.readRetirement n)
/-- READ_FUSE_MAP (18_reset.md R374). -/
def execReadFuseMap (s : State) : Host.Outcome State Fault Refusal := .next s.readFuseMap
/-- WRITE_CALIBRATION (R442). -/
def execWriteCalibration (body : List Byte) (interrupted : Bool) (s : State) : Host.Outcome State Fault Refusal :=
  .next (s.writeCal body interrupted)
/-- READ_CALIBRATION (R442). -/
def execReadCalibration (s : State) : Host.Outcome State Fault Refusal := .next s.readCal
/-- READ_RECOVERY_LOG (17_fault_tolerance.md R355). -/
def execReadRecoveryLog (s : State) : Host.Outcome State Fault Refusal := .next s.readLog
/-- LEAK_DETECT (23_connectors.md R459). -/
def execLeakDetect (s : State) : Host.Outcome State Fault Refusal := .next s.leak

end Sys2Proof.Machine
end

