-- ==== Sys2Proof/Machine/ThreadTally.lean ====
section
/-! DEFINITION. The rows of 20_tally_and_ledger.md that a thread's instruction makes: TALRD, TALMARK and tagged sampling. -/

namespace Sys2Proof.Machine

open Sys2Proof

/-- What TALRD reads: a counter, or the cycle counter with `n` = 8; zero while the core's TAL_CTL.USER is 0 (R404), and while
its cluster is quarantined (R401). -/
def State.talValue (s : State) (core n : Nat) : Nat :=
  if !s.on F.TAL_CTL_USER (coreSet core) || s.on F.REC_CNT_QUAR (core / 8) then 0
  else if n < 8 then s.counter (coreSet core) n
  else s.rd F.TAL_CYC_COUNT (coreSet core)

/-- TALRD: the value before the issue, in rd and rd + 1 of every active lane; an `n` above 8 is ILLEGAL (R404) (DEDUCED, log
17). -/
def State.talrd (s : State) (g : Gid) (rd n : Nat) : State :=
  let s := if s.on F.TAL_CTL_USER (coreSet g.core) && n ≤ 8 && !s.on F.REC_CNT_QUAR (g.core / 8) then s.catchUp (g.core / 128) (g.core % 128) else s
  let v := s.talValue g.core n
  s.plain g (8 < n) [rd, rd + 1] (fun s x _ =>
    (s.putAll g x rd (fun _ => BitVec.ofNat 32 v)).putAll g x (rd + 1) (fun _ => BitVec.ofNat 32 (v / 2 ^ 32)))

/-- A MARK record, Table 20.6. -/
def markRec (g : Gid) (tag : Nat × Nat) (stamp v : Nat) : List Byte :=
  leBytes 2 5 ++ leBytes 2 g.core ++ leBytes 2 g.slot ++ leBytes 2 tag.1 ++ leBytes 8 stamp ++ leBytes 8 tag.2 ++ leBytes 8 v
    ++ leBytes 32 0

/-- A FENCE.DEV of the group's threads is not yet performed. -/
def State.fenceDevOpen (s : State) (g : Gid) : Bool :=
  (s.group g).any (fun x => s.thr.ops.any (fun o => o.op == .fence && o.sc == .dev && x.inOp g o))

/-- TALMARK: the 64-bit value of the lowest active lane, offered to the ledger of the core's die (R405, R410). It reads the
stamp, so it waits for an earlier FENCE.DEV, whose stores its stamp follows (04_memory_model.md R101). -/
def State.talmark (s : State) (g : Gid) (rs : Nat) : State :=
  if s.fenceDevOpen g then s
  else s.plain g false [rs, rs + 1] (fun s x _ =>
    match (lanesOf x.active).head? with
    | none => s
    | some l =>
      let d := g.core / 128
      let t := s.stampOf (1 + g.core)
      (s.ledOffer d t (some (g.core / 8)) (markRec g (s.tagOf d (g.core % 128)) t (s.getRegs g x rs 2 l))).stampReadBy (1 + g.core))

/-- SAMPLE_TAG: the instruction a group just issued comes due, since the count of issues has reached the reload value; it is
tagged unless the core has a tag in flight, and the count restarts (R406). -/
def State.sampleTag (s : State) (g : Gid) : State :=
  match aget s.tal.last g, aget s.tal.tags g.core with
  | some (pc, m), some id =>
    if g.core < 512 && s.on F.TAL_SMP_EN (coreSet g.core) && s.smpDue g.core then
      if s.tal.inflight.any (fun t => t.core == g.core) then (s.smpRestart g.core).tallyG g 0x048 1
      else
        let s := s.smpDraw g.core
        ({ s with tal := { s.tal with inflight := ⟨g.core, g.slot, pc, m, s.stampOf (1 + g.core), id⟩ :: s.tal.inflight } }).stampReadBy
          (1 + g.core)
    else s
  | _, _ => s

/-- A SAMPLE record, Table 20.6. -/
def sampleRec (t : TagIns) (discarded : Bool) (source issueWait latency memLat segments : Nat) : List Byte :=
  leBytes 1 2 ++ leBytes 1 (b2n discarded) ++ leBytes 2 t.core ++ leBytes 1 t.slot ++ leBytes 1 source ++ leBytes 2 t.tag.ctx
    ++ leBytes 8 t.stamp ++ leBytes 8 t.tag.seq ++ leBytes 8 t.pc.toNat ++ leBytes 4 t.active.toNat ++ leBytes 4 issueWait
    ++ leBytes 4 latency ++ leBytes 4 memLat ++ leBytes 2 segments ++ leBytes 14 0

/-- SAMPLE_OFFER: the core's tagged instruction completes or is discarded, and its record is offered (R406, R410). -/
def State.sampleOffer (s : State) (core : Nat) (discarded : Bool) (source issueWait latency memLat segments : Nat) : State :=
  match s.tal.inflight.find? (fun t => t.core == core) with
  | none => s
  | some t =>
    let s := { s with tal := { s.tal with inflight := s.tal.inflight.filter (fun t => t.core != core) } }
    s.ledOffer (core / 128) t.stamp (some (core / 8)) (sampleRec t discarded source issueWait latency memLat segments)

/-- TALRD (R404). -/
def execTalrd (g : Gid) (rd n : Nat) (s : State) : Host.Outcome State Fault Refusal := .next (s.talrd g rd n)

/-- TALMARK (R405). -/
def execTalmark (g : Gid) (rs : Nat) (s : State) : Host.Outcome State Fault Refusal := .next (s.talmark g rs)

/-- SAMPLE_TAG (R406). -/
def execSampleTag (g : Gid) (s : State) : Host.Outcome State Fault Refusal := .next (s.sampleTag g)

/-- SAMPLE_OFFER (R406). -/
def execSampleOffer (core : Nat) (discarded : Bool) (source issueWait latency memLat segments : Nat) (s : State) :
    Host.Outcome State Fault Refusal := .next (s.sampleOffer core discarded source issueWait latency memLat segments)

end Sys2Proof.Machine
end

