-- ==== Sys2Proof/Machine/Dispatch.lean ====
section
/-! DEFINITION. One arm per command: its effect on everything but the queue. -/

namespace Sys2Proof.Machine

open Sys2Proof

/-- The effect of a command (95_what_each_step_holds.md lists the rows and their rules). -/
def exec (i : Instr) (s : State) : Host.Outcome State Fault Refusal :=
  match i with
  | .registerWrite src off bytes val => Sys2Proof.Machine.execRegisterWrite src off bytes val s
  | .folioLoad force persist => Sys2Proof.Machine.execFolioLoad force persist s
  | .folioVerifyDone => Sys2Proof.Machine.execFolioVerifyDone s
  | .folioDrainDone => Sys2Proof.Machine.execFolioDrainDone s
  | .folioSwitchDone => Sys2Proof.Machine.execFolioSwitchDone s
  | .folioPersistDone => Sys2Proof.Machine.execFolioPersistDone s
  | .qosAdjWrite cls part share => Sys2Proof.Machine.execQosAdjWrite cls part share s
  | .wayAdjWrite part cls mask => Sys2Proof.Machine.execWayAdjWrite part cls mask s
  | .blockPlace cmd cores => Sys2Proof.Machine.execBlockPlace cmd cores s
  | .scratchZeroDone bid => Sys2Proof.Machine.execScratchZeroDone bid s
  | .blockEnd bid => Sys2Proof.Machine.execBlockEnd bid s
  | .rpush g target => Sys2Proof.Machine.execRpush g target s
  | .braDiv g pd target => Sys2Proof.Machine.execBraDiv g pd target s
  | .rsync g => Sys2Proof.Machine.execRsync g s
  | .exit g => Sys2Proof.Machine.execExit g s
  | .sval g rd name => Sys2Proof.Machine.execSval g rd name s
  | .lvoteEvery g pd ps => Sys2Proof.Machine.execLvoteEvery g pd ps s
  | .lvoteSome g pd ps => Sys2Proof.Machine.execLvoteSome g pd ps s
  | .lvoteNone g pd ps => Sys2Proof.Machine.execLvoteNone g pd ps s
  | .lvoteSame g pd ps => Sys2Proof.Machine.execLvoteSame g pd ps s
  | .lmask g rd ps => Sys2Proof.Machine.execLmask g rd ps s
  | .lcount g rd ps => Sys2Proof.Machine.execLcount g rd ps s
  | .lpeer g rd rs => Sys2Proof.Machine.execLpeer g rd rs s
  | .xchSel g rd pd rs ri s_ => Sys2Proof.Machine.execXchSel g rd pd rs ri s_ s
  | .xchRup g rd pd rs n s_ => Sys2Proof.Machine.execXchRup g rd pd rs n s_ s
  | .xchRdn g rd pd rs n s_ => Sys2Proof.Machine.execXchRdn g rd pd rs n s_ s
  | .xchSup g rd pd rs n s_ => Sys2Proof.Machine.execXchSup g rd pd rs n s_ s
  | .xchSdn g rd pd rs n s_ => Sys2Proof.Machine.execXchSdn g rd pd rs n s_ s
  | .xchMir g rd pd rs n s_ => Sys2Proof.Machine.execXchMir g rd pd rs n s_ s
  | .barBlk g id => Sys2Proof.Machine.execBarBlk g id s
  | .barClu g id => Sys2Proof.Machine.execBarClu g id s
  | .lkgEnter g sc sp ra => Sys2Proof.Machine.execLkgEnter g sc sp ra s
  | .lkgBackoffExpire g => Sys2Proof.Machine.execLkgBackoffExpire g s
  | .lkgExit g sp ra => Sys2Proof.Machine.execLkgExit g sp ra s
  | .regroup g w => Sys2Proof.Machine.execRegroup g w s
  | .regroupWaitExpire bid pc => Sys2Proof.Machine.execRegroupWaitExpire bid pc s
  | .trap g n => Sys2Proof.Machine.execTrap g n s
  | .trappedBlockEnd bid => Sys2Proof.Machine.execTrappedBlockEnd bid s
  | .ld g rd ra size sp found => Sys2Proof.Machine.execLd g rd ra size sp found s
  | .st g ra rs size sp found => Sys2Proof.Machine.execSt g ra rs size sp found s
  | .ldAcq g sc rd ra size sp => Sys2Proof.Machine.execLdAcq g sc rd ra size sp s
  | .stRel g sc ra rs size sp => Sys2Proof.Machine.execStRel g sc ra rs size sp s
  | .fence g sc => Sys2Proof.Machine.execFence g sc s
  | .fenceSc g sc => Sys2Proof.Machine.execFenceSc g sc s
  | .atomAdd g ty ord sc sp rd ra rs => Sys2Proof.Machine.execAtomAdd g ty ord sc sp rd ra rs s
  | .atomMin g ty ord sc sp rd ra rs => Sys2Proof.Machine.execAtomMin g ty ord sc sp rd ra rs s
  | .atomMax g ty ord sc sp rd ra rs => Sys2Proof.Machine.execAtomMax g ty ord sc sp rd ra rs s
  | .atomAnd g ty ord sc sp rd ra rs => Sys2Proof.Machine.execAtomAnd g ty ord sc sp rd ra rs s
  | .atomOr g ty ord sc sp rd ra rs => Sys2Proof.Machine.execAtomOr g ty ord sc sp rd ra rs s
  | .atomXor g ty ord sc sp rd ra rs => Sys2Proof.Machine.execAtomXor g ty ord sc sp rd ra rs s
  | .atomExch g ty ord sc sp rd ra rs => Sys2Proof.Machine.execAtomExch g ty ord sc sp rd ra rs s
  | .atomCas g ty ord sc sp rd ra rs rt => Sys2Proof.Machine.execAtomCas g ty ord sc sp rd ra rs rt s
  | .hostWrite mod key pa data => Sys2Proof.Machine.execHostWrite mod key pa data s
  | .hostRead mod key pa len => Sys2Proof.Machine.execHostRead mod key pa len s
  | .mlds g mx sh ra => Sys2Proof.Machine.execMlds g mx sh ra s
  | .mmaZ g mx t sh ra => Sys2Proof.Machine.execMmaZ g mx t sh ra s
  | .mmaA g mx t sh ra => Sys2Proof.Machine.execMmaA g mx t sh ra s
  | .mmaZS3 g mx t sh ra => Sys2Proof.Machine.execMmaZS3 g mx t sh ra s
  | .mmaAS3 g mx t sh ra => Sys2Proof.Machine.execMmaAS3 g mx t sh ra s
  | .mmaZS6 g mx t sh ra => Sys2Proof.Machine.execMmaZS6 g mx t sh ra s
  | .mmaAS6 g mx t sh ra => Sys2Proof.Machine.execMmaAS6 g mx t sh ra s
  | .mldc g mx t ra => Sys2Proof.Machine.execMldc g mx t ra s
  | .mstc g mx t ra => Sys2Proof.Machine.execMstc g mx t ra s
  | .mewZero g ty mx t => Sys2Proof.Machine.execMewZero g ty mx t s
  | .mewCopy g ty mx t u => Sys2Proof.Machine.execMewCopy g ty mx t u s
  | .mewAdd g ty mx t u => Sys2Proof.Machine.execMewAdd g ty mx t u s
  | .mewMul g ty mx t u => Sys2Proof.Machine.execMewMul g ty mx t u s
  | .mewAxpb g ty mx t rs rb => Sys2Proof.Machine.execMewAxpb g ty mx t rs rb s
  | .mewBias g ty mx t ra => Sys2Proof.Machine.execMewBias g ty mx t ra s
  | .mewMax g ty mx t rs => Sys2Proof.Machine.execMewMax g ty mx t rs s
  | .mewMin g ty mx t rs => Sys2Proof.Machine.execMewMin g ty mx t rs s
  | .mewCvt g ty mx t => Sys2Proof.Machine.execMewCvt g ty mx t s
  | .mwait g m0 m1 => Sys2Proof.Machine.execMwait g m0 m1 s
  | .mwaitSatisfied g => Sys2Proof.Machine.execMwaitSatisfied g s
  | .mxPipeStart core mx p => Sys2Proof.Machine.execMxPipeStart core mx p s
  | .mxAdvance core mx => Sys2Proof.Machine.execMxAdvance core mx s
  | .mxRowAdd core mx residueOk => Sys2Proof.Machine.execMxRowAdd core mx residueOk s
  | .mxInstrComplete core mx p => Sys2Proof.Machine.execMxInstrComplete core mx p s
  | .mxRampStepEnd core mx => Sys2Proof.Machine.execMxRampStepEnd core mx s
  | .redAdd g ty sp ra rs => Sys2Proof.Machine.execRedAdd g ty sp ra rs s
  | .redMax g ty sp ra rs => Sys2Proof.Machine.execRedMax g ty sp ra rs s
  | .redMin g ty sp ra rs => Sys2Proof.Machine.execRedMin g ty sp ra rs s
  | .reductionApply line ecc => Sys2Proof.Machine.execReductionApply line ecc s
  | .combineBufferIdle line => Sys2Proof.Machine.execCombineBufferIdle line s
  | .stackRead line ecc => Sys2Proof.Machine.execStackRead line ecc s
  | .stackWrite line key mask data => Sys2Proof.Machine.execStackWrite line key mask data s
  | .patrolScrub line ecc => Sys2Proof.Machine.execPatrolScrub line ecc s
  | .refreshTempSample stack temp => Sys2Proof.Machine.execRefreshTempSample stack temp s
  | .refreshCommand stack => Sys2Proof.Machine.execRefreshCommand stack s
  | .stkRetireAck stack => Sys2Proof.Machine.execStkRetireAck stack s
  | .streamEnd core idx => Sys2Proof.Machine.execStreamEnd core idx s
  | .victimDrain cluster line => Sys2Proof.Machine.execVictimDrain cluster line s
  | .gets core line found => Sys2Proof.Machine.execGets core line found s
  | .getm core line found => Sys2Proof.Machine.execGetm core line found s
  | .upg core line => Sys2Proof.Machine.execUpg core line s
  | .pute core line => Sys2Proof.Machine.execPute core line s
  | .putm core line => Sys2Proof.Machine.execPutm core line s
  | .rdata core line => Sys2Proof.Machine.execRdata core line s
  | .datas core line => Sys2Proof.Machine.execDatas core line s
  | .datae core line => Sys2Proof.Machine.execDatae core line s
  | .datam core line => Sys2Proof.Machine.execDatam core line s
  | .grant core line => Sys2Proof.Machine.execGrant core line s
  | .putack core line => Sys2Proof.Machine.execPutack core line s
  | .inv core line => Sys2Proof.Machine.execInv core line s
  | .recall core line => Sys2Proof.Machine.execRecall core line s
  | .down core line => Sys2Proof.Machine.execDown core line s
  | .zLineExpire core line => Sys2Proof.Machine.execZLineExpire core line s
  | .rds r line => Sys2Proof.Machine.execRds r line s
  | .rdx r line => Sys2Proof.Machine.execRdx r line s
  | .upx r line => Sys2Proof.Machine.execUpx r line s
  | .rdn r line => Sys2Proof.Machine.execRdn r line s
  | .wbm r line => Sys2Proof.Machine.execWbm r line s
  | .wrf r line => Sys2Proof.Machine.execWrf r line s
  | .wrp r line => Sys2Proof.Machine.execWrp r line s
  | .redu r line => Sys2Proof.Machine.execRedu r line s
  | .done r line => Sys2Proof.Machine.execDone r line s
  | .dats cluster line => Sys2Proof.Machine.execDats cluster line s
  | .datx cluster line => Sys2Proof.Machine.execDatx cluster line s
  | .gntx cluster line => Sys2Proof.Machine.execGntx cluster line s
  | .fwds cluster line => Sys2Proof.Machine.execFwds cluster line s
  | .fwdx cluster line => Sys2Proof.Machine.execFwdx cluster line s
  | .wback cluster line => Sys2Proof.Machine.execWback cluster line s
  | .rddata r line => Sys2Proof.Machine.execRddata r line s
  | .wrack r line => Sys2Proof.Machine.execWrack r line s
  | .retry r home => Sys2Proof.Machine.execRetry r home s
  | .crgnt r home => Sys2Proof.Machine.execCrgnt r home s
  | .sninv cluster line found => Sys2Proof.Machine.execSninv cluster line found s
  | .snfwds cluster line => Sys2Proof.Machine.execSnfwds cluster line s
  | .snfwdx cluster line => Sys2Proof.Machine.execSnfwdx cluster line s
  | .snrcl cluster line => Sys2Proof.Machine.execSnrcl cluster line s
  | .snack cluster line => Sys2Proof.Machine.execSnack cluster line s
  | .snackd cluster line => Sys2Proof.Machine.execSnackd cluster line s
  | .snmiss cluster line => Sys2Proof.Machine.execSnmiss cluster line s
  | .snwb cluster line => Sys2Proof.Machine.execSnwb cluster line s
  | .homeTimerExpire line agent => Sys2Proof.Machine.execHomeTimerExpire line agent s
  | .agentDeadSet agent => Sys2Proof.Machine.execAgentDeadSet agent s
  | .reclaimDone home agent => Sys2Proof.Machine.execReclaimDone home agent s
  | .walkStep die idx => Sys2Proof.Machine.execWalkStep die idx s
  | .quireTimeout ctx => Sys2Proof.Machine.execQuireTimeout ctx s
  | .htuResponse die idx ans => Sys2Proof.Machine.execHtuResponse die idx ans s
  | .htuInvalidate pasid va pages tag => Sys2Proof.Machine.execHtuInvalidate pasid va pages tag s
  | .invRange ctx size count irq => Sys2Proof.Machine.execInvRange ctx size count irq s
  | .invContext ctx irq => Sys2Proof.Machine.execInvContext ctx irq s
  | .invAll irq => Sys2Proof.Machine.execInvAll irq s
  | .invComplete => Sys2Proof.Machine.execInvComplete s
  | .resolveRetry ctx quire => Sys2Proof.Machine.execResolveRetry ctx quire s
  | .resolveAbort ctx quire => Sys2Proof.Machine.execResolveAbort ctx quire s
  | .blotterTailWrite ctx tail => Sys2Proof.Machine.execBlotterTailWrite ctx tail s
  | .xltCtxDisable ctx => Sys2Proof.Machine.execXltCtxDisable ctx s
  | .ctxCreate => Sys2Proof.Machine.execCtxCreate s
  | .swqCreate => Sys2Proof.Machine.execSwqCreate s
  | .memobjCreate => Sys2Proof.Machine.execMemobjCreate s
  | .noteCreate => Sys2Proof.Machine.execNoteCreate s
  | .timelineCreate => Sys2Proof.Machine.execTimelineCreate s
  | .graphCreate => Sys2Proof.Machine.execGraphCreate s
  | .graphPatch => Sys2Proof.Machine.execGraphPatch s
  | .ctxRelease => Sys2Proof.Machine.execCtxRelease s
  | .memobjRelease => Sys2Proof.Machine.execMemobjRelease s
  | .graphRelease => Sys2Proof.Machine.execGraphRelease s
  | .objRelease => Sys2Proof.Machine.execObjRelease s
  | .memobjFree idx => Sys2Proof.Machine.execMemobjFree idx s
  | .graphVersionFree slot ver => Sys2Proof.Machine.execGraphVersionFree slot ver s
  | .releasePointReached kind idx => Sys2Proof.Machine.execReleasePointReached kind idx s
  | .ctxDestroy => Sys2Proof.Machine.execCtxDestroy s
  | .objDestroy => Sys2Proof.Machine.execObjDestroy s
  | .destroyDone kind idx => Sys2Proof.Machine.execDestroyDone kind idx s
  | .ctxSave => Sys2Proof.Machine.execCtxSave s
  | .ctxSaveDone ctx => Sys2Proof.Machine.execCtxSaveDone ctx s
  | .ctxRestore cores => Sys2Proof.Machine.execCtxRestore cores s
  | .ctxAborted ctx => Sys2Proof.Machine.execCtxAborted ctx s
  | .swqDoorbell q v => Sys2Proof.Machine.execSwqDoorbell q v s
  | .queueMap q slot => Sys2Proof.Machine.execQueueMap q slot s
  | .queueUnmap slot waited100us held1ms => Sys2Proof.Machine.execQueueUnmap slot waited100us held1ms s
  | .packetParse q => Sys2Proof.Machine.execPacketParse q s
  | .nop cmd => Sys2Proof.Machine.execNop cmd s
  | .launch cmd => Sys2Proof.Machine.execLaunch cmd s
  | .copy cmd found => Sys2Proof.Machine.execCopy cmd found s
  | .fill cmd found => Sys2Proof.Machine.execFill cmd found s
  | .record cmd => Sys2Proof.Machine.execRecord cmd s
  | .wait cmd => Sys2Proof.Machine.execWait cmd s
  | .signal cmd => Sys2Proof.Machine.execSignal cmd s
  | .fencePacket cmd => Sys2Proof.Machine.execFencePacket cmd s
  | .graphLaunch cmd => Sys2Proof.Machine.execGraphLaunch cmd s
  | .dump cmd => Sys2Proof.Machine.execDump cmd s
  | .dumpCapture cmd found => Sys2Proof.Machine.execDumpCapture cmd found s
  | .qenq g rd rq ra => Sys2Proof.Machine.execQenq g rd rq ra s
  | .commandComplete cmd => Sys2Proof.Machine.execCommandComplete cmd s
  | .commandTimeout cmd => Sys2Proof.Machine.execCommandTimeout cmd s
  | .swqResume q => Sys2Proof.Machine.execSwqResume q s
  | .swqCmplAck q v => Sys2Proof.Machine.execSwqCmplAck q v s
  | .cmplFbClear ctx => Sys2Proof.Machine.execCmplFbClear ctx s
  | .timelineSignalApply die => Sys2Proof.Machine.execTimelineSignalApply die s
  | .noteSignalApply die => Sys2Proof.Machine.execNoteSignalApply die s
  | .waitRegister die => Sys2Proof.Machine.execWaitRegister die s
  | .waitWake cmd => Sys2Proof.Machine.execWaitWake cmd s
  | .waitWithdraw die => Sys2Proof.Machine.execWaitWithdraw die s
  | .tlSig src tl v => Sys2Proof.Machine.execTlSig src tl v s
  | .noteSig src n c => Sys2Proof.Machine.execNoteSig src n c s
  | .watchArm src w => Sys2Proof.Machine.execWatchArm src w s
  | .watcherFire w => Sys2Proof.Machine.execWatcherFire w s
  | .stocktakeDue q => Sys2Proof.Machine.execStocktakeDue q s
  | .stocktakeAlign q => Sys2Proof.Machine.execStocktakeAlign q s
  | .intEvent src => Sys2Proof.Machine.execIntEvent src s
  | .intClaim t => Sys2Proof.Machine.execIntClaim t s
  | .intEoi t src => Sys2Proof.Machine.execIntEoi t src s
  | .intSwi s_ => Sys2Proof.Machine.execIntSwi s_ s
  | .intTgtLoWrite src v => Sys2Proof.Machine.execIntTgtLoWrite src v s
  | .intTgtHiWrite src v => Sys2Proof.Machine.execIntTgtHiWrite src v s
  | .islandEdge src => Sys2Proof.Machine.execIslandEdge src s
  | .flitReceive port flit => Sys2Proof.Machine.execFlitReceive port flit s
  | .flitAckTimeout port => Sys2Proof.Machine.execFlitAckTimeout port s
  | .portEnable port => Sys2Proof.Machine.execPortEnable port s
  | .portRetrain port => Sys2Proof.Machine.execPortRetrain port s
  | .portTrainDone port good peer peerPort => Sys2Proof.Machine.execPortTrainDone port good peer peerPort s
  | .laneFail port lane => Sys2Proof.Machine.execLaneFail port lane s
  | .packetRoute => Sys2Proof.Machine.execPacketRoute s
  | .fabBind => Sys2Proof.Machine.execFabBind s
  | .fabBindOk => Sys2Proof.Machine.execFabBindOk s
  | .fabBindFail => Sys2Proof.Machine.execFabBindFail s
  | .fabWrite => Sys2Proof.Machine.execFabWrite s
  | .fabAck => Sys2Proof.Machine.execFabAck s
  | .fabEnd => Sys2Proof.Machine.execFabEnd s
  | .fabDone => Sys2Proof.Machine.execFabDone s
  | .fabAbort => Sys2Proof.Machine.execFabAbort s
  | .fabReset => Sys2Proof.Machine.execFabReset s
  | .fabAckTimer src xfer => Sys2Proof.Machine.execFabAckTimer src xfer s
  | .fabPacketResend xfer pseq => Sys2Proof.Machine.execFabPacketResend xfer pseq s
  | .fabEndResend xfer => Sys2Proof.Machine.execFabEndResend xfer s
  | .fabBindRetry xfer => Sys2Proof.Machine.execFabBindRetry xfer s
  | .fabXferStall xfer => Sys2Proof.Machine.execFabXferStall xfer s
  | .fabRecvIdle src xfer => Sys2Proof.Machine.execFabRecvIdle src xfer s
  | .stampSyncTimer port => Sys2Proof.Machine.execStampSyncTimer port s
  | .stampSync port msg => Sys2Proof.Machine.execStampSync port msg s
  | .cblPrsntChange port high => Sys2Proof.Machine.execCblPrsntChange port high s
  | .coreSelftestDone core pass => Sys2Proof.Machine.execCoreSelftestDone core pass s
  | .heartbeatTimeout cluster => Sys2Proof.Machine.execHeartbeatTimeout cluster s
  | .quarantineWbTimeout cluster => Sys2Proof.Machine.execQuarantineWbTimeout cluster s
  | .repartition => Sys2Proof.Machine.execRepartition s
  | .clusterSelftestDone cluster pass => Sys2Proof.Machine.execClusterSelftestDone cluster pass s
  | .clerkWdt clerk => Sys2Proof.Machine.execClerkWdt clerk s
  | .ucieDown mod => Sys2Proof.Machine.execUcieDown mod s
  | .d2dDown pair => Sys2Proof.Machine.execD2dDown pair s
  | .pkgWdt => Sys2Proof.Machine.execPkgWdt s
  | .snapEnable ctx => Sys2Proof.Machine.execSnapEnable ctx s
  | .snapDisable ctx => Sys2Proof.Machine.execSnapDisable ctx s
  | .snapPageCopy ctx range va => Sys2Proof.Machine.execSnapPageCopy ctx range va s
  | .snapCutRequest ctx => Sys2Proof.Machine.execSnapCutRequest ctx s
  | .snapCutTimer ctx => Sys2Proof.Machine.execSnapCutTimer ctx s
  | .snapCutDeferExpire ctx => Sys2Proof.Machine.execSnapCutDeferExpire ctx s
  | .snapCutCopy ctx => Sys2Proof.Machine.execSnapCutCopy ctx s
  | .snapCommit ctx pauseUs => Sys2Proof.Machine.execSnapCommit ctx pauseUs s
  | .snapPushGo slot => Sys2Proof.Machine.execSnapPushGo slot s
  | .snapPushDone slot => Sys2Proof.Machine.execSnapPushDone slot s
  | .snapAdoptGo ctx handle off4k => Sys2Proof.Machine.execSnapAdoptGo ctx handle off4k s
  | .snapAdoptDone ctx => Sys2Proof.Machine.execSnapAdoptDone ctx s
  | .powerGoodRise => Sys2Proof.Machine.execPowerGoodRise s
  | .powerGoodFall => Sys2Proof.Machine.execPowerGoodFall s
  | .modResetAssert ns => Sys2Proof.Machine.execModResetAssert ns s
  | .modResetRelease => Sys2Proof.Machine.execModResetRelease s
  | .resetReleaseStep ok => Sys2Proof.Machine.execResetReleaseStep ok s
  | .rstPartAssert bits => Sys2Proof.Machine.execRstPartAssert bits s
  | .partResetWbTimeout group => Sys2Proof.Machine.execPartResetWbTimeout group s
  | .partResetRelease group => Sys2Proof.Machine.execPartResetRelease group s
  | .rstCore core => Sys2Proof.Machine.execRstCore core s
  | .rstUnitCluster cluster => Sys2Proof.Machine.execRstUnitCluster cluster s
  | .rstUnitClerk clerk => Sys2Proof.Machine.execRstUnitClerk clerk s
  | .rstUnitHome home => Sys2Proof.Machine.execRstUnitHome home s
  | .rstUnitPort port => Sys2Proof.Machine.execRstUnitPort port s
  | .rstUnitUcie mod => Sys2Proof.Machine.execRstUnitUcie mod s
  | .rstUnitDtc die => Sys2Proof.Machine.execRstUnitDtc die s
  | .rstUnitCopy die => Sys2Proof.Machine.execRstUnitCopy die s
  | .rstUnitSnap die => Sys2Proof.Machine.execRstUnitSnap die s
  | .rstUnitLedger die => Sys2Proof.Machine.execRstUnitLedger die s
  | .unitResetRelease die bit => Sys2Proof.Machine.execUnitResetRelease die bit s
  | .gateOff target gang => Sys2Proof.Machine.execGateOff target gang s
  | .gateOn target gang => Sys2Proof.Machine.execGateOn target gang s
  | .domainWakeDone dom => Sys2Proof.Machine.execDomainWakeDone dom s
  | .domainDrainDone dom => Sys2Proof.Machine.execDomainDrainDone dom s
  | .autoGateIdle dom => Sys2Proof.Machine.execAutoGateIdle dom s
  | .nocClockStop die => Sys2Proof.Machine.execNocClockStop die s
  | .nocClockStart die => Sys2Proof.Machine.execNocClockStart die s
  | .coreClockStop core => Sys2Proof.Machine.execCoreClockStop core s
  | .powerLoopRun => Sys2Proof.Machine.execPowerLoopRun s
  | .pwrSample cv ci => Sys2Proof.Machine.execPwrSample cv ci s
  | .dieTempSample die temp => Sys2Proof.Machine.execDieTempSample die temp s
  | .droopDetect cluster => Sys2Proof.Machine.execDroopDetect cluster s
  | .droopTrimDecay cluster => Sys2Proof.Machine.execDroopTrimDecay cluster s
  | .pwrLimitWrite watts clkMax => Sys2Proof.Machine.execPwrLimitWrite watts clkMax s
  | .ucieL1Entry mod => Sys2Proof.Machine.execUcieL1Entry mod s
  | .ucieL1Exit mod => Sys2Proof.Machine.execUcieL1Exit mod s
  | .counterWrap die set ctr => Sys2Proof.Machine.execCounterWrap die set ctr s
  | .talrd g rd n => Sys2Proof.Machine.execTalrd g rd n s
  | .talmark g rs => Sys2Proof.Machine.execTalmark g rs s
  | .sampleTag g => Sys2Proof.Machine.execSampleTag g s
  | .sampleOffer core discarded source issueWait latency memLat segments => Sys2Proof.Machine.execSampleOffer core discarded source issueWait latency memLat segments s
  | .ledgerIntervalSample die => Sys2Proof.Machine.execLedgerIntervalSample die s
  | .ledgerRecordWrite die => Sys2Proof.Machine.execLedgerRecordWrite die s
  | .ledgerGapTimer die => Sys2Proof.Machine.execLedgerGapTimer die s
  | .ledEnable die => Sys2Proof.Machine.execLedEnable die s
  | .ledDisable die => Sys2Proof.Machine.execLedDisable die s
  | .ledArm die => Sys2Proof.Machine.execLedArm die s
  | .ledFire die => Sys2Proof.Machine.execLedFire die s
  | .dbgAttach src ctx => Sys2Proof.Machine.execDbgAttach src ctx s
  | .dbgDetach src ctx => Sys2Proof.Machine.execDbgDetach src ctx s
  | .halt ctx g => Sys2Proof.Machine.execHalt ctx g s
  | .resume ctx g => Sys2Proof.Machine.execResume ctx g s
  | .step ctx g => Sys2Proof.Machine.execStep ctx g s
  | .haltAll ctx => Sys2Proof.Machine.execHaltAll ctx s
  | .resumeAll ctx => Sys2Proof.Machine.execResumeAll ctx s
  | .haltedEvent g => Sys2Proof.Machine.execHaltedEvent g s
  | .stepDone g => Sys2Proof.Machine.execStepDone g s
  | .dbgDataRead => Sys2Proof.Machine.execDbgDataRead s
  | .dbgDataWrite v => Sys2Proof.Machine.execDbgDataWrite v s
  | .dbgEvtPcRead ctx => Sys2Proof.Machine.execDbgEvtPcRead ctx s
  | .tokenSubmit => Sys2Proof.Machine.execTokenSubmit s
  | .tokenVerifyDone => Sys2Proof.Machine.execTokenVerifyDone s
  | .relock => Sys2Proof.Machine.execRelock s
  | .dbgTransaction op off data => Sys2Proof.Machine.execDbgTransaction op off data s
  | .requestUpdate => Sys2Proof.Machine.execRequestUpdate s
  | .fwImageVerify image => Sys2Proof.Machine.execFwImageVerify image s
  | .fwFlashWriteDone => Sys2Proof.Machine.execFwFlashWriteDone s
  | .fwRecoveryFetch image => Sys2Proof.Machine.execFwRecoveryFetch image s
  | .fwRecoveryTimeout => Sys2Proof.Machine.execFwRecoveryTimeout s
  | .getVersion => Sys2Proof.Machine.execGetVersion s
  | .getCapabilities => Sys2Proof.Machine.execGetCapabilities s
  | .negotiateAlgorithms base hash => Sys2Proof.Machine.execNegotiateAlgorithms base hash s
  | .getDigests => Sys2Proof.Machine.execGetDigests s
  | .getCertificate slot off len => Sys2Proof.Machine.execGetCertificate slot off len s
  | .challenge slot nonce => Sys2Proof.Machine.execChallenge slot nonce s
  | .getMeasurements nonce => Sys2Proof.Machine.execGetMeasurements nonce s
  | .mctpControl typ body => Sys2Proof.Machine.execMctpControl typ body s
  | .pldmBase cmd => Sys2Proof.Machine.execPldmBase cmd s
  | .pldmSensorRead sensor => Sys2Proof.Machine.execPldmSensorRead sensor s
  | .setModuleNumber n => Sys2Proof.Machine.execSetModuleNumber n s
  | .moduleReset => Sys2Proof.Machine.execModuleReset s
  | .mgmtResetExpire => Sys2Proof.Machine.execMgmtResetExpire s
  | .readRetirement stack => Sys2Proof.Machine.execReadRetirement stack s
  | .readFuseMap => Sys2Proof.Machine.execReadFuseMap s
  | .writeCalibration body interrupted => Sys2Proof.Machine.execWriteCalibration body interrupted s
  | .readCalibration => Sys2Proof.Machine.execReadCalibration s
  | .readRecoveryLog => Sys2Proof.Machine.execReadRecoveryLog s
  | .leakDetect => Sys2Proof.Machine.execLeakDetect s
  | .vectorEngineInstruction g op rd ra rb rc found => Sys2Proof.Machine.execVectorEngineInstruction g op rd ra rb rc found s
  | .ucieLinkTrained mod slow => Sys2Proof.Machine.execUcieLinkTrained mod slow s
  | .stampLockExpire => Sys2Proof.Machine.execStampLockExpire s
  | .fabEndedEntryExpire src xfer => Sys2Proof.Machine.execFabEndedEntryExpire src xfer s
  | .containWindowExpire cluster => Sys2Proof.Machine.execContainWindowExpire cluster s

end Sys2Proof.Machine
end

