-- ==== Sys2Proof/Safety.lean ====
section
/-! DEFINITION. What claims about every step speak of. -/

namespace Sys2Proof.Machine

/-- Stack memory, T-die memory and the table of line attributes are in canonical form: their addresses strictly rise. -/
def State.canonical (s : State) : Prop :=
  Memory.wf s.mem = true ∧ Memory.wf s.hostMem = true ∧ rising s.lines = true

/-- A command runs: it answers a next state, of which `p` holds. -/
def Runs (c : Instr) (s : State) (p : State → Prop) : Prop := ∃ t, exec c s = .next t ∧ p t

/-- A command that leaves memory, T-die memory and line attributes as they were. -/
def SameMemory (s t : State) : Prop := t.mem = s.mem ∧ t.lines = s.lines ∧ t.hostMem = s.hostMem

/-- A command that leaves every byte outside a range, under every key, as it was. -/
def SameBut (pa n : Nat) (s t : State) : Prop :=
  (∀ k a, (a < pa ∨ pa + n ≤ a) → t.rdByte k a = s.rdByte k a) ∧ t.hostMem = s.hostMem

/-- The sync store (14_synchronisation.md R293) and the graph store (12_shared_objects.md R263), whose layouts are internal. -/
def State.syncStore (s : State) : Nat := s.rd F.SYNC_BASE_BASE * 2 ^ 21
def State.graphStore (s : State) : Nat := s.rd F.GRAPH_STORE_BASE * 65536

/-- The versions of a graph whose current one ceases to be current at the context's next submission number
(12_shared_objects.md R265, R266). -/
def State.ceased (s : State) (c : Nat) (l : List GVer) : List GVer :=
  l.map (fun x => if x.stop.isNone then { x with stop := some (s.nextSeq c) } else x)

/-- A command as its start leaves it (13_command_submission.md R277, R278). -/
def State.begun (s : State) (c : Cmd) : Cmd :=
  { c with ph := .started, began := true, turn := s.cmd.order, replay := s.on F.REC_QPOL_REPLAY c.q }

/-- A message on its way to a home, under an access's serial, carries bytes for an address (10_coherence.md R222). -/
def Carries (t : State) (ser key a : Nat) (bs : List Byte) (pk : Poison) : Prop :=
  ∃ m ∈ t.coh.bq ++ t.coh.want, m.op = ser ∧ m.line = a / 128 ∧ m.key = key ∧ m.pk = pk ∧ m.upd = [] ∧
    ∀ i < bs.length, m.mask.getLsbD (a % 128 + i) = true ∧ m.data.extractLsb' (8 * (a % 128 + i)) 8 = bs.getD i 0

/-- A write of a register of the CMD window takes effect at once: over a host module, with no earlier access of that module
before it (04_memory_model.md R98); over the debug connector, which reaches it (21_debug.md R429). -/
def State.actsNow (s : State) (src : Src) (off bytes : Nat) (v : W64) : Prop :=
  match src with
  | .host m => s.goesNow ⟨m, .reg off bytes v⟩ = true
  | .connector => s.connectorUp = true ∧ s.connectorReach off = true

/-- An operation at an owning unit that a row of its own applies: a signal, a registration or a withdrawal (14_synchronisation.md
R294). -/
def SyncOp.byRow (o : SyncOp) : Bool := o.isSignal || o.isRegister || o.isWithdraw

/-- The state in which an access takes effect: a host's returns its module from L1 (19_power_and_clocks.md R396). -/
def State.accessed (s : State) (src : Src) : State :=
  match src with
  | .host m => s.useModule m
  | .connector => s

/-- The network-on-chip clocks run on the way between an agent of level B and a home, in both directions (R386). -/
def State.wayClear (s : State) (r h : Nat) : Prop :=
  ∀ d ∈ crossed (agentDie r) (h / 4) ++ crossed (h / 4) (agentDie r), s.on F.INT_ISL_STOPPED d = false

/-- A group may issue an instruction that names these registers: it is resident, ready, at no breakpoint, its operands are
available, and no check of a unit has an error to find. -/
def State.Issues (s : State) (g : Gid) (x : Group) (b : Block) (c : Cmd) (regs : List Nat) : Prop :=
  s.group g = some x ∧ s.block x.bid = some b ∧ s.cmdOf b.cmd = some c ∧ s.canIssue g x b = true ∧ s.breakAt x b.cmd.ctx = none ∧
    (∀ r ∈ regs, r < 8 * x.pages.length) ∧ regs.any (s.regBusy g x) = false ∧ s.finds = []

/-- The register file after a write of `v` to register `rd` of every active lane of a group, through its IRT. -/
def WroteReg (s t : State) (g : Gid) (x : Group) (rd : Nat) (v : Nat → W32) : Prop :=
  ∀ k : RfKey, aget t.thr.rf k =
    if k.lane < 32 ∧ x.active.getLsbD k.lane = true ∧ k = s.rfKey g.core (x.homeSlot g k.lane) rd k.lane then some (v k.lane)
    else aget s.thr.rf k

/-- A group after an instruction that leaves its masks: its program counter alone has gone on. -/
def WentOn (t : State) (g : Gid) (x : Group) : Prop :=
  ∃ y, t.group g = some y ∧ y.pc = Config.nextPc x.pc ∧ y.live = x.live ∧ y.active = x.active ∧ y.stack = x.stack ∧ y.wait = x.wait

/-- What an instruction that works on a group's own threads leaves as it was: memory, scratch, accesses in flight, blocks, caches,
translation, commands and engines; and, while the core's counters are off, every register of the aperture. -/
def OnlyThreads (s t : State) (g : Gid) : Prop :=
  SameMemory s t ∧ t.thr.scr = s.thr.scr ∧ t.thr.ops = s.thr.ops ∧ t.thr.blocks = s.thr.blocks ∧ t.coh = s.coh ∧ t.xlt = s.xlt ∧
    t.cmd = s.cmd ∧ t.mx = s.mx ∧ (s.on F.TAL_CTL_EN (coreSet g.core) = false → t.regs = s.regs)

/-- The other groups are as they were. -/
def OthersStay (s t : State) (g : Gid) : Prop := ∀ h, h ≠ g → t.group h = s.group h

/-- An event fires on a source of `s` that takes events while its die's clock runs: it is pending in `t`. -/
def State.Fires (s t : State) (n : Nat) : Prop :=
  s.srcMuted n = false → s.on F.INT_ISL_STOPPED (srcHome n) = false → t.on F.INT_SRC_CTL_PEND n = true

/-- The packet of a type that is taken next: of those delivered, the first that is first of its port and channel
(16_yorin_fabric.md R324). -/
def State.firstOf (s : State) (t : FabTyp) : Option Arr := s.fab.here.find? (fun a => a.pkt.typ == t && s.firstHere a)

/-- A request on its way that its home accepts at once: the clocks on its way run, the home is not under reset and has an
entry free, no requester waits there for a credit, the line is not busy, its directory set has room, and no check of a unit
has an error to find. -/
def State.Accepts (s : State) (m : BMsg) : Prop :=
  s.coh.bq.find? (fun x => x.req == m.req && x.r == m.r && x.line == m.line) = some m ∧ s.hostTurn m = true ∧ m.credit = false ∧
    aget s.rst.homes (homeOf m.line) = none ∧ (s.sharedFree (homeOf m.line)).isSome = true ∧ s.lineBusy m.line = false ∧
    s.coh.credq.all (fun c => c.1 != homeOf m.line) = true ∧ s.dirRoom m = true ∧ s.wayClear m.r (homeOf m.line) ∧ s.finds = []

end Sys2Proof.Machine
end

