-- ==== Sys2Proof/WellFormed.lean ====
section
/-! DEFINITION. Which commands are well formed: every operand names something the block has. -/

namespace Sys2Proof

namespace WellFormed

/-- A core: eight to a cluster (01_five_levels.md). -/
def coreNo (n : Nat) : Bool := n < 512

/-- A group context of a core: 64 slots (01_five_levels.md R17). -/
def gid (g : Gid) : Bool := coreNo g.core && g.slot < 64

/-- A register operand (01_five_levels.md R17). -/
def register (n : Nat) : Bool := n < 256

/-- A predicate operand: 0 to 15 (DEDUCED, log 21). -/
def predicate (n : Nat) : Bool := n < 16

/-- A cluster (02_folio.md). -/
def cluster (n : Nat) : Bool := n < 64

/-- A die (08_berim_stacks.md R165). -/
def die (n : Nat) : Bool := n < 4

/-- A context (12_shared_objects.md R251). -/
def context (n : Nat) : Bool := n < 64

/-- A stack and its home slice (08_berim_stacks.md R165; 10_coherence.md R216). -/
def home (n : Nat) : Bool := n < 16

/-- A UCIe host module, two to a die (01_five_levels.md R20). -/
def hostModule (n : Nat) : Bool := n < 8

/-- A fabric port (16_yorin_fabric.md). -/
def port (n : Nat) : Bool := n < 12

/-- A clerk, four to a die (13_command_submission.md). -/
def clerk (n : Nat) : Bool := n < 16

/-- A partition (02_folio.md R41). -/
def partition (n : Nat) : Bool := n < 16

/-- A requester of Table 10.4, or the home itself (10_coherence.md R214). -/
def agent (n : Nat) : Bool := n < 85

/-- A line of stack memory (11_translation.md R228). -/
def line (n : Nat) : Bool := 128 * n < 0x012A05F20000

/-- A partition key, or the device key (08_berim_stacks.md R178). -/
def key (n : Nat) : Bool := n ≤ 16

/-- A power domain, Table 19.1. -/
def domain (n : Nat) : Bool := n < 640

/-- A lane of a fabric port (16_yorin_fabric.md R325). -/
def lane (n : Nat) : Bool := n < 8

/-- A matrix engine of a core (05_matrix_engines.md). -/
def engine (n : Nat) : Bool := n < 2

/-- A software queue (12_shared_objects.md R251). -/
def queue (n : Nat) : Bool := n < 4096

/-- A queue slot (13_command_submission.md R274). -/
def slot (n : Nat) : Bool := n < 256

/-- A SNAP_PUSH slot (24_register_index.md R467). -/
def pushSlot (n : Nat) : Bool := n < 16

/-- A timeline (14_synchronisation.md R293). -/
def timeline (n : Nat) : Bool := n < 4096

/-- A note (14_synchronisation.md R293). -/
def note (n : Nat) : Bool := n < 65536

/-- A host watcher (14_synchronisation.md R303). -/
def watcher (n : Nat) : Bool := n < 256

/-- Bytes of a load or store (04_memory_model.md R88). -/
def accessSize (n : Nat) : Bool := n == 1 || n == 2 || n == 4 || n == 8 || n == 16

/-- An aperture offset, bits 27 to 0 (24_register_index.md R461). -/
def offset (n : Nat) : Bool := n < 0x10000000

/-- Bytes of an aperture access (24_register_index.md R464). -/
def width (n : Nat) : Bool := n == 4 || n == 8

/-- A device physical address as a host access carries it (11_translation.md R228). -/
def address (n : Nat) : Bool := n < 2 ^ 57

/-- A 16-bit number: a quire, a transfer. -/
def half (n : Nat) : Bool := n < 65536

/-- An interrupt source (15_interrupts.md R308). -/
def intSource (n : Nat) : Bool := n < 2047

/-- An interrupt target (15_interrupts.md R309). -/
def target (n : Nat) : Bool := n < 81

/-- A module of a fabric (16_yorin_fabric.md R327). -/
def moduleNumber (n : Nat) : Bool := n < 256

/-- A class of QOS_ADJ (02_folio.md R57). -/
def qosClass (n : Nat) : Bool := n < 3

/-- A class of WAY_ADJ (02_folio.md R57). -/
def wayClass (n : Nat) : Bool := n < 8

/-- A bit of RST_UNIT (18_reset.md R371). -/
def unitBit (n : Nat) : Bool := n < 33

/-- A counter set of a die (20_tally_and_ledger.md R399). -/
def counterSet (n : Nat) : Bool := n < 151

/-- The side an access comes from (24_register_index.md R465). -/
def source (s : Src) : Bool := match s with
  | .host m => hostModule m
  | .connector => true

/-- What ECC found: a sector 0 to 3 (08_berim_stacks.md R168). -/
def ecc (e : Ecc) : Bool := match e with
  | .ok => true
  | .corrected k => k < 4
  | .bad k => k < 4

end WellFormed

open WellFormed in
/-- A command whose operands are in range (DESIGN CHOICE, log 59). -/
def Instr.wf : Instr → Bool
  | .registerWrite xsrc xoff xbytes _ => source xsrc && offset xoff && width xbytes
  | .folioLoad _ _ => true
  | .folioVerifyDone => true
  | .folioDrainDone => true
  | .folioSwitchDone => true
  | .folioPersistDone => true
  | .qosAdjWrite xcls xpart _ => qosClass xcls && partition xpart
  | .wayAdjWrite xpart xcls _ => partition xpart && wayClass xcls
  | .blockPlace _ _ => true
  | .scratchZeroDone _ => true
  | .blockEnd _ => true
  | .rpush xg _ => gid xg
  | .braDiv xg xpd _ => gid xg && predicate xpd
  | .rsync xg => gid xg
  | .exit xg => gid xg
  | .sval xg xrd _ => gid xg && register xrd
  | .lvoteEvery xg xpd xps => gid xg && predicate xpd && predicate xps
  | .lvoteSome xg xpd xps => gid xg && predicate xpd && predicate xps
  | .lvoteNone xg xpd xps => gid xg && predicate xpd && predicate xps
  | .lvoteSame xg xpd xps => gid xg && predicate xpd && predicate xps
  | .lmask xg xrd xps => gid xg && register xrd && predicate xps
  | .lcount xg xrd xps => gid xg && register xrd && predicate xps
  | .lpeer xg xrd xrs => gid xg && register xrd && register xrs
  | .xchSel xg xrd xpd xrs xri _ => gid xg && register xrd && predicate xpd && register xrs && register xri
  | .xchRup xg xrd xpd xrs _ _ => gid xg && register xrd && predicate xpd && register xrs
  | .xchRdn xg xrd xpd xrs _ _ => gid xg && register xrd && predicate xpd && register xrs
  | .xchSup xg xrd xpd xrs _ _ => gid xg && register xrd && predicate xpd && register xrs
  | .xchSdn xg xrd xpd xrs _ _ => gid xg && register xrd && predicate xpd && register xrs
  | .xchMir xg xrd xpd xrs _ _ => gid xg && register xrd && predicate xpd && register xrs
  | .barBlk xg _ => gid xg
  | .barClu xg _ => gid xg
  | .lkgEnter xg _ _ xra => gid xg && register xra
  | .lkgBackoffExpire xg => gid xg
  | .lkgExit xg _ xra => gid xg && register xra
  | .regroup xg _ => gid xg
  | .regroupWaitExpire _ _ => true
  | .trap xg _ => gid xg
  | .trappedBlockEnd _ => true
  | .ld xg xrd xra xsize _ _ => gid xg && register xrd && register xra && accessSize xsize
  | .st xg xra xrs xsize _ _ => gid xg && register xra && register xrs && accessSize xsize
  | .ldAcq xg _ xrd xra xsize _ => gid xg && register xrd && register xra && accessSize xsize
  | .stRel xg _ xra xrs xsize _ => gid xg && register xra && register xrs && accessSize xsize
  | .fence xg _ => gid xg
  | .fenceSc xg _ => gid xg
  | .atomAdd xg _ _ _ _ xrd xra xrs => gid xg && register xrd && register xra && register xrs
  | .atomMin xg _ _ _ _ xrd xra xrs => gid xg && register xrd && register xra && register xrs
  | .atomMax xg _ _ _ _ xrd xra xrs => gid xg && register xrd && register xra && register xrs
  | .atomAnd xg _ _ _ _ xrd xra xrs => gid xg && register xrd && register xra && register xrs
  | .atomOr xg _ _ _ _ xrd xra xrs => gid xg && register xrd && register xra && register xrs
  | .atomXor xg _ _ _ _ xrd xra xrs => gid xg && register xrd && register xra && register xrs
  | .atomExch xg _ _ _ _ xrd xra xrs => gid xg && register xrd && register xra && register xrs
  | .atomCas xg _ _ _ _ xrd xra xrs xrt => gid xg && register xrd && register xra && register xrs && register xrt
  | .hostWrite xmod xkey xpa _ => hostModule xmod && key xkey && address xpa
  | .hostRead xmod xkey xpa _ => hostModule xmod && key xkey && address xpa
  | .mlds xg xmx _ xra => gid xg && engine xmx && register xra
  | .mmaZ xg xmx _ _ xra => gid xg && engine xmx && register xra
  | .mmaA xg xmx _ _ xra => gid xg && engine xmx && register xra
  | .mmaZS3 xg xmx _ _ xra => gid xg && engine xmx && register xra
  | .mmaAS3 xg xmx _ _ xra => gid xg && engine xmx && register xra
  | .mmaZS6 xg xmx _ _ xra => gid xg && engine xmx && register xra
  | .mmaAS6 xg xmx _ _ xra => gid xg && engine xmx && register xra
  | .mldc xg xmx _ xra => gid xg && engine xmx && register xra
  | .mstc xg xmx _ xra => gid xg && engine xmx && register xra
  | .mewZero xg _ xmx _ => gid xg && engine xmx
  | .mewCopy xg _ xmx _ _ => gid xg && engine xmx
  | .mewAdd xg _ xmx _ _ => gid xg && engine xmx
  | .mewMul xg _ xmx _ _ => gid xg && engine xmx
  | .mewAxpb xg _ xmx _ xrs xrb => gid xg && engine xmx && register xrs && register xrb
  | .mewBias xg _ xmx _ xra => gid xg && engine xmx && register xra
  | .mewMax xg _ xmx _ xrs => gid xg && engine xmx && register xrs
  | .mewMin xg _ xmx _ xrs => gid xg && engine xmx && register xrs
  | .mewCvt xg _ xmx _ => gid xg && engine xmx
  | .mwait xg _ _ => gid xg
  | .mwaitSatisfied xg => gid xg
  | .mxPipeStart xcore xmx _ => coreNo xcore && engine xmx
  | .mxAdvance xcore xmx => coreNo xcore && engine xmx
  | .mxRowAdd xcore xmx _ => coreNo xcore && engine xmx
  | .mxInstrComplete xcore xmx _ => coreNo xcore && engine xmx
  | .mxRampStepEnd xcore xmx => coreNo xcore && engine xmx
  | .redAdd xg _ _ xra xrs => gid xg && register xra && register xrs
  | .redMax xg _ _ xra xrs => gid xg && register xra && register xrs
  | .redMin xg _ _ xra xrs => gid xg && register xra && register xrs
  | .reductionApply xline xecc => line xline && ecc xecc
  | .combineBufferIdle xline => line xline
  | .stackRead xline xecc => line xline && ecc xecc
  | .stackWrite xline xkey _ _ => line xline && key xkey
  | .patrolScrub xline xecc => line xline && ecc xecc
  | .refreshTempSample xstack _ => home xstack
  | .refreshCommand xstack => home xstack
  | .stkRetireAck xstack => home xstack
  | .streamEnd xcore _ => coreNo xcore
  | .victimDrain xcluster xline => cluster xcluster && line xline
  | .gets xcore xline _ => coreNo xcore && line xline
  | .getm xcore xline _ => coreNo xcore && line xline
  | .upg xcore xline => coreNo xcore && line xline
  | .pute xcore xline => coreNo xcore && line xline
  | .putm xcore xline => coreNo xcore && line xline
  | .rdata xcore xline => coreNo xcore && line xline
  | .datas xcore xline => coreNo xcore && line xline
  | .datae xcore xline => coreNo xcore && line xline
  | .datam xcore xline => coreNo xcore && line xline
  | .grant xcore xline => coreNo xcore && line xline
  | .putack xcore xline => coreNo xcore && line xline
  | .inv xcore xline => coreNo xcore && line xline
  | .recall xcore xline => coreNo xcore && line xline
  | .down xcore xline => coreNo xcore && line xline
  | .zLineExpire xcore xline => coreNo xcore && line xline
  | .rds xr xline => agent xr && line xline
  | .rdx xr xline => agent xr && line xline
  | .upx xr xline => agent xr && line xline
  | .rdn xr xline => agent xr && line xline
  | .wbm xr xline => agent xr && line xline
  | .wrf xr xline => agent xr && line xline
  | .wrp xr xline => agent xr && line xline
  | .redu xr xline => agent xr && line xline
  | .done xr xline => agent xr && line xline
  | .dats xcluster xline => cluster xcluster && line xline
  | .datx xcluster xline => cluster xcluster && line xline
  | .gntx xcluster xline => cluster xcluster && line xline
  | .fwds xcluster xline => cluster xcluster && line xline
  | .fwdx xcluster xline => cluster xcluster && line xline
  | .wback xcluster xline => cluster xcluster && line xline
  | .rddata xr xline => agent xr && line xline
  | .wrack xr xline => agent xr && line xline
  | .retry xr xhome => agent xr && home xhome
  | .crgnt xr xhome => agent xr && home xhome
  | .sninv xcluster xline _ => cluster xcluster && line xline
  | .snfwds xcluster xline => cluster xcluster && line xline
  | .snfwdx xcluster xline => cluster xcluster && line xline
  | .snrcl xcluster xline => cluster xcluster && line xline
  | .snack xcluster xline => cluster xcluster && line xline
  | .snackd xcluster xline => cluster xcluster && line xline
  | .snmiss xcluster xline => cluster xcluster && line xline
  | .snwb xcluster xline => cluster xcluster && line xline
  | .homeTimerExpire xline xagent => line xline && agent xagent
  | .agentDeadSet xagent => agent xagent
  | .reclaimDone xhome xagent => home xhome && agent xagent
  | .walkStep xdie _ => die xdie
  | .quireTimeout xctx => context xctx
  | .htuResponse xdie _ _ => die xdie
  | .htuInvalidate _ _ _ _ => true
  | .invRange xctx _ _ _ => context xctx
  | .invContext xctx _ => context xctx
  | .invAll _ => true
  | .invComplete => true
  | .resolveRetry xctx xquire => context xctx && half xquire
  | .resolveAbort xctx xquire => context xctx && half xquire
  | .blotterTailWrite xctx _ => context xctx
  | .xltCtxDisable xctx => context xctx
  | .ctxCreate => true
  | .swqCreate => true
  | .memobjCreate => true
  | .noteCreate => true
  | .timelineCreate => true
  | .graphCreate => true
  | .graphPatch => true
  | .ctxRelease => true
  | .memobjRelease => true
  | .graphRelease => true
  | .objRelease => true
  | .memobjFree _ => true
  | .graphVersionFree _ _ => true
  | .releasePointReached _ _ => true
  | .ctxDestroy => true
  | .objDestroy => true
  | .destroyDone _ _ => true
  | .ctxSave => true
  | .ctxSaveDone xctx => context xctx
  | .ctxRestore _ => true
  | .ctxAborted xctx => context xctx
  | .swqDoorbell xq _ => queue xq
  | .queueMap xq xslot => queue xq && slot xslot
  | .queueUnmap xslot _ _ => slot xslot
  | .packetParse xq => queue xq
  | .nop _ => true
  | .launch _ => true
  | .copy _ _ => true
  | .fill _ _ => true
  | .record _ => true
  | .wait _ => true
  | .signal _ => true
  | .fencePacket _ => true
  | .graphLaunch _ => true
  | .dump _ => true
  | .dumpCapture _ _ => true
  | .qenq xg xrd xrq xra => gid xg && register xrd && register xrq && register xra
  | .commandComplete _ => true
  | .commandTimeout _ => true
  | .swqResume xq => queue xq
  | .swqCmplAck xq _ => queue xq
  | .cmplFbClear xctx => context xctx
  | .timelineSignalApply xdie => die xdie
  | .noteSignalApply xdie => die xdie
  | .waitRegister xdie => die xdie
  | .waitWake _ => true
  | .waitWithdraw xdie => die xdie
  | .tlSig xsrc xtl _ => source xsrc && timeline xtl
  | .noteSig xsrc xn _ => source xsrc && note xn
  | .watchArm xsrc xw => source xsrc && watcher xw
  | .watcherFire xw => watcher xw
  | .stocktakeDue xq => queue xq
  | .stocktakeAlign xq => queue xq
  | .intEvent xsrc => intSource xsrc
  | .intClaim xt => target xt
  | .intEoi xt xsrc => target xt && intSource xsrc
  | .intSwi _ => true
  | .intTgtLoWrite xsrc _ => intSource xsrc
  | .intTgtHiWrite xsrc _ => intSource xsrc
  | .islandEdge xsrc => intSource xsrc
  | .flitReceive xport _ => port xport
  | .flitAckTimeout xport => port xport
  | .portEnable xport => port xport
  | .portRetrain xport => port xport
  | .portTrainDone xport _ xpeer xpeerPort => port xport && moduleNumber xpeer && port xpeerPort
  | .laneFail xport xlane => port xport && lane xlane
  | .packetRoute => true
  | .fabBind => true
  | .fabBindOk => true
  | .fabBindFail => true
  | .fabWrite => true
  | .fabAck => true
  | .fabEnd => true
  | .fabDone => true
  | .fabAbort => true
  | .fabReset => true
  | .fabAckTimer xsrc xxfer => moduleNumber xsrc && half xxfer
  | .fabPacketResend xxfer _ => half xxfer
  | .fabEndResend xxfer => half xxfer
  | .fabBindRetry xxfer => half xxfer
  | .fabXferStall xxfer => half xxfer
  | .fabRecvIdle xsrc xxfer => moduleNumber xsrc && half xxfer
  | .stampSyncTimer xport => port xport
  | .stampSync xport _ => port xport
  | .cblPrsntChange xport _ => port xport
  | .coreSelftestDone xcore _ => coreNo xcore
  | .heartbeatTimeout xcluster => cluster xcluster
  | .quarantineWbTimeout xcluster => cluster xcluster
  | .repartition => true
  | .clusterSelftestDone xcluster _ => cluster xcluster
  | .clerkWdt xclerk => clerk xclerk
  | .ucieDown xmod => hostModule xmod
  | .d2dDown _ => true
  | .pkgWdt => true
  | .snapEnable xctx => context xctx
  | .snapDisable xctx => context xctx
  | .snapPageCopy xctx _ _ => context xctx
  | .snapCutRequest xctx => context xctx
  | .snapCutTimer xctx => context xctx
  | .snapCutDeferExpire xctx => context xctx
  | .snapCutCopy xctx => context xctx
  | .snapCommit xctx _ => context xctx
  | .snapPushGo xslot => pushSlot xslot
  | .snapPushDone xslot => pushSlot xslot
  | .snapAdoptGo xctx _ _ => context xctx
  | .snapAdoptDone xctx => context xctx
  | .powerGoodRise => true
  | .powerGoodFall => true
  | .modResetAssert _ => true
  | .modResetRelease => true
  | .resetReleaseStep _ => true
  | .rstPartAssert _ => true
  | .partResetWbTimeout xgroup => partition xgroup
  | .partResetRelease xgroup => partition xgroup
  | .rstCore xcore => coreNo xcore
  | .rstUnitCluster xcluster => cluster xcluster
  | .rstUnitClerk xclerk => clerk xclerk
  | .rstUnitHome xhome => home xhome
  | .rstUnitPort xport => port xport
  | .rstUnitUcie xmod => hostModule xmod
  | .rstUnitDtc xdie => die xdie
  | .rstUnitCopy xdie => die xdie
  | .rstUnitSnap xdie => die xdie
  | .rstUnitLedger xdie => die xdie
  | .unitResetRelease xdie xbit => die xdie && unitBit xbit
  | .gateOff _ _ => true
  | .gateOn _ _ => true
  | .domainWakeDone xdom => domain xdom
  | .domainDrainDone xdom => domain xdom
  | .autoGateIdle xdom => domain xdom
  | .nocClockStop xdie => die xdie
  | .nocClockStart xdie => die xdie
  | .coreClockStop xcore => coreNo xcore
  | .powerLoopRun => true
  | .pwrSample _ _ => true
  | .dieTempSample xdie _ => die xdie
  | .droopDetect xcluster => cluster xcluster
  | .droopTrimDecay xcluster => cluster xcluster
  | .pwrLimitWrite _ _ => true
  | .ucieL1Entry xmod => hostModule xmod
  | .ucieL1Exit xmod => hostModule xmod
  | .counterWrap xdie xset _ => die xdie && counterSet xset
  | .talrd xg xrd _ => gid xg && register xrd
  | .talmark xg xrs => gid xg && register xrs
  | .sampleTag xg => gid xg
  | .sampleOffer xcore _ _ _ _ _ _ => coreNo xcore
  | .ledgerIntervalSample xdie => die xdie
  | .ledgerRecordWrite xdie => die xdie
  | .ledgerGapTimer xdie => die xdie
  | .ledEnable xdie => die xdie
  | .ledDisable xdie => die xdie
  | .ledArm xdie => die xdie
  | .ledFire xdie => die xdie
  | .dbgAttach xsrc xctx => source xsrc && context xctx
  | .dbgDetach xsrc xctx => source xsrc && context xctx
  | .halt xctx xg => context xctx && gid xg
  | .resume xctx xg => context xctx && gid xg
  | .step xctx xg => context xctx && gid xg
  | .haltAll xctx => context xctx
  | .resumeAll xctx => context xctx
  | .haltedEvent xg => gid xg
  | .stepDone xg => gid xg
  | .dbgDataRead => true
  | .dbgDataWrite _ => true
  | .dbgEvtPcRead xctx => context xctx
  | .tokenSubmit => true
  | .tokenVerifyDone => true
  | .relock => true
  | .dbgTransaction _ xoff _ => offset xoff
  | .requestUpdate => true
  | .fwImageVerify _ => true
  | .fwFlashWriteDone => true
  | .fwRecoveryFetch _ => true
  | .fwRecoveryTimeout => true
  | .getVersion => true
  | .getCapabilities => true
  | .negotiateAlgorithms _ _ => true
  | .getDigests => true
  | .getCertificate _ _ _ => true
  | .challenge _ _ => true
  | .getMeasurements _ => true
  | .mctpControl _ _ => true
  | .pldmBase _ => true
  | .pldmSensorRead _ => true
  | .setModuleNumber _ => true
  | .moduleReset => true
  | .mgmtResetExpire => true
  | .readRetirement xstack => home xstack
  | .readFuseMap => true
  | .writeCalibration _ _ => true
  | .readCalibration => true
  | .readRecoveryLog => true
  | .leakDetect => true
  | .vectorEngineInstruction xg _ xrd xra xrb xrc _ => gid xg && register xrd && register xra && register xrb && register xrc
  | .ucieLinkTrained xmod _ => hostModule xmod
  | .stampLockExpire => true
  | .fabEndedEntryExpire xsrc xxfer => moduleNumber xsrc && half xxfer
  | .containWindowExpire xcluster => cluster xcluster

end Sys2Proof
end

