-- ==== Sys2Proof/Certificates/Slice0/Obligations.lean ====
section
/-! DEFINITION. The statements for the provers. -/

open Sys2Proof Sys2Proof.Machine

/-- O1. A step of a state whose queue begins with c is exec of c on that state with the rest of the queue; on an empty queue the block idles (the idling is the model's choice, log 1). -/
def Obligations.StepRunsFront : Prop :=
  (∀ (c : Instr) (rest : List Instr) (s : State), s.pending = c :: rest → step s = exec c { s with pending := rest }) ∧
  (∀ s : State, s.pending = [] → step s = .next s)

/-- O2. At reset memory, T-die memory and the line attributes are in canonical form, no command waits, nothing has been sent, and READY and PEND of source 0x022 read 0. -/
def Obligations.ResetIsCanonical : Prop :=
  State.reset.canonical ∧ State.reset.pending = [] ∧ State.reset.out = [] ∧ State.reset.rd F.RST_CAUSE_READY = 0 ∧
    State.reset.rd F.INT_SRC_CTL_PEND 0x022 = 0

/-- O3. From every state whose stack memory, T-die memory and line attributes have strictly rising addresses, a step that answers a next state answers one of which the same holds. -/
def Obligations.StepKeepsCanonical : Prop :=
  ∀ s t : State, s.canonical → step s = .next t → t.canonical

/-- O4. Bytes written to lines that are neither stopped nor poisoned read back under the same key as they were written, every byte of another line reads as before under every key, and every byte outside them of a line that was stored under the same key reads as before under that key. -/
def Obligations.BytesWrittenAreRead : Prop :=
  ∀ (s : State) (k pa : Nat) (bs : List Byte),
    (∀ ln ∈ linesOf pa bs.length, s.tripped ln = false ∧ s.linePoison ln = .none) →
    (s.wrBytes k pa bs).rdBytes k pa bs.length = bs ∧
    (∀ j a : Nat, a / 128 ∉ linesOf pa bs.length → (s.wrBytes k pa bs).rdByte j a = s.rdByte j a) ∧
    ∀ a : Nat, (a < pa ∨ pa + bs.length ≤ a) → (∃ m, mget s.lines (a / 128) = some m ∧ m.wser = s.keySer k) →
      (s.wrBytes k pa bs).rdByte k a = s.rdByte k a

/-- O5. A write of a whole line clears its poison kind and stores the data; a write of less than a line to a poisoned line changes nothing. -/
def Obligations.PoisonedLineKeepsItsKind : Prop :=
  (∀ (s : State) (k ln : Nat) (bs : List Byte), s.tripped ln = false → bs.length = 128 →
    (s.wrLine k ln 0 bs).linePoison ln = .none ∧ (s.wrLine k ln 0 bs).rdBytes k (128 * ln) 128 = bs) ∧
  (∀ (s : State) (k ln off : Nat) (bs : List Byte), bs.length < 128 → s.linePoison ln ≠ .none → s.wrLine k ln off bs = s) ∧
  (∀ (s : State) (k ln : Nat) (mask : BitVec 128) (data : Line), mask ≠ BitVec.allOnes 128 → s.linePoison ln ≠ .none →
    s.wrMask k ln mask data = s)

/-- O6. A field that the device writes reads as the value cut to its width; every field of another register instance, and every field of the same register that does not overlap it, reads as before. -/
def Obligations.FieldWritten : Prop :=
  ∀ (s : State) (f : Fld) (v i j : Nat), f.lo + f.wid ≤ 64 →
    (s.wr f v i j).rd f i j = v % 2 ^ f.wid ∧
    (∀ (g : Fld) (i' j' : Nat), (f.reg, i, j) ≠ (g.reg, i', j') → (s.wr f v i j).rd g i' j' = s.rd g i' j') ∧
    (∀ g : Fld, f.reg = g.reg → (g.lo + g.wid ≤ f.lo ∨ f.lo + f.wid ≤ g.lo) → (s.wr f v i j).rd g i j = s.rd g i j)

/-- O7. While the source takes events and its die's clock runs, INT_EVENT, ISLAND_EDGE and INT_SWI make it pending, leave its other fields and every other source as they were, and leave memory alone; a source already active keeps ACTIVE. While the clock is stopped, the event is caught by the source's latch, PEND keeps its value and the island is told to wake. INT_SWI of s raises source 0x600 + s. -/
def Obligations.InterruptEvents : Prop :=
  (∀ (s : State) (n : Nat), s.srcMuted n = false → s.on F.INT_ISL_STOPPED (srcHome n) = false →
    Runs (.intEvent n) s (fun t => t.rd F.INT_SRC_CTL_PEND n = 1 ∧ t.rd F.INT_SRC_CTL_ACTIVE n = s.rd F.INT_SRC_CTL_ACTIVE n ∧
      (∀ m, m ≠ n → t.reg .INT_SRC_CTL m 0 = s.reg .INT_SRC_CTL m 0) ∧ SameMemory s t) ∧
    exec (.islandEdge n) s = exec (.intEvent n) s) ∧
  (∀ (s : State) (n : Nat), s.srcMuted n = false → s.on F.INT_ISL_STOPPED (srcHome n) = true →
    Runs (.islandEdge n) s (fun t => n ∈ t.int.latch ∧ t.rd F.INT_SRC_CTL_PEND n = s.rd F.INT_SRC_CTL_PEND n ∧
      t.rd F.INT_ISL_WAKING (srcHome n) = 1 ∧ t.out = s.out)) ∧
  (∀ (s : State) (b : Byte), s.srcMuted (0x600 + b.toNat) = false → s.on F.INT_ISL_STOPPED (srcHome (0x600 + b.toNat)) = false →
    Runs (.intSwi b) s (fun t => t.rd F.INT_SRC_CTL_PEND (0x600 + b.toNat) = 1 ∧
      (∀ m, m ≠ 0x600 + b.toNat → t.reg .INT_SRC_CTL m 0 = s.reg .INT_SRC_CTL m 0)))

/-- O8. A claim of a target takes an offered source such that every offered source has a lower PRIO, or the same PRIO and no lower number; that source is no longer pending, is active, and has the target as CLAIMER, and its number is returned. With none offered 0x7FF is returned and nothing else changes. A source claimed is offered to no target. -/
def Obligations.ClaimTakesTheBestSource : Prop :=
  (∀ (s : State) (t n : Nat), t ≤ 80 → s.best t = some n →
    s.offered n t = true ∧
    (∀ m, s.offered m t = true → m ∈ s.touched → s.rd F.INT_SRC_CTL_PRIO m < s.rd F.INT_SRC_CTL_PRIO n
      ∨ (s.rd F.INT_SRC_CTL_PRIO m = s.rd F.INT_SRC_CTL_PRIO n ∧ n ≤ m)) ∧
    Runs (.intClaim t) s (fun u => u.rd F.INT_SRC_CTL_PEND n = 0 ∧ u.rd F.INT_SRC_CTL_ACTIVE n = 1 ∧ u.rd F.INT_SRC_CTL_CLAIMER n = t ∧
      u.out.getLast? = some (.claimed t n) ∧ (∀ t', u.offered n t' = false) ∧ SameMemory s u)) ∧
  (∀ (s : State) (t : Nat), t ≤ 80 → s.best t = none → exec (.intClaim t) s = .next (s.send (.claimed t 0x7FF)) ∧ s.offers t = [])

/-- O9. An EOI from the claimer of an active source ends it; one from another target, or for a source that is not active, leaves every source as it was and sets INT_ERR.EOI, with the number in INT_ERR.SRC where no error was held, unless it is the late EOI of a former claimer, from which the freeing of a context or a partition reset took the source: that is ignored and changes nothing. -/
def Obligations.EndOfInterrupt : Prop :=
  (∀ (s : State) (t n : Nat), t ≤ 80 → n < 2047 → s.on F.INT_SRC_CTL_ACTIVE n = true → s.rd F.INT_SRC_CTL_CLAIMER n = t →
    exec (.intEoi t n) s = .next (s.wr F.INT_SRC_CTL_ACTIVE 0 n).syncLevels) ∧
  (∀ (s : State) (t n : Nat), t ≤ 80 → n < 2047 → (s.on F.INT_SRC_CTL_ACTIVE n = false ∨ s.rd F.INT_SRC_CTL_CLAIMER n ≠ t) →
    (n, t) ∉ s.int.dropped → s.on F.INT_ERR_PERMIT = false → s.on F.INT_ERR_EOI = false →
    exec (.intEoi t n) s = .next ((s.wr F.INT_ERR_SRC n).wr F.INT_ERR_EOI 1)) ∧
  (∀ (s : State) (t n : Nat), t ≤ 80 → n < 2047 → (s.on F.INT_SRC_CTL_ACTIVE n = false ∨ s.rd F.INT_SRC_CTL_CLAIMER n ≠ t) →
    (n, t) ∈ s.int.dropped → exec (.intEoi t n) s = .next s)

/-- O10. A write of INT_TGT_LO only stages its value; a write of INT_TGT_HI commits it with the high half if no bit lies outside the permit, else keeps the mask and sets INT_ERR.PERMIT; either way the stage is emptied. -/
def Obligations.TargetMaskCommit : Prop :=
  (∀ (s : State) (n : Nat) (v : W64), n < 2047 →
    exec (.intTgtLoWrite n v) s = .next { s with int := { s.int with staged := aput s.int.staged n v } }) ∧
  (∀ (s : State) (n : Nat) (lo : W64) (hi : BitVec 17), n < 2047 → aget s.int.staged n = some lo →
    BitVec.ofNat 128 (lo.toNat + hi.toNat * 2 ^ 64) &&& ~~~ s.permit n = 0 →
    Runs (.intTgtHiWrite n hi) s (fun t => t.srcMask n = BitVec.ofNat 128 (lo.toNat + hi.toNat * 2 ^ 64) ∧
      aget t.int.staged n = none ∧ SameMemory s t)) ∧
  (∀ (s : State) (n : Nat) (lo : W64) (hi : BitVec 17), n < 2047 → aget s.int.staged n = some lo →
    BitVec.ofNat 128 (lo.toNat + hi.toNat * 2 ^ 64) &&& ~~~ s.permit n ≠ 0 →
    Runs (.intTgtHiWrite n hi) s (fun t => t.srcMask n = s.srcMask n ∧ aget t.int.staged n = none ∧ t.on F.INT_ERR_PERMIT = true))

/-- O11. Where every target's request level is high exactly while a source is offered to it, the same holds after INT_EVENT, INT_CLAIM, INT_EOI, INT_SWI, INT_TGT_LO_WRITE, INT_TGT_HI_WRITE and ISLAND_EDGE; and for every level that changed a level message was sent, by the way of its target. -/
def Obligations.LevelsFollowOffers : Prop :=
  ∀ (s t : State) (c : Instr), (∀ k < 81, s.int.high.getLsbD k = s.level k) →
    ((∃ n, c = .intEvent n) ∨ (∃ k, c = .intClaim k) ∨ (∃ k n, c = .intEoi k n) ∨ (∃ b, c = .intSwi b) ∨
      (∃ n v, c = .intTgtLoWrite n v) ∨ (∃ n v, c = .intTgtHiWrite n v) ∨ (∃ n, c = .islandEdge n)) →
    exec c s = .next t →
    (∀ k < 81, t.int.high.getLsbD k = t.level k) ∧
    (∀ k < 81, s.level k ≠ t.level k → Out.level k (t.level k) (t.levelVia k) ∈ t.out)

/-- O12. LOAD while a load is in progress sets BUSY_HIT and changes nothing but the fields FORCE and PERSIST it writes; in IDLE it enters VERIFY with the flags of the load. VERIFY enters DRAIN with the folio of an image that passes every check, and otherwise ends the load with the first failing check in ERR, nothing applied. DRAIN without FORCE enters SWITCH where no affected context is left, and otherwise ends the load with BUSY. SWITCH puts the folio in force and goes to PERSIST where it is to persist. PERSIST fills the spare slot, makes it the boot slot and ends the load: IDLE, DONE. -/
def Obligations.FolioLoad : Prop :=
  (∀ (s : State) (f p : Bool), s.rd F.FOLIO_STAT_PHASE ≠ phIdle → exec (.folioLoad f p) s =
    .next (((s.wr F.FOLIO_CTL_FORCE (b2n f)).wr F.FOLIO_CTL_PERSIST (b2n p)).wr F.FOLIO_STAT_BUSY_HIT 1)) ∧
  (∀ (s : State) (f p : Bool), s.rd F.FOLIO_STAT_PHASE = phIdle →
    Runs (.folioLoad f p) s (fun t => t.rd F.FOLIO_STAT_PHASE = phVerify ∧ t.fol.force = f ∧ t.fol.persist = p ∧
      t.rd F.FOLIO_CTL_FORCE = b2n f ∧ t.rd F.FOLIO_CTL_PERSIST = b2n p ∧
      t.fol.cur = s.fol.cur ∧ SameMemory s t)) ∧
  (∀ (s : State) (img : List Byte), s.rd F.FOLIO_STAT_PHASE = phVerify → s.folioCheck s.staged = (feNone, img) →
    exec .folioVerifyDone s = .next (({ s with fol := { s.fol with img := img, next := some (folioIn img) } }).wr F.FOLIO_STAT_PHASE phDrain)) ∧
  (∀ (s : State) (e : Nat) (img : List Byte), s.rd F.FOLIO_STAT_PHASE = phVerify → s.folioCheck s.staged = (e, img) → e ≠ feNone →
    e < 16 → Runs .folioVerifyDone s (fun t => t.rd F.FOLIO_STAT_ERR = e ∧ t.rd F.FOLIO_STAT_PHASE = phIdle ∧
      t.rd F.FOLIO_STAT_DONE = 1 ∧ t.fol.cur = s.fol.cur ∧ t.fol.next = none)) ∧
  (∀ (s : State) (f : Folio), s.rd F.FOLIO_STAT_PHASE = phDrain → s.fol.next = some f → s.fol.force = false →
    (s.affectedCtxs f = [] → exec .folioDrainDone s = .next (s.wr F.FOLIO_STAT_PHASE phSwitch)) ∧
    (s.affectedCtxs f ≠ [] → Runs .folioDrainDone s (fun t => t.rd F.FOLIO_STAT_ERR = feBusy ∧ t.rd F.FOLIO_STAT_PHASE = phIdle ∧
      t.fol.cur = s.fol.cur))) ∧
  (∀ (s : State) (f : Folio), s.rd F.FOLIO_STAT_PHASE = phSwitch → s.fol.next = some f → s.fol.persist = true →
    s.affectedCtxs f = [] → f.clusters = s.fol.cur.clusters → s.fol.quarAt = [] → f.raise = false →
    Runs .folioSwitchDone s (fun t => t.fol.cur = f ∧ t.rd F.FOLIO_STAT_PHASE = phPersist ∧
      (∀ n < 4, t.rd F.FOLIO_ID_ID n = leAt f.ident (8 * n) 8) ∧ SameMemory s t)) ∧
  (∀ s : State, s.rd F.FOLIO_STAT_PHASE = phPersist → s.sec.writing = 0 → s.fol.boot = some false →
    Runs .folioPersistDone s (fun t => t.fol.slot1 = s.fol.img ∧ t.fol.slot0 = s.fol.slot0 ∧ t.fol.boot = some true ∧
      t.rd F.FOLIO_STAT_PHASE = phIdle ∧ t.rd F.FOLIO_STAT_DONE = 1 ∧ t.fol.cur = s.fol.cur))

/-- O13. A write to QOS_ADJ or WAY_ADJ of an existing partition sets ADJ_DROP during SWITCH; outside it, it takes effect where the share lies in [MIN, MAX] and the class sums to at most 256, or where the mask is not zero and within the permitted mask, and otherwise sets ADJ_REJ. Nothing else changes. -/
def Obligations.RuntimeAdjustment : Prop :=
  (∀ (s : State) (c p : Nat) (v : Byte), c < 3 → (s.partDef p).isSome = true →
    (s.rd F.FOLIO_STAT_PHASE = phSwitch → exec (.qosAdjWrite c p v) s = .next (s.wr F.FOLIO_STAT_ADJ_DROP 1)) ∧
    (s.rd F.FOLIO_STAT_PHASE ≠ phSwitch → s.rd F.QOS_ADJ_MIN c p ≤ v.toNat → v.toNat ≤ s.rd F.QOS_ADJ_MAX c p →
      ((s.fol.cur.defs.filter (fun e => e.1 != p)).map (fun e => s.rd F.QOS_ADJ_SHARE c e.1)).sum + v.toNat ≤ 256 →
      exec (.qosAdjWrite c p v) s = .next (s.wr F.QOS_ADJ_SHARE v.toNat c p)) ∧
    (s.rd F.FOLIO_STAT_PHASE ≠ phSwitch → (v.toNat < s.rd F.QOS_ADJ_MIN c p ∨ s.rd F.QOS_ADJ_MAX c p < v.toNat ∨
      256 < ((s.fol.cur.defs.filter (fun e => e.1 != p)).map (fun e => s.rd F.QOS_ADJ_SHARE c e.1)).sum + v.toNat) →
      exec (.qosAdjWrite c p v) s = .next (s.wr F.FOLIO_STAT_ADJ_REJ 1))) ∧
  (∀ (s : State) (c p : Nat) (m : BitVec 16), c < 8 → (s.partDef p).isSome = true →
    (s.rd F.FOLIO_STAT_PHASE = phSwitch → exec (.wayAdjWrite p c m) s = .next (s.wr F.FOLIO_STAT_ADJ_DROP 1)) ∧
    (s.rd F.FOLIO_STAT_PHASE ≠ phSwitch → m ≠ 0 → m &&& ~~~ BitVec.ofNat 16 (s.rd F.WAY_ADJ_PERMIT p c) = 0 →
      exec (.wayAdjWrite p c m) s = .next (s.wr F.WAY_ADJ_MASK m.toNat p c)) ∧
    (s.rd F.FOLIO_STAT_PHASE ≠ phSwitch → (m = 0 ∨ m &&& ~~~ BitVec.ofNat 16 (s.rd F.WAY_ADJ_PERMIT p c) ≠ 0) → exec (.wayAdjWrite p c m) s = .next (s.wr F.FOLIO_STAT_ADJ_REJ 1)))

/-- O14. A write of v to the bits of m changes a field by its access code alone: RW takes the written bits, RO and WO keep what they hold, W1C clears and W1S sets the bits written as 1; and bits outside a register's fields stay. -/
def Obligations.AccessCodes : Prop :=
  (∀ (f : Field) (old v m : W64) (k : Nat), f.lo + f.wid ≤ 64 →
    (f.write old v m).getLsbD k =
      if f.lo ≤ k ∧ k < f.lo + f.wid ∧ m.getLsbD k then
        (match f.acc with
        | .ro => old.getLsbD k
        | .wo => old.getLsbD k
        | .rw => v.getLsbD k
        | .w1c => old.getLsbD k && !v.getLsbD k
        | .w1s => old.getLsbD k || v.getLsbD k)
      else old.getLsbD k) ∧
  (∀ (d : RegDesc) (old v m : W64) (k : Nat), (∀ f ∈ d.fields, f.lo + f.wid ≤ 64 ∧ ¬ (f.lo ≤ k ∧ k < f.lo + f.wid)) →
    (d.write old v m).getLsbD k = old.getLsbD k)

/-- O15. A register write answers a next state in every state. A host register write over a module out of service, or before step 8, has no effect. A host access over a module in L1 returns it to ACTIVE, and raises its source, before it acts or is held. A host register write over a module in service acts at once in the package RST window from the end of step 8, and elsewhere at once when READY, nothing of its module is before it and the clocks of the dies it reaches run; it is held before READY and has no effect after a failed step. A connector write acts where the lock lets it reach and has no effect elsewhere. A write of XLT_PASID of context 3 changes that field alone while its EN is 0, and has no effect while EN is 1. -/
def Obligations.RegisterWrites : Prop :=
  (∀ (s : State) (src : Src) (off bytes : Nat) (v : W64), ∃ t, exec (.registerWrite src off bytes v) s = .next t) ∧
  (∀ (s : State) (m off bytes : Nat) (v : W64), (s.moduleUp m = false ∨ s.rst.step < 8) →
    exec (.registerWrite (.host m) off bytes v) s = .next s) ∧
  (∀ (s : State) (m off bytes : Nat) (v : W64), s.moduleUp m = true → 8 ≤ s.rst.step → inRstWindow off = true →
    exec (.registerWrite (.host m) off bytes v) s = .next ((s.accessed (.host m)).aperture (.host m) off bytes v)) ∧
  (∀ (s : State) (m : Nat), s.accessed (.host m) =
    if s.rd F.UCIE_STAT_STATE m = 8 then (s.wr F.UCIE_STAT_STATE 5 m).raise (0x0AC + m) else s) ∧
  (∀ (s : State) (m off bytes : Nat) (v : W64), s.moduleUp m = true → 8 ≤ s.rst.step → inRstWindow off = false →
    s.bootFailed = true → exec (.registerWrite (.host m) off bytes v) s = .next s) ∧
  (∀ (s : State) (m off bytes : Nat) (v : W64), s.moduleUp m = true → 8 ≤ s.rst.step → inRstWindow off = false →
    s.bootFailed = false → s.hostReady = false →
    exec (.registerWrite (.host m) off bytes v) s = .next (State.accessed { s with held := s.held ++ [⟨m, .reg off bytes v⟩] } (.host m))) ∧
  (∀ (s : State) (m off bytes : Nat) (v : W64), s.moduleUp m = true → 8 ≤ s.rst.step → inRstWindow off = false →
    s.bootFailed = false → s.hostReady = true → s.held = [] → s.moduleBusy m = false → s.asleep ⟨m, .reg off bytes v⟩ = [] →
    exec (.registerWrite (.host m) off bytes v) s = .next ((s.accessed (.host m)).aperture (.host m) off bytes v)) ∧
  (∀ (s : State) (off bytes : Nat) (v : W64), s.connectorUp = true →
    exec (.registerWrite .connector off bytes v) s =
      .next (if s.connectorReach off then s.aperture .connector off bytes v else s)) ∧
  (∀ (s : State) (m : Nat) (v : W64), s.moduleUp m = true → 8 ≤ s.rst.step → s.bootFailed = false → s.hostReady = true → s.held = [] →
    s.moduleBusy m = false → s.asleep ⟨m, .reg 0x100C8 8 v⟩ = [] →
    exec (.registerWrite (.host m) 0x100C8 8 v) s = .next (if s.on F.XLT_CTX_EN 3 then s.accessed (.host m)
      else (s.accessed (.host m)).setReg .XLT_PASID 3 0 ((s.reg .XLT_PASID 3 0 &&& ~~~0xFFFFF) ||| (v &&& 0xFFFFF)))) ∧
  (∀ (s : State) (v : W64), s.connectorUp = true → s.connectorReach 0x100C8 = true →
    exec (.registerWrite .connector 0x100C8 8 v) s = .next (if s.on F.XLT_CTX_EN 3 then s
      else s.setReg .XLT_PASID 3 0 ((s.reg .XLT_PASID 3 0 &&& ~~~0xFFFFF) ||| (v &&& 0xFFFFF))))

/-- O16. Where the clocks of the dies it crosses run, a host write of a full line that nothing of its module is before sends WrF to the line's home; a write within a line sends WrP with the mask of its bytes, and a read RdN, under the key of the access. The acknowledgement goes to the host when WRACK comes, and the bytes when RDDATA comes, none from a poisoned line. An access that is delivered and reaches an address at or above the end of stack memory, which Table 11.1 reserves, stops the step; over a module that cannot deliver it, an access has no effect. After a failed release step a write is acknowledged without effect and a read returns zeros. -/
def Obligations.HostMemoryAccesses : Prop :=
  (∀ (s : State) (m key pa : Nat) (data : List Byte), s.moduleUp m = true → 8 ≤ s.rst.step → s.bootFailed = false →
    stackTop < pa + data.length → exec (.hostWrite m key pa data) s = .fault .reservedAddress) ∧
  (∀ (s : State) (m key pa len : Nat), s.moduleUp m = true → 8 ≤ s.rst.step → s.bootFailed = false → stackTop < pa + len →
    exec (.hostRead m key pa len) s = .fault .reservedAddress) ∧
  (∀ (s : State) (m key pa len : Nat) (data : List Byte), s.moduleUp m = false →
    exec (.hostWrite m key pa data) s = .next s ∧ exec (.hostRead m key pa len) s = .next s) ∧
  (∀ (s : State) (m key ln : Nat) (data : List Byte), let x : BMsg := ⟨.wrF, 64 + m, ln, 3, false, key, BitVec.allOnes 128,
      BitVec.ofNat 1024 (leNat data), [], 0, .none⟩
    s.moduleUp m = true → s.hostReady = true → s.bootFailed = false →
    8 ≤ s.rst.step → s.held = [] → s.moduleBusy m = false → data.length = 128 → 128 * ln + 128 ≤ stackTop →
    s.asleep ⟨m, .mem x⟩ = [] → exec (.hostWrite m key (128 * ln) data) s = .next ((s.accessed (.host m)).sendB x)) ∧
  (∀ (s : State) (m key pa len : Nat), let x : BMsg := ⟨.rdN, 64 + m, pa / 128, 3, false, key,
      BitVec.ofNat 128 ((2 ^ len - 1) * 2 ^ (pa % 128)), 0, [], 0, .none⟩
    s.moduleUp m = true → s.hostReady = true → s.bootFailed = false →
    8 ≤ s.rst.step → s.held = [] → s.moduleBusy m = false → 0 < len → pa % 128 + len ≤ 128 → pa + len ≤ stackTop →
    s.asleep ⟨m, .mem x⟩ = [] → exec (.hostRead m key pa len) s = .next ((s.accessed (.host m)).sendB x)) ∧
  (∀ (s : State) (m ln pa : Nat) (data : List Byte) (pk : Poison), m < 8 → s.coh.bn = [.rdData (64 + m) ln pk pa data] → s.held = [] → s.wayClear (64 + m) (homeOf ln) →
    exec (.rddata (64 + m) ln) s =
      .next (({ s with coh := { s.coh with bn := [] } }).send (.hostData m pa (if pk == Poison.none then data else []) pk))) ∧
  (∀ (s : State) (m ln : Nat) (pk : Poison), m < 8 → s.coh.bn = [.wrAck (64 + m) ln pk 0] → s.held = [] → s.thr.ops = [] → s.wayClear (64 + m) (homeOf ln) →
    exec (.wrack (64 + m) ln) s =
      .next (({ s with coh := { s.coh with bn := [] } }).send (.hostAck m (128 * ln) (pk != Poison.none)))) ∧
  (∀ (s : State) (m key pa len : Nat), s.moduleUp m = true → s.bootFailed = true → 0 < len → pa % 128 + len ≤ 128 →
    exec (.hostRead m key pa len) s = .next (s.send (.hostData m pa (List.replicate len 0) .none)))

/-- O17. A transaction with an operation other than 1 and 2, or an offset that is no multiple of 8, is answered 2; one the lock refuses is answered 1; neither has any other effect. A read that the lock lets reach answers 0 with the register's value, and a write acts as a connector write and answers 0. Locked, the connector reaches DBG_LOCK, DBG_CHAL and DBG_TOK alone. -/
def Obligations.DebugTransactions : Prop :=
  (∀ (s : State) (op off : Nat) (v : W64), s.connectorUp = true → ((op ≠ 1 ∧ op ≠ 2) ∨ off % 8 ≠ 0) →
    exec (.dbgTransaction op off v) s = .next (s.send (.debug 2 0))) ∧
  (∀ (s : State) (op off : Nat) (v : W64), s.connectorUp = true → (op = 1 ∨ op = 2) → off % 8 = 0 → s.connectorReach off = false →
    exec (.dbgTransaction op off v) s = .next (s.send (.debug 1 0))) ∧
  (∀ (s : State) (off : Nat) (v : W64), s.connectorUp = true → off % 8 = 0 → s.connectorReach off = true →
    exec (.dbgTransaction 1 off v) s = .next ((s.readAt off).2.send (.debug 0 (BitVec.ofNat 64 (s.readAt off).1))) ∧
    exec (.dbgTransaction 2 off v) s = .next ((s.aperture .connector off 8 v).send (.debug 0 0))) ∧
  (∀ (s : State) (off : Nat), s.rd F.DBG_LOCK_STATE ≠ 2 → s.connectorReach off = true →
    0x44000 ≤ off ∧ off < 0x441A8)

/-- O18. A step of the release that fails records its number in FAIL_STEP and ends the accesses held; step 8 brings every UCIe host module to its active state; step 11 sets READY, after which held accesses begin. NOC_CLOCK_STOP on an idle die stops its clock, and NOC_CLOCK_START starts it: STOPPED and WAKING read 0. -/
def Obligations.ReleaseSteps : Prop :=
  (∀ s : State, s.rst.power = true → s.rst.asserted = false → s.rst.step < 11 → s.rd F.RST_CAUSE_FAIL_STEP = 0 → s.held = [] →
    exec (.resetReleaseStep false) s = .next { s.wr F.RST_CAUSE_FAIL_STEP (s.rst.step + 1) with held := [] }) ∧
  (∀ s : State, s.rst.power = true → s.rst.asserted = false → s.rst.step = 7 → s.rd F.RST_CAUSE_FAIL_STEP = 0 →
    s.rd F.RST_CAUSE_READY = 0 →
    Runs (.resetReleaseStep true) s (fun t => t.rst.step = 8 ∧ (∀ m < 8, t.rd F.UCIE_STAT_STATE m = 5) ∧ SameMemory s t)) ∧
  (∀ s : State, s.rst.power = true → s.rst.asserted = false → s.rst.step = 10 → s.rd F.RST_CAUSE_FAIL_STEP = 0 → s.held = [] →
    Runs (.resetReleaseStep true) s (fun t => t.rst.step = 11 ∧ t.rd F.RST_CAUSE_READY = 1 ∧ SameMemory s t)) ∧
  (∀ (s : State) (d : Nat), d < 4 → s.dieIdle d = true → exec (.nocClockStop d) s = .next (s.wr F.INT_ISL_STOPPED 1 d)) ∧
  (∀ (s : State) (d : Nat), d < 4 → s.on F.INT_ISL_STOPPED d = true → s.held = [] → s.int.latch = [] →
    exec (.nocClockStart d) s = .next ((s.wr F.INT_ISL_STOPPED 0 d).wr F.INT_ISL_WAKING 0 d))

/-- O19. SVAL, LMASK, LCOUNT, LPEER and an ordinary vector-engine instruction write their value to the destination register of every active lane and change no other register of any thread; the group goes on at the next program counter with its masks, other groups, memory, scratch, caches and commands as they were. An operation of a narrow format, and a conversion, write the result in the low bits of the format. A binary64 operation writes its result to the pair rd, rd + 1. A jump moves the program counter to its target. A register beyond the allocation traps with REG_RANGE, which blocks the group's block. -/
def Obligations.LaneResults : Prop :=
  (∀ (s : State) (g : Gid) (x : Group) (b : Block) (c : Cmd) (rd : Nat) (n : SvalName), s.Issues g x b c [rd] →
    Runs (.sval g rd n) s (fun t => WroteReg s t g x rd (fun l => BitVec.ofNat 32 (s.svalOf g x b l n)) ∧ WentOn t g x ∧
      OthersStay s t g ∧ OnlyThreads s t g)) ∧
  (∀ (s : State) (g : Gid) (x : Group) (b : Block) (c : Cmd) (rd ps : Nat), s.Issues g x b c [rd] →
    Runs (.lmask g rd ps) s (fun t => WroteReg s t g x rd (fun _ => BitVec.ofNat 32 ((s.trueLanes g x ps).map (2 ^ ·)).sum) ∧
      WentOn t g x ∧ OthersStay s t g ∧ OnlyThreads s t g) ∧
    Runs (.lcount g rd ps) s (fun t => WroteReg s t g x rd (fun _ => BitVec.ofNat 32 (s.trueLanes g x ps).length) ∧
      WentOn t g x ∧ OthersStay s t g ∧ OnlyThreads s t g)) ∧
  (∀ (s : State) (g : Gid) (x : Group) (b : Block) (c : Cmd) (rd rs : Nat), s.Issues g x b c [rd, rs] →
    Runs (.lpeer g rd rs) s (fun t => WroteReg s t g x rd (fun l => BitVec.ofNat 32
        (((lanesOf x.active).filter (fun j => s.getReg g x rs j == s.getReg g x rs l)).map (2 ^ ·)).sum) ∧
      WentOn t g x ∧ OthersStay s t g ∧ OnlyThreads s t g)) ∧
  (∀ (s : State) (g : Gid) (x : Group) (b : Block) (c : Cmd) (op : VecOp) (rd ra rb rc : Nat),
    s.Issues g x b c (vecRegs op rd ra rb rc) → (op = .fadd ∨ op = .fmul ∨ op = .ffma ∨ op = .fmax ∨ op = .fmin ∨ ∃ k, op = .corpin k) →
    Runs (.vectorEngineInstruction g op rd ra rb rc .none) s (fun t => WroteReg s t g x rd (s.vecResult g x c.mode op ra rb rc) ∧
      WentOn t g x ∧ OthersStay s t g ∧ OnlyThreads s t g)) ∧
  (∀ (s : State) (g : Gid) (x : Group) (b : Block) (c : Cmd) (op : VecOp) (rd ra rb rc n : Nat) (f : Nat → Nat),
    s.Issues g x b c (vecRegs op rd ra rb rc) →
    ((∃ o t, op = .float o t ∧ n = fmtBits (ffmtOf t) ∧ f = fun l => floatOp c.mode o t ((s.getReg g x ra l).toNat % 2 ^ n)
        ((s.getReg g x rb l).toNat % 2 ^ n) ((s.getReg g x rc l).toNat % 2 ^ n)) ∨
     (∃ src dst, op = .cvt src dst ∧ n = fmtBits dst ∧ f = fun l => fmtEnc (c.mode.four dst) c.mode
        (fmtDec (c.mode.four src) ((s.getReg g x ra l).toNat % 2 ^ fmtBits src)))) →
    Runs (.vectorEngineInstruction g op rd ra rb rc .none) s (fun t => ∃ v : Nat → W32, WroteReg s t g x rd v ∧
      (∀ l, (v l).toNat % 2 ^ n = f l % 2 ^ n) ∧ WentOn t g x ∧ OthersStay s t g ∧ OnlyThreads s t g)) ∧
  (∀ (s : State) (g : Gid) (x : Group) (b : Block) (c : Cmd) (op : VecOp) (rd ra rb rc : Nat) (f : W64 → W64 → W64 → W64),
    s.Issues g x b c (vecRegs op rd ra rb rc) → ((op = .dfma ∧ f = dfma) ∨ ∃ o, op = .double o ∧ f = doubleOp o) →
    Runs (.vectorEngineInstruction g op rd ra rb rc .none) s (fun t =>
      (∀ (k : RfKey) (v : W64), v = f (BitVec.ofNat 64 (s.getRegs g x ra 2 k.lane)) (BitVec.ofNat 64 (s.getRegs g x rb 2 k.lane))
          (BitVec.ofNat 64 (s.getRegs g x rc 2 k.lane)) →
        aget t.thr.rf k =
          if k.lane < 32 ∧ x.active.getLsbD k.lane = true ∧ k = s.rfKey g.core (x.homeSlot g k.lane) rd k.lane then some (v.extractLsb' 0 32)
          else if k.lane < 32 ∧ x.active.getLsbD k.lane = true ∧ k = s.rfKey g.core (x.homeSlot g k.lane) (rd + 1) k.lane
            then some (v.extractLsb' 32 32)
          else aget s.thr.rf k) ∧
      WentOn t g x ∧ OthersStay s t g ∧ OnlyThreads s t g)) ∧
  (∀ (s : State) (g : Gid) (x : Group) (b : Block) (c : Cmd) (p : Pc) (rd ra rb rc : Nat), s.Issues g x b c [] →
    Runs (.vectorEngineInstruction g (.jump p) rd ra rb rc .none) s (fun t => ∃ y, t.group g = some y ∧ y.pc = p ∧
      y.live = x.live ∧ y.active = x.active ∧ y.stack = x.stack ∧ t.thr.rf = s.thr.rf ∧ OthersStay s t g ∧ OnlyThreads s t g)) ∧
  (∀ (s : State) (g : Gid) (x : Group) (b : Block) (c : Cmd) (rd : Nat) (n : SvalName), s.Issues g x b c [] → 8 * x.pages.length ≤ rd →
    Runs (.sval g rd n) s (fun t => t.block x.bid = some { b with trapped := true } ∧ t.thr.rf = s.thr.rf))

/-- O20. A vote reads one predicate over the active lanes alone and writes its answer (every, some, none, or all alike) to the destination predicate of every active lane; the predicates of inactive lanes, every other predicate, every register and memory are as before. -/
def Obligations.Votes : Prop :=
  ∀ (s : State) (g : Gid) (x : Group) (b : Block) (c : Cmd) (pd ps : Nat), s.Issues g x b c [] → pd < 16 →
    (∀ l ∈ lanesOf x.active, ∃ h, s.group ⟨g.core, x.homeSlot g l⟩ = some h ∧ h.preds.length = 32) →
    ∀ (i : Instr) (v : Bool),
      ((i = .lvoteEvery g pd ps ∧ v = decide (∀ l ∈ lanesOf x.active, s.getPred g x ps l = true)) ∨
       (i = .lvoteSome g pd ps ∧ v = decide (∃ l ∈ lanesOf x.active, s.getPred g x ps l = true)) ∨
       (i = .lvoteNone g pd ps ∧ v = decide (∀ l ∈ lanesOf x.active, s.getPred g x ps l = false)) ∨
       (i = .lvoteSame g pd ps ∧ v = decide ((∀ l ∈ lanesOf x.active, s.getPred g x ps l = true) ∨
          (∀ l ∈ lanesOf x.active, s.getPred g x ps l = false)))) →
      Runs i s (fun t => (∀ l ∈ lanesOf x.active, t.getPred g x pd l = v) ∧
        (∀ l p, (l ∉ lanesOf x.active ∨ p ≠ pd) → p < 16 → t.getPred g x p l = s.getPred g x p l) ∧
        t.thr.rf = s.thr.rf ∧ WentOn t g x ∧ OnlyThreads s t g)

/-- O21. Each exchange takes its lane's source as Table 3.6 gives it; an active lane with a valid active source gets that lane's value and its predicate set, and every other active lane its own value with the predicate cleared; registers of inactive lanes stay. A segment size other than 2, 4, 8, 16 and 32, or an immediate not below it, traps. -/
def Obligations.Exchanges : Prop :=
  (∀ (s : State) (g : Gid) (x : Group) (b : Block) (c : Cmd) (rd pd rs ri n z : Nat), s.Issues g x b c [rd, rs, ri] →
    segOk z = true → n < z → ∀ (i : Instr) (src : Nat → Option Nat),
      ((i = .xchSel g rd pd rs ri z ∧ src = fun l => some (z * (l / z) + (s.getReg g x ri l).toNat % z)) ∨
       (i = .xchRup g rd pd rs n z ∧ src = fun l => some (z * (l / z) + (l + z - z * (l / z) - n) % z)) ∨
       (i = .xchRdn g rd pd rs n z ∧ src = fun l => some (z * (l / z) + (l - z * (l / z) + n) % z)) ∨
       (i = .xchSup g rd pd rs n z ∧ src = fun l => if z * (l / z) + n ≤ l then some (l - n) else none) ∨
       (i = .xchSdn g rd pd rs n z ∧ src = fun l => if l + n < z * (l / z) + z then some (l + n) else none) ∨
       (i = .xchMir g rd pd rs n z ∧ src = fun l => some (l ^^^ n))) →
      Runs i s (fun t => WroteReg s t g x rd (fun l => match src l with
          | some j => if x.active.getLsbD j then s.getReg g x rs j else s.getReg g x rs l
          | none => s.getReg g x rs l) ∧ WentOn t g x ∧ OnlyThreads s t g)) ∧
  (∀ (s : State) (g : Gid) (x : Group) (b : Block) (c : Cmd) (rd pd rs n z : Nat), s.Issues g x b c [rd, rs] →
    (segOk z = false ∨ z ≤ n) → Runs (.xchRup g rd pd rs n z) s (fun t => t.block x.bid = some { b with trapped := true } ∧
      t.thr.rf = s.thr.rf))

/-- O22. RPUSH pushes a SYNC entry with the active mask and its target, and traps where 32 entries are held. BRA.DIV goes on where no active lane takes it, jumps where all do, and otherwise pushes the lanes that do not take it with the next program counter and runs the others at the target. RSYNC pops the top entry. EXIT removes the active lanes from the live mask and pops the top entry. TRAP halts the block, marks the launch as trapped and stops it from placing blocks. -/
def Obligations.MaskStack : Prop :=
  (∀ (s : State) (g : Gid) (x : Group) (b : Block) (c : Cmd) (p : Pc), s.Issues g x b c [] →
    (x.stack.length < 32 → Runs (.rpush g p) s (fun t => (∃ y, t.group g = some y ∧ y.stack = ⟨.sync, x.active, p, 0, .grp⟩ :: x.stack ∧
      y.active = x.active ∧ y.live = x.live ∧ y.pc = Config.nextPc x.pc) ∧ OthersStay s t g ∧ OnlyThreads s t g)) ∧
    (32 ≤ x.stack.length → Runs (.rpush g p) s (fun t => t.block x.bid = some { b with trapped := true }))) ∧
  (∀ (s : State) (g : Gid) (x : Group) (b : Block) (c : Cmd) (pd : Nat) (p : Pc), s.Issues g x b c [] →
    ((∀ l ∈ lanesOf x.active, s.getPred g x pd l = false) → Runs (.braDiv g pd p) s (fun t => WentOn t g x ∧ OthersStay s t g ∧
      OnlyThreads s t g)) ∧
    (x.active ≠ 0 → (∀ l ∈ lanesOf x.active, s.getPred g x pd l = true) → Runs (.braDiv g pd p) s (fun t => ∃ y, t.group g = some y ∧
      y.pc = p ∧ y.active = x.active ∧ y.stack = x.stack)) ∧
    (∀ m : Mask, m ≠ 0 → m ≠ x.active → (∀ l < 32, m.getLsbD l = (x.active.getLsbD l && s.getPred g x pd l)) → x.stack.length < 32 →
      Runs (.braDiv g pd p) s (fun t => ∃ y, t.group g = some y ∧ y.pc = p ∧ y.active = m ∧
        y.stack = ⟨.pend, x.active &&& ~~~m, Config.nextPc x.pc, 0, .grp⟩ :: x.stack))) ∧
  (∀ (s : State) (g : Gid) (x : Group) (b : Block) (c : Cmd), s.Issues g x b c [] →
    (x.stack = [] → Runs (.rsync g) s (fun t => WentOn t g x)) ∧
    (∀ e r, x.stack = e :: r → e.kind ≠ .lock → Runs (.rsync g) s (fun t => (∃ y, t.group g = some y ∧ y.stack = r ∧ y.pc = e.pc ∧
      y.active = (if e.kind = .pend then e.mask else e.mask &&& x.live) ∧ y.live = x.live) ∧ OthersStay s t g ∧ OnlyThreads s t g))) ∧
  (∀ (s : State) (g : Gid) (x : Group) (b : Block) (c : Cmd) (e : SEntry) (r : List SEntry), s.Issues g x b c [] → x.stack = e :: r →
    e.kind = .pend → x.live &&& ~~~x.active ≠ 0 → s.remaining x.bid = [(g, x)] → b.cohort = none → s.thr.ops = [] →
    Runs (.exit g) s (fun t => ∃ y, t.group g = some y ∧ y.live = x.live &&& ~~~x.active ∧ y.active = e.mask &&& ~~~x.active ∧ y.pc = e.pc)) ∧
  (∀ (s : State) (g : Gid) (x : Group) (b : Block) (c : Cmd) (n : Byte), s.Issues g x b c [] →
    Runs (.trap g n) s (fun t => t.block x.bid = some { b with trapped := true } ∧
      ∃ c', t.cmdOf b.cmd = some c' ∧ c'.trapped = true ∧ c'.noMore = true))

/-- O23. A group that reaches BAR.BLK or BAR.CLU with lanes off traps its block. With every live lane active it waits at the barrier while another group of its block has not arrived, and with the arrival of the last of two both go on. -/
def Obligations.Barriers : Prop :=
  (∀ (s : State) (g : Gid) (x : Group) (b : Block) (c : Cmd) (id : Nat), s.Issues g x b c [] → x.active ≠ x.live →
    (id < 16 → Runs (.barBlk g id) s (fun t => t.block x.bid = some { b with trapped := true })) ∧
    (id < 4 → Runs (.barClu g id) s (fun t => t.block x.bid = some { b with trapped := true }))) ∧
  (∀ (s : State) (g h : Gid) (x z : Group) (b : Block) (c : Cmd) (id : Nat), s.Issues g x b c [] → x.active = x.live →
    s.remaining x.bid = [(g, x), (h, z)] → g ≠ h → s.thr.ops = [] → b.cohort = none → s.group h = some z →
    (id < 16 → z.wait = .ready → Runs (.barBlk g id) s (fun t => (∃ y, t.group g = some y ∧ y.wait = .bar id ∧
      y.pc = Config.nextPc x.pc ∧ y.active = x.active ∧ y.live = x.live) ∧ t.group h = some z ∧ SameMemory s t)) ∧
    (id < 16 → z.wait = .bar id → Runs (.barBlk g id) s (fun t => WentOn t g x ∧ t.group h = some { z with wait := .ready })) ∧
    (id < 4 → z.wait = .ready → Runs (.barClu g id) s (fun t => (∃ y, t.group g = some y ∧ y.wait = .cbar id ∧
      y.pc = Config.nextPc x.pc ∧ y.active = x.active ∧ y.live = x.live) ∧ t.group h = some z ∧ SameMemory s t)) ∧
    (id < 4 → z.wait = .cbar id → Runs (.barClu g id) s (fun t => WentOn t g x ∧ t.group h = some { z with wait := .ready })))

/-- O24. LKG.ENTER on a scratch word that reads 0 takes it for the lowest active lane: the word holds the lane's owner word, a LOCK entry with the active mask is pushed and that lane alone runs on. On a word held by another thread no lane gets it and the group waits 64 cycles, after which LKG_BACKOFF_EXPIRE makes it ready. LKG.EXIT of the last lane gives the word back as 0, pops the entry and restores its mask. -/
def Obligations.LockedSections : Prop :=
  (∀ (s : State) (g : Gid) (x : Group) (b : Block) (c : Cmd) (sc : Scope) (ra l0 va w : Nat), s.Issues g x b c [ra] → sc ≠ .grp →
    x.stack = [] → s.thr.ops = [] → (lanesOf x.active).head? = some l0 →
    (∀ l ∈ lanesOf x.active, s.laneAddr g x .scr ra l = va) → va % 4 = 0 → (∀ i < 4, (b.scrAddr (va + i)).isSome = true) →
    s.rdScr b va 4 = w → g.core < 512 → g.slot < 64 →
    (w = 0 → Runs (.lkgEnter g sc .scr ra) s (fun t => (∃ y, t.group g = some y ∧ y.active = laneBit l0 ∧
      y.stack = [⟨.lock, x.active, x.pc, x.active, sc⟩] ∧ y.pc = Config.nextPc x.pc ∧ y.wait = .ready) ∧
      t.rdScr b va 4 = ownerWord g l0 ∧ SameMemory s t)) ∧
    (w ≠ 0 → (∀ l < 32, w ≠ ownerWord g l) → Runs (.lkgEnter g sc .scr ra) s (fun t => (∃ y, t.group g = some y ∧
      y.wait = .backoff 64 ∧ y.pc = x.pc) ∧ t.rdScr b va 4 = w))) ∧
  (∀ (s : State) (g : Gid) (x : Group) (b : Block) (n : Nat), s.group g = some x → x.wait = .backoff n → x.halt = 0 →
    s.block x.bid = some b → b.trapped = false →
    exec (.lkgBackoffExpire g) s = .next (s.setGroup g { x with wait := .ready })) ∧
  (∀ (s : State) (g : Gid) (x : Group) (b : Block) (c : Cmd) (ra l va : Nat) (e : SEntry) (r : List SEntry), s.Issues g x b c [ra] →
    x.stack = e :: r → e.kind = .lock → l < 32 → x.active = laneBit l → e.pset = laneBit l → s.thr.ops = [] →
    s.laneAddr g x .scr ra l = va → va % 4 = 0 → (∀ i < 4, (b.scrAddr (va + i)).isSome = true) → s.rdScr b va 4 = ownerWord g l →
    g.core < 512 → g.slot < 64 →
    Runs (.lkgExit g .scr ra) s (fun t => (∃ y, t.group g = some y ∧ y.stack = r ∧ y.active = e.mask ∧ y.pc = Config.nextPc x.pc ∧
      y.wait = .ready) ∧ t.rdScr b va 4 = 0 ∧ SameMemory s t))

/-- O25. REGROUP of a group with every lane live, or above base depth, only goes on. One with a partial live mask waits at the point while another group of its block has not come. When the wait of the only group at a point expires, it goes on with the lanes it had. -/
def Obligations.RegroupPoints : Prop :=
  (∀ (s : State) (g : Gid) (x : Group) (b : Block) (c : Cmd) (w : Nat), s.Issues g x b c [] → x.stepping ≠ 1 →
    (x.stack ≠ [] ∨ x.live = BitVec.allOnes 32) → Runs (.regroup g w) s (fun t => WentOn t g x ∧ OthersStay s t g ∧ OnlyThreads s t g)) ∧
  (∀ (s : State) (g h : Gid) (x z : Group) (b : Block) (c : Cmd) (w : Nat), s.Issues g x b c [] → x.stepping ≠ 1 → x.stack = [] →
    x.live ≠ BitVec.allOnes 32 → 0 < w → s.remaining x.bid = [(g, x), (h, z)] → g ≠ h → z.wait = .ready → s.group h = some z →
    s.thr.ops = [] → b.cohort = none →
    Runs (.regroup g w) s (fun t => (∃ y, t.group g = some y ∧ y.wait = .regroup x.pc s.thr.serial w ∧ y.pc = x.pc ∧ y.live = x.live) ∧
      t.group h = some z ∧ SameMemory s t)) ∧
  (∀ (s : State) (g h : Gid) (x z : Group) (b : Block) (n w : Nat), s.group g = some x → s.block x.bid = some b → b.trapped = false →
    x.wait = .regroup x.pc n w → x.halt = 0 → x.stack = [] → x.live ≠ 0 → x.irt.length = 32 →
    s.remaining x.bid = [(g, x), (h, z)] → g ≠ h → z.wait = .ready → s.group h = some z → s.thr.ops = [] → b.cohort = none →
    (∃ c, s.cmdOf b.cmd = some c) → (∀ l ∈ lanesOf x.live, x.homeSlot g l = g.slot) → b.core = g.core →
    Runs (.regroupWaitExpire x.bid x.pc) s (fun t => (∃ y, t.group g = some y ∧ y.wait = .ready ∧ y.pc = Config.nextPc x.pc ∧
      y.live = x.live ∧ y.active = x.live ∧ y.irt = x.irt) ∧ t.group h = some z))

/-- O26. A block of a started launch without cohorts is placed on a core that is on, with its cluster cache, and has room, where no saved block of its context waits and no competing launch of the partition comes first by R275: it becomes resident with the next index, and the launch counts one more. SCRATCH_ZERO_DONE zeroes the block's scratch, leaves every other byte of the local stores and makes its groups ready. A block whose threads have all exited and whose work in the core is over ends: it leaves the core, its slots and pages with it, and the launch counts it; so does a trapped one that no debugger holds. -/
def Obligations.BlocksComeAndGo : Prop :=
  (∀ (s s' : State) (id : CmdId) (c : Cmd) (k i : Nat), s.cmdOf id = some c → pkOp c.pkt = opLaunch → c.ph = .started →
    lnCohort c.pkt = 0 → c.nextBlocks 1 = some ([i], false) → s.ctxState id.ctx ≠ ctxSaved → s.isSaving id.ctx = false →
    (∀ e ∈ s.obj.saved, e.1 ≠ id.ctx) → s.dom k = domOn → s.dom (512 + k / 8) = domOn → s.resizeL1 k (lnSteps c.pkt) = some s' → s'.fits k id c.pkt = true → s'.cmd = s.cmd →
    s.outranked [k] id c = false →
    Runs (.blockPlace id [k]) s (fun t => (∃ b, t.thr.blocks = s'.thr.blocks ++ [(s'.thr.serial, b)] ∧ b.cmd = id ∧ b.index = i ∧
      b.core = k ∧ b.trapped = false ∧ b.slots.length = lnGroups c.pkt) ∧ t.cmdOf id = some { c with blocks := c.blocks + 1, turn := s.cmd.order })) ∧
  (∀ (s : State) (bid : Nat) (b : Block), s.block bid = some b → b.zeroed = false → (∀ k ∈ b.gran, k < 1024) →
    Runs (.scratchZeroDone bid) s (fun t => t.block bid = some { b with zeroed := true } ∧ (∀ off n, t.rdScr b off n = 0) ∧
      (∀ a, ¬ (a / 2 ^ 20 = b.core ∧ a % 2 ^ 20 / 1024 ∈ b.gran) → mget t.thr.scr a = mget s.thr.scr a) ∧ SameMemory s t)) ∧
  (∀ (s : State) (bid : Nat) (b : Block) (c : Cmd), s.block bid = some b → s.cmdOf b.cmd = some c → s.blockQuiet bid = true →
    b.cohort = none →
    (s.remaining bid = [] → b.trapped = false → Runs (.blockEnd bid) s (fun t => t.block bid = none ∧
      (∀ e ∈ t.thr.groups, e.2.bid ≠ bid) ∧ t.cmdOf b.cmd = some { c with ended := c.ended + 1 } ∧ SameMemory s t)) ∧
    (b.trapped = true → (∀ e ∈ s.thr.groups, e.2.bid = bid → e.2.halt = 0) → Runs (.trappedBlockEnd bid) s (fun t =>
      t.block bid = none ∧ (∀ e ∈ t.thr.groups, e.2.bid ≠ bid) ∧ t.cmdOf b.cmd = some { c with ended := c.ended + 1 } ∧ SameMemory s t)))

/-- O27. With nothing of its core in flight, a 4-byte load from aligned scratch addresses, plain or acquiring, writes every active lane's register with the lane's word, and no other register; a store of one lane, plain or releasing, changes exactly the bytes it names; a fence completes at once. A misaligned access traps. The group goes on in each case but the trap, and memory is as it was. -/
def Obligations.ScratchAccesses : Prop :=
  (∀ (s : State) (g : Gid) (x : Group) (b : Block) (c : Cmd) (rd ra : Nat) (i : Instr), s.Issues g x b c (regRun rd 1 ++ [ra]) →
    (i = .ld g rd ra 4 .scr .none ∨ ∃ sc, i = .ldAcq g sc rd ra 4 .scr) → s.thr.ops = [] → s.remaining x.bid = [(g, x)] → b.cohort = none →
    ((∀ l ∈ lanesOf x.active, s.laneAddr g x .scr ra l % 4 = 0) →
      Runs i s (fun t => WroteReg s t g x rd (fun l => BitVec.ofNat 32 (s.rdScr b (s.laneAddr g x .scr ra l) 4)) ∧ WentOn t g x ∧
        t.thr.ops = [] ∧ t.thr.scr = s.thr.scr ∧ SameMemory s t)) ∧
    ((∃ l ∈ lanesOf x.active, s.laneAddr g x .scr ra l % 4 ≠ 0) → Runs i s (fun t => t.block x.bid = some { b with trapped := true } ∧
      t.thr.rf = s.thr.rf))) ∧
  (∀ (s : State) (g : Gid) (x : Group) (b : Block) (c : Cmd) (ra rs l : Nat) (i : Instr), s.Issues g x b c (regRun rs 1 ++ [ra]) →
    (i = .st g ra rs 4 .scr .none ∨ ∃ sc, i = .stRel g sc ra rs 4 .scr) → s.thr.ops = [] → s.remaining x.bid = [(g, x)] →
    b.cohort = none → l < 32 → x.active = laneBit l → s.laneAddr g x .scr ra l % 4 = 0 → (∀ k ∈ b.gran, k < 1024) →
    (b.scrAddr (s.laneAddr g x .scr ra l)).isSome = true →
    Runs i s (fun t => t.rdScr b (s.laneAddr g x .scr ra l) 4 = (s.getReg g x rs l).toNat ∧
      (∀ a, (∀ j < 4, b.scrAddr (s.laneAddr g x .scr ra l + j) ≠ some a) → mget t.thr.scr a = mget s.thr.scr a) ∧
      WentOn t g x ∧ t.thr.rf = s.thr.rf ∧ SameMemory s t)) ∧
  (∀ (s : State) (g : Gid) (x : Group) (b : Block) (c : Cmd) (sc : Scope) (i : Instr), s.Issues g x b c [] →
    (i = .fence g sc ∨ i = .fenceSc g sc) → s.thr.ops = [] → s.remaining x.bid = [(g, x)] → b.cohort = none → s.invBlocked g.core = false →
    Runs i s (fun t => WentOn t g x ∧ t.thr.ops = [] ∧ t.thr.rf = s.thr.rf ∧ SameMemory s t))

/-- O28. A 32-bit atomic of one lane on an aligned, allocated scratch word returns the old value in the destination register and stores the operation's new value (none for a compare that fails); an accumulation stores the reduction of the old value and the operand and returns nothing. Addition wraps, MIN and MAX compare by the type's signedness, AND, OR and XOR act bitwise. -/
def Obligations.ScratchAtomics : Prop :=
  (∀ (s : State) (g : Gid) (x : Group) (b : Block) (c : Cmd) (ty : AtomTy) (ord : MemOrd) (sc : Scope) (rd ra rs rt l : Nat) (i : Instr)
    (op : Nat),
    ((i = .atomAdd g ty ord sc .scr rd ra rs ∧ op = aAdd) ∨ (i = .atomMin g ty ord sc .scr rd ra rs ∧ op = aMin) ∨
     (i = .atomMax g ty ord sc .scr rd ra rs ∧ op = aMax) ∨ (i = .atomAnd g ty ord sc .scr rd ra rs ∧ op = aAnd) ∨
     (i = .atomOr g ty ord sc .scr rd ra rs ∧ op = aOr) ∨ (i = .atomXor g ty ord sc .scr rd ra rs ∧ op = aXor) ∨
     (i = .atomExch g ty ord sc .scr rd ra rs ∧ op = aExch) ∨ (i = .atomCas g ty ord sc .scr rd ra rs rt ∧ op = aCas)) →
    s.Issues g x b c [rd, ra, rs, rt] → atomBits ty = 32 → atomLegal op ty = true → s.thr.ops = [] → s.remaining x.bid = [(g, x)] →
    b.cohort = none → l < 32 → x.active = laneBit l → s.laneAddr g x .scr ra l % 4 = 0 → (∀ k ∈ b.gran, k < 1024) →
    (b.scrAddr (s.laneAddr g x .scr ra l)).isSome = true →
    Runs i s (fun t =>
      WroteReg s t g x rd (fun _ => BitVec.ofNat 32 (s.rdScr b (s.laneAddr g x .scr ra l) 4)) ∧ WentOn t g x ∧ SameMemory s t ∧
      t.rdScr b (s.laneAddr g x .scr ra l) 4 =
        (atomNew c.mode op ty (s.rdScr b (s.laneAddr g x .scr ra l) 4) (s.getReg g x rs l).toNat
          (if op = aCas then (s.getReg g x rt l).toNat else 0)).getD (s.rdScr b (s.laneAddr g x .scr ra l) 4) % 2 ^ 32)) ∧
  (∀ (s : State) (g : Gid) (x : Group) (b : Block) (c : Cmd) (ty : RedTy) (ra rs l : Nat) (i : Instr) (op : RedOp),
    ((i = .redAdd g ty .scr ra rs ∧ op = .add) ∨ (i = .redMax g ty .scr ra rs ∧ op = .max) ∨ (i = .redMin g ty .scr ra rs ∧ op = .min)) →
    s.Issues g x b c [rs, ra] → ty ≠ .bf16 → s.thr.ops = [] → s.remaining x.bid = [(g, x)] → b.cohort = none → l < 32 → x.active = laneBit l →
    s.laneAddr g x .scr ra l % 4 = 0 → (∀ k ∈ b.gran, k < 1024) → (b.scrAddr (s.laneAddr g x .scr ra l)).isSome = true →
    Runs i s (fun t => t.thr.rf = s.thr.rf ∧ WentOn t g x ∧ SameMemory s t ∧
      t.rdScr b (s.laneAddr g x .scr ra l) 4 =
        redUpdate c.mode op ty (s.rdScr b (s.laneAddr g x .scr ra l) 4) (s.getReg g x rs l).toNat % 2 ^ 32)) ∧
  (∀ (md : ArMode) (old a b : Nat), old < 2 ^ 32 → a < 2 ^ 32 →
    atomNew md aAdd .uint32 old a b = some ((old + a) % 2 ^ 32) ∧ atomNew md aMin .uint32 old a b = some (min a old) ∧
    atomNew md aMax .uint32 old a b = some (max a old) ∧ atomNew md aExch .b32 old a b = some a ∧
    atomNew md aAnd .b32 old a b = some (old &&& a) ∧ atomNew md aOr .b32 old a b = some (old ||| a) ∧
    atomNew md aXor .b32 old a b = some (old ^^^ a) ∧ atomNew md aCas .b32 old a b = (if old = a then some b else none))

/-- O29. A store of one lane whose page its core has cached with write permission and a set dirty bit, and whose line the L1 holds in M, changes exactly its bytes under the context's key; a load of one lane whose line is readable in the L1 writes the bytes there to its register. An access whose page no cache of its die holds stays in flight and a walk begins for it. An accumulation on a line of which its cluster holds no copy sends one RedU to the line's home. -/
def Obligations.DeviceAccesses : Prop :=
  (∀ (s : State) (g : Gid) (x : Group) (b : Block) (c : Cmd) (ra rs l va a : Nat) (tl : Tlb) (ln : L1Line),
    s.Issues g x b c (regRun rs 1 ++ [ra, ra + 1]) → s.thr.ops = [] → s.remaining x.bid = [(g, x)] → b.cohort = none → l < 32 →
    x.active = laneBit l → va = s.laneAddr g x .dev ra l → va % 4 = 0 → va < 2 ^ 57 → s.on F.XLT_CTX_EN b.cmd.ctx = true →
    s.on F.DBG_ATTACH_EN b.cmd.ctx = false → s.tlbHit (.micro g.core) b.cmd.ctx va = some tl → tl.host = false →
    permOk tl.r tl.w tl.a accWrite = true → tl.dirty.contains (va / levelSize tl.level) = true → a = tl.ppn * 4096 + (va - tl.vpn * 4096) →
    s.l1 g.core (a / 128) = some ln → ln.st = .M → s.kindIn (g.core / 8) (a / 128) = .none →
    aget s.thr.streams g.core = none →
    Runs (.st g ra rs 4 .dev .none) s (fun t => t.rdNat (s.ctxKey b.cmd.ctx) a 4 = (s.getReg g x rs l).toNat ∧ WentOn t g x ∧
      t.thr.ops = [] ∧ t.thr.rf = s.thr.rf ∧ (∀ j p, p / 128 ≠ a / 128 → t.rdByte j p = s.rdByte j p) ∧
      (∀ p, p / 128 = a / 128 → (p < a ∨ a + 4 ≤ p) → (∃ m, mget s.lines (a / 128) = some m ∧ m.wser = s.keySer (s.ctxKey b.cmd.ctx)) →
        t.rdByte (s.ctxKey b.cmd.ctx) p = s.rdByte (s.ctxKey b.cmd.ctx) p))) ∧
  (∀ (s : State) (g : Gid) (x : Group) (b : Block) (c : Cmd) (rd ra l va a : Nat) (tl : Tlb) (ln : L1Line),
    s.Issues g x b c (regRun rd 1 ++ [ra, ra + 1]) → s.thr.ops = [] → s.remaining x.bid = [(g, x)] → b.cohort = none → l < 32 →
    x.active = laneBit l → va = s.laneAddr g x .dev ra l → va % 4 = 0 → va < 2 ^ 57 → s.on F.XLT_CTX_EN b.cmd.ctx = true →
    s.on F.DBG_ATTACH_EN b.cmd.ctx = false → s.tlbHit (.micro g.core) b.cmd.ctx va = some tl → tl.host = false →
    permOk tl.r tl.w tl.a accRead = true → a = tl.ppn * 4096 + (va - tl.vpn * 4096) →
    s.l1 g.core (a / 128) = some ln → ln.st.loads = true → ln.old = none → s.kindIn (g.core / 8) (a / 128) = .none →
    Runs (.ld g rd ra 4 .dev .none) s (fun t =>
      WroteReg s t g x rd (fun _ => BitVec.ofNat 32 (s.rdNat (s.ctxKey b.cmd.ctx) a 4)) ∧ WentOn t g x ∧ t.thr.ops = [] ∧
      SameMemory s t)) ∧
  (∀ (s : State) (g : Gid) (x : Group) (b : Block) (c : Cmd) (rd ra l va : Nat),
    s.Issues g x b c (regRun rd 1 ++ [ra, ra + 1]) → s.thr.ops = [] → s.remaining x.bid = [(g, x)] → b.cohort = none → l < 32 →
    x.active = laneBit l → va = s.laneAddr g x .dev ra l → va % 4 = 0 → va < 2 ^ 57 → s.on F.XLT_CTX_EN b.cmd.ctx = true →
    s.on F.DBG_ATTACH_EN b.cmd.ctx = false → s.xlt.tlbs = [] → s.xlt.walks = [] →
    Runs (.ld g rd ra 4 .dev .none) s (fun t => t.thr.ops.length = 1 ∧ (∃ w, t.xlt.walks = [w] ∧ w.ctx = b.cmd.ctx ∧ w.va = va ∧
      w.acc = accRead ∧ w.die = g.core / 128) ∧ WentOn t g x ∧ t.thr.rf = s.thr.rf ∧ SameMemory s t)) ∧
  (∀ (s : State) (g : Gid) (x : Group) (b : Block) (c : Cmd) (ra rs l va a : Nat) (tl : Tlb),
    s.Issues g x b c [rs, ra, ra + 1] → s.thr.ops = [] → l < 32 →
    x.active = laneBit l → va = s.laneAddr g x .dev ra l → va % 4 = 0 → va < 2 ^ 57 → s.on F.XLT_CTX_EN b.cmd.ctx = true →
    s.on F.DBG_ATTACH_EN b.cmd.ctx = false → s.tlbHit (.micro g.core) b.cmd.ctx va = some tl → tl.host = false →
    permOk tl.r tl.w tl.a accRed = true → tl.dirty.contains (va / levelSize tl.level) = true → a = tl.ppn * 4096 + (va - tl.vpn * 4096) →
    s.coh.want = [] → s.coh.aq = [] → s.coh.ar = [] → s.l1 g.core (a / 128) = none → s.ccLine (g.core / 8) (a / 128) = none →
    Runs (.redAdd g .i32 .dev ra rs) s (fun t => t.coh.bq = s.coh.bq ++ [⟨.redU, g.core / 8, a / 128, 3, false, s.ctxKey b.cmd.ctx, 0, 0,
      [⟨a / 128, va % 128, .add, .i32, s.getReg g x rs l, s.ctxKey b.cmd.ctx, c.strict, some b.cmd⟩], s.thr.serial, .none⟩] ∧ WentOn t g x ∧
      SameMemory s t))

/-- O30. A matrix instruction that keeps the checks of R108, of a block that holds the engine, enters the tail of the engine's queue while fewer than eight are there, with the operation its mnemonic names, the descriptor or scalar registers of the lowest active lane, and the next serial; the group goes on, and registers, memory and the other engine are as they were. One that breaks a check traps, and one that finds the queue full changes nothing. -/
def Obligations.MatrixIssue : Prop :=
  (∀ (s : State) (g : Gid) (x : Group) (b : Block) (c : Cmd) (e : Engine) (i : Instr) (op : MxOp) (mx t u n ra rs rb l : Nat) (ty : MewTy),
    (lanesOf x.active).head? = some l → s.engine ⟨g.core, mx⟩ = some e → e.bid = x.bid →
    ((∃ d, d = s.tdesc g x ra l ∧ s.tdescRsv g x ra l = false ∧ s.Issues g x b c (regRun ra 8) ∧
      ((i = .mlds g mx n ra ∧ op = .lds n d) ∨ (i = .mmaZ g mx t n ra ∧ op = .mma false 0 t n d) ∨
       (i = .mmaA g mx t n ra ∧ op = .mma true 0 t n d) ∨ (i = .mmaZS3 g mx t n ra ∧ op = .mma false 3 t n d) ∨
       (i = .mmaAS3 g mx t n ra ∧ op = .mma true 3 t n d) ∨ (i = .mmaZS6 g mx t n ra ∧ op = .mma false 6 t n d) ∨
       (i = .mmaAS6 g mx t n ra ∧ op = .mma true 6 t n d) ∨ (i = .mldc g mx t ra ∧ op = .ldc t d) ∨ (i = .mstc g mx t ra ∧ op = .stc t d) ∨
       (i = .mewBias g ty mx t ra ∧ op = .ew 5 ty t 0 0 0 d))) ∨
     (s.Issues g x b c [rs, rb] ∧
      ((i = .mewZero g ty mx t ∧ op = .ew 0 ty t 0 0 0 noDesc) ∨ (i = .mewCopy g ty mx t u ∧ op = .ew 1 ty t u 0 0 noDesc) ∨
       (i = .mewAdd g ty mx t u ∧ op = .ew 2 ty t u 0 0 noDesc) ∨ (i = .mewMul g ty mx t u ∧ op = .ew 3 ty t u 0 0 noDesc) ∨
       (i = .mewAxpb g ty mx t rs rb ∧ op = .ew 4 ty t 0 (s.getReg g x rs l) (s.getReg g x rb l) noDesc) ∨
       (i = .mewMax g ty mx t rs ∧ op = .ew 6 ty t 0 (s.getReg g x rs l) 0 noDesc) ∨
       (i = .mewMin g ty mx t rs ∧ op = .ew 7 ty t 0 (s.getReg g x rs l) 0 noDesc) ∨
       (i = .mewCvt g ty mx t ∧ op = .ew 8 ty t 0 0 0 noDesc)))) →
    (e.illegal op = false → e.queue.length < 8 → Runs i s (fun t =>
      t.engine ⟨g.core, mx⟩ = some { e with queue := e.queue ++ [⟨s.thr.serial, g, b.cmd, x.bid, op⟩] } ∧ WentOn t g x ∧
      (∀ k, k ≠ ⟨g.core, mx⟩ → t.engine k = s.engine k) ∧ t.thr.rf = s.thr.rf ∧ SameMemory s t)) ∧
    (e.illegal op = false → 8 ≤ e.queue.length → exec i s = .next s) ∧
    (e.illegal op = true → Runs i s (fun t => t.block x.bid = some { b with trapped := true } ∧ t.mx = s.mx)))

/-- O31. A pipe that is free starts the oldest queued instruction of its kind whose dependences are met. Where the ramp step allows one more, an advance of an MMA between A rows counts one. Where no check has an error to find, a result row that passes the residue check is added into its tile, element by element, and no other element changes; a first failure repeats the pass. An element-wise instruction without an operand in memory completes with every element of its tile at its new value and no other tile changed. The ramp level rises with work and falls without. MWAIT makes the group wait until its matrix instructions on the named engines are complete. -/
def Obligations.MatrixPipes : Prop :=
  (∀ (s : State) (core mx : Nat) (e : Engine) (i : MxIns), s.engine ⟨core, mx⟩ = some e →
    e.queue.find? (fun j => j.op.pipe == .side) = some i → e.met i = true → s.mxReady i = true → e.side = none →
    exec (.mxPipeStart core mx .side) s = .next (s.setEngine ⟨core, mx⟩ { e with queue := e.queue.erase i, side := some i })) ∧
  (∀ (s : State) (core mx : Nat) (e : Engine) (r : MxRun) (b : Block) (acc : Bool) (sp t sh : Nat) (d : TDesc),
    s.engine ⟨core, mx⟩ = some e → s.block e.bid = some b → e.array = [r] → r.ins.op = .mma acc sp t sh d → 
    (aget s.mx.made ⟨core, mx⟩).getD 0 < 2 * (aget s.mx.level ⟨core, mx⟩).getD 0 →
    r.advanced < s.advancesOf r.ins → d.rows ≤ r.advanced / advPerRow (s.mxMode r.ins) d.fmt → s.mxWaits ⟨core, mx⟩ .array = false →
    Runs (.mxAdvance core mx) s (fun u => u.engine ⟨core, mx⟩ =
      some { e with got := adel e.got .array, array := [{ r with advanced := r.advanced + 1 }] } ∧
      aget u.mx.made ⟨core, mx⟩ = some ((aget s.mx.made ⟨core, mx⟩).getD 0 + 1) ∧ SameMemory s u)) ∧
  (∀ (s : State) (core mx : Nat) (e : Engine) (r : MxRun) (acc : Bool) (sp t sh row : Nat) (d : TDesc) (data scales : List Byte),
    s.engine ⟨core, mx⟩ = some e → e.array = [r] → r.ins.op = .mma acc sp t sh d → r.rows = [(row, data, scales)] → row < 32 →
    rowDoneAt (s.mxMode r.ins) sp d.fmt row ≤ r.advanced → r.cells.rows ≤ 32 → s.finds = [] →
    Runs (.mxRowAdd core mx true) s (fun u => ∃ e', u.engine ⟨core, mx⟩ = some e' ∧
      e'.array = [{ r with rows := [], added := r.added ++ [row] }] ∧
      (∀ j < r.cells.rows, e'.elem t row j = rowElem (s.mxMode r.ins) acc sp d r.cells data scales (e.elem t row j) j) ∧
      (∀ t' i j, j < 32 → i < 32 → (t', i) ≠ (t, row) → e'.elem t' i j = e.elem t' i j) ∧ SameMemory s u) ∧
    (r.again = false → Runs (.mxRowAdd core mx false) s (fun u => ∃ e', u.engine ⟨core, mx⟩ = some e' ∧ e'.acc = e.acc ∧
      e'.array = [{ r with rows := [], advanced := 0, again := true }]))) ∧
  (∀ (s : State) (core mx : Nat) (e : Engine) (b : Block) (i : MxIns) (op : Nat) (ty : MewTy) (t v : Nat) (sc sb : W32),
    s.engine ⟨core, mx⟩ = some e → s.block e.bid = some b → e.side = some i → i.op = .ew op ty t v sc sb noDesc → op ≠ 5 →
    s.mxWaits ⟨core, mx⟩ .side = false → rising e.acc = true → s.finds = [] →
    Runs (.mxInstrComplete core mx .side) s (fun u => ∃ e', u.engine ⟨core, mx⟩ = some e' ∧ e'.side = none ∧
      (∀ j k, j < 32 → k < 32 → e'.elem t j k = mewElem (s.mxMode i) op ty (e.elem t j k) (e.elem v j k) sc sb) ∧
      (∀ t' j k, j < 32 → k < 32 → t' ≠ t → e'.elem t' j k = e.elem t' j k) ∧ SameMemory s u)) ∧
  (∀ (s : State) (core mx l : Nat) (e : Engine), aget s.mx.level ⟨core, mx⟩ = some l → s.engine ⟨core, mx⟩ = some e →
    aget s.mx.calm ⟨core, mx⟩ = none → l < s.mxCap →
    (s.arrayFree e = false → Runs (.mxRampStepEnd core mx) s (fun u => aget u.mx.level ⟨core, mx⟩ = some (l + 1) ∧ SameMemory s u)) ∧
    (s.arrayFree e = true → 0 < l → Runs (.mxRampStepEnd core mx) s (fun u => aget u.mx.level ⟨core, mx⟩ = some (l - 1) ∧ SameMemory s u))) ∧
  (∀ (s : State) (g : Gid) (x : Group) (b : Block) (c : Cmd) (m0 m1 : Bool), s.Issues g x b c [] →
    Runs (.mwait g m0 m1) s (fun u => (∃ y, u.group g = some y ∧ y.wait = .mwait m0 m1 s.thr.serial ∧ y.pc = Config.nextPc x.pc ∧
      y.active = x.active) ∧ OthersStay s u g ∧ OnlyThreads s u g)) ∧
  (∀ (s : State) (g : Gid) (x : Group) (m0 m1 : Bool) (n : Nat), s.group g = some x → x.wait = .mwait m0 m1 n →
    ((m0 = true → s.mxOwes g 0 n = false) ∧ (m1 = true → s.mxOwes g 1 n = false) →
      exec (.mwaitSatisfied g) s = .next (s.setGroup g { x with wait := .ready })) ∧
    (m0 = true → s.mxOwes g 0 n = true → exec (.mwaitSatisfied g) s = .next s))

/-- O32. A read or a patrol scrub without a finding changes nothing. A corrected error is counted and leaves memory as it was; the first one since the log was cleared is logged with KIND 1 and its stack-local sector address, a later one sets OVF. An uncorrectable error stores the line as POISON with its bytes as they were, and logs KIND 2 for a read and KIND 3 for a scrub. A write that reaches a stack, to a line that no cache holds, stores exactly the bytes its mask names under the writer's key. REDUCTION_APPLY applies the first update queued for a line and makes the line the most recently used of its combine buffer; an update of a poisoned line is dropped. COMBINE_BUFFER_IDLE writes the line back. -/
def Obligations.StackReads : Prop :=
  (∀ (s : State) (ln : Nat), exec (.stackRead ln .ok) s = .next s ∧ exec (.patrolScrub ln .ok) s = .next s) ∧
  (∀ (s : State) (ln sec n : Nat) (i : Instr), 128 * ln < stackTop → s.tripped ln = false → s.buffered ln = false → n = homeOf ln →
    (i = .stackRead ln (.corrected sec) ∨ i = .patrolScrub ln (.corrected sec)) →
    Runs i s (fun t => t.rd F.STK_ECC_CE n = min (2 ^ 32 - 1) (s.rd F.STK_ECC_CE n + 1) ∧ t.rd F.STK_ECC_UE n = s.rd F.STK_ECC_UE n ∧
      (s.on F.STK_ELOG_VALID n = false → t.on F.STK_ELOG_VALID n = true ∧ t.rd F.STK_ELOG_KIND n = 1 ∧
        t.rd F.STK_ELOG_ADDR n = ((stackOf (128 * ln)).2 + 32 * (sec % 4)) % 2 ^ 37) ∧
      (s.on F.STK_ELOG_VALID n = true → t.on F.STK_ELOG_OVF n = true ∧ t.rd F.STK_ELOG_ADDR n = s.rd F.STK_ELOG_ADDR n) ∧
      SameMemory s t ∧ t.coh = s.coh ∧ t.thr = s.thr)) ∧
  (∀ (s : State) (ln sec n : Nat), 128 * ln < stackTop → s.tripped ln = false → s.buffered ln = false →
    n = homeOf ln → ∀ (i : Instr) (k : Nat), (i = .stackRead ln (.bad sec) ∧ k = 2 ∨ i = .patrolScrub ln (.bad sec) ∧ k = 3) →
    Runs i s (fun t => t.linePoison ln = .poison ∧ (∀ m, m ≠ ln → t.linePoison m = s.linePoison m) ∧ t.mem = s.mem ∧
      t.rd F.STK_ECC_UE n = min (2 ^ 16 - 1) (s.rd F.STK_ECC_UE n + 1) ∧
      (s.on F.STK_ELOG_VALID n = false → t.on F.STK_ELOG_VALID n = true ∧ t.rd F.STK_ELOG_KIND n = k) ∧ t.coh = s.coh)) ∧
  (∀ (s : State) (ln key : Nat) (mask : BitVec 128) (data : Line), 128 * ln < stackTop → key ≤ 16 → s.tripped ln = false →
    s.lineBusy ln = false → s.dirOf ln = none → (mask = BitVec.allOnes 128 ∨ s.linePoison ln = .none) →
    Runs (.stackWrite ln key mask data) s (fun t =>
      (∀ i < 128, mask.getLsbD i = true → t.rdByte key (128 * ln + i) = data.extractLsb' (8 * i) 8) ∧
      (∀ i < 128, mask.getLsbD i = false → (∃ m, mget s.lines ln = some m ∧ m.wser = s.keySer key) →
        t.rdByte key (128 * ln + i) = s.rdByte key (128 * ln + i)) ∧
      (∀ k a, a / 128 ≠ ln → t.rdByte k a = s.rdByte k a) ∧ t.linePoison ln = .none ∧ t.regs = s.regs)) ∧
  (∀ (s : State) (ln n a : Nat) (u : RedUpd), s.stk.upd.find? (fun u => u.line == ln) = some u → 128 * ln < stackTop →
    s.tripped ln = false → s.coh.txns = [] → s.coh.queued = [] → n = redBytes u.ty → a = 128 * ln + u.off → u.off + n ≤ 128 →
    (s.linePoison ln = .none → Runs (.reductionApply ln .ok) s (fun t => t.stk.upd = s.stk.upd.erase u ∧
      t.stk.comb.getLast? = some ⟨ln, u.key⟩ ∧
      t.rdNat u.key a n = redUpdate ⟨u.strict, false, false⟩ u.op u.ty (s.rdNat u.key a n) u.v.toNat % 2 ^ (8 * n) ∧
      (∀ k p, p / 128 ≠ ln → t.rdByte k p = s.rdByte k p) ∧ t.cmd = s.cmd ∧
      (s.on F.TAL_CTL_EN (talSet (homeOf ln / 4) (144 + homeOf ln % 4)) = false → t.regs = s.regs))) ∧
    (s.linePoison ln ≠ .none → exec (.reductionApply ln .ok) s =
      .next { s with stk := { s.stk with upd := s.stk.upd.erase u } })) ∧
  (∀ (s : State) (ln : Nat), exec (.combineBufferIdle ln) s =
    .next { s with stk := { s.stk with comb := s.stk.comb.filter (fun c => c.line != ln) } })

/-- O33. REFRESH_TEMP_SAMPLE of a stack that runs sets its TEMP, notes the level its temperature calls for (at once on the way up, 3 degrees below the edge on the way down) and sets THROTTLE from 105 degrees on; from 115 degrees on the stack trips (stated here where no context is left to abort). REFRESH_COMMAND puts the noted level, or MIN_LEVEL where that is higher, in force. An acknowledgement takes the oldest pending granule off the queue; STK_RETIRE shows the next, and the persistent list stays. -/
def Obligations.StackUpkeep : Prop :=
  (∀ (s : State) (n u : Nat), n < 16 → s.on F.STK_STAT_TRIP n = false →
    (u < 115 → Runs (.refreshTempSample n u) s (fun t => t.rd F.STK_STAT_TEMP n = u ∧
      t.on F.STK_STAT_THROTTLE n = decide (105 ≤ u) ∧ t.on F.STK_STAT_TRIP n = false ∧ t.rd F.STK_STAT_LEVEL n = s.rd F.STK_STAT_LEVEL n ∧
      (s.tableLevel n ≤ tempLevel u → t.tableLevel n = tempLevel u) ∧
      (tempLevel u < s.tableLevel n → u + 3 ≤ levelEdge (s.tableLevel n) → t.tableLevel n = tempLevel u) ∧
      (tempLevel u < s.tableLevel n → levelEdge (s.tableLevel n) < u + 3 → t.tableLevel n = s.tableLevel n) ∧
      (∀ m, m ≠ n → t.tableLevel m = s.tableLevel m ∧ t.rd F.STK_STAT_TEMP m = s.rd F.STK_STAT_TEMP m) ∧ SameMemory s t)) ∧
    (115 ≤ u → s.obj.ctxs = [] → Runs (.refreshTempSample n u) s (fun t => t.rd F.STK_STAT_TEMP n = min 255 u ∧ t.on F.STK_STAT_TRIP n = true ∧
      (∀ ln, homeOf ln = n → t.linePoison ln = .lost)))) ∧
  (∀ (s : State) (n : Nat), n < 16 → s.on F.STK_STAT_TRIP n = false → s.tableLevel n ≤ 3 →
    Runs (.refreshCommand n) s (fun t => t.rd F.STK_STAT_LEVEL n = max (s.tableLevel n) (s.rd F.STK_REFRESH_MIN_LEVEL n) ∧
      t.rd F.STK_STAT_TEMP n = s.rd F.STK_STAT_TEMP n ∧ t.stk = s.stk ∧ SameMemory s t)) ∧
  (∀ (s : State) (n g : Nat), s.stk.pend.find? (fun e => e.1 == n) = some (n, g) → g < 2 ^ 25 →
    Runs (.stkRetireAck n) s (fun t => t.stk.pend = s.stk.pend.erase (n, g) ∧ t.stk.retired = s.stk.retired ∧
      (∀ k, t.stk.pend.find? (fun e => e.1 == n) = some (n, k) → t.on F.STK_RETIRE_PENDING n = true ∧
        t.rd F.STK_RETIRE_GRANULE n = k % 2 ^ 25) ∧
      (t.stk.pend.find? (fun e => e.1 == n) = none → t.on F.STK_RETIRE_PENDING n = false) ∧ SameMemory s t ∧ t.out = s.out))

/-- O34. Where no check of a unit has an error to find, the first message in a core's channel is taken by its L1 line as Table 10.2 says: data and grants end a transient state, PutAck frees a line in write-back, Inv makes an S line stale, leaves Z, IR and IM and turns SM into IM, and Recall and Down send an Rdata, dirty where the line was modified or its PutM is still on its way, and give the line up or keep it in S. No other L1 line, cluster-cache line, level-B message, memory or register changes, and then the accesses in flight of the core are tried again. An Inv for a line that the L1 does not hold is only taken. The end of a Z window makes a Z line I. -/
def Obligations.L1Messages : Prop :=
  (∀ (s : State) (core ln : Nat) (x : L1Line) (m : AMsg) (y : Option L1Line) (d : List (Nat × Nat × Bool)) (i : Instr),
    s.coh.am.find? (fun e => e.1 == core) = some (core, ln, m) → s.l1 core ln = some x → s.finds = [] →
    ((i = .datas core ln ∧ m = .dataS ∧ x.st = .IR ∧ y = some { x with st := .S } ∧ d = []) ∨
     (i = .datae core ln ∧ m = .dataE ∧ x.st = .IR ∧ y = some { x with st := .E, old := none } ∧ d = []) ∨
     (i = .datam core ln ∧ m = .dataM ∧ x.st = .IM ∧ y = some { x with st := .M, old := none } ∧ d = []) ∨
     (i = .grant core ln ∧ m = .grant ∧ x.st = .SM ∧ y = some { x with st := .M, old := none } ∧ d = []) ∨
     (i = .putack core ln ∧ m = .putAck ∧ x.st = .WI ∧ y = none ∧ d = []) ∨
     (i = .inv core ln ∧ m = .inv ∧ x.st = .S ∧ y = some { x with st := .Z } ∧ d = []) ∨
     (i = .inv core ln ∧ m = .inv ∧ (x.st = .Z ∨ x.st = .IR ∨ x.st = .IM) ∧ y = some x ∧ d = []) ∨
     (i = .inv core ln ∧ m = .inv ∧ x.st = .SM ∧ y = some { x with st := .IM, old := none } ∧ d = []) ∨
     (i = .recall core ln ∧ m = .recall ∧ (x.st = .E ∨ x.st = .M) ∧ y = none ∧ d = [(core, ln, x.st == .M)]) ∨
     (i = .down core ln ∧ m = .down ∧ (x.st = .E ∨ x.st = .M) ∧ y = some { x with st := .S } ∧ d = [(core, ln, x.st == .M)]) ∨
     ((i = .recall core ln ∧ m = .recall ∨ i = .down core ln ∧ m = .down) ∧ x.st = .WI ∧ y = some x ∧
        d = [(core, ln, s.coh.aq.contains (core, ln, .putM))])) →
    Runs i s (fun t => ∃ u : State, t = u.retryOps core ∧ u.l1 core ln = y ∧
      (∀ k : UL, k ≠ ⟨core, ln⟩ → aget u.coh.l1 k = aget s.coh.l1 k) ∧ u.coh.am = s.coh.am.erase (core, ln, m) ∧
      u.coh.ar = s.coh.ar ++ d ∧ u.coh.aq = s.coh.aq ∧ u.coh.cc = s.coh.cc ∧ u.coh.bq = s.coh.bq ∧ u.coh.bn = s.coh.bn ∧
      SameMemory s u ∧ u.thr = s.thr ∧ u.regs = s.regs ∧ (s.coreOps core = [] → t = u))) ∧
  (∀ (s : State) (core ln : Nat), s.coh.am.find? (fun e => e.1 == core) = some (core, ln, .inv) → s.l1 core ln = none → s.finds = [] →
    exec (.inv core ln) s = .next { s with coh := { s.coh with am := s.coh.am.erase (core, ln, .inv) } }) ∧
  (∀ (s : State) (core ln : Nat),
    (s.l1St core ln = .Z → Runs (.zLineExpire core ln) s (fun t => t.l1 core ln = none ∧
      (∀ k : UL, k ≠ ⟨core, ln⟩ → aget t.coh.l1 k = aget s.coh.l1 k) ∧ t.coh.cc = s.coh.cc ∧ t.coh.am = s.coh.am ∧ SameMemory s t)) ∧
    (s.l1St core ln ≠ .Z → exec (.zLineExpire core ln) s = .next s))

/-- O35. Where no check of a unit has an error to find: a request of an L1 for a line that its cluster cache does not hold takes the lowest invalid way of its class's mask and asks the home, with RdS for GetS and RdX for GetM and Upg. A GetS of an S line, or of an O line that other L1s share, is answered DataS; of an O line of nobody else DataE; of a line that another L1 owns it sends that L1 Down. A GetM of an O line without an owner invalidates the other L1s and is answered DataM, an Upg of one Grant; of an S line they ask the home with UpX; of a line that another L1 owns GetM recalls it. PutE and PutM free the owner's copy and are answered PutAck; PutM marks the line modified. An Rdata that answers Down or Recall lets the request in hand go on. The oldest victim-cache entry that is not on its way drains to its home, and a store stream ends. -/
def Obligations.ClusterRequests : Prop :=
  (∀ (s : State) (core ln w : Nat) (i : Instr) (q : AReq) (st : BSt) (r : BReq) (k : AReq),
    s.coh.aq.find? (fun e => e.1 / 8 == core / 8 && e.2.1 == ln) = some (core, ln, q) → s.ccLine (core / 8) ln = none →
    s.ccWays (core / 8) (ccSet ln) = [] → s.coh.want = [] → s.ownWrite (core / 8) ln = false → s.finds = [] →
    ((List.range 16).filter (fun w => bitsOf (s.wayMask (core / 8) 3) w 1 == 1)).head? = some w →
    ((i = .gets core ln .none ∧ q = .getS ∧ st = .ISb ∧ r = .rdS ∧ k = .getS) ∨
     (i = .getm core ln .none ∧ q = .getM ∧ st = .IXb ∧ r = .rdX ∧ k = .getM) ∨
     (i = .upg core ln ∧ q = .upg ∧ st = .IXb ∧ r = .rdX ∧ k = .getM)) →
    Runs i s (fun t => (∃ x, t.ccLine (core / 8) ln = some x ∧ x.st = st ∧ x.way = w ∧ x.cls = 3 ∧ x.cur = some (core, k) ∧
      x.wait = .levelB ∧ x.pres = 0 ∧ x.own = none ∧ x.dirty = false) ∧ t.coh.bq = s.coh.bq ++ [ccReq (core / 8) ln 3 r] ∧
      t.coh.aq = s.coh.aq.erase (core, ln, q) ∧ t.coh.am = s.coh.am ∧ t.coh.l1 = s.coh.l1 ∧ SameMemory s t)) ∧
  (∀ (s : State) (core ln : Nat) (i : Instr) (q : AReq) (x y : CcLine) (m : List (Nat × Nat × AMsg)) (b : List BMsg),
    s.coh.aq.find? (fun e => e.1 / 8 == core / 8 && e.2.1 == ln) = some (core, ln, q) → s.ccLine (core / 8) ln = some x →
    x.cur = none → x.snoop = none → x.wait = .none → s.coh.want = [] → s.finds = [] →
    ((i = .gets core ln .none ∧ q = .getS ∧ b = [] ∧
       ((x.own = none ∧ (x.st = .S ∨ x.st = .O ∧ x.pres &&& ~~~(1#8 <<< (core % 8)) ≠ 0) ∧ m = [(core, ln, .dataS)] ∧
          y = { x with age := 0, fresh := false, pres := x.pres ||| (1#8 <<< (core % 8)) }) ∨
        (x.own = none ∧ x.st = .O ∧ x.pres &&& ~~~(1#8 <<< (core % 8)) = 0 ∧ m = [(core, ln, .dataE)] ∧
          y = { x with age := 0, fresh := false, pres := x.pres ||| (1#8 <<< (core % 8)), own := some core }) ∨
        (∃ j, x.own = some j ∧ j ≠ core ∧ x.st = .O ∧ m = [(j, ln, .down)] ∧
          y = { x with age := 0, fresh := false, cur := some (core, .getS), wait := .down }))) ∨
     ((i = .getm core ln .none ∧ q = .getM ∨ i = .upg core ln ∧ q = .upg ∧ x.pres.getLsbD (core % 8) = true) ∧ x.own = none ∧ x.st = .O ∧
        b = [] ∧ m = ((coresOf (core / 8)).filter (fun c => x.pres.getLsbD (c % 8) && c % 8 != core % 8)).map (fun c => (c, ln, .inv)) ++
          [(core, ln, if q = .upg then .grant else .dataM)] ∧ y = { x with age := 0, fresh := false, pres := 1#8 <<< (core % 8), own := some core }) ∨
     ((i = .getm core ln .none ∧ q = .getM ∨ i = .upg core ln ∧ q = .upg ∧ x.pres.getLsbD (core % 8) = true) ∧ x.own = none ∧ x.st = .S ∧
        b = [ccReq (core / 8) ln 3 .upX] ∧
        m = ((coresOf (core / 8)).filter (fun c => x.pres.getLsbD (c % 8) && c % 8 != core % 8)).map (fun c => (c, ln, .inv)) ∧
        y = { x with age := 0, fresh := false, pres := x.pres &&& (1#8 <<< (core % 8)), cur := some (core, q), st := .SXb, wait := .levelB }) ∨
     (i = .getm core ln .none ∧ q = .getM ∧ b = [] ∧ (∃ j, x.own = some j ∧ j ≠ core ∧ x.st = .O ∧
        x.pres &&& ~~~((1#8 <<< (core % 8)) ||| (1#8 <<< (j % 8))) = 0 ∧ m = [(j, ln, .recall)] ∧
        y = { x with age := 0, fresh := false, cur := some (core, .getM), wait := .recall })) ∨
     ((i = .pute core ln ∧ q = .putE ∨ i = .putm core ln ∧ q = .putM) ∧ (x.st = .S ∨ x.st = .O) ∧ x.own = some core ∧ b = [] ∧
        m = [(core, ln, .putAck)] ∧
        y = { x with own := none, stale := none, pres := x.pres &&& ~~~(1#8 <<< (core % 8)), dirty := x.dirty || q == .putM })) →
    Runs i s (fun t => t.ccLine (core / 8) ln = some y ∧ t.coh.am = s.coh.am ++ m ∧ t.coh.bq = s.coh.bq ++ b ∧
      t.coh.aq = s.coh.aq.erase (core, ln, q) ∧ t.coh.bn = s.coh.bn ∧ SameMemory s t ∧ t.thr.groups = s.thr.groups ∧
      t.thr.ops = s.thr.ops ∧ (s.on F.TAL_CTL_EN (talSet (core / 8 / 16) (128 + core / 8 % 16)) = false → t.regs = s.regs) ∧
      (∀ k : UL, k ≠ ⟨core / 8, ln⟩ → aget t.coh.cc k = aget s.coh.cc k))) ∧
  (∀ (s : State) (core k ln : Nat) (d : Bool) (x : CcLine), s.coh.ar.find? (fun e => e.1 == core && e.2.1 == ln) = some (core, ln, d) →
    s.ccLine (core / 8) ln = some x → x.snoop = none → x.own = some core → x.st = .O →
    (x.wait = .down → x.cur = some (k, .getS) → x.pres.getLsbD (core % 8) = true → core % 8 ≠ k % 8 →
      Runs (.rdata core ln) s (fun t => t.ccLine (core / 8) ln = some
        { x with wait := .none, cur := none, own := none, stale := none, pres := x.pres ||| (1#8 <<< (k % 8)), dirty := x.dirty || d } ∧ t.coh.am = s.coh.am ++ [(k, ln, .dataS)] ∧
        t.coh.ar = s.coh.ar.erase (core, ln, d) ∧ SameMemory s t)) ∧
    (x.wait = .recall → x.cur = some (k, .getM) →
      Runs (.rdata core ln) s (fun t => t.ccLine (core / 8) ln = some
        { x with wait := .none, cur := none, own := some k, stale := none, pres := 1#8 <<< (k % 8), dirty := x.dirty || d } ∧ t.coh.am = s.coh.am ++ [(k, ln, .dataM)] ∧
        t.coh.ar = s.coh.ar.erase (core, ln, d) ∧ SameMemory s t))) ∧
  (∀ (s : State) (cl ln : Nat) (x : CcLine), s.ccLine cl ln = some x → x.st = .O → x.own = none → x.pres = 0 →
    s.coh.vc.find? (fun e => e.1 == cl && (s.ccLine cl e.2).any (fun y => y.st == .O)) = some (cl, ln) →
    s.inTransit cl ln x = false → s.vcDraining cl < 8 → s.wbOut cl (homeOf ln) < 8 → s.finds = [] →
    Runs (.victimDrain cl ln) s (fun t => t.ccLine cl ln = some { x with st := .OIb, stale := none } ∧ t.coh.bn = s.coh.bn ++ [.wbM cl ln] ∧
      SameMemory s t)) ∧
  (∀ (s : State) (core k : Nat) (l : List Stream), aget s.thr.streams core = some l →
    Runs (.streamEnd core k) s (fun t => aget t.thr.streams core = some (l.eraseIdx k) ∧ t.thr.groups = s.thr.groups ∧ t.coh = s.coh ∧
      SameMemory s t))

/-- O36. Where the clocks of the dies on the way run: a request that its home accepts for a line that no cache holds gives a cluster that reads it the line in O with DatX, until its Done; answers RdN with the bytes it names; stores the bytes that WrF and WrP bring and answers WrAck; and queues the updates of RedU at the reduction unit. Where another cluster owns the line, RdS sends it SnFwdS and RdX and UpX SnFwdX with the requester as receiver, RdN SnFwdS with the home as receiver, and the others SnRcl; where clusters share it, RdS is answered DatS and adds a sharer, and RdX and UpX invalidate the other sharers. A request that finds no entry free is counted and answered Retry. Done ends a transaction that waits for nothing else, and the WbM of an owner makes its line U, stores it with the kind the owner held, and is acknowledged. -/
def Obligations.HomeRequests : Prop :=
  (∀ (s : State) (m : BMsg) (i : Instr), s.Accepts m → s.dirOf m.line = none → s.coh.queued = [] →
    ((i = .rds m.r m.line ∧ m.req = .rdS ∨ i = .rdx m.r m.line ∧ m.req = .rdX ∨ i = .upx m.r m.line ∧ m.req = .upX) →
      Runs i s (fun t => (∃ d, t.dirOf m.line = some d ∧ d.own = some m.r ∧ d.ctl = decide (m.cls ≤ 2)) ∧
        t.coh.bn = s.coh.bn ++ [.datX m.r m.line (s.linePoison m.line)] ∧ (∃ x, t.txnOf m.line = some x ∧ x.needDone = some m.r ∧ x.snoops = []) ∧
        t.coh.bq = s.coh.bq.erase m ∧ SameMemory s t)) ∧
    (i = .rdn m.r m.line → m.req = .rdN → Runs i s (fun t => t.coh.bn = s.coh.bn ++ [s.readB m] ∧ t.txnOf m.line = none ∧
      t.coh.bq = s.coh.bq.erase m ∧ t.dirOf m.line = none ∧ SameMemory s t)) ∧
    ((i = .wrf m.r m.line ∧ m.req = .wrF ∨ i = .wrp m.r m.line ∧ m.req = .wrP) → s.tripped m.line = false → m.pk = .none →
      (m.mask = BitVec.allOnes 128 ∨ s.linePoison m.line = .none) →
      Runs i s (fun t => (∀ k < 128, m.mask.getLsbD k = true → t.rdByte m.key (128 * m.line + k) = m.data.extractLsb' (8 * k) 8) ∧
        (∀ k < 128, m.mask.getLsbD k = false → (∃ a, mget s.lines m.line = some a ∧ a.wser = s.keySer m.key) →
          t.rdByte m.key (128 * m.line + k) = s.rdByte m.key (128 * m.line + k)) ∧
        (∀ k a, a / 128 ≠ m.line → t.rdByte k a = s.rdByte k a) ∧ t.coh.bn = s.coh.bn ++ [.wrAck m.r m.line .none m.op] ∧
        t.txnOf m.line = none ∧ t.coh.bq = s.coh.bq.erase m)) ∧
    (i = .redu m.r m.line → m.req = .redU → m.upd.any (fun u => u.line == m.line) = true →
      Runs i s (fun t => t.stk.upd = s.stk.upd ++ m.upd ∧ (∃ x, t.txnOf m.line = some x ∧ x.replied = true) ∧ t.coh.bn = s.coh.bn ∧
        t.coh.bq = s.coh.bq.erase m ∧ SameMemory s t))) ∧
  (∀ (s : State) (m : BMsg) (i : Instr) (d : Dir) (q rcv : Nat) (k : Snoop), s.Accepts m → s.dirOf m.line = some d → d.own = some q →
    q ≠ m.r → s.coh.queued = [] →
    ((i = .rds m.r m.line ∧ m.req = .rdS ∧ k = .fwdS ∧ rcv = m.r) ∨ (i = .rdx m.r m.line ∧ m.req = .rdX ∧ k = .fwdX ∧ rcv = m.r) ∨
     (i = .upx m.r m.line ∧ m.req = .upX ∧ k = .fwdX ∧ rcv = m.r) ∨ (i = .rdn m.r m.line ∧ m.req = .rdN ∧ k = .fwdS ∧ rcv = 84) ∨
     (i = .wrf m.r m.line ∧ m.req = .wrF ∧ k = .rcl ∧ rcv = 84) ∨ (i = .wrp m.r m.line ∧ m.req = .wrP ∧ k = .rcl ∧ rcv = 84) ∨
     (i = .redu m.r m.line ∧ m.req = .redU ∧ k = .rcl ∧ rcv = 84)) →
    Runs i s (fun t => t.coh.bn = s.coh.bn ++ [.sn k q m.line rcv] ∧ (∃ x, t.txnOf m.line = some x ∧ x.snoops = [(q, k)]) ∧
      (∃ e, t.dirOf m.line = some e ∧ e.own = some q) ∧ t.coh.bq = s.coh.bq.erase m ∧ SameMemory s t ∧ t.stk = s.stk)) ∧
  (∀ (s : State) (m : BMsg) (d : Dir), s.Accepts m → s.dirOf m.line = some d → d.own = none → m.r < 64 →
    s.coh.queued = [] →
    (m.req = .rdS → Runs (.rds m.r m.line) s (fun t => t.coh.bn = s.coh.bn ++ [.datS m.r m.line (s.linePoison m.line)] ∧
      (∃ e, t.dirOf m.line = some e ∧ e.own = none ∧ e.sharers = d.sharers ||| (1#64 <<< m.r)) ∧ SameMemory s t)) ∧
    (∀ i : Instr, (i = .rdx m.r m.line ∧ m.req = .rdX ∨ i = .upx m.r m.line ∧ m.req = .upX) →
      d.sharers &&& ~~~(1#64 <<< m.r) ≠ 0 →
      Runs i s (fun t => t.coh.bn = s.coh.bn ++ ((List.range 64).filter (fun c => d.sharers.getLsbD c && c != m.r)).map
        (fun c => .sn .inv c m.line 84) ∧ (∃ x, t.txnOf m.line = some x ∧ x.replied = false) ∧ SameMemory s t))) ∧
  (∀ (s : State) (m : BMsg), s.coh.bq.find? (fun x => x.req == m.req && x.r == m.r && x.line == m.line) = some m →
    s.hostTurn m = true → m.credit = false → aget s.rst.homes (homeOf m.line) = none → s.sharedFree (homeOf m.line) = none →
    s.wayClear m.r (homeOf m.line) →
    m.req = .rdS → Runs (.rds m.r m.line) s (fun t => t.coh.bn = s.coh.bn ++ [.retry m (homeOf m.line)] ∧
      (homeOf m.line, m.r) ∈ t.coh.credq ∧ t.coh.txns = s.coh.txns ∧ t.coh.dir = s.coh.dir ∧
      t.rd F.HS_CNT_RETRY (homeOf m.line) = min (2 ^ F.HS_CNT_RETRY.wid - 1) (s.rd F.HS_CNT_RETRY (homeOf m.line) + 1) ∧ SameMemory s t)) ∧
  (∀ (s : State) (r ln : Nat) (x : Txn), s.coh.bn.contains (.done r ln) = true → s.txnOf ln = some x → x.needDone = some r →
    x.snoops = [] → x.replied = true → x.again = false → x.msg.req ≠ .redU → s.coh.queued = [] → s.wayClear r (homeOf ln) →
    s.coh.credq.all (fun c => c.1 != homeOf ln) = true →
    Runs (.done r ln) s (fun t => t.txnOf ln = none ∧ t.coh.bn = s.coh.bn.erase (.done r ln) ∧ t.coh.dir = s.coh.dir ∧
      (∀ k, k ≠ ln → t.txnOf k = s.txnOf k) ∧ SameMemory s t)) ∧
  (∀ (s : State) (c ln : Nat) (d : Dir), s.coh.bn.contains (.wbM c ln) = true → s.txnOf ln = none → s.dirOf ln = some d →
    d.own = some c → s.coh.queued = [] → s.wayClear c (homeOf ln) →
    Runs (.wbm c ln) s (fun t => t.dirOf ln = none ∧ (∀ k, k ≠ ln → t.dirOf k = s.dirOf k) ∧
      t.coh.bn = s.coh.bn.erase (.wbM c ln) ++ [.wbAck c ln] ∧ t.mem = s.mem ∧ t.hostMem = s.hostMem ∧
      (s.tripped ln = false → t.linePoison ln = s.sentKind c ln) ∧ (∀ k, k ≠ ln → t.linePoison k = s.linePoison k)))

/-- O37. Where the clocks of the dies on the way run and no check has an error to find: DatS, DatX, GntX, FwdS and FwdX end the transient state of the line they find: Done goes out, and the request in hand is answered DataS, DataE, DataM or Grant; FwdX alone brings the line as modified. WBack frees a line in write-back. SnInv makes an S line, and SnFwdX and SnRcl an O line, invalid here and in the L1s that have it, and SnFwdS makes an O line S; each is answered as Table 10.7 says, with the data to the receiver. A requester answered Retry holds its request, and sends it with the credit once CrGnt has come. -/
def Obligations.CacheAnswers : Prop :=
  (∀ (s : State) (c ln k : Nat) (x y : CcLine) (n : BNote) (j : Snoop ⊕ Nat) (p : Poison) (m : AMsg) (i : Instr),
    s.coh.bn.find? (fun z => (z.kindFor c ln j).isSome) = some n → s.ccLine c ln = some x → s.wayHeld c ln x = false → x.own = none → x.pres = 0 → s.wayClear c (homeOf ln) →
    ((i = .dats c ln ∧ n = .datS c ln p ∧ j = .inr 0 ∧ x.st = .ISb ∧ x.cur = some (k, .getS) ∧ m = .dataS ∧
       y = { x with st := .S, dirty := false, wait := .none, cur := none, pres := 1#8 <<< (k % 8), pk := p }) ∨
     (i = .fwds c ln ∧ n = .fwdS c ln p ∧ j = .inl .fwdS ∧ x.st = .ISb ∧ x.cur = some (k, .getS) ∧ m = .dataS ∧
       y = { x with st := .S, dirty := false, wait := .none, cur := none, pres := 1#8 <<< (k % 8), pk := p }) ∨
     (i = .datx c ln ∧ n = .datX c ln p ∧ j = .inr 1 ∧ x.st = .ISb ∧ x.cur = some (k, .getS) ∧ m = .dataE ∧
       y = { x with st := .O, dirty := false, wait := .none, cur := none, pres := 1#8 <<< (k % 8), own := some k, pk := p }) ∨
     (i = .datx c ln ∧ n = .datX c ln p ∧ j = .inr 1 ∧ x.st = .IXb ∧ x.cur = some (k, .getM) ∧ m = .dataM ∧
       y = { x with st := .O, dirty := false, wait := .none, cur := none, pres := 1#8 <<< (k % 8), own := some k, pk := p }) ∨
     (i = .gntx c ln ∧ n = .gntX c ln p ∧ j = .inr 2 ∧ x.st = .SXb ∧ x.cur = some (k, .upg) ∧ m = .grant ∧
       y = { x with st := .O, dirty := false, wait := .none, cur := none, pres := 1#8 <<< (k % 8), own := some k, pk := if p = .none then x.pk else p }) ∨
     (i = .fwdx c ln ∧ n = .fwdX c ln p ∧ j = .inl .fwdX ∧ x.st = .IXb ∧ x.cur = some (k, .getM) ∧ m = .dataM ∧
       y = { x with st := .O, dirty := true, wait := .none, cur := none, pres := 1#8 <<< (k % 8), own := some k, pk := p })) →
    Runs i s (fun t => t.ccLine c ln = some y ∧ t.coh.bn = s.coh.bn.erase n ++ [.done c ln] ∧ t.coh.am = s.coh.am ++ [(k, ln, m)] ∧
      t.coh.l1 = s.coh.l1 ∧ t.coh.dir = s.coh.dir ∧ SameMemory s t ∧ t.regs = s.regs)) ∧
  (∀ (s : State) (c ln : Nat) (x : CcLine), s.coh.bn.contains (.wbAck c ln) = true → s.ccLine c ln = some x → x.st = .OIb →
    s.rcv.wb.contains c = false → s.coh.flush.contains c = false → s.wayClear c (homeOf ln) → Runs (.wback c ln) s (fun t => t.ccLine c ln = none ∧ t.coh.bn = s.coh.bn.erase (.wbAck c ln) ∧
      SameMemory s t)) ∧
  (∀ (s : State) (c ln rcv : Nat) (k : Snoop) (x : CcLine) (i : Instr) (y : Option CcLine) (a b w : List BNote),
    s.coh.bn = a ++ .sn k c ln rcv :: b → (∀ n ∈ a, ∀ v, n ≠ .sn k c ln v) → s.ccLine c ln = some x → x.own = none → x.cur = none →
    x.victim = false → s.wayClear c (homeOf ln) → s.finds = [] →
    ((i = .sninv c ln .none ∧ k = .inv ∧ rcv = 84 ∧ x.st = .S ∧ y = none ∧ w = [.snAck c ln]) ∨
     (i = .snfwds c ln ∧ k = .fwdS ∧ x.st = .O ∧ y = some { x with st := .S, dirty := false, snoop := none, stale := none } ∧
        w = (if rcv < 84 then [.fwdS rcv ln x.pk] else []) ++ [.snAckD c ln x.pk]) ∨
     (i = .snfwdx c ln ∧ k = .fwdX ∧ x.st = .O ∧ y = none ∧ w = [.fwdX rcv ln x.pk, .snAck c ln]) ∨
     (i = .snrcl c ln ∧ k = .rcl ∧ x.st = .O ∧ y = none ∧ w = [.snAckD c ln x.pk])) →
    Runs i s (fun t => t.ccLine c ln = y ∧ t.coh.bn = a ++ b ++ w ∧
      t.coh.am = s.coh.am ++ (if k = .fwdS then [] else ((coresOf c).filter (fun j => x.pres.getLsbD (j % 8))).map (fun j => (j, ln, .inv))) ∧
      SameMemory s t ∧ (s.on F.TAL_CTL_EN (talSet (c / 16) (128 + c % 16)) = false → t.regs = s.regs))) ∧
  (∀ (s : State) (c ln rcv : Nat) (a b : List BNote) (i : Instr) (k : Snoop), s.coh.bn = a ++ .sn k c ln rcv :: b →
    (∀ n ∈ a, ∀ v, n ≠ .sn k c ln v) → s.ccLine c ln = none → s.wayClear c (homeOf ln) → s.finds = [] →
    ((i = .snfwds c ln ∧ k = .fwdS) ∨ (i = .snfwdx c ln ∧ k = .fwdX) ∨ (i = .snrcl c ln ∧ k = .rcl)) →
    Runs i s (fun t => t.coh.bn = a ++ b ++ [.snMiss c ln] ∧ t.coh.cc = s.coh.cc ∧ t.coh.am = s.coh.am ∧ SameMemory s t)) ∧
  (∀ (s : State) (r h : Nat) (m : BMsg) (a b : List BNote), s.coh.bn = a ++ .retry m h :: b → m.r = r →
    (∀ n ∈ a, ∀ v, v.r = r → n ≠ .retry v h) → s.coh.cred.contains (r, h) = false → s.wayClear r h →
    (64 ≤ r ∨ s.on F.TAL_CTL_EN (talSet (r / 16) (128 + r % 16)) = false) →
    exec (.retry r h) s = .next { s with coh := { s.coh with bn := a ++ b, want := s.coh.want ++ [m] } }) ∧
  (∀ (s : State) (r h : Nat) (m : BMsg) (l : List BMsg), s.coh.bn.contains (.crGnt r h) = true →
    s.coh.want.filter (fun m => m.r == r && homeOf m.line == h) = m :: l → (m.req ≠ .upX ∨ s.ccLine r m.line = none) → s.wayClear r h →
    Runs (.crgnt r h) s (fun t => t.coh.bq = { m with credit := true } :: (s.coh.bq ++ l) ∧
      t.coh.want = s.coh.want.filter (fun m => !(m.r == r && homeOf m.line == h)) ∧ t.coh.bn = s.coh.bn.erase (.crGnt r h) ∧
      SameMemory s t))

/-- O38. Where the clocks of the dies on the way run: the last SnAck of an RdX gives the requester the line in O; the SnAckD of an SnFwdS leaves the old owner and the requester as sharers; SnMiss, and SnWb once the owner's WbM is held, start the row again with the line U, and SnWb before it waits for that WbM; data that comes with SnAckD or the WbM is stored with its kind. A timer that expires on a line written by a request of class 0 to 2 stores it as POISON and counts; on another line it counts, logs the agent and raises the home's source. AGENT_DEAD_SET marks the agent, starts its reclaim at all 16 homes and drops its requests (where none of them serves an engine of the die); each home's reclaim stores the lines that the agent owned there as LOST, and the last one of a cluster that owned none switches its domains off. -/
def Obligations.SnoopReplies : Prop :=
  (∀ (s : State) (c ln r : Nat) (x : Txn) (d : Dir), s.txnOf ln = some x → x.again = false → x.msg.r = r → x.evict = false →
    x.gone = false → s.dirOf ln = some d → s.coh.queued = [] → s.wayClear c (homeOf ln) →
    (s.coh.bn.contains (.snAck c ln) = true → x.msg.req = .rdX → x.snoops = [(c, .inv)] → x.replied = false →
      Runs (.snack c ln) s (fun t => (∃ e, t.dirOf ln = some e ∧ e.own = some r) ∧
        t.coh.bn = s.coh.bn.erase (.snAck c ln) ++ [.datX r ln (s.linePoison ln)] ∧ (∃ y, t.txnOf ln = some y ∧ y.snoops = [] ∧ y.needDone = some r) ∧
        SameMemory s t)) ∧
    (∀ pk : Poison, s.coh.bn.find? (fun n => match n with
        | .snAckD c' ln' _ => c' == c && ln' == ln
        | _ => false) = some (.snAckD c ln pk) → x.msg.req = .rdS → x.snoops = [(c, .fwdS)] → x.replied = true → x.needDone = some r →
      Runs (.snackd c ln) s (fun t => (∃ e, t.dirOf ln = some e ∧ e.own = none ∧ e.sharers = (1#64 <<< c) ||| (1#64 <<< r)) ∧
        t.coh.bn = s.coh.bn.erase (.snAckD c ln pk) ∧ (∃ y, t.txnOf ln = some y ∧ y.snoops = []) ∧ t.mem = s.mem ∧ t.hostMem = s.hostMem ∧
        (s.tripped ln = false → t.linePoison ln = pk) ∧ (∀ m, m ≠ ln → t.linePoison m = s.linePoison m))) ∧
    (s.coh.bn.contains (.snMiss c ln) = true → x.msg.req = .rdX → x.snoops = [(c, .fwdX)] →
      Runs (.snmiss c ln) s (fun t => (∃ e, t.dirOf ln = some e ∧ e.own = some r) ∧
        t.coh.bn = s.coh.bn.erase (.snMiss c ln) ++ [.datX r ln (s.linePoison ln)] ∧ SameMemory s t)) ∧
    (s.coh.bn.contains (.snWb c ln) = true → x.msg.req = .rdX → x.snoops = [(c, .fwdX)] → d.own = some c →
      (s.coh.held.contains (c, ln) = true → Runs (.snwb c ln) s (fun t => (∃ e, t.dirOf ln = some e ∧ e.own = some r) ∧
        t.coh.bn = s.coh.bn.erase (.snWb c ln) ++ [.wbAck c ln, .datX r ln (t.linePoison ln)] ∧ t.coh.held = s.coh.held.erase (c, ln) ∧
        t.mem = s.mem ∧ t.hostMem = s.hostMem ∧ (s.tripped ln = false → t.linePoison ln = s.sentKind c ln) ∧
        (∀ m, m ≠ ln → t.linePoison m = s.linePoison m))) ∧
      (s.coh.held.contains (c, ln) = false → Runs (.snwb c ln) s (fun t => (∃ y, t.txnOf ln = some y ∧ y.again = true) ∧
        t.coh.bn = s.coh.bn.erase (.snWb c ln) ∧ t.dirOf ln = some d ∧ SameMemory s t)))) ∧
  (∀ (s : State) (ln a h : Nat) (x : Txn) (d : Dir), s.txnOf ln = some x → (a, Snoop.fwdX) ∈ x.snoops → s.dirOf ln = some d → h = homeOf ln →
    (d.ctl = true → s.tripped ln = false → s.coh.queued = [] → s.coh.credq.all (fun c => c.1 != h) = true →
      Runs (.homeTimerExpire ln a) s (fun t => t.linePoison ln = .poison ∧ t.mem = s.mem ∧
        t.rd F.HS_CNT_TMO h = min (2 ^ F.HS_CNT_TMO.wid - 1) (s.rd F.HS_CNT_TMO h + 1))) ∧
    (d.ctl = false → 64 ≤ a → Runs (.homeTimerExpire ln a) s (fun t =>
      t.rd F.HS_CNT_TMO h = min (2 ^ F.HS_CNT_TMO.wid - 1) (s.rd F.HS_CNT_TMO h + 1) ∧ t.coh = s.coh ∧ SameMemory s t ∧
      (s.on F.HS_TLOG_VALID h = false → t.on F.HS_TLOG_VALID h = true ∧ t.rd F.HS_TLOG_AGENT h = a % 2 ^ F.HS_TLOG_AGENT.wid) ∧
      (s.srcMuted (0x080 + h) = false → s.on F.INT_ISL_STOPPED (srcHome (0x080 + h)) = false →
        t.on F.INT_SRC_CTL_PEND (0x080 + h) = true)))) ∧
  (∀ (s : State) (a : Nat), a < 84 → s.isDead a = false → (∀ m ∈ s.coh.bq ++ s.coh.want, m.r = a → s.engineSer m.op = false) →
    Runs (.agentDeadSet a) s (fun t => t.isDead a = true ∧ (∀ b, b ≠ a → t.isDead b = s.isDead b) ∧ (∀ h < 16, (h, a) ∈ t.coh.reclaim) ∧
      t.coh.bq = s.coh.bq.filter (fun m => m.r != a) ∧ t.coh.want = s.coh.want.filter (fun m => m.r != a) ∧ t.coh.dir = s.coh.dir ∧
      SameMemory s t)) ∧
  (∀ (s : State) (h g a : Nat), s.coh.reclaim.contains (h, a) = true →
    (64 ≤ a ∨ (g, a) ∈ s.coh.reclaim.erase (h, a)) → s.coh.txns = [] →
    s.coh.queued = [] → s.coh.credq = [] →
    Runs (.reclaimDone h a) s (fun t => t.coh.reclaim = s.coh.reclaim.erase (h, a) ∧
      (∀ ln d, s.dirOf ln = some d → d.own = some a → homeOf ln = h → s.tripped ln = false → t.linePoison ln = .lost ∧ t.dirOf ln = none) ∧
      t.mem = s.mem ∧ t.hostMem = s.hostMem)) ∧
  (∀ (s : State) (h a : Nat), s.coh.reclaim.contains (h, a) = true → a < 64 → (∀ e ∈ s.coh.reclaim.erase (h, a), e.2 ≠ a) →
    s.coh.txns = [] → s.coh.queued = [] → s.coh.credq = [] → s.coh.dir = [] → aget s.rcv.lost a = none →
    Runs (.reclaimDone h a) s (fun t => t.coh.reclaim = s.coh.reclaim.erase (h, a) ∧ (∀ d ∈ clusterDoms a, t.dom d = domOff) ∧ SameMemory s t))

/-- O39. A walk step whose service cluster does not yet serve the line of the entry waits. A walk step at a table entry goes on one level down; at a leaf that permits the access it installs the translation, of a whole CONT run where the run lies in stack memory and else of the leaf's own page, at its die and ends, or asks the HTU, over a module that is not in L1, where the leaf is marked HOST; at a leaf that does not permit it the walk ends and its command waits on a blotter record of cause PERM. An access that sets D at a leaf whose D is clear swaps the entry first: D alone changes, and only where the entry is still as it was read; otherwise the walk starts again at the root. The HTU's answer is installed where it permits the access; its fault goes to the blotter. -/
def Obligations.TableWalks : Prop :=
  (∀ (s u : State) (die idx pa : Nat) (w : Walk) (served : Bool), s.walkAt die idx = some w → w.ph = .table → w.stale = false →
    pa = w.table + 8 * levelIndex w.va w.level → pa < stackTop → s.svcAsk w.ctx w.die 0 [pa / 128] false = (u, served) →
    (served = false → exec (.walkStep die idx) s = .next u) ∧
    (∀ p, served = true → u.readPte (s.ctxKey w.ctx) pa w.level (u.svcKind w.ctx w.die (pa / 128)) = .table p →
      Runs (.walkStep die idx) s (fun t => t.xlt.walks = s.xlt.walks.map (fun x => if x == w then { w with level := w.level - 1, table := p }
        else x) ∧ t.xlt.tlbs = s.xlt.tlbs ∧ t.xlt.blots = s.xlt.blots ∧ SameMemory s t))) ∧
  (∀ (s u : State) (die idx pa e z : Nat) (w : Walk), s.walkAt die idx = some w → w.ph = .table → w.stale = false →
    pa = w.table + 8 * levelIndex w.va w.level → pa < stackTop → s.svcAsk w.ctx w.die 0 [pa / 128] false = (u, true) →
    u.readPte (s.ctxKey w.ctx) pa w.level (u.svcKind w.ctx w.die (pa / 128)) = .leaf e → s.thr.ops = [] →
    z = levelSize w.level * 2 ^ pteCont e →
    (permOk (pteR e) (pteW e) (pteA e) w.acc = true → pteHost e = false → u.runBroken (s.ctxKey w.ctx) e w.level pa = false →
      (w.setD = false ∨ pteD e = true) → w.place = .die w.die →
      Runs (.walkStep die idx) s (fun t => (∃ x ∈ t.xlt.tlbs, x.place = .die w.die ∧ x.ctx = w.ctx ∧ x.host = false ∧
        (ptePa e / z * z + z ≤ stackTop → x.vpn = w.va / z * z / 4096 ∧ x.pages = z / 4096 ∧ x.ppn = ptePa e / z * z / 4096) ∧
        (stackTop < ptePa e / z * z + z → x.vpn = w.va / levelSize w.level * levelSize w.level / 4096 ∧
          x.pages = levelSize w.level / 4096 ∧ x.ppn = ptePa e / 4096) ∧ x.r = pteR e ∧ x.w = pteW e ∧ x.a = pteA e) ∧
        t.xlt.walks = s.xlt.walks.erase w ∧ SameMemory s t)) ∧
    (permOk (pteR e) (pteW e) (pteA e) w.acc = true → pteHost e = true → w.acc ≠ accRed → (w.setD = false ∨ pteD e = true) →
      u.runBroken (s.ctxKey w.ctx) e w.level pa = false → u.rd F.UCIE_STAT_STATE (u.viaDie w.die) ≠ 8 →
      Runs (.walkStep die idx) s (fun t => t.out = u.out ++ [.htuRequest w.die w.ctx (s.rd F.XLT_PASID_PASID w.ctx) (w.va / 4096) w.setD] ∧
        (∃ x ∈ t.xlt.walks, x.ph = .htu ∧ x.va = w.va ∧ x.ctx = w.ctx) ∧ SameMemory s t)) ∧
    (permOk (pteR e) (pteW e) (pteA e) w.acc = false → w.place = .die w.die → w.src.source ∉ [6, 7, 8] → u.blotFull w.ctx = false →
      Runs (.walkStep die idx) s (fun t =>
        (∃ r ∈ (t.blot w.ctx).recs, r.page = w.va / 4096 ∧ r.cause = caPerm ∧ r.acc = w.acc % 16) ∧
        (∃ v ∈ (t.blot w.ctx).waiting, v.src = w.src ∧ v.cause = caPerm ∧ v.va = w.va ∧ v.quire.isSome = true) ∧
        t.xlt.walks = s.xlt.walks.erase w ∧ t.xlt.tlbs = s.xlt.tlbs)) ∧
    (permOk (pteR e) (pteW e) (pteA e) w.acc = true → pteHost e = false → w.setD = true → pteD e = false →
      Runs (.walkStep die idx) s (fun t => t.xlt.walks = s.xlt.walks.map (fun x => if x == w then
        { w with ph := .dirty, leaf := BitVec.ofNat 64 e, leafPa := pa } else x) ∧ t.xlt.tlbs = s.xlt.tlbs ∧ SameMemory s t))) ∧
  (∀ (s u : State) (die idx : Nat) (w : Walk), s.walkAt die idx = some w → w.ph = .dirty → w.stale = false → w.leafPa % 8 = 0 →
    w.leafPa < stackTop → s.svcAsk w.ctx w.die 0 [w.leafPa / 128] true = (u, true) → u.svcKind w.ctx w.die (w.leafPa / 128) = .none →
    (∃ m, mget s.lines (w.leafPa / 128) = some m ∧ m.wser = s.keySer (s.ctxKey w.ctx)) → s.thr.ops = [] →
    (s.rdNat (s.ctxKey w.ctx) w.leafPa 8 = w.leaf.toNat → Runs (.walkStep die idx) s (fun t =>
      t.rdNat (s.ctxKey w.ctx) w.leafPa 8 = w.leaf.toNat ||| 0x20 ∧
      (∀ k a, a ≠ w.leafPa → (k = s.ctxKey w.ctx ∨ a / 128 ≠ w.leafPa / 128) → t.rdByte k a = s.rdByte k a))) ∧
    (s.rdNat (s.ctxKey w.ctx) w.leafPa 8 ≠ w.leaf.toNat → Runs (.walkStep die idx) s (fun t =>
      t.xlt.walks = s.xlt.walks.map (fun x => if x == w then { w with ph := .table, level := 4, table := s.xltRoot w.ctx } else x) ∧
      SameMemory s t))) ∧
  (∀ (s : State) (die idx h : Nat) (w : Walk) (r wr : Bool), s.walkAt die idx = some w → w.ph = .htu → w.stale = false →
    w.place = .die w.die → s.thr.ops = [] →
    (permOk r wr (r && wr) (w.acc % 16) = true → h % 4096 = 0 → Runs (.htuResponse die idx (.ok h 4096 r wr)) s (fun t =>
      (∃ x ∈ t.xlt.tlbs, x.place = .die w.die ∧ x.ctx = w.ctx ∧ x.host = true ∧ x.vpn = w.va / 4096 ∧ x.pages = 1 ∧ x.ppn = h / 4096) ∧
      t.xlt.walks = s.xlt.walks.erase w ∧ SameMemory s t)) ∧
    (w.src.source ∉ [6, 7, 8] → s.blotFull w.ctx = false → Runs (.htuResponse die idx .fault) s (fun t =>
      (∃ q ∈ (t.blot w.ctx).recs, q.page = w.va / 4096 ∧ q.cause = caHtuFault ∧ q.acc = w.acc % 16) ∧ t.xlt.walks = s.xlt.walks.erase w)))

/-- O40. While fewer than 48 driver invalidations are pending and an entry of the queue is free, INV_RANGE, INV_CONTEXT and INV_ALL each advance ISSUED, remove at once every cached translation that their contexts and range name, and queue; with 48 pending, no entry free, a reserved SIZE or a COUNT of 0, they only set DROP. The HTU's invalidation is taken into any free entry and else held. INV_COMPLETE takes the oldest one once no walk or access that it must wait for is left: DONE advances and the source is raised where it asks for it, or the HTU gets its tag back. -/
def Obligations.Invalidations : Prop :=
  (∀ (s : State) (c size count lo hi : Nat) (cs : List Nat) (irq : Bool) (i : Instr),
    (s.xlt.invs.filter (fun o => o.host.isNone)).length < 48 → s.xlt.invs.length < 64 →
    ((i = .invRange c size count irq ∧ size < 3 ∧ 0 < count ∧ cs = [c] ∧ lo = s.rd F.XLT_INV_ADDR_VA * 4096 ∧
        hi = lo + count * levelSize size) ∨
     (i = .invContext c irq ∧ cs = [c] ∧ lo = 0 ∧ hi = 2 ^ 57) ∨ (i = .invAll irq ∧ cs = List.range 64 ∧ lo = 0 ∧ hi = 2 ^ 57)) →
    Runs i s (fun t => t.rd F.XLT_INV_SEQ_ISSUED = (s.rd F.XLT_INV_SEQ_ISSUED + 1) % 2 ^ 32 ∧ t.rd F.XLT_INV_SEQ_DONE = s.rd F.XLT_INV_SEQ_DONE ∧
      (∃ o, t.xlt.invs = s.xlt.invs ++ [o] ∧ o.host = none ∧ o.ctxs = cs ∧ o.lo = lo ∧ o.hi = hi ∧ o.irq = irq) ∧
      (∀ x, x ∈ t.xlt.tlbs ↔ x ∈ s.xlt.tlbs ∧ ¬ (x.ctx ∈ cs ∧ x.vpn * 4096 < hi ∧ lo < (x.vpn + x.pages) * 4096)) ∧
      (∀ w ∈ t.xlt.walks, w.ctx ∈ cs → w.stale = true) ∧ SameMemory s t ∧ t.thr = s.thr)) ∧
  (∀ (s : State) (c size count : Nat) (irq : Bool) (i : Instr),
    (i = .invRange c size count irq ∧ (3 ≤ size ∨ count = 0) ∨
      (48 ≤ (s.xlt.invs.filter (fun o => o.host.isNone)).length ∨ 64 ≤ s.xlt.invs.length) ∧ (i = .invRange c size count irq ∨ i = .invContext c irq ∨ i = .invAll irq)) →
    exec i s = .next (s.wr F.XLT_INV_STAT_DROP 1)) ∧
  (∀ (s : State) (pasid va pages tag : Nat) (cs : List Nat), cs = (List.range 64).filter (fun c => s.rd F.XLT_PASID_PASID c == pasid) →
    (s.xlt.invs.length < 64 → Runs (.htuInvalidate pasid va pages tag) s (fun t =>
      (∃ o, t.xlt.invs = s.xlt.invs ++ [o] ∧ o.host = some tag ∧ o.ctxs = cs) ∧
      (∀ x ∈ t.xlt.tlbs, ¬ (x.ctx ∈ cs ∧ x.vpn < va / 4096 + pages ∧ va / 4096 < x.vpn + x.pages)) ∧ SameMemory s t)) ∧
    (64 ≤ s.xlt.invs.length → Runs (.htuInvalidate pasid va pages tag) s (fun t => t.xlt.invs = s.xlt.invs ∧
      t.xlt.htuHeld.length = s.xlt.htuHeld.length + 1 ∧ t.xlt.tlbs = s.xlt.tlbs ∧ SameMemory s t))) ∧
  (∀ (s : State) (o : InvOp) (r : List InvOp), s.xlt.invs = o :: r → s.xlt.walks.any (fun w => w.stale && o.ctxs.contains w.ctx) = false →
    (∀ n ∈ s.flights o.ctxs ++ s.strays o.ctxs, n ∉ o.flight) → s.xlt.htuHeld = [] →
    Runs .invComplete s (fun t => t.xlt.invs = r ∧ t.xlt.tlbs = s.xlt.tlbs ∧ SameMemory s t ∧
      (o.host = none → t.rd F.XLT_INV_SEQ_DONE = (s.rd F.XLT_INV_SEQ_DONE + 1) % 2 ^ 32 ∧
        t.rd F.XLT_INV_SEQ_ISSUED = s.rd F.XLT_INV_SEQ_ISSUED ∧ (o.irq = true → s.srcMuted 2 = false →
          s.on F.INT_ISL_STOPPED 0 = false → t.on F.INT_SRC_CTL_PEND 2 = true)) ∧
      (∀ tag, o.host = some tag → t.out = s.out ++ [.htuInvDone tag])))

/-- O41. The timeout of an open quire closes it: HEAD moves past its last record and the context's source is raised. RESOLVE_RETRY of a closed quire takes it and its records out, and what waited on it waits no more; RESOLVE_ABORT of one aborts a live context with the status of its first record; either on a quire that is not closed sets RES_ERR. A TAIL between its value and HEAD is taken, any other sets PTR_ERR and changes nothing. Switching a slot's translation off, while no access waits, removes every translation, walk and quire of the slot. -/
def Obligations.Quires : Prop :=
  (∀ (s : State) (c q : Nat), (s.blot c).openQ = some q → Runs (.quireTimeout c) s (fun t => (t.blot c).openQ = none ∧
    (t.blot c).closed = (s.blot c).closed ++ [q] ∧ (t.blot c).recs = (s.blot c).recs ∧ (t.blot c).nextQ = (s.blot c).nextQ ∧
    t.rd F.XLT_BLOT_PTR_HEAD c = (s.blot c).wr % 2 ^ 13 ∧ t.rd F.XLT_BLOT_PTR_TAIL c = s.rd F.XLT_BLOT_PTR_TAIL c ∧
    (s.srcMuted (0x100 + c) = false → s.on F.INT_ISL_STOPPED (srcHome (0x100 + c)) = false → t.on F.INT_SRC_CTL_PEND (0x100 + c) = true) ∧
    t.thr = s.thr)) ∧
  (∀ (s : State) (c q : Nat), (s.blot c).closed.contains q = true →
    (s.ctxCores c = [] → (∀ w ∈ (s.blot c).waiting, w.src.source ≠ 1) → exec (.resolveRetry c q) s = .next (s.setBlot c { s.blot c with
      closed := (s.blot c).closed.erase q
      recs := (s.blot c).recs.filter (fun r => r.quire != q)
      waiting := (s.blot c).waiting.filter (fun w => w.quire != some q) })) ∧
    (∀ r, s.ctxState c = ctxLive → (s.blot c).recs.find? (fun r => r.quire == q) = some r → r.status < 2 ^ 16 →
      Runs (.resolveAbort c q) s (fun t => t.ctxState c = ctxAborting ∧ t.rd F.CTX_STAT_ABORT_STATUS c = r.status ∧
        (t.blot c).closed = [] ∧ (t.blot c).recs = [] ∧ (t.blot c).waiting = []))) ∧
  (∀ (s : State) (c q : Nat) (i : Instr), (s.blot c).closed.contains q = false → s.ctxState c ≠ ctxAborting → s.ctxState c ≠ ctxAborted →
    (i = .resolveRetry c q ∨ i = .resolveAbort c q) → exec i s = .next (s.wr F.XLT_BLOT_PTR_RES_ERR 1 c)) ∧
  (∀ (s : State) (c tail x : Nat), x = s.rd F.XLT_BLOT_PTR_TAIL c →
    (tail < 8192 → (tail + 8192 - x) % 8192 ≤ (s.rd F.XLT_BLOT_PTR_HEAD c + 8192 - x) % 8192 → s.thr.ops = [] →
      (∀ w ∈ (s.blot c).waiting, w.quire.isSome = true) →
      Runs (.blotterTailWrite c tail) s (fun t => t.rd F.XLT_BLOT_PTR_TAIL c = tail ∧ t.rd F.XLT_BLOT_PTR_HEAD c = s.rd F.XLT_BLOT_PTR_HEAD c ∧
        (t.blot c).recs = (s.blot c).recs ∧ t.rd F.XLT_BLOT_PTR_PTR_ERR c = s.rd F.XLT_BLOT_PTR_PTR_ERR c ∧ SameMemory s t)) ∧
    ((8192 ≤ tail ∨ (s.rd F.XLT_BLOT_PTR_HEAD c + 8192 - x) % 8192 < (tail + 8192 - x) % 8192) →
      exec (.blotterTailWrite c tail) s = .next (s.wr F.XLT_BLOT_PTR_PTR_ERR 1 c))) ∧
  (∀ (s : State) (c : Nat), s.on F.XLT_CTX_EN c = true → s.thr.ops = [] → (s.blot c).waiting = [] →
    Runs (.xltCtxDisable c) s (fun t => t.on F.XLT_CTX_EN c = false ∧ (∀ x ∈ t.xlt.tlbs, x.ctx ≠ c) ∧ (∀ x ∈ t.xlt.walkc, x.ctx ≠ c) ∧
      (∀ x ∈ t.xlt.walks, x.ctx ≠ c) ∧ (t.blot c).recs = [] ∧ (t.blot c).closed = [] ∧ (t.blot c).openQ = none ∧
      (∀ x ∈ s.xlt.tlbs, x.ctx ≠ c → x ∈ t.xlt.tlbs) ∧ t.ctxState c = s.ctxState c ∧ t.obj = s.obj))

/-- O42. The operation at the head of K0's queue makes its object where every check holds: a free slot becomes LIVE with submission numbers from 0 and a zeroed status page; a queue takes its descriptor's fields, unmapped, with T at 0; a memory object's entry becomes in use; a note or a timeline counts from 0; a graph slot holds version 1 with the image's nodes and edges, starting at the context's next number; a patch appends a version that replaces the nodes its entries name. DONE advances by one where nothing else is queued. An operation that a check refuses changes nothing else: the first refusal is recorded with its code. -/
def Obligations.Creation : Prop :=
  (∀ (s : State) (o : ObjOp) (p : Nat) (d : PartDef), s.headOp 0 oCreate = some o → s.ctxState o.index = ctxFree →
    p = s.rd F.CTX_CFG_PART o.index → s.partDef p = some d → s.switchHolds p = false → s.rst.parts.contains p = false →
    (∀ i < 32, s.tripped (s.statusPage o.index / 128 + i) = false) →
    Runs .ctxCreate s (fun t => t.ctxState o.index = ctxLive ∧ t.rd F.CTX_STAT_NEXT_SEQ o.index = 0 ∧ t.nextSeq o.index = 0 ∧
      aget t.obj.ctxs o.index = some ⟨p, 0, none, false⟩ ∧ (∀ i < 4096, t.rdByte devKey (s.statusPage o.index + i) = 0) ∧
      (∀ c, c ≠ o.index → t.ctxState c = s.ctxState c) ∧
      (s.obj.ops = [o] → t.rd F.OBJ_SEQ_DONE = (s.rd F.OBJ_SEQ_DONE + 1) % 2 ^ 32 ∧ t.obj.ops = []))) ∧
  (∀ (s : State) (o : ObjOp), s.headOp 0 oCreate = some o → s.ctxState o.index ≠ ctxFree → s.obj.ops = [o] → s.on F.OBJ_ERR_VALID = false →
    Runs .ctxCreate s (fun t => t.rd F.OBJ_ERR_CODE = eState ∧ t.rd F.OBJ_ERR_SEQ = o.seq % 2 ^ 32 ∧ t.on F.OBJ_ERR_VALID = true ∧
      t.rd F.OBJ_SEQ_DONE = (s.rd F.OBJ_SEQ_DONE + 1) % 2 ^ 32 ∧ t.obj.ops = [] ∧ t.ctxState o.index = s.ctxState o.index ∧
      t.obj.ctxs = s.obj.ctxs ∧ SameMemory s t)) ∧
  (∀ (s : State) (o : ObjOp) (d : List Byte), s.headOp 1 oCreate = some o → s.ctxState o.ctx = ctxLive → s.rd F.SWQ_STAT_STATE o.index = 0 →
    o.arg % 64 = 0 → o.arg + 64 ≤ stackTop → s.poisonOf o.arg 64 = .none → d = s.rdBytes devKey o.arg 64 → descBad d = false →
    leAt d 26 1 = o.ctx →
    Runs .swqCreate s (fun t => t.rd F.SWQ_STAT_STATE o.index = 1 ∧ t.rd F.SWQ_CTL_TMO_MS o.index = leAt d 16 4 % 2 ^ F.SWQ_CTL_TMO_MS.wid ∧
      (∃ w, t.swq o.index = some w ∧ w.ctx = o.ctx ∧ w.ringVa = leAt d 0 8 ∧ w.cmplVa = leAt d 8 8 ∧ w.ringLog = leAt d 24 1 ∧
        w.cmplLog = leAt d 25 1 ∧ w.stockUs = leAt d 20 4 ∧ w.tail = 0 ∧ w.rel = none ∧ w.die = leAt d 27 1 % 4) ∧
      (∀ q, q ≠ o.index → t.swq q = s.swq q) ∧ SameMemory s t)) ∧
  (∀ (s : State) (o : ObjOp), s.headOp 2 oCreate = some o → s.moAt o.index + 32 ≤ stackTop → s.poisonOf (s.moAt o.index) 32 = .none →
    s.ctxState o.ctx = ctxLive → s.moCtx o.index = o.ctx → s.moGen o.index = o.gen → s.moState o.index = 0 → s.moVa o.index < 2 ^ 57 →
    s.moBytes o.index ≠ 0 → s.moVa o.index + s.moBytes o.index ≤ 2 ^ 57 →
    Runs .memobjCreate s (fun t => t.moState o.index = 1 ∧ o.index ∈ t.obj.mos ∧
      (∀ k a, a / 128 ≠ s.moAt o.index / 128 → t.rdByte k a = s.rdByte k a))) ∧
  (∀ (s : State) (o : ObjOp), s.headOp 3 oCreate = some o → s.ctxState o.ctx = ctxLive → aget s.syn.notes o.index = none →
    Runs .noteCreate s (fun t => aget t.syn.notes o.index = some ⟨o.ctx, none, false⟩ ∧ t.noteVal o.index = 0 ∧
      t.on F.NOTE_VAL_SAT o.index = false ∧ (∀ i, i ≠ o.index → t.noteVal i = s.noteVal i) ∧ SameBut s.syncStore (2 ^ 21) s t)) ∧
  (∀ (s : State) (o : ObjOp), s.headOp 4 oCreate = some o → s.ctxState o.ctx = ctxLive → aget s.syn.tls o.index = none →
    Runs .timelineCreate s (fun t => aget t.syn.tls o.index = some ⟨o.ctx, none, false⟩ ∧ t.tlVal o.index = 0 ∧
      (∀ i, i ≠ o.index → t.tlVal i = s.tlVal i) ∧ SameBut s.syncStore (2 ^ 21) s t)) ∧
  (∀ (s : State) (o : ObjOp) (h img : List Byte) (nodes edges : List (List Byte)), s.headOp 5 oCreate = some o → s.ctxState o.ctx = ctxLive →
    aget s.obj.graphs o.index = none → o.arg + 32 ≤ stackTop → h = s.rdBytes devKey o.arg 32 → imageBad h = false →
    s.poisonOf o.arg 32 = .none → o.arg + leAt h 10 4 ≤ stackTop → s.poisonOf o.arg (leAt h 10 4) = .none →
    img = s.rdBytes devKey o.arg (leAt h 10 4) → nodes = pieces img 32 64 (leAt h 4 2) →
    edges = pieces img (32 + 64 * leAt h 4 2) 4 (leAt h 6 4) → nodes.any (s.nodeBad o.ctx (s.nextSeq o.ctx)) = false → edges.any (edgeBad (leAt h 4 2)) = false →
    nodes.any (s.listBad o.ctx) = false → nodes.findSome? (s.listWalk o.ctx) = none → s.storeFits (leAt h 10 4) = true →
    s.versionHolds (s.versionRefs o.ctx (s.nextSeq o.ctx) nodes).1 = false →
    Runs .graphCreate s (fun t => ∃ g v, aget t.obj.graphs o.index = some g ∧ g.ctx = o.ctx ∧ g.vers = [v] ∧ g.released = false ∧
      v.ver = 1 ∧ v.nodes = nodes ∧ v.start = s.nextSeq o.ctx ∧ v.stop = none ∧
      v.refs = (s.versionRefs o.ctx (s.nextSeq o.ctx) nodes).1 ∧ v.nobind = (s.versionRefs o.ctx (s.nextSeq o.ctx) nodes).2 ∧
      v.edges = edges.map (fun e => (bitsOf (leAt e 0 4) 0 12, bitsOf (leAt e 0 4) 16 12)))) ∧
  (∀ (s : State) (o : ObjOp) (g : Graph) (v : GVer) (h img : List Byte) (n : Nat) (es : List (Nat × List Byte)),
    s.headOp 5 oPatch = some o → s.ctxState o.ctx = ctxLive → aget s.obj.graphs o.index = some g → g.ctx = o.ctx → g.released = false →
    g.vers.find? (fun v => v.stop.isNone) = some v → g.vers.length < 16 → o.arg + 32 ≤ stackTop → s.poisonOf o.arg 32 = .none → h = s.rdBytes devKey o.arg 32 →
    n = leAt h 4 2 → patchBad h = false → o.arg + 32 + 72 * n ≤ stackTop → s.poisonOf o.arg (32 + 72 * n) = .none → leAt h 6 4 = v.ver →
    img = s.rdBytes devKey o.arg (32 + 72 * n) → es = patchEntries img n →
    es.any (fun e => v.nodes.length ≤ e.1 || s.nodeBad o.ctx (s.nextSeq o.ctx) e.2 || s.listBad o.ctx e.2) = false →
    (pieces img 32 72 n).any (fun e => !zeroIn e 2 8) = false → (es.map (fun e => e.1)).Nodup → s.storeFits v.size = true →
    es.findSome? (fun e => s.listWalk o.ctx e.2) = none →
    s.versionHolds (s.versionRefs o.ctx (s.nextSeq o.ctx) (es.foldl (fun l e => lset l e.1 e.2) v.nodes)).1 = false →
    Runs .graphPatch s (fun t => ∃ w, aget t.obj.graphs o.index = some { g with vers := s.ceased o.ctx g.vers ++ [w] } ∧ w.ver = v.ver + 1 ∧ w.stop = none ∧
      w.edges = v.edges ∧ w.start = s.nextSeq o.ctx ∧ w.nodes.length = v.nodes.length ∧
      (∀ e ∈ es, w.nodes[e.1]? = some e.2) ∧ (∀ i, i ∉ es.map (fun e => e.1) → w.nodes[i]? = v.nodes[i]?)))

/-- O43. RELEASE of a LIVE context makes it RELEASING and notes its next submission number as its release point; RELEASE of a memory object, a graph, a queue, a note or a timeline notes the context's next number with the object. Once every command below its release point has completed, and no graph version or stocktake holds it, a memory object that nothing references is freed and its GEN advances, a graph version that no launch runs goes, a note, timeline or queue ceases to exist (stack memory stays where no host signal is queued for it), and a RELEASING context becomes FREE. An ABORTING context without commands becomes ABORTED. -/
def Obligations.Releases : Prop :=
  (∀ (s : State) (o : ObjOp) (x : Ctx), s.headOp 0 oRelease = some o → s.ctxState o.index = ctxLive → aget s.obj.ctxs o.index = some x →
    Runs .ctxRelease s (fun t => t.ctxState o.index = ctxReleasing ∧
      aget t.obj.ctxs o.index = some { x with rel := some x.next, relIrq := o.irq } ∧ t.cmd = s.cmd ∧ SameMemory s t)) ∧
  (∀ (s : State) (o : ObjOp), s.headOp 2 oRelease = some o → (s.ctxState o.ctx = ctxLive ∨ s.ctxState o.ctx = ctxReleasing) →
    s.moState o.index = 1 → s.moCtx o.index = o.ctx → s.moGen o.index = o.gen → s.moUnreadable o.index = false →
    s.nextSeq o.ctx < 2 ^ 64 → Runs .memobjRelease s (fun t => t.moState o.index = 2 ∧ t.moRelSeq o.index = s.nextSeq o.ctx ∧
      (∀ k a, a / 128 ≠ s.moAt o.index / 128 → t.rdByte k a = s.rdByte k a))) ∧
  (∀ (s : State) (o : ObjOp) (g : Graph), s.headOp 5 oRelease = some o → (s.ctxState o.ctx = ctxLive ∨ s.ctxState o.ctx = ctxReleasing) →
    aget s.obj.graphs o.index = some g → g.ctx = o.ctx → g.released = false →
    Runs .graphRelease s (fun t => aget t.obj.graphs o.index = some { g with released := true, irq := o.irq, vers := s.ceased o.ctx g.vers } ∧
      SameMemory s t)) ∧
  (∀ (s : State) (o : ObjOp) (irq : Bool), s.relHead = some o → (o.typ = 1 ∨ o.typ = 3 ∨ o.typ = 4) →
    (s.ctxState o.ctx = ctxLive ∨ s.ctxState o.ctx = ctxReleasing) → s.objOwner o.typ o.index = some (o.ctx, none, irq) →
    Runs .objRelease s (fun t => t.objOwner o.typ o.index = some (o.ctx, some (s.nextSeq o.ctx), o.irq) ∧
      (∀ k i, (k ≠ o.typ ∨ i ≠ o.index) → t.objOwner k i = s.objOwner k i) ∧ SameMemory s t)) ∧
  (∀ (s : State) (i : Nat), s.moState i = 2 → s.moRefs i = 0 → s.allBelow (s.moCtx i) (s.moRelSeq i) = true →
    s.linePoison (s.moAt i / 128) = .none → (∃ m, mget s.lines (s.moAt i / 128) = some m ∧ m.wser = s.keySer devKey) →
    Runs (.memobjFree i) s (fun t => t.moState i = 0 ∧ t.moGen i = (s.moGen i + 1) % 4096 ∧ i ∉ t.obj.mos ∧
      (∀ k a, a / 128 ≠ s.moAt i / 128 → t.rdByte k a = s.rdByte k a))) ∧
  (∀ (s : State) (slot ver n : Nat) (g : Graph) (v : GVer), aget s.obj.graphs slot = some g → g.vers.find? (fun v => v.ver == ver) = some v →
    g.until ver = some n → s.verHeld slot ver = false → s.allBelow g.ctx n = true →
    Runs (.graphVersionFree slot ver) s (fun t => (∀ h, aget t.obj.graphs slot = some h → h.vers = g.vers.filter (fun x => x.ver != ver)) ∧
      (aget t.obj.graphs slot = none ↔ g.vers.filter (fun x => x.ver != ver) = []) ∧ t.cmd = s.cmd)) ∧
  (∀ (s : State) (k : ObjKind) (typ i c n : Nat) (irq : Bool), (k = .swq ∧ typ = 1 ∨ k = .note ∧ typ = 3 ∨ k = .timeline ∧ typ = 4) →
    s.objOwner typ i = some (c, some n, irq) → s.allBelow c n = true → s.syncKept k i = false →
    (k = .swq → ∀ e ∈ s.syn.ops, e.2.stays = false) →
    Runs (.releasePointReached k i) s (fun t => t.objOwner typ i = none ∧ (∀ j, j ≠ i → t.objOwner typ j = s.objOwner typ j) ∧
      ((∀ e ∈ s.syn.ops, ∀ v, e.2 ≠ .host (k == .note) i v) → SameMemory s t))) ∧
  (∀ (s : State) (c n : Nat) (x : Ctx), aget s.obj.ctxs c = some x → x.rel = some n → s.ctxState c = ctxReleasing → s.allBelow c n = true →
    Runs (.releasePointReached .ctx c) s (fun t => t.ctxState c = ctxFree ∧ aget t.obj.ctxs c = none ∧
      (∀ e ∈ t.cmd.cmds, e.1.ctx ≠ c) ∧ (∀ e ∈ t.cmd.swqs, e.2.ctx ≠ c))) ∧
  (∀ (s : State) (c : Nat), s.ctxState c = ctxAborting → s.ctxCmds c = [] →
    Runs (.ctxAborted c) s (fun t => t.ctxState c = ctxAborted ∧ (∀ d, d ≠ c → t.ctxState d = s.ctxState d) ∧ t.obj = s.obj ∧ SameMemory s t))

/-- O44. DESTROY of a context makes it DESTROYING, ends its cached translations and quires, and goes on until its commands have completed; then DESTROY_DONE makes the slot FREE. DESTROY of a timeline or note takes its place at the owning unit, where, first in its turn and once the object's line is served, it gives a timeline the terminal value and fires the watchers of either; once no command holds the object, DESTROY_DONE frees it. SAVE of a LIVE context begins once no stocktake of it is in progress, and ends SAVED once its accesses and engines are quiet: its blocks leave their cores and are kept. RESTORE of a SAVED context without blocks makes it LIVE, where its WAITs fit in the wait tables, and of one with blocks what placing them gives. -/
def Obligations.DestroyAndSave : Prop :=
  (∀ (s : State) (o : ObjOp), s.headOp 0 oDestroy = some o → s.ctxState o.index ≠ ctxFree →
    Runs .ctxDestroy s (fun t => t.ctxState o.index = ctxDestroying ∧ t.obj.busy = true ∧ (∀ x ∈ t.xlt.tlbs, x.ctx ≠ o.index) ∧
      (t.blot o.index).recs = [] ∧ (t.blot o.index).waiting = [])) ∧
  (∀ (s : State) (o : ObjOp) (irq : Bool) (rel : Option Nat), s.desHead = some o → (s.ctxState o.ctx = ctxLive ∨ s.ctxState o.ctx = ctxReleasing) →
    s.objOwner o.typ o.index = some (o.ctx, rel, irq) →
    ((o.typ = 3 ∨ o.typ = 4) → Runs .objDestroy s (fun t => t.obj.busy = true ∧
      ∃ b, (o.index % 4, SyncOp.destroy (o.typ == 3) o.index b) ∈ t.syn.ops)) ∧
    (s.cmd.cmds.any (fun e => s.holds (kindOf o.typ) o.index e.2) = false → s.syn.ops = [] → s.finds = [] →
      (∃ u, s.syncAsk (o.typ == 3, o.index) = (u, true)) →
      (o.typ = 4 → Runs .objDestroy s (fun t => t.tlVal o.index = terminal ∧
        (∀ w ∈ (s.watching false o.index), ∃ b, (w.1, b) ∈ t.syn.firing))) ∧
      (o.typ = 3 → Runs .objDestroy s (fun t => t.noteVal o.index = s.noteVal o.index ∧
        (∀ w ∈ (s.watching true o.index), ∃ b, (w.1, b) ∈ t.syn.firing))))) ∧
  (∀ (s : State) (o : ObjOp) (r : List ObjOp) (k : ObjKind), s.obj.ops = o :: r → s.obj.busy = true → o.op = oDestroy →
    (k = .note ∧ o.typ = 3 ∨ k = .timeline ∧ o.typ = 4 ∨ k = .swq ∧ o.typ = 1) → s.cmd.cmds.any (fun e => s.holds k o.index e.2) = false →
    (k = .swq → ∀ e ∈ s.syn.ops, e.2.stays = false) →
    (k ≠ .swq → s.firstOp (k == .note, o.index) = some (.destroy (k == .note) o.index true)) → Runs (.destroyDone k o.index) s (fun t => t.objOwner o.typ o.index = none ∧ t.obj.busy = false ∧
      ((∀ e ∈ s.syn.ops, ∀ v, e.2 ≠ .host (k == .note) o.index v) → SameMemory s t) ∧
      (r = [] → t.obj.ops = [] ∧ t.rd F.OBJ_SEQ_DONE = (s.rd F.OBJ_SEQ_DONE + 1) % 2 ^ 32))) ∧
  (∀ (s : State) (o : ObjOp) (r : List ObjOp), s.obj.ops = o :: r → s.obj.busy = true → o.op = oDestroy → o.typ = 0 → s.ctxCmds o.index = [] →
    Runs (.destroyDone .ctx o.index) s (fun t => t.ctxState o.index = ctxFree ∧ aget t.obj.ctxs o.index = none ∧ t.obj.busy = false)) ∧
  (∀ (s : State) (o : ObjOp), s.headOp 0 oSave = some o → s.ctxState o.index = ctxLive → s.isSaving o.index = false →
    s.stockGoing o.index = false → exec .ctxSave s = .next { s with obj := { s.obj with busy := true, saving := s.obj.saving ++ [o.index] } }) ∧
  (∀ (s : State) (c : Nat), s.isSaving c = true → s.saveReady c = true →
    Runs (.ctxSaveDone c) s (fun t => t.ctxState c = ctxSaved ∧ t.isSaving c = false ∧ t.ctxBlocks c = [] ∧
      t.obj.saved = s.obj.saved ++ (s.ctxBlocks c).map (fun e => (c, s.saveBlock e.1 e.2)) ∧ (∀ w ∈ t.syn.waiters, w.cmd.ctx ≠ c) ∧
      t.syn.saved = s.syn.saved ++ s.savedWait c)) ∧
  (∀ (s : State) (o : ObjOp), s.obj.restoring = [] → s.headOp 0 oRestore = some o → s.ctxState o.index = ctxSaved →
    ((s.obj.saved.filter (fun b => b.1 == o.index)) = [] → s.waitsFit o.index = true → Runs (.ctxRestore []) s (fun t => t.ctxState o.index = ctxLive ∧
      (∀ w ∈ s.syn.saved, w.cmd.ctx = o.index → w ∉ t.syn.saved))) ∧
    (∀ (l : List Nat) (u : State), s.restoreCtx o.index l = some u → u.ctxState o.index = ctxLive → exec (.ctxRestore l) s = .next u.endOp))

/-- O45. A write of 1 to LOAD while PHASE is not IDLE sets BUSY_HIT and, beside the fields FORCE and PERSIST that the same write stores in FOLIO_CTL, changes nothing else: PHASE, ERR, the load in progress, the folio in force and everything besides are as they were; and BUSY_HIT stays set when the load goes on. -/
def Obligations.LoadDuringALoad : Prop :=
  ∀ (s : State) (force persist : Bool), s.rd F.FOLIO_STAT_PHASE ≠ phIdle →
    Runs (.folioLoad force persist) s (fun t => t.on F.FOLIO_STAT_BUSY_HIT = true ∧ t.rd F.FOLIO_STAT_PHASE = s.rd F.FOLIO_STAT_PHASE ∧
      t.rd F.FOLIO_STAT_ERR = s.rd F.FOLIO_STAT_ERR ∧ t.fol = s.fol ∧ (∀ r i j, r ≠ Reg.FOLIO_STAT → r ≠ Reg.FOLIO_CTL → t.reg r i j = s.reg r i j) ∧
      t.rd F.FOLIO_CTL_FORCE = b2n force ∧ t.rd F.FOLIO_CTL_PERSIST = b2n persist ∧
      t = { s with regs := t.regs } ∧ ∀ i, (i = .folioVerifyDone ∨ i = .folioDrainDone ∨ i = .folioLoad force persist) →
        Runs i t (fun u => u.on F.FOLIO_STAT_BUSY_HIT = true))

/-- O46. An operation is applied once the owning unit has the object's line of the sync store, in class 2 through the cache of the service cluster of its context on its die (which of the store's lines that is, and that every operation asks to write it, are the model's choice, log 82): a line held to be written and owned by no L1 serves at once, and until it serves nothing but the request happens. The owning unit then applies the oldest signal of a timeline: a greater value is taken and satisfies every waiter it reaches, with ST_POISON where it is the terminal value; an equal one changes nothing; a lower one changes nothing and is reported, on the command that made it or in SYNC_ERR. It applies the oldest signal of a note that no stocktake holds: below the limit the count grows and the waiters are served oldest first, each consuming its amount; at the limit the count stays at its largest value and SAT is set. A host signal joins its owning unit's queue, and one that names no object sets BAD_HOST; one with an earlier access of its module before it waits in their order. -/
def Obligations.Signals : Prop :=
  (∀ (s : State) (n : Bool) (i c cl : Nat) (x : CcLine), s.objCtx (n, i) = some c → s.svcCluster c (i % 4) = some cl → s.dom (512 + cl) = domOn →
    s.ccLine cl (s.rd F.SYNC_BASE_BASE * 2 ^ 14 + Config.syncLine n i % 2 ^ 14) = some x → x.st = .O → x.own = none → x.cur = none →
    x.snoop = none → x.wait = .none → s.finds = [] →
    ∃ u, s.syncAsk (n, i) = (u, true) ∧ u.syn = s.syn ∧ u.cmd = s.cmd ∧ ∀ j, u.tlVal j = s.tlVal j ∧ u.noteVal j = s.noteVal j) ∧
  (∀ (s u : State) (die : Nat) (o : SyncOp) (r : List (Nat × SyncOp)), s.syn.ops = (die, o) :: r → s.syncAsk o.obj = (u, false) →
    (o.isSignal = true → o.obj.1 = false → exec (.timelineSignalApply die) s = .next u) ∧
    (o.isSignal = true → o.obj.1 = true → exec (.noteSignalApply die) s = .next u) ∧
    (o.isRegister = true → exec (.waitRegister die) s = .next u) ∧ (o.isWithdraw = true → exec (.waitWithdraw die) s = .next u) ∧
    (∀ n i c, o.obj = (n, i) → s.objCtx (n, i) = some c → s.svcCluster c (i % 4) = none → u = s)) ∧
  (∀ (s u : State) (die i v : Nat) (r : List (Nat × SyncOp)) (o : SyncOp), s.syn.ops = (die, o) :: r → s.syncAsk (false, i) = (u, true) → u.syn.ops = s.syn.ops → (∀ e ∈ r, e.2.byRow = true) → u.tlExists i = true → u.syn.waiters = [] →
    u.watching false i = [] → ((∃ id, o = .signal false i v id) ∨ o = .host false i v) → v < 2 ^ 64 →
    Runs (.timelineSignalApply die) s (fun t => t.syn.ops = r ∧ t.tlVal i = max v (u.tlVal i) ∧ (∀ j, j ≠ i → t.tlVal j = u.tlVal j) ∧
      (∀ id c, o = .signal false i v id → u.cmdOf id = some c → t.cmdOf id = some (if v < u.tlVal i then { c with done := true }.note stRegress
        else { c with done := true })) ∧
      (o = .host false i v → v < u.tlVal i → t.on F.SYNC_ERR_REGRESS = true ∧
        (u.on F.SYNC_ERR_REGRESS = false → t.rd F.SYNC_ERR_TL = i % 2 ^ F.SYNC_ERR_TL.wid)) ∧
      (o = .host false i v → u.tlVal i ≤ v → t.cmd = u.cmd ∧ t.rd F.SYNC_ERR_REGRESS = u.rd F.SYNC_ERR_REGRESS) ∧
      SameBut u.syncStore (2 ^ 21) u t)) ∧
  (∀ (s u : State) (die i v w : Nat) (r : List (Nat × SyncOp)) (id : CmdId) (c : Cmd), s.syn.ops = (die, .host false i v) :: r → s.syncAsk (false, i) = (u, true) → u.syn.ops = s.syn.ops → (∀ e ∈ r, e.2.byRow = true) →
    u.tlExists i = true → u.syn.waiters = [⟨false, i, w, id, 0⟩] → u.cmdOf id = some c → u.tlVal i < v → v < 2 ^ 64 → u.watching false i = [] →
    (w ≤ v → Runs (.timelineSignalApply die) s (fun t => t.syn.waiters = [] ∧
      t.cmdOf id = some { c with wait := .satisfied (if v = terminal then stPoison else stOk) } ∧ t.tlVal i = v)) ∧
    (v < w → Runs (.timelineSignalApply die) s (fun t => t.syn.waiters = u.syn.waiters ∧ t.cmdOf id = some c ∧ t.tlVal i = v))) ∧
  (∀ (s u : State) (die i n : Nat) (r : List (Nat × SyncOp)) (o : SyncOp), s.syn.ops = (die, o) :: r → s.syncAsk (true, i) = (u, true) → u.syn.ops = s.syn.ops → (∀ e ∈ r, e.2.byRow = true) → u.noteExists i = true →
    u.syn.waiters = [] → u.watching true i = [] → ((∃ id, o = .signal true i n id) ∨ o = .host true i n) →
    (u.noteVal i + n < noteMax → Runs (.noteSignalApply die) s (fun t => t.syn.ops = r ∧ t.noteVal i = u.noteVal i + n ∧
      t.on F.NOTE_VAL_SAT i = u.on F.NOTE_VAL_SAT i ∧ (∀ j, j ≠ i → t.noteVal j = u.noteVal j) ∧ SameBut u.syncStore (2 ^ 21) u t)) ∧
    (noteMax ≤ u.noteVal i + n → 0 < n → Runs (.noteSignalApply die) s (fun t => t.noteVal i = noteMax ∧ t.on F.NOTE_VAL_SAT i = true ∧
      (o = .host true i n → t.on F.SYNC_ERR_NOTE_SAT = true) ∧
      (∀ id c, o = .signal true i n id → u.cmdOf id = some c → t.cmdOf id = some ({ c with done := true }.note stNoteSat))))) ∧
  (∀ (s u : State) (die i n v w : Nat) (r : List (Nat × SyncOp)) (a b : CmdId), s.syn.ops = (die, .host true i n) :: r → s.syncAsk (true, i) = (u, true) → u.syn.ops = s.syn.ops → (∀ e ∈ r, e.2.byRow = true) → u.noteExists i = true →
    u.syn.waiters = [⟨true, i, v, a, 0⟩, ⟨true, i, w, b, 0⟩] → u.watching true i = [] → 0 < n →
    u.noteVal i + n < noteMax →
    (v ≤ u.noteVal i + n → u.noteVal i + n - v < w → Runs (.noteSignalApply die) s (fun t => t.noteVal i = u.noteVal i + n - v ∧
      t.syn.waiters = [⟨true, i, w, b, 0⟩])) ∧
    (u.noteVal i + n < v → w ≤ u.noteVal i + n → Runs (.noteSignalApply die) s (fun t => t.noteVal i = u.noteVal i + n ∧
      t.syn.waiters = u.syn.waiters))) ∧
  (∀ (s : State) (src : Src) (i : Nat) (v : W64), i < 4096 →
    (s.actsNow src (RegTable.TL_SIG.off i) 8 v →
      (s.tlExists i = true → exec (.tlSig src i v) s =
        .next { s.accessed src with syn := { s.syn with ops := s.syn.ops ++ [(i % 4, .host false i v.toNat)] } }) ∧
      (s.tlExists i = false → Runs (.tlSig src i v) s (fun t => t.on F.SYNC_ERR_BAD_HOST = true ∧ t.syn = s.syn ∧ SameMemory s t))) ∧
    (∀ m, src = .host m → s.goesNow ⟨m, .reg (RegTable.TL_SIG.off i) 8 v⟩ = false →
      exec (.tlSig src i v) s = .next (s.hostRegister m (RegTable.TL_SIG.off i) 8 v))) ∧
  (∀ (s : State) (src : Src) (i : Nat) (c : W32), i < 65536 →
    (s.actsNow src (RegTable.NOTE_SIG.off i) 8 (c.setWidth 64) →
      (s.noteExists i = true → exec (.noteSig src i c) s =
        .next { s.accessed src with syn := { s.syn with ops := s.syn.ops ++ [(i % 4, .host true i c.toNat)] } }) ∧
      (s.noteExists i = false → Runs (.noteSig src i c) s (fun t => t.on F.SYNC_ERR_BAD_HOST = true ∧ t.syn = s.syn ∧ SameMemory s t))) ∧
    (∀ m, src = .host m → s.goesNow ⟨m, .reg (RegTable.NOTE_SIG.off i) 8 (c.setWidth 64)⟩ = false →
      exec (.noteSig src i c) s = .next (s.hostRegister m (RegTable.NOTE_SIG.off i) 8 (c.setWidth 64))))

/-- O47. Each operation below acts on what the store's access leaves (see Signals), once it is served. A WAIT that registers is done at once where its condition holds, a note's count falling by its amount, and joins the waiters otherwise; a wake message ends a satisfied WAIT with its status; a withdrawal takes a waiter out before it has consumed anything. The arming of a watcher waits its turn behind the operations on its object. An armed watcher whose condition holds fires: ARMED clears, FIRED is set and its source raised; one whose condition does not hold stays armed. A stocktake that falls due holds the notes of the queue's good pairs as they then stand, in turn at their owning units, or sets OVERRUN during another; STOCKTAKE_ALIGN, once they are held, sets EXCESS for a pair that holds too much, lowers the counts where it may, releases the notes and counts. -/
def Obligations.WaitsAndWatchers : Prop :=
  (∀ (s u : State) (die i v : Nat) (note : Bool) (r : List (Nat × SyncOp)) (id : CmdId) (c : Cmd), s.syn.ops = (die, .register note i v id) :: r → s.syncAsk (note, i) = (u, true) → u.syn.ops = s.syn.ops →
    (∀ e ∈ r, e.2.byRow = true) → u.cmdOf id = some c → c.wait = .registering →
    (note = false → v ≤ u.tlVal i → Runs (.waitRegister die) s (fun t => t.syn.ops = r ∧ t.syn.waiters = u.syn.waiters ∧
      t.cmdOf id = some { c with wait := .done, done := true, pre := some (if u.tlVal i = terminal then stPoison else stOk), fail := none })) ∧
    (note = false → u.tlVal i < v → Runs (.waitRegister die) s (fun t => t.syn.ops = r ∧ t.cmdOf id = some { c with wait := .registered } ∧
      (∃ w, t.syn.waiters = u.syn.waiters ++ [w] ∧ w.note = false ∧ w.idx = i ∧ w.v = v ∧ w.cmd = id) ∧ t.regs = u.regs)) ∧
    (note = true → (∀ w ∈ u.syn.waiters, ¬ (w.note = true ∧ w.idx = i)) → v ≤ u.noteVal i → u.watching true i = [] →
      Runs (.waitRegister die) s (fun t => t.noteVal i = u.noteVal i - v ∧ t.syn.waiters = u.syn.waiters ∧
        t.cmdOf id = some { c with wait := .done, done := true, pre := some stOk, fail := none })) ∧
    (note = true → ((∃ w ∈ u.syn.waiters, w.note = true ∧ w.idx = i) ∨ u.noteVal i < v) → Runs (.waitRegister die) s (fun t =>
      t.noteVal i = u.noteVal i ∧ t.syn.waiters.length = u.syn.waiters.length + 1 ∧ t.cmdOf id = some { c with wait := .registered }))) ∧
  (∀ (s : State) (id : CmdId) (c : Cmd) (st : Nat), s.cmdOf id = some c → c.wait = .satisfied st →
    exec (.waitWake id) s = .next (s.setCmd id { c with wait := .done, done := true, pre := some st, fail := none })) ∧
  (∀ (s u : State) (die i : Nat) (note : Bool) (r : List (Nat × SyncOp)) (id : CmdId) (c : Cmd), s.syn.ops = (die, .withdraw note i id) :: r → s.syncAsk (note, i) = (u, true) → u.syn.ops = s.syn.ops →
    (∀ e ∈ r, e.2.byRow = true) → u.cmdOf id = some c →
    (c.wait = .withdrawing → (∀ w ∈ u.syn.waiters, w.cmd = id) → Runs (.waitWithdraw die) s (fun t => t.syn.waiters = [] ∧
      t.cmdOf id = some { c with wait := .idle, ph := .ending } ∧ t.noteVal i = u.noteVal i ∧ t.syn.ops = r)) ∧
    (c.wait ≠ .withdrawing → exec (.waitWithdraw die) s = .next { u with syn := { u.syn with ops := r } })) ∧
  (∀ (s : State) (src : Src) (w i : Nat), w < 256 → s.on F.HOST_WATCH_CTL_KIND w = false → i = s.rd F.HOST_WATCH_CTL_INDEX w % 4096 →
    s.actsNow src (RegTable.HOST_WATCH_CTL.off w) 4 ((s.reg .HOST_WATCH_CTL w 0 &&& 0xFFFF02) ||| 1) →
    (∀ o, s.firstOp (false, i) = some o → (∀ n j v k, o ≠ .arm n j v k) → Runs (.watchArm src w) s (fun t =>
      t.on F.HOST_WATCH_CTL_ARMED w = true ∧ (i % 4, .arm false i (s.rd F.HOST_WATCH_VAL_VALUE w) w) ∈ t.syn.ops)) ∧
    (s.syn.ops = [] → (s.syn.armed.filter (fun e => e.1 == w)).length ≤ 1 →
    ((s.rd F.HOST_WATCH_VAL_VALUE w ≤ s.tlVal i → Runs (.watchArm src w) s (fun t => t.on F.HOST_WATCH_CTL_ARMED w = true ∧
      aget t.syn.armed w = some (false, i, s.rd F.HOST_WATCH_VAL_VALUE w) ∧ (∃ b, (w, b) ∈ t.syn.firing) ∧ t.tlVal i = s.tlVal i)) ∧
    (s.tlVal i < s.rd F.HOST_WATCH_VAL_VALUE w → Runs (.watchArm src w) s (fun t => t.on F.HOST_WATCH_CTL_ARMED w = true ∧
      aget t.syn.armed w = some (false, i, s.rd F.HOST_WATCH_VAL_VALUE w) ∧ (∀ b, (w, b) ∉ t.syn.firing)))))) ∧
  (∀ (s : State) (w : Nat) (b : Bool), s.syn.firing.find? (fun f => f.1 == w) = some (w, b) →
    Runs (.watcherFire w) s (fun t => t.on F.HOST_WATCH_CTL_ARMED w = false ∧ t.on F.HOST_WATCH_CTL_FIRED w = true ∧
      (b = true → t.on F.HOST_WATCH_CTL_TERMINAL w = true) ∧ (∀ f ∈ t.syn.firing, f.1 ≠ w) ∧ aget t.syn.armed w = none ∧
      (s.srcMuted (0x200 + w) = false → s.on F.INT_ISL_STOPPED (srcHome (0x200 + w)) = false → t.on F.INT_SRC_CTL_PEND (0x200 + w) = true))) ∧
  (∀ (s : State) (q : Nat) (w : Swq), s.swq q = some w → w.stockUs ≠ 0 → s.ctxState w.ctx ≠ ctxSaved → s.isSaving w.ctx = false →
    s.finds = [] → s.clerkAwake w.die = true →
    (w.taking.isSome = true → exec (.stocktakeDue q) s = .next (s.wr F.SWQ_STK_OVERRUN 1 q)) ∧
    (∀ good : List PairW, w.taking = none → s.stockReady q = true → good = (s.pairs q).filter (fun p => !s.pairBad w.ctx p) →
      Runs (.stocktakeDue q) s (fun t => t.swq q = some { w with taking := some ⟨good, true⟩ } ∧
        (∀ n ∈ pairNotes good, (n % 4, SyncOp.hold n q) ∈ t.syn.ops ∧ t.noteVal n = s.noteVal n ∧
          (s.firstOp (true, n) = none → t.on F.NOTE_VAL_HELD n = true)))) ∧
    (w.taking = none → s.stockReady q = false → exec (.stocktakeDue q) s = .next (s.setSwq q { w with taking := some ⟨s.pairs q, false⟩ }))) ∧
  (∀ (s u : State) (q a b cap : Nat) (w : Swq) (p : PairW), s.swq q = some w → s.stockHeld q ⟨[p], true⟩ = true → s.syncAskAll [(true, a), (true, b)] = (u, true) →
    u.swq q = some w → w.taking = some ⟨[p], true⟩ → p.1 = 3 →
    u.stockHeld q ⟨[p], true⟩ = true → (∀ e ∈ u.syn.ops, e.2.stays = true → ∃ n, e.2 = .hold n q) →
    a = p.fld F.SWQ_PAIR_A → b = p.fld F.SWQ_PAIR_B → a ≠ b → cap = p.fld F.SWQ_PAIR_CAP →
    Runs (.stocktakeAlign q) s (fun t => t.swq q = some { w with taking := none } ∧
      t.rd F.SWQ_STK_COUNT q = (u.rd F.SWQ_STK_COUNT q + 1) % 2 ^ F.SWQ_STK_COUNT.wid ∧
      t.on F.NOTE_VAL_HELD a = false ∧ t.on F.NOTE_VAL_HELD b = false ∧
      (u.noteVal a + u.noteVal b ≤ cap → t.noteVal a = u.noteVal a ∧ t.noteVal b = u.noteVal b ∧ t.rd F.SWQ_STK_EXCESS q = u.rd F.SWQ_STK_EXCESS q) ∧
      (cap < u.noteVal a + u.noteVal b → t.rd F.SWQ_STK_EXCESS q = u.rd F.SWQ_STK_EXCESS q ||| 8 ∧
        (p.fld F.SWQ_PAIR_ALIGN ≠ 1 → t.noteVal a = u.noteVal a ∧ t.noteVal b = u.noteVal b) ∧
        (p.fld F.SWQ_PAIR_ALIGN = 1 → cap < u.noteVal b → t.noteVal b = cap ∧ t.noteVal a = 0) ∧
        (p.fld F.SWQ_PAIR_ALIGN = 1 → u.noteVal b ≤ cap → t.noteVal a = cap - u.noteVal b ∧ t.noteVal b = u.noteVal b))))

/-- O48. A doorbell that moves T forward within the ring accepts that many packets, each with the next submission number of the queue's LIVE context, and sets T; any other, and one of a queue that takes QENQ, sets DB_ERR alone; one of no queue, or of one being destroyed, does nothing. The first waiting queue of a die is mapped onto a free enabled slot of an awake clerk, and a queue with nothing left to start gives its slot up. SWQ_RESUME makes an ERRORED queue ACTIVE; SWQ_CMPL_ACK sets ACK; CMPL_FB_CLEAR zeroes the counts of FALLBACK unless a queue of the context is ERRORED. A timeout ends a running command with ST_TIMEOUT and aborts its context. -/
def Obligations.QueueControl : Prop :=
  (∀ (s : State) (q d n : Nat) (v : W32) (w : Swq) (x : Ctx), s.swq q = some w → s.dying 1 q = false → w.devEnq = false → aget s.obj.ctxs w.ctx = some x →
    s.ctxState w.ctx = ctxLive → d = (v.toNat + 2 ^ 32 - s.rd F.SWQ_STAT_HEAD q) % 2 ^ 32 →
    (w.tail + 2 ^ 32 - s.rd F.SWQ_STAT_HEAD q) % 2 ^ 32 ≤ d → d ≤ 2 ^ w.ringLog → n = d - (w.tail + 2 ^ 32 - s.rd F.SWQ_STAT_HEAD q) % 2 ^ 32 →
    Runs (.swqDoorbell q v) s (fun t => (∃ y, t.swq q = some y ∧ y.tail = v.toNat ∧ y.ctx = w.ctx) ∧ t.nextSeq w.ctx = x.next + n ∧
      (∀ k < n, t.cmdOf ⟨w.ctx, x.next + k, 0⟩ = some (newCmd q)) ∧
      (∀ id : CmdId, (id.ctx ≠ w.ctx ∨ id.seq < x.next ∨ x.next + n ≤ id.seq) → t.cmdOf id = s.cmdOf id) ∧
      t.rd F.SWQ_STAT_HEAD q = s.rd F.SWQ_STAT_HEAD q ∧ SameMemory s t)) ∧
  (∀ (s : State) (q : Nat) (v : W32), (s.swq q = none ∨ s.dying 1 q = true) → exec (.swqDoorbell q v) s = .next s) ∧
  (∀ (s : State) (q : Nat) (v : W32) (w : Swq), s.swq q = some w → s.dying 1 q = false →
    (w.devEnq = true ∨ 2 ^ w.ringLog < (v.toNat + 2 ^ 32 - s.rd F.SWQ_STAT_HEAD q) % 2 ^ 32 ∨
      (v.toNat + 2 ^ 32 - s.rd F.SWQ_STAT_HEAD q) % 2 ^ 32 < (w.tail + 2 ^ 32 - s.rd F.SWQ_STAT_HEAD q) % 2 ^ 32) →
    exec (.swqDoorbell q v) s = .next (s.wr F.SWQ_STAT_DB_ERR 1 q)) ∧
  (∀ (s : State) (q k : Nat) (w : Swq), s.swq q = some w → k < 256 → k / 64 = w.die → s.on F.QSLOT_CTL_EN k = true →
    s.on F.QSLOT_STAT_MAPPED k = false → s.eligible q = true → s.mapped q = false → s.firstWaiting q w = true →
    s.dom (604 + k / 16) = domOn → q < 4096 →
    Runs (.queueMap q k) s (fun t => t.on F.QSLOT_STAT_MAPPED k = true ∧ t.rd F.QSLOT_STAT_SWQ k = q ∧ t.mapped q = true ∧
      t.swq q = some { w with since := 0, elig := none } ∧ (∀ j, j ≠ k → t.rd F.QSLOT_STAT_SWQ j = s.rd F.QSLOT_STAT_SWQ j) ∧ SameMemory s t)) ∧
  (∀ (s : State) (k : Nat) (wt hd : Bool), s.on F.QSLOT_STAT_MAPPED k = true → s.unstarted (s.rd F.QSLOT_STAT_SWQ k) = [] →
    Runs (.queueUnmap k wt hd) s (fun t => t.on F.QSLOT_STAT_MAPPED k = false ∧ t.cmd.cmds = s.cmd.cmds ∧ SameMemory s t)) ∧
  (∀ (s : State) (q : Nat), s.rd F.SWQ_STAT_STATE q = 2 → Runs (.swqResume q) s (fun t => t.rd F.SWQ_STAT_STATE q = 1 ∧
    t.rd F.SWQ_STAT_ERR q = stOk ∧ t.rd F.SWQ_STAT_HEAD q = s.rd F.SWQ_STAT_HEAD q ∧ t.cmd.cmds = s.cmd.cmds ∧ SameMemory s t)) ∧
  (∀ (s : State) (q : Nat) (v : W32), s.rd F.SWQ_STAT_STATE q ≠ 0 → Runs (.swqCmplAck q v) s (fun t =>
    t.rd F.SWQ_CMPL_ACK q = v.toNat ∧ t.rd F.SWQ_CMPL_WRITTEN q = s.rd F.SWQ_CMPL_WRITTEN q ∧ t.cmd.cmds = s.cmd.cmds ∧ SameMemory s t)) ∧
  (∀ (s : State) (c : Nat),
    (s.cmd.swqs.any (fun e => e.2.ctx == c && s.rd F.SWQ_STAT_STATE e.1 == 2) = true →
      exec (.cmplFbClear c) s = .next (s.wr F.CMPL_FB_CLR_REFUSED 1 c)) ∧
    (s.cmd.swqs.any (fun e => e.2.ctx == c && s.rd F.SWQ_STAT_STATE e.1 == 2) = false → s.linePoison (s.statusPage c / 128) = .none →
      Runs (.cmplFbClear c) s (fun t => (∀ k < 8, t.rdByte devKey (s.statusPage c + 0x18 + k) = 0) ∧
        (∀ j a, a / 128 ≠ s.statusPage c / 128 → t.rdByte j a = s.rdByte j a) ∧ t.regs = s.regs))) ∧
  (∀ (s : State) (id : CmdId) (c : Cmd), s.cmdOf id = some c → c.ph = .started → id.node = 0 → s.ctxState id.ctx = ctxLive →
    s.cmdHalted id = false → c.wait = .idle → c.done = false →
    Runs (.commandTimeout id) s (fun t => t.ctxState id.ctx = ctxAborting ∧ t.rd F.CTX_STAT_ABORT_STATUS id.ctx = stTimeout ∧
      (∃ k, t.cmdOf id = some k ∧ k.ph = .ending ∧ k.fail = some stTimeout ∧ k.pkt = c.pkt)))

/-- O49. The clerk takes the packet at HEAD for the first unparsed command of a mapped ACTIVE queue, once its service cluster serves the line: HEAD advances, and a packet that names no object becomes parsed with its bytes, or is marked to complete with ST_ABORTED, BADPKT being set, where it breaks a rule. A command that may start is started: NOP is done at once, FENCE and LAUNCH run on, LAUNCH under its effective arithmetic mode, RECORD signals once every earlier command has completed, SIGNAL signals at once, WAIT takes an entry and registers (a note WAIT of 0 is done), GRAPH_LAUNCH turns its nodes into parsed commands, and DUMP arms its capture. -/
def Obligations.CommandStarts : Prop :=
  (∀ (s u : State) (served : Bool) (q va : Nat) (w : Swq) (id : CmdId) (c : Cmd) (p : List Byte), s.swq q = some w →
    lowest ((s.queueCmds q).filter (fun e => e.2.ph == .unparsed)) = some (id, c) → s.mapped q = true → s.rd F.SWQ_STAT_STATE q = 1 →
    s.cmdWaits id = false → s.ctxState w.ctx = ctxLive → s.isSaving w.ctx = false → s.dbg.armed = [] → c.pre = none →
    va = w.ringVa + 64 * (s.rd F.SWQ_STAT_HEAD q % 2 ^ w.ringLog) → s.vaStop w.die w.ctx accRead va 64 = none →
    s.vaAsk w.die w.ctx 1 va 64 = (u, served) → u.vaPoison w.die w.ctx va 64 = .none → p = u.rdVas w.die w.ctx va 64 →
    (served = false → exec (.packetParse q) s = .next u) ∧
    (served = true → pkBad p = false → (pkOp p = opNop ∨ pkOp p = opFence) → Runs (.packetParse q) s (fun t =>
      t.cmdOf id = some { c with pkt := p, ph := .parsed, refs := [] } ∧ t.rd F.SWQ_STAT_HEAD q = (s.rd F.SWQ_STAT_HEAD q + 1) % 2 ^ 32 ∧
      t.rd F.SWQ_STAT_BADPKT q = s.rd F.SWQ_STAT_BADPKT q ∧ (∀ i, i ≠ id → t.cmdOf i = s.cmdOf i) ∧ SameMemory s t)) ∧
    (served = true → pkBad p = true → c.q = q → Runs (.packetParse q) s (fun t =>
      t.cmdOf id = some { c with pkt := p, ph := .parsed, pre := some stAborted, refs := [] } ∧ t.on F.SWQ_STAT_BADPKT q = true ∧
      t.rd F.SWQ_STAT_HEAD q = (s.rd F.SWQ_STAT_HEAD q + 1) % 2 ^ 32 ∧ SameMemory s t))) ∧
  (∀ (s : State) (id : CmdId) (c : Cmd),
    (s.ready id opNop = some c → Runs (.nop id) s (fun t => t.cmdOf id = some { s.begun c with done := true } ∧
      (∀ i, i ≠ id → t.cmdOf i = s.cmdOf i) ∧ SameMemory s t)) ∧
    (s.ready id opFence = some c → Runs (.fencePacket id) s (fun t => t.cmdOf id = some (s.begun c) ∧
      (∀ i, i ≠ id → t.cmdOf i = s.cmdOf i) ∧ SameMemory s t)) ∧
    (s.ready id opLaunch = some c → Runs (.launch id) s (fun t => t.cmdOf id = some { s.begun c with
      strict := (s.arithMode id.ctx (lnArith c.pkt)).1, sat := (s.arithMode id.ctx (lnArith c.pkt)).2.1
      mxfp4 := (s.arithMode id.ctx (lnArith c.pkt)).2.2 } ∧ SameMemory s t)) ∧
    (s.ready id opRecord = some c → c.sig = false →
      (s.earlier c.q id.seq = [] → Runs (.record id) s (fun t => t.cmdOf id = some { s.begun c with sig := true } ∧
        t.syn.ops = s.syn.ops ++ [(rcTl c.pkt % 4, .signal false (rcTl c.pkt) (rcVal c.pkt) id)] ∧ SameMemory s t)) ∧
      (s.earlier c.q id.seq ≠ [] → Runs (.record id) s (fun t => t.cmdOf id = some (s.begun c) ∧
        t.syn = s.syn ∧ SameMemory s t))) ∧
    (s.ready id opSignal = some c → Runs (.signal id) s (fun t => t.cmdOf id = some { s.begun c with sig := true } ∧
      t.syn.ops = s.syn.ops ++ [(wtIdx c.pkt % 4, .signal (wtNote c.pkt) (wtIdx c.pkt) (rcVal c.pkt) id)] ∧ SameMemory s t)) ∧
    (s.ready id opWait = some c →
      (wtNote c.pkt = true → rcVal c.pkt = 0 → Runs (.wait id) s (fun t => t.cmdOf id = some { s.begun c with wait := .done, done := true } ∧ t.syn = s.syn ∧ SameMemory s t)) ∧
      ((wtNote c.pkt = false ∨ rcVal c.pkt ≠ 0) → s.waitEntries ((s.queueDie c.q).getD 0) < 1024 → Runs (.wait id) s (fun t =>
        t.cmdOf id = some { s.begun c with wait := .registering } ∧
        t.syn.ops = s.syn.ops ++ [(wtIdx c.pkt % 4, .register (wtNote c.pkt) (wtIdx c.pkt) (rcVal c.pkt) id)] ∧ SameMemory s t))) ∧
    (∀ slot v g x, s.ready id opGraph = some c → c.gver = some (slot, v) → aget s.obj.graphs slot = some g →
      g.vers.find? (fun x => x.ver == v) = some x → id.node = 0 → Runs (.graphLaunch id) s (fun t =>
        t.cmdOf id = some (s.begun c) ∧
        (∀ k p, x.nodes[k]? = some p → ∃ n, t.cmdOf ⟨id.ctx, id.seq, k + 1⟩ = some n ∧ n.pkt = p ∧ n.ph = .parsed ∧ n.q = c.q ∧
          (x.nobind.contains k = true → n.pre = some stObjGone)) ∧
        SameMemory s t)) ∧
    (s.ready id opDump = some c → s.dbg.armed = [] → dpStep c.pkt = 2 ^ 64 - 1 → Runs (.dump id) s (fun t =>
      t.cmdOf id = some (s.begun c) ∧ (∃ a ∈ t.dbg.armed, a.dump = id ∧ a.got = none) ∧ SameMemory s t)))

/-- O50. FILL, COPY without RED and DUMP_CAPTURE each handle the next piece of their range, the bytes that lie in one line of the destination: FILL sends its 8-byte pattern, COPY and a capture the bytes that they read, to the home of the line with the kind that the read met, and the command notes how far it has come and which writes are not yet acknowledged; a piece in host memory is written there; a read that the service cluster does not yet serve waits. A capture ends with its header, after which its command is done and no longer armed. QENQ of a misaligned packet traps; to a queue that does not take it, it gives 2, and to a full ring 1, in every active lane; to another it writes the packet into the ring, gives 0, advances T and makes the packet a command with the next submission number. COMMAND_COMPLETE removes a command that may complete and writes its 32-byte record at the place that WRITTEN names, which advances; a QUIET one that ended well leaves no record. -/
def Obligations.EnginesAndRecords : Prop :=
  (∀ (s u : State) (id : CmdId) (c : Cmd) (die dst n : Nat) (bs : List Byte), s.begin id opFill = some (u, c) → u.engineDie id c = some die →
    c.sent = false → dst = u.moVa (flDst c.pkt % 2 ^ 20) + flOff c.pkt → n = pieceLen dst (flLen c.pkt) c.pos →
    u.vaStop die id.ctx accWrite (dst + c.pos) n = none →
    bs = (List.range n).map (fun i => (leBytes 8 (flPattern c.pkt)).getD ((c.pos + i) % 8) 0) →
    (∀ a v ser, u.xlate die id.ctx (dst + c.pos) accWrite = .pa a → a % 128 = (dst + c.pos) % 128 →
      u.svcWrite id.ctx die 5 (u.ctxKey id.ctx) a bs .none = some (v, ser) → Runs (.fill id .none) s (fun t =>
        Carries t ser (u.ctxKey id.ctx) a bs .none ∧
        t.cmdOf id = some { c with pos := c.pos + n, sent := decide (flLen c.pkt ≤ c.pos + n), outs := c.outs ++ [ser] })) ∧
    (∀ a l, u.xlate die id.ctx (dst + c.pos) accWrite = .host a l → Runs (.fill id .none) s (fun t =>
      (∀ i < n, t.rdHost (a + i) = bs.getD i 0) ∧ (∀ p, (p < a ∨ a + n ≤ p) → t.rdHost p = u.rdHost p) ∧ t.mem = u.mem ∧ t.lines = u.lines ∧
      (∃ k, t.cmdOf id = some k ∧ k.pos = c.pos + n ∧ k.fail = c.fail ∧ (flLen c.pkt ≤ c.pos + n → c.outs = [] → k.done = true))))) ∧
  (∀ (s u v : State) (served : Bool) (id : CmdId) (c : Cmd) (die src dst n a : Nat) (pk : Poison), s.begin id opCopy = some (u, c) →
    (∃ k, s.cmdOf id = some k ∧ k.pkt = c.pkt) → cpPeer c.pkt = false → bitsOf (cpRed c.pkt) 0 2 = 0 → u.engineDie id c = some die →
    c.sent = false → src = u.moVa (cpSrc c.pkt % 2 ^ 20) + cpSrcOff c.pkt → dst = u.moVa (cpDst c.pkt % 2 ^ 20) + cpDstOff c.pkt →
    n = pieceLen dst (cpLen c.pkt) c.pos → u.vaStop die id.ctx accRead (src + c.pos) n = none →
    u.vaStop die id.ctx accWrite (dst + c.pos) n = none → u.vaAsk die id.ctx 5 (src + c.pos) n = (v, served) →
    (served = false → exec (.copy id .none) s = .next v) ∧
    (served = true → pk = v.vaPoison die id.ctx (src + c.pos) n → v.xlate die id.ctx (dst + c.pos) accWrite = .pa a →
      a % 128 = (dst + c.pos) % 128 →
      (v.svcWrite id.ctx die 5 (v.ctxKey id.ctx) a (v.rdVas die id.ctx (src + c.pos) n) pk).isSome = true →
      Runs (.copy id .none) s (fun t => ∃ ser k, Carries t ser (v.ctxKey id.ctx) a (v.rdVas die id.ctx (src + c.pos) n) pk ∧
        t.cmdOf id = some k ∧ k.pos = c.pos + n ∧ k.sent = decide (cpLen c.pkt ≤ c.pos + n) ∧ k.outs = c.outs ++ [ser] ∧
        k.fail = (if pk = .none then c.fail else (c.note pk.status).fail)))) ∧
  (∀ (s : State) (id : CmdId) (c : Cmd) (x : Armed) (step st stamp die dst len : Nat), s.cmdOf id = some c →
    s.dbg.armed.find? (fun a => a.dump == id) = some x → x.step = some step → x.got = some (st, stamp) → s.engineDie id c = some die →
    c.ph = .started → c.done = false → c.sent = false → s.cmdWaits id = false → len = s.moBytes (dpTensor c.pkt % 2 ^ 20) →
    dst = s.moVa (dpDst c.pkt % 2 ^ 20) + dpOff c.pkt →
    (∀ u n src, c.pos < len → n = pieceLen (dst + 64) len c.pos → src = s.moVa (dpTensor c.pkt % 2 ^ 20) + c.pos →
      s.vaStop die id.ctx accRead src n = none → s.vaStop die id.ctx accWrite (dst + 64 + c.pos) n = none →
      s.vaAsk die id.ctx 5 src n = (u, true) →
      (∀ a, u.xlate die id.ctx (dst + 64 + c.pos) accWrite = .pa a → a % 128 = (dst + 64 + c.pos) % 128 →
        (u.svcWrite id.ctx die 5 (u.ctxKey id.ctx) a (u.rdVas die id.ctx src n) (u.vaPoison die id.ctx src n)).isSome = true →
        Runs (.dumpCapture id .none) s (fun t => ∃ ser k,
          Carries t ser (u.ctxKey id.ctx) a (u.rdVas die id.ctx src n) (u.vaPoison die id.ctx src n) ∧
          t.cmdOf id = some k ∧ k.pos = c.pos + n ∧ k.done = false ∧ t.dbg.armed = s.dbg.armed))) ∧
    (∀ i m a l, c.pos = len + i → m = pieceLen dst 64 i → s.vaStop die id.ctx accWrite (dst + i) m = none →
      s.xlate die id.ctx (dst + i) accWrite = .host a l → Runs (.dumpCapture id .none) s (fun t =>
        (∀ j < m, t.rdHost (a + j) = (dumpHeader c.pkt step id.seq stamp len st x.late).getD (i + j) 0) ∧
        (64 ≤ i + m → c.outs = [] → (∃ k, t.cmdOf id = some k ∧ k.done = true) ∧ ∀ y ∈ t.dbg.armed, y.dump ≠ id)))) ∧
  (∀ (s : State) (g : Gid) (x : Group) (b : Block) (c : Cmd) (rd rq ra l va q : Nat), s.Issues g x b c [rd, rq, ra, ra + 1] →
    (lanesOf x.active).head? = some l → va = s.getRegs g x ra 2 l → q = (s.getReg g x rq l).toNat →
    (va % 64 ≠ 0 → Runs (.qenq g rd rq ra) s (fun t => t.block x.bid = some { b with trapped := true } ∧ t.thr.rf = s.thr.rf)) ∧
    (va % 64 = 0 → s.thr.ops = [] → s.cmdWaits b.cmd = false → s.remaining x.bid = [(g, x)] → b.cohort = none →
      ((s.swq q = none ∨ s.dying 1 q = true) → Runs (.qenq g rd rq ra) s (fun t => WroteReg s t g x rd (fun _ => 2) ∧ WentOn t g x ∧ SameMemory s t)) ∧
      (∀ w, s.swq q = some w → w.ctx = b.cmd.ctx → w.devEnq = true → s.dying 1 q = false → s.rd F.SWQ_STAT_STATE q = 1 → s.ctxState b.cmd.ctx = ctxLive →
        (2 ^ w.ringLog ≤ (w.tail + 2 ^ 32 - s.rd F.SWQ_STAT_HEAD q) % 2 ^ 32 → Runs (.qenq g rd rq ra) s (fun t =>
          WroteReg s t g x rd (fun _ => 1) ∧ WentOn t g x ∧ t.cmd = s.cmd ∧ SameMemory s t)) ∧
        (∀ y slot u a, aget s.obj.ctxs b.cmd.ctx = some y → (w.tail + 2 ^ 32 - s.rd F.SWQ_STAT_HEAD q) % 2 ^ 32 < 2 ^ w.ringLog →
          slot = w.ringVa + 64 * (w.tail % 2 ^ w.ringLog) → s.vaStop w.die b.cmd.ctx accRead va 64 = none →
          s.vaStop w.die b.cmd.ctx accWrite slot 64 = none → s.vaAsk w.die b.cmd.ctx 1 va 64 = (u, true) →
          u.vaPoison w.die b.cmd.ctx va 64 = .none → u.xlate w.die b.cmd.ctx slot accWrite = .pa a → a % 64 = 0 →
          ∀ v, u.svcAsk b.cmd.ctx w.die 1 [a / 128] true = (v, true) → v.svcKind b.cmd.ctx w.die (a / 128) = .none →
          Runs (.qenq g rd rq ra) s (fun t =>
            WroteReg s t g x rd (fun _ => 0) ∧ WentOn t g x ∧ (∃ z, t.swq q = some z ∧ z.tail = (w.tail + 1) % 2 ^ 32) ∧
            t.cmdOf ⟨b.cmd.ctx, y.next, 0⟩ = some (newCmd q) ∧ t.nextSeq b.cmd.ctx = y.next + 1 ∧
            t.rdBytes (u.ctxKey b.cmd.ctx) a 64 = u.rdVas w.die b.cmd.ctx va 64))))) ∧
  (∀ (s : State) (id : CmdId) (c : Cmd), s.cmdOf id = some c → s.canComplete id c = true → s.dbg.armed = [] →
    (id.node ≠ 0 → Runs (.commandComplete id) s (fun t => t.cmdOf id = none)) ∧
    (id.node = 0 → c.pkt ≠ [] → pkOp c.pkt ≠ opWait → c.refs = [] → pkQuiet c.pkt = true → c.status = stOk →
      Runs (.commandComplete id) s (fun t =>
        t.cmdOf id = none ∧ t.rd F.SWQ_CMPL_WRITTEN c.q = s.rd F.SWQ_CMPL_WRITTEN c.q ∧ SameMemory s t)) ∧
    (∀ u w n a served, id.node = 0 → c.pkt ≠ [] → pkOp c.pkt ≠ opWait → c.refs = [] → (pkQuiet c.pkt = false ∨ c.status ≠ stOk) →
      s.swq c.q = some w → s.rd F.SWQ_STAT_STATE c.q = 1 → n = s.rd F.SWQ_CMPL_WRITTEN c.q →
      (n + (if c.began then 0 else s.unrecorded c.q) + 2 ^ 32 - s.rd F.SWQ_CMPL_ACK c.q) % 2 ^ 32 < 2 ^ w.cmplLog → c.noRing = false →
      a % 32 = 0 → s.xlate w.die w.ctx (w.cmplVa + 32 * (n % 2 ^ w.cmplLog)) accWrite = .pa a →
      s.svcAsk w.ctx w.die 1 [a / 128] true = (u, served) → u.svcKind w.ctx w.die (a / 128) = .none →
      (served = false → exec (.commandComplete id) s = .next u) ∧
      (served = true → Runs (.commandComplete id) s (fun t => t.cmdOf id = none ∧ t.rd F.SWQ_CMPL_WRITTEN c.q = (n + 1) % 2 ^ 32 ∧
        t.rdBytes (s.ctxKey w.ctx) a 32 = recBytes id c.q c.status s.stamp (recPhase n w.cmplLog) c.pkt))))

/-- O51. An UP port answers a flit that fails its CRC with NAK, and the first data or control flit out of sequence, and changes nothing else but that a stopped network clock of its die starts to wake; an idle flit takes acknowledged flits out of the retry buffer and adds credits, and with NAK has the rest sent again, the eighth time in a row retraining the port; a data flit in sequence is acknowledged, and the packet it holds whole goes on to be routed. A retry buffer not acknowledged, or PORT_RETRAIN, retrains an UP port, its retry buffer kept. PORT_ENABLE, and a cable seated, train a port that may leave DOWN. Training ends in UP full, in UP half with HALF_OK and a half whose lanes pass, or DOWN, which empties the port and declares its requester dead. A lane that fails retrains or takes it DOWN by HALF_OK, and removing the cable takes it DOWN. A packet waits for a stopped network clock of its die. One for this module is delivered; another takes the UP port of FAB_ROUTE with most credits, with HOPS one less, or is dropped: counted at its arrival port, and at its source a packet of a transfer ends that transfer. SYNC leaves as a control flit with the stamp then read; the root holds distance 0 and LOCKED; another module takes a measurement from its parent, stepping its stamp at the first (log 36), and loses LOCKED where none comes. -/
def Obligations.PortsAndFlits : Prop :=
  (∀ (s : State) (p n : Nat) (f : BitVec 2048) (l : List Byte) (x : Port), p < 12 → s.portUp p = true → l = leBytes 256 f.toNat →
    x = s.port p →
    ((leAt l 248 8 ≠ (crc64 (l.take 248)).toNat ∨ leAt l 0 2 / 4096 ≠ 0 ∧ leAt l 0 2 % 4096 ≠ x.expect ∧ x.nak = false) →
      Runs (.flitReceive p f) s (fun t => t.port p = { x with nak := true } ∧ (∀ q, q ≠ p → t.port q = s.port q) ∧
        t.out = s.out ++ [.flit p (mkFlit x.next 0 x.expect 1 0 0 0xFF [])] ∧ t.regs = (s.wakeDies [p / 3]).regs ∧
        t.fab.arrivals = s.fab.arrivals ∧ SameMemory s t)) ∧
    (leAt l 248 8 = (crc64 (l.take 248)).toNat → leAt l 0 2 / 4096 ≠ 0 → leAt l 0 2 % 4096 ≠ x.expect → x.nak = true →
      exec (.flitReceive p f) s = .next (s.wakeDies [p / 3])) ∧
    (leAt l 248 8 = (crc64 (l.take 248)).toNat → leAt l 0 2 / 4096 = 0 → x.egress = [] →
      n = (match x.retry.head? with | some e => (leAt l 2 2 % 4096 + 4096 - e.1) % 4096 | none => 0) → n ≤ x.retry.length →
      (bitsOf (leAt l 2 2) 12 1 = 0 ∨ n = x.retry.length → Runs (.flitReceive p f) s (fun t => t.port p = { x with
        retry := x.retry.drop n, fails := if n = 0 then x.fails else 0,
        credits := x.credits.set (leAt l 4 1 % 4) (x.credits.getD (leAt l 4 1 % 4) 0 + leAt l 5 1) } ∧ t.out = s.out ∧
        t.regs = (s.wakeDies [p / 3]).regs)) ∧
      (bitsOf (leAt l 2 2) 12 1 = 1 → n = 0 → x.retry ≠ [] → x.fails < 7 → Runs (.flitReceive p f) s (fun t =>
        t.out = s.out ++ x.retry.map (fun e => Out.flit p (reAck e.2 x.expect)) ∧ (t.port p).retry = x.retry ∧
        (t.port p).fails = x.fails + 1 ∧ t.rd F.FAB_PORT_CNT_REPLAY p = min (2 ^ 32 - 1) (s.rd F.FAB_PORT_CNT_REPLAY p + 1))) ∧
      (bitsOf (leAt l 2 2) 12 1 = 1 → n = 0 → x.retry ≠ [] → x.fails = 7 → Runs (.flitReceive p f) s (fun t =>
        t.rd F.FAB_PORT_STAT_STATE p = 1 ∧ (t.port p).retry = x.retry ∧ (t.port p).fails = 0))) ∧
    (leAt l 248 8 = (crc64 (l.take 248)).toNat → leAt l 0 2 / 4096 = 1 → leAt l 0 2 % 4096 = x.expect → x.egress = [] → x.rx = [] →
      x.retry = [] → leAt l 6 1 = 0 → leAt l 8 1 ≠ 0 → n = 16 + leAt l 16 2 → n < 240 → leAt l (8 + n) 1 = 0 →
      Runs (.flitReceive p f) s (fun t => t.fab.arrivals = s.fab.arrivals ++
        [⟨some p, p / 3, fabFlits (fabParse ((l.drop 8).take 240)), fabParse ((l.drop 8).take 240)⟩] ∧
        (t.port p).expect = (x.expect + 1) % 4096 ∧ (t.port p).nak = false ∧ (t.port p).rx = [] ∧
        t.out = s.out ++ [.flit p (mkFlit x.next 0 ((x.expect + 1) % 4096) 0 0 0 0xFF [])] ∧
        t.regs = (s.wakeDies [p / 3]).regs ∧ SameMemory s t))) ∧
  (∀ (s : State) (p : Nat), p < 12 → s.portUp p = true →
    ((s.port p).retry ≠ [] → Runs (.flitAckTimeout p) s (fun t => t.rd F.FAB_PORT_STAT_STATE p = 1 ∧
      t.port p = { s.port p with full := s.rd F.FAB_PORT_STAT_STATE p == 2 } ∧ s.Fires t (0x0A0 + p) ∧
      t.rd F.FAB_PORT_CNT_RETRAINS p = min 65535 (s.rd F.FAB_PORT_CNT_RETRAINS p + 1) ∧ SameMemory s t)) ∧
    ((s.port p).retry = [] → exec (.flitAckTimeout p) s = .next s) ∧
    Runs (.portRetrain p) s (fun t => t.rd F.FAB_PORT_STAT_STATE p = 1 ∧ t.port p = { s.port p with full := true } ∧
      s.Fires t (0x0A0 + p) ∧ t.rd F.FAB_PORT_CNT_RETRAINS p = min 65535 (s.rd F.FAB_PORT_CNT_RETRAINS p + 1) ∧ SameMemory s t)) ∧
  (∀ (s : State) (p : Nat), p < 12 →
    ((s.on F.FAB_MODULE_VALID = true ∧ s.fab.seated.getLsbD p = true ∧ s.rd F.FAB_PORT_STAT_STATE p = 0 ∧
        s.rd F.PWR_DSTAT_STATE (592 + p) = 2 ∧ bitsOf (s.rd F.RST_UNIT_PORT (p / 3)) (p % 3) 1 = 0) →
      Runs (.portEnable p) s (fun t => t.on F.FAB_PORT_CTL_EN p = true ∧ t.rd F.FAB_PORT_STAT_STATE p = 1 ∧
        t.port p = { s.port p with full := true } ∧ s.Fires t (0x0A0 + p) ∧ SameMemory s t)) ∧
    ((s.on F.FAB_MODULE_VALID = false ∨ s.fab.seated.getLsbD p = false ∨ s.rd F.FAB_PORT_STAT_STATE p ≠ 0 ∨
        s.rd F.PWR_DSTAT_STATE (592 + p) ≠ 2 ∨ bitsOf (s.rd F.RST_UNIT_PORT (p / 3)) (p % 3) 1 = 1) →
      exec (.portEnable p) s = .next (s.wr F.FAB_PORT_CTL_EN 1 p)) ∧
    (s.on F.FAB_PORT_CTL_EN p = true → s.on F.FAB_MODULE_VALID = true → s.rd F.FAB_PORT_STAT_STATE p = 0 →
      s.rd F.PWR_DSTAT_STATE (592 + p) = 2 → bitsOf (s.rd F.RST_UNIT_PORT (p / 3)) (p % 3) 1 = 0 →
      Runs (.cblPrsntChange p false) s (fun t => t.fab.seated.getLsbD p = true ∧ t.rd F.FAB_PORT_STAT_STATE p = 1)) ∧
    (s.rd F.FAB_PORT_STAT_STATE p ≠ 0 → Runs (.cblPrsntChange p true) s (fun t => t.fab.seated.getLsbD p = false ∧
      t.rd F.FAB_PORT_STAT_STATE p = 0 ∧ t.port p = freshPort ∧ t.isDead (72 + p) = true ∧ s.Fires t (0x0A0 + p)))) ∧
  (∀ (s : State) (p peer pp : Nat) (good : BitVec 8) (x : Port), p < 12 → s.rd F.FAB_PORT_STAT_STATE p = 1 → x = s.port p →
    (x.full = true → good = 255 → x.retry = [] → x.egress = [] → Runs (.portTrainDone p good peer pp) s (fun t =>
      t.rd F.FAB_PORT_STAT_STATE p = 2 ∧ t.rd F.FAB_PORT_STAT_LANE_FAIL p = 0 ∧ t.rd F.FAB_PORT_STAT_HALF_SEL p = 0 ∧
      t.rd F.FAB_PORT_STAT_PEER p = peer % 4096 ∧ t.rd F.FAB_PORT_STAT_PEER_PORT p = pp % 16 ∧ t.isDead (72 + p) = false ∧
      t.port p = x ∧ s.Fires t (0x0A0 + p) ∧ SameMemory s t)) ∧
    (x.full = true → good ≠ 255 → s.on F.FAB_PORT_CTL_HALF_OK p = true → x.retry = [] → x.egress = [] →
      (good.toNat % 16 = 15 ∨ good.toNat / 16 = 15) → Runs (.portTrainDone p good peer pp) s (fun t =>
        t.rd F.FAB_PORT_STAT_STATE p = 3 ∧ t.rd F.FAB_PORT_STAT_LANE_FAIL p = 255 - good.toNat ∧
        t.rd F.FAB_PORT_STAT_HALF_SEL p = (if good.toNat % 16 = 15 then 0 else 1) ∧ t.isDead (72 + p) = false ∧ t.port p = x)) ∧
    (x.full = true → good ≠ 255 → (s.on F.FAB_PORT_CTL_HALF_OK p = false ∨ good.toNat % 16 ≠ 15 ∧ good.toNat / 16 ≠ 15) →
      Runs (.portTrainDone p good peer pp) s (fun t => t.rd F.FAB_PORT_STAT_STATE p = 0 ∧ t.port p = freshPort ∧ t.isDead (72 + p) = true))) ∧
  (∀ (s : State) (p lane : Nat), p < 12 → lane < 8 → s.rd F.FAB_PORT_STAT_STATE p = 2 → s.rd F.FAB_PORT_STAT_LANE_FAIL p = 0 →
    (s.on F.FAB_PORT_CTL_HALF_OK p = true → Runs (.laneFail p lane) s (fun t => t.rd F.FAB_PORT_STAT_STATE p = 1 ∧
      t.rd F.FAB_PORT_STAT_LANE_FAIL p = 2 ^ lane ∧ t.port p = { s.port p with full := false } ∧ SameMemory s t)) ∧
    (s.on F.FAB_PORT_CTL_HALF_OK p = false → Runs (.laneFail p lane) s (fun t => t.rd F.FAB_PORT_STAT_STATE p = 0 ∧
      t.rd F.FAB_PORT_STAT_LANE_FAIL p = 2 ^ lane ∧ t.port p = freshPort))) ∧
  (∀ (s : State) (a : Arr) (r : List Arr), s.fab.arrivals = a :: r →
    (s.on F.INT_ISL_STOPPED a.die = true → exec .packetRoute s = .next (s.wakeDies [a.die])) ∧
    (s.on F.INT_ISL_STOPPED a.die = false → (a.pkt.dst = s.rd F.FAB_MODULE_MODULE → exec .packetRoute s =
      .next { s with fab := { s.fab with arrivals := r, here := s.fab.here ++ [a] } }) ∧
    (∀ p, a.port = some p → a.pkt.dst ≠ s.rd F.FAB_MODULE_MODULE →
      (a.pkt.hops = 0 ∨ s.routes a = []) → Runs .packetRoute s (fun t => t.fab = { s.fab with arrivals := r } ∧
        t.rd F.FAB_PORT_CNT_DROP p = min 65535 (s.rd F.FAB_PORT_CNT_DROP p + 1) ∧
        t.out = (s.returnSlots a.slots).out)) ∧
    (a.port = none → a.pkt.dst ≠ s.rd F.FAB_MODULE_MODULE → (a.pkt.hops = 0 ∨ s.routes a = []) →
      (a.pkt.typ ≠ .bind ∧ a.pkt.typ ≠ .write ∧ a.pkt.typ ≠ .fin → exec .packetRoute s = .next { s with fab := { s.fab with arrivals := r } }) ∧
      (∀ x w, (a.pkt.typ = .bind ∨ a.pkt.typ = .write ∨ a.pkt.typ = .fin) → a.pkt.xfer = x → aget s.fab.send x = some w →
        Runs .packetRoute s (fun t => t.fab.arrivals = r ∧ aget t.fab.send x = none ∧
          (∀ id c, w.owner = .cmd id → aget s.cmd.cmds id = some c →
            aget t.cmd.cmds id = some { c.note stAborted with done := true, xfer := none })))) ∧
    (∀ (q : Nat) (k : FabPkt), a.pkt.dst ≠ s.rd F.FAB_MODULE_MODULE → a.pkt.hops ≠ 0 →
      s.bestPort (fabVc a.pkt) (s.routes a) = some q → (s.port q).egress = [] → (s.port q).credits.length = 4 →
      k = { a.pkt with hops := a.pkt.hops - 1, dl := a.pkt.dl || s.on F.FAB_PORT_CTL_DATELINE q } → (s.port q).canSend 0 k = true →
      Runs .packetRoute s (fun t => t.fab.arrivals = r ∧ t.fab.here = s.fab.here ∧ (t.port q).egress = [] ∧
        (t.port q).credits.getD (fabVc k) 0 = (s.port q).credits.getD (fabVc k) 0 - fabFlits k ∧
        (t.port q).retry.length = (s.port q).retry.length + fabFlits k ∧ t.regs = s.regs ∧ SameMemory s t)))) ∧
  (∀ (s : State) (p : Nat) (m : SyncMsg), p < 12 → s.portUp p = true →
    (s.on F.FAB_STAMP_CTL_EN = true → (s.port p).retry.length < 512 → Runs (.stampSyncTimer p) s (fun t =>
      t.out = s.out ++ [.flit p (mkFlit (s.port p).next 2 (s.port p).expect 0 0 0 0xFF (leBytes 8 s.stamp ++ leBytes 1 (s.rd F.FAB_STAMP_STAT_DIST)))] ∧
      (t.port p).next = ((s.port p).next + 1) % 4096 ∧ t.fab.seen = max s.fab.seen s.stamp ∧ t.regs = s.regs ∧ SameMemory s t)) ∧
    (s.on F.FAB_STAMP_CTL_EN = false → exec (.stampSyncTimer p) s = .next s ∧ exec (.stampSync p m) s = .next s) ∧
    (s.on F.FAB_STAMP_CTL_EN = true → s.on F.FAB_MODULE_VALID = true → s.rd F.FAB_MODULE_MODULE = s.rd F.FAB_STAMP_CTL_ROOT_MOD →
      Runs (.stampSync p m) s (fun t => t.on F.FAB_STAMP_STAT_ROOT = true ∧ t.rd F.FAB_STAMP_STAT_DIST = 0 ∧
        t.on F.FAB_STAMP_STAT_LOCKED = true)) ∧
    (s.on F.FAB_STAMP_CTL_EN = true → (s.on F.FAB_MODULE_VALID = false ∨ s.rd F.FAB_MODULE_MODULE ≠ s.rd F.FAB_STAMP_CTL_ROOT_MOD) →
      s.fab.dists = [] → Runs (.stampSync p m) s (fun t => t.on F.FAB_STAMP_STAT_ROOT = false ∧ t.rd F.FAB_STAMP_STAT_PARENT = p ∧
        t.rd F.FAB_STAMP_STAT_DIST = min 31 (m.dist + 1) ∧ t.fab.stepped = true ∧
        t.fab.seen = (if s.fab.stepped then s.fab.seen else m.stamp) ∧
        (t.on F.FAB_STAMP_STAT_LOCKED = true ↔ m.dist + 1 ≤ 24)))) ∧
  (∀ s : State, (s.on F.FAB_STAMP_STAT_ROOT = true → exec .stampLockExpire s = .next s) ∧
    (s.on F.FAB_STAMP_STAT_ROOT = false → exec .stampLockExpire s =
      .next ({ s with fab := { s.fab with measured := false } }.wr F.FAB_STAMP_STAT_LOCKED 0)))

/-- O52. A packet is taken when it is the first of its port and channel, and its buffer slots go back. At the receiver, answers go in the partition of the context. BIND is answered BIND_FAIL with ST_FAULT_PERM where the access list does not admit its sender, with ST_OK where no entry is free, with ST_OBJ_GONE where its object does not bind and with ST_FAULT_PERM where it runs past the object's end, with the status of its context where that is not LIVE and with ST_ABORTED where a reduction is misaligned; it waits for a clerk awake and for a reference; else it makes an entry numbered as the context's next command, raises the object's references and answers BIND_OK; a BIND of an entry that stands is answered BIND_OK again. A WRITE in the window is accepted once and sent on to the home of its line, and one accepted before is only taken; ACK reports the count, END is answered DONE once every packet is performed, DONE is sent again for an ended entry, and an entry that has gone quiet, or was ended, goes. At the sender, BIND_OK sends the packets of the window and END, BIND_FAIL with ST_OK waits for the retry, any other status completes the COPY with it; ACK advances the window; packets and END are sent again; DONE completes the COPY; a stall, or ABORT, ends it with its status. -/
def Obligations.PeerTransfers : Prop :=
  (∀ (s u : State) (a : Arr) (l : List Byte) (c red h off len : Nat), s.firstOf .bind = some a →
    u = ({ s with fab := { s.fab with here := s.fab.here.erase a } } : State).returnSlots a.slots → l = a.pkt.payload → c = leAt l 0 1 % 64 → red = leAt l 1 1 →
    h = leAt l 4 4 → off = leAt l 8 8 → len = leAt l 16 8 → s.clerkAwake a.die = true →
    ((aget s.fab.recv (a.pkt.src, a.pkt.xfer)).isSome = true →
      exec .fabBind s = .next (u.emit a.die a.pkt.src (s.ctxPart c) .bindOk a.pkt.xfer 0 [])) ∧
    (aget s.fab.recv (a.pkt.src, a.pkt.xfer) = none →
      ((s.on F.FAB_CTX_ACL_EN c = false ∨ a.pkt.src < s.rd F.FAB_CTX_ACL_FIRST c ∨ s.rd F.FAB_CTX_ACL_LAST c < a.pkt.src) →
        exec .fabBind s = .next (u.emit a.die a.pkt.src (s.ctxPart c) .bindFail a.pkt.xfer 0 (leBytes 2 stFaultPerm))) ∧
      (s.on F.FAB_CTX_ACL_EN c = true → s.rd F.FAB_CTX_ACL_FIRST c ≤ a.pkt.src → a.pkt.src ≤ s.rd F.FAB_CTX_ACL_LAST c →
        (4096 ≤ s.fab.recv.length → exec .fabBind s = .next (u.emit a.die a.pkt.src (s.ctxPart c) .bindFail a.pkt.xfer 0 (leBytes 2 stOk))) ∧
        (s.fab.recv.length < 4096 → (∀ st, submitFail (s.ctxState c) = some st →
            exec .fabBind s = .next (u.emit a.die a.pkt.src (s.ctxPart c) .bindFail a.pkt.xfer 0 (leBytes 2 st))) ∧ (submitFail (s.ctxState c) = none →
          (s.moBinds c (s.nextSeq c) h = false →
            exec .fabBind s = .next (u.emit a.die a.pkt.src (s.ctxPart c) .bindFail a.pkt.xfer 0 (leBytes 2 stObjGone))) ∧
          (s.moBinds c (s.nextSeq c) h = true → s.pastEnd h off len = true →
            exec .fabBind s = .next (u.emit a.die a.pkt.src (s.ctxPart c) .bindFail a.pkt.xfer 0 (leBytes 2 stFaultPerm))) ∧
          (s.moBinds c (s.nextSeq c) h = true → s.pastEnd h off len = false →
            (bitsOf red 0 2 ≠ 0 → (s.moVa (h % 2 ^ 20) + off) % redSize red ≠ 0 →
              exec .fabBind s = .next (u.emit a.die a.pkt.src (s.ctxPart c) .bindFail a.pkt.xfer 0 (leBytes 2 stAborted))) ∧
            ((bitsOf red 0 2 = 0 ∨ (s.moVa (h % 2 ^ 20) + off) % redSize red = 0) →
            (s.moFull h = true → exec .fabBind s = .next s) ∧ (s.moFull h = false →
            Runs .fabBind s (fun t => (∃ x, aget t.fab.recv (a.pkt.src, a.pkt.xfer) = some x ∧ x.ctx = c ∧ x.obj = h % 2 ^ 20 ∧
                x.seq = s.nextSeq c ∧ x.va = s.moVa (h % 2 ^ 20) + off ∧ x.len = len ∧ x.red = red ∧ x.count = 0 ∧ x.ended = false ∧
                x.port = a.port ∧ x.die = a.die) ∧
              t.fab.arrivals = (u.emit a.die a.pkt.src (s.ctxPart c) .bindOk a.pkt.xfer 0 []).fab.arrivals ∧ t.fab.here = u.fab.here ∧
              t.mem = (s.moRefInc (h % 2 ^ 20)).mem ∧ t.regs = s.regs))))))))) ∧
  (∀ (s : State) (a : Arr), s.firstOf .bind = some a → s.clerkAwake a.die = false → exec .fabBind s = .next (s.wakeClerk a.die)) ∧
  (∀ (s u : State) (a : Arr) (t : SendX) (x : Nat), x = a.pkt.xfer → aget s.fab.send x = some t → t.dst = a.pkt.src →
    u = ({ s with fab := { s.fab with here := s.fab.here.erase a } } : State).returnSlots a.slots →
    (s.firstOf .bindOk = some a → t.bound = false → t.endSent = false → t.sent = 0 → t.acked = 0 →
      (∀ l, t.src = .bytes l → 0 < t.len → t.len ≤ 256 → (∀ id, t.owner = .cmd id → s.cmdWaits id = false) → Runs .fabBindOk s (fun v =>
        aget v.fab.send x = some { t with bound := true, refused := false, sent := 1, endSent := true } ∧ v.fab.here = u.fab.here ∧
        v.fab.arrivals = ((u.emit t.die t.dst t.part .write x 0 (l.take t.len)).emit t.die t.dst t.part .fin x 0 (leBytes 4 1)).fab.arrivals ∧
        v.regs = s.regs ∧ SameMemory s v))) ∧
    (s.firstOf .bindFail = some a → t.bound = false →
      (leAt a.pkt.payload 0 2 = stOk →
        exec .fabBindFail s = .next { u with fab := { u.fab with send := aput s.fab.send x { t with refused := true } } }) ∧
      (∀ id c, t.owner = .cmd id → s.cmdOf id = some c → leAt a.pkt.payload 0 2 ≠ stOk → Runs .fabBindFail s (fun v =>
        aget v.fab.send x = none ∧ v.cmdOf id = some { c.note (leAt a.pkt.payload 0 2) with done := true, xfer := none } ∧
        v.regs = s.regs ∧ SameMemory s v))) ∧
    (s.firstOf .ack = some a → t.endSent = true →
      (t.acked < a.pkt.pseq → a.pkt.pseq ≤ t.sent → Runs .fabAck s (fun v => aget v.fab.send x = some { t with acked := a.pkt.pseq } ∧
        v.fab.here = u.fab.here ∧ v.fab.arrivals = s.fab.arrivals ∧ v.regs = s.regs ∧ SameMemory s v)) ∧
      ((a.pkt.pseq ≤ t.acked ∨ t.sent < a.pkt.pseq) → exec .fabAck s = .next u)) ∧
    (∀ id c, s.firstOf .done = some a → t.endSent = true → t.owner = .cmd id → s.cmdOf id = some c →
      Runs .fabDone s (fun v => aget v.fab.send x = none ∧ v.cmdOf id = some { c with done := true, xfer := none } ∧ v.regs = s.regs ∧
        SameMemory s v)) ∧
    (∀ id c, s.firstOf .abort = some a → t.owner = .cmd id → s.cmdOf id = some c →
      leAt a.pkt.payload 0 2 ≠ stOk → Runs .fabAbort s (fun v => aget v.fab.send x = none ∧
        v.cmdOf id = some { c.note (leAt a.pkt.payload 0 2) with done := true, xfer := none } ∧ v.regs = s.regs ∧ SameMemory s v))) ∧
  (∀ (s : State) (t : SendX) (x j : Nat), aget s.fab.send x = some t →
    (t.refused = true → Runs (.fabBindRetry x) s (fun v => aget v.fab.send x = some { t with refused := false } ∧
      v.fab.arrivals = (s.emit t.die t.dst t.part .bind x 0 t.bind).fab.arrivals ∧ v.regs = s.regs ∧ SameMemory s v)) ∧
    (t.refused = false → exec (.fabBindRetry x) s = .next s) ∧
    (∀ l, t.src = .bytes l → t.acked ≤ j → j < t.sent →
      exec (.fabPacketResend x j) s = .next (s.emit t.die t.dst t.part .write x j ((l.drop (256 * j)).take (min 256 (t.len - 256 * j))))) ∧
    ((j < t.acked ∨ t.sent ≤ j) → exec (.fabPacketResend x j) s = .next s) ∧
    (t.endSent = true → exec (.fabEndResend x) s = .next (s.emit t.die t.dst t.part .fin x 0 (leBytes 4 t.total))) ∧
    (t.endSent = false → exec (.fabEndResend x) s = .next s) ∧
    (∀ id c, t.owner = .cmd id → s.cmdOf id = some c → Runs (.fabXferStall x) s (fun v => aget v.fab.send x = none ∧
      v.cmdOf id = some { c.note stAborted with done := true, xfer := none } ∧
      v.fab.arrivals = (s.emit t.die t.dst t.part .abort x 0 (leBytes 2 stAborted)).fab.arrivals ∧ v.regs = s.regs ∧ SameMemory s v))) ∧
  (∀ (s u : State) (a : Arr) (t : RecvX) (k : Nat × Nat), k = (a.pkt.src, a.pkt.xfer) → aget s.fab.recv k = some t →
    u = ({ s with fab := { s.fab with here := s.fab.here.erase a } } : State).returnSlots a.slots →
    (∀ va pa : Nat, s.firstOf .write = some a → s.recvWaits t.ctx k = false → t.ended = false →
      t.count ≤ a.pkt.pseq → t.got.contains a.pkt.pseq = false → a.pkt.pseq < t.told + 1024 → a.pkt.payload ≠ [] →
      256 * a.pkt.pseq + a.pkt.payload.length ≤ t.len → bitsOf t.red 0 2 = 0 → t.lines = [] → (∀ o ∈ t.outs, o.2 ≠ (a.pkt.pseq, va / 128)) → va = t.va + 256 * a.pkt.pseq →
      va % 128 + a.pkt.payload.length ≤ 128 → s.vaStop t.die t.ctx accWrite va a.pkt.payload.length = none →
      s.xlate t.die t.ctx va accWrite = .pa pa → s.coh.want = [] →
      Runs .fabWrite s (fun v => v.fab.here = u.fab.here ∧ (∃ y, aget v.fab.recv k = some y ∧ y.got = a.pkt.pseq :: t.got ∧
          y.outs = t.outs ++ [(s.thr.serial + 1, a.pkt.pseq, va / 128)] ∧ y.count = t.count) ∧
        (∃ m, v.coh.bq = s.coh.bq ++ [m] ∧ m.line = pa / 128 ∧ m.op = s.thr.serial + 1 ∧
          m.req = (if a.pkt.payload.length = 128 then .wrF else .wrP) ∧ m.r = (match a.port with | some p => 72 + p | none => 72 + 3 * a.die) ∧
          m.key = s.ctxKey t.ctx) ∧ v.regs = s.regs ∧ SameMemory s v)) ∧
    (s.firstOf .write = some a → s.recvWaits t.ctx k = false →
      (t.ended = true ∨ a.pkt.pseq < t.count ∨ t.got.contains a.pkt.pseq = true) → exec .fabWrite s = .next u) ∧
    (s.firstOf .fin = some a →
      (t.ended = true → exec .fabEnd s = .next (u.emit t.die k.1 (s.ctxPart t.ctx) .done k.2 0 [])) ∧
      (t.ended = false → t.perf = [] → leAt a.pkt.payload 0 4 = t.count → Runs .fabEnd s (fun v =>
        (∃ y, aget v.fab.recv k = some y ∧ y.ended = true ∧ y.count = t.count) ∧
        v.fab.arrivals = (u.emit t.die k.1 (s.ctxPart t.ctx) .done k.2 0 []).fab.arrivals ∧ v.mem = (s.moRefDec t.obj).mem ∧ v.regs = s.regs)) ∧
      (t.ended = false → t.perf = [] → t.count < leAt a.pkt.payload 0 4 → t.count < t.told + 64 → Runs .fabEnd s (fun v =>
        (∃ y, aget v.fab.recv k = some y ∧ y.total = some (leAt a.pkt.payload 0 4) ∧ y.ended = false) ∧
        v.fab.arrivals = s.fab.arrivals ∧ v.regs = s.regs ∧ SameMemory s v))) ∧
    (s.firstOf .abort = some a → aget s.fab.send a.pkt.xfer = none → t.ended = false →
      Runs .fabAbort s (fun v => aget v.fab.recv k = none ∧ v.mem = (s.moRefDec t.obj).mem ∧ v.fab.arrivals = s.fab.arrivals))) ∧
  (∀ (s : State) (t : RecvX) (src x : Nat), aget s.fab.recv (src, x) = some t →
    (t.ended = false → t.count ≠ t.told → Runs (.fabAckTimer src x) s (fun v => aget v.fab.recv (src, x) = some { t with told := t.count } ∧
      v.fab.arrivals = (s.emit t.die src (s.ctxPart t.ctx) .ack x t.count []).fab.arrivals ∧ v.regs = s.regs ∧ SameMemory s v)) ∧
    ((t.ended = true ∨ t.count = t.told) → exec (.fabAckTimer src x) s = .next s) ∧
    (t.ended = false → Runs (.fabRecvIdle src x) s (fun v => aget v.fab.recv (src, x) = none ∧ v.mem = (s.moRefDec t.obj).mem ∧
      v.regs = s.regs) ∧ exec (.fabEndedEntryExpire src x) s = .next s) ∧
    (t.ended = true → exec (.fabRecvIdle src x) s = .next s ∧ Runs (.fabEndedEntryExpire src x) s (fun v =>
      aget v.fab.recv (src, x) = none ∧ v.regs = s.regs ∧ SameMemory s v)))

/-- O53. A contained core that passes its self-test is back with its registers empty, and its record is written to the log at HEAD, which advances; one that fails has its cluster quarantined. A heartbeat lost quarantines the cluster: QUAR and its count, its blocks and cache lines gone, its agent dead. Write-backs out at the time limit are dropped and the agent declared dead. REPARTITION, once a clerk of the die is awake, closes the record of a settled quarantine, and those of containments it ended, and raises REPART. A cluster that passes its self-test comes ON at boot, or returns from quarantine with its counts cleared and its domains waking, where its folio gives it to a partition; one that fails is quarantined. A clerk restarts, with its source raised and its queue slots passed to the first other clerk of its die in service, while commands and blocks run on. A UCIe module lost shows TRAINERROR, its agent dead and its held accesses dropped, and the loss of both modules of a die resets the module; one trained again is ACTIVE with its freeze bit clear. D2D_DOWN and PKG_WDT reset the module with its fault noted. A containment ages out of its window. -/
def Obligations.FaultResponses : Prop :=
  (∀ (s : State) (core : Nat), s.rcv.cores.contains core = true → s.unitBit F.RST_CORE_CORE (core / 64) (core % 64) = false →
    (s.on F.REC_LOG_BASE_EN = false → Runs (.coreSelftestDone core true) s (fun t => t.rcv.cores = s.rcv.cores.filter (fun k => k != core) ∧
      (∀ k : RfKey, k.core = core → aget t.thr.rf k = none) ∧ (∀ k : RfKey, k.core ≠ core → aget t.thr.rf k = aget s.thr.rf k) ∧
      (∀ f i j, f.reg ≠ .CAP → f.reg ≠ .LS_SPLIT → f.reg ≠ .TAL_CNT → f.reg ≠ .TAL_CYC → t.rd f i j = s.rd f i j) ∧ SameMemory s t)) ∧
    (∀ (r : Rec) (h a : Nat), s.on F.REC_LOG_BASE_EN = true → s.rcv.logs.find? (fun r => r.action == 1 && r.unit == core) = some r →
      h = s.rd F.REC_LOG_PTR_HEAD → (h + 1024 - s.rd F.REC_LOG_PTR_TAIL) % 1024 ≠ 512 →
      a = s.rd F.REC_LOG_BASE_BASE * 2 ^ 14 + 32 * (h % 512) → s.linePoison (a / 128) = .none →
      Runs (.coreSelftestDone core true) s (fun t => t.rdBytes devKey a 32 = r.bytes ∧ t.rd F.REC_LOG_PTR_HEAD = (h + 1) % 1024 ∧
        t.rcv.logs = s.rcv.logs.erase r ∧ s.Fires t 0x400 ∧ (∀ k p, p / 128 ≠ a / 128 → t.rdByte k p = s.rdByte k p))) ∧
    (core < 512 → s.on F.REC_CNT_QUAR (core / 8) = false → s.on F.REC_LOG_BASE_EN = false → Runs (.coreSelftestDone core false) s (fun t =>
      t.on F.REC_CNT_QUAR (core / 8) = true ∧ (∀ e ∈ t.thr.blocks, e.2.core / 8 ≠ core / 8)))) ∧
  (∀ (s : State) (cl : Nat), cl < 64 →
    (s.on F.REC_CNT_QUAR cl = true → exec (.heartbeatTimeout cl) s = .next s) ∧
    (s.on F.REC_CNT_QUAR cl = false → Runs (.heartbeatTimeout cl) s (fun t => t.on F.REC_CNT_QUAR cl = true ∧
      t.rd F.REC_CNT_QUARS cl = min 255 (s.rd F.REC_CNT_QUARS cl + 1) ∧ t.isDead cl = true ∧ t.rcv.repart = s.rcv.repart ++ [cl] ∧
      (∀ e ∈ t.thr.blocks, e.2.core / 8 ≠ cl) ∧ (∀ e ∈ t.coh.cc, e.1.unit ≠ cl) ∧ s.Fires t (0x040 + cl))) ∧
    (s.rcv.wb.contains cl = true → s.flushing cl = true → Runs (.quarantineWbTimeout cl) s (fun t => t.isDead cl = true ∧
      t.rcv.wb = s.rcv.wb.erase cl ∧ (∀ e ∈ t.coh.cc, e.1.unit ≠ cl) ∧ (∀ e ∈ t.coh.vc, e.1 ≠ cl) ∧ t.thr = s.thr ∧ SameMemory s t)) ∧
    ((s.rcv.wb.contains cl = false ∨ s.flushing cl = false) → exec (.quarantineWbTimeout cl) s = .next s) ∧
    (s.rcv.repart = [cl] → s.quarSettled cl = true → s.clerkAwake (cl / 16) = false → exec .repartition s = .next (s.wakeClerk (cl / 16))) ∧
    (s.rcv.repart = [cl] → s.quarSettled cl = true → s.clerkAwake (cl / 16) = true → s.on F.REC_LOG_BASE_EN = false →
      Runs .repartition s (fun t => t.rcv.repart = [] ∧
        (∀ r, s.rcv.logs.find? (fun r => r.action == 2 && r.unit == cl) = some r → (∀ x ∈ s.rcv.logs, x.action = 1 → x.unit / 8 ≠ cl) →
          t.rcv.logs = s.rcv.logs.erase r) ∧
        (∀ r, s.rcv.logs.filter (fun x => x.action == 1 && x.unit / 8 == cl) = [r] → r ∉ t.rcv.logs) ∧ s.Fires t 0x401 ∧ SameMemory s t)) ∧
    (s.rcv.repart = [cl] → s.quarSettled cl = false → exec .repartition s = .next s) ∧
    (s.rcv.testing.contains cl = true → s.on F.REC_LOG_BASE_EN = false →
      (s.on F.REC_CNT_QUAR cl = false → Runs (.clusterSelftestDone cl true) s (fun t =>
        (s.rst.step < 10 → s.clusterPart cl ≠ 255 → ∀ d ∈ clusterDoms cl, t.dom d = domOn) ∧ (s.clusterPart cl = 255 → ∀ d, t.dom d = s.dom d) ∧
        (10 ≤ s.rst.step → ∀ d, t.dom d = s.dom d) ∧
        t.rcv.testing = s.rcv.testing.filter (fun c => c != cl) ∧ SameMemory s t)) ∧
      (s.on F.REC_CNT_QUAR cl = true → Runs (.clusterSelftestDone cl true) s (fun t =>
        (s.clusterPart cl ≠ 255 → ∀ d ∈ clusterDoms cl, t.dom d = domWaking) ∧ (s.clusterPart cl = 255 → ∀ d, t.dom d = s.dom d) ∧
        t.on F.REC_CNT_QUAR cl = false ∧ t.rd F.REC_CNT_CONTAIN cl = 0 ∧ t.isDead cl = false ∧ SameMemory s t)) ∧
      (s.on F.REC_CNT_QUAR cl = false → Runs (.clusterSelftestDone cl false) s (fun t => t.on F.REC_CNT_QUAR cl = true)) ∧
      (s.on F.REC_CNT_QUAR cl = true → Runs (.clusterSelftestDone cl false) s (fun t => t.regs = s.regs ∧ t.thr = s.thr ∧
        t.rcv.testing = s.rcv.testing.filter (fun c => c != cl) ∧ SameMemory s t))) ∧
    (s.rd F.REC_CNT_CONTAIN cl = 0 → exec (.containWindowExpire cl) s = .next s) ∧
    (s.rd F.REC_CNT_CONTAIN cl ≠ 0 → exec (.containWindowExpire cl) s = .next (s.wr F.REC_CNT_CONTAIN (s.rd F.REC_CNT_CONTAIN cl - 1) cl))) ∧
  (∀ (s : State) (k : Nat), k < 16 → Runs (.clerkWdt k) s (fun t =>
    (∀ i n, (List.range 4).find? (fun i => k / 4 * 4 + i != k && s.clerkIn (k / 4 * 4 + i)) = some i → n < 256 → s.on F.QSLOT_STAT_MAPPED n = true →
      s.rd F.QSLOT_STAT_CLERK n = k → t.rd F.QSLOT_STAT_CLERK n = k / 4 * 4 + i) ∧ t.cmd = s.cmd ∧ t.thr = s.thr ∧ t.syn = s.syn ∧
    s.Fires t (0x0B4 + k) ∧ (s.on F.REC_LOG_BASE_EN = false → SameMemory s t))) ∧
  (∀ (s : State) (m : Nat), m < 8 →
    (s.rcv.ucie.contains m = true → exec (.ucieDown m) s = .next s) ∧
    (s.rcv.ucie.contains m = false → s.rcv.ucie.contains (m / 2 * 2 + (1 - m % 2)) = false → Runs (.ucieDown m) s (fun t =>
      t.rd F.UCIE_STAT_STATE m = 7 ∧ t.rcv.ucie.contains m = true ∧ t.isDead (64 + m) = true ∧ t.held = s.held.filter (fun a => a.mod != m) ∧
      s.Fires t (0x0AC + m) ∧ t.rst = s.rst ∧ t.thr = s.thr)) ∧
    (s.rcv.ucie.contains m = false → s.rcv.ucie.contains (m / 2 * 2 + (1 - m % 2)) = true → Runs (.ucieDown m) s (fun t =>
      t.rst.asserted = true ∧ t.rst.fault = true ∧ t.on F.RST_CAUSE_WARDEN = true ∧ t.on F.RST_CAUSE_READY = false)) ∧
    (s.rcv.ucie.contains m = true → s.unitBit F.RST_UNIT_UCIE (m / 2) (m % 2) = false → ∀ slow : Bool, Runs (.ucieLinkTrained m slow) s (fun t =>
      t.rd F.UCIE_STAT_STATE m = 5 ∧ t.rd F.UCIE_STAT_SLOW m = b2n slow ∧ t.rcv.ucie.contains m = false ∧ t.isDead (64 + m) = false ∧
      bitsOf (t.rd F.EQ_CTL_UCIE) m 1 = 0 ∧ s.Fires t (0x0AC + m) ∧ t.thr = s.thr))) ∧
  (∀ (s : State) (pair : Nat), s.on F.REC_LOG_BASE_EN = false →
    Runs (.d2dDown pair) s (fun t => t.rst.asserted = true ∧ t.rst.fault = true ∧ t.on F.RST_CAUSE_WARDEN = true ∧ t.thr = State.reset.thr ∧
      t.rd F.RST_CAUSE_COUNT = (s.rd F.RST_CAUSE_COUNT + 1) % 2 ^ 32 ∧ SameMemory s t) ∧
    Runs .pkgWdt s (fun t => t.rst.asserted = true ∧ t.rst.fault = true ∧ t.on F.RST_CAUSE_PKG_WDT = true ∧ t.thr = State.reset.thr ∧
      t.rd F.RST_CAUSE_COUNT = (s.rd F.RST_CAUSE_COUNT + 1) % 2 ^ 32 ∧ SameMemory s t))

/-- O54. SNAP_ENABLE of a context that lives reads its descriptor and opens its first epoch in pre-copy; where the context is FREE, the descriptor or a target breaks a rule, or a target holds a tag not below the first epoch, the snapshot stops in PHASE 4 with its ERR. SNAP_DISABLE ends a snapshot once no transfer is out, and its cut goes on no further. A page that need not be copied is passed over, one that leaves its range stops the snapshot with ERR 2, one with a store on its way waits, and one that is copied to a peer, once its lines have been read, has its granules tagged with the epoch, all at once or as many as there are entries for transfers, the rest to follow. A cut starts in PHASE 3, waits for copies, saves a LIVE context or takes a SAVED one, copies what is left and writes the body, and commits: EPOCH, PAUSE_US, PHASE 2, SNAP_EPOCH raised, the next epoch open. A push reads its descriptor, BUSY set, and ends with BUSY clear, DONE and its ERR. ADOPT ends with CODE 2 where the context has run, 3 where the object does not bind, and 0 where the image fits: the context is SAVED with the image's next submission number. -/
def Obligations.SnapshotsAndPushes : Prop :=
  (∀ (s : State) (c a n : Nat) (l : List Byte), c < 64 → a = s.rd F.SNAP_DESC_ADDR c * 64 → l = s.rdBytes devKey a (64 + 32 * 16) →
    n = 64 + 32 * leAt l 16 1 →
    (s.on F.SNAP_CFG_EN c = true → exec (.snapEnable c) s = .next s) ∧
    (s.on F.SNAP_CFG_EN c = false → s.ctxState c = ctxLive → a + 64 ≤ stackTop → a + n ≤ stackTop → s.poisonOf a 64 = .none →
      s.poisonOf a n = .none → snapHeadBad l = false → snapRangesBad l = false →
      (∀ r ∈ snapRanges l, r.tgt.peer = true) → (tgtOf l 0).peer = true → Runs (.snapEnable c) s (fun t => t.on F.SNAP_CFG_EN c = true ∧
        t.rd F.SNAP_STAT_PHASE c = 1 ∧ t.rd F.SNAP_STAT_ERR c = 0 ∧ (∃ x, aget t.rcv.snaps c = some x ∧ x.ranges = snapRanges l ∧
          x.img = tgtOf l 0 ∧ x.imgOff = leAt l 8 8 ∧ x.epoch = leAt l 24 8 ∧ x.first = leAt l 24 8 ∧ x.step = 0 ∧ x.once = []) ∧ SameMemory s t)) ∧
    (s.on F.SNAP_CFG_EN c = false → (s.ctxState c = ctxFree ∨ s.ctxState c = ctxLive ∧ (stackTop < a + 64 ∨ snapHeadBad l = true)) →
      s.sendsOf (.snap c) = [] → Runs (.snapEnable c) s (fun t => t.rd F.SNAP_STAT_PHASE c = 4 ∧ aget t.rcv.snaps c = none ∧
        t.rd F.SNAP_STAT_ERR c = (if s.ctxState c = ctxFree then 6 else 1) ∧ SameMemory s t)) ∧
    (s.on F.SNAP_CFG_EN c = false → s.ctxState c = ctxLive → a + 64 ≤ stackTop → a + n ≤ stackTop → s.poisonOf a 64 = .none →
      s.poisonOf a n = .none → snapHeadBad l = false → snapRangesBad l = false → s.sendsOf (.snap c) = [] →
      ((∃ r ∈ snapRanges l, s.tgtShort c r.tgt r.off r.size = true) → Runs (.snapEnable c) s (fun t => t.rd F.SNAP_STAT_PHASE c = 4 ∧
        aget t.rcv.snaps c = none ∧ t.rd F.SNAP_STAT_ERR c = 2 ∧ SameMemory s t)) ∧
      ((∀ r ∈ snapRanges l, s.tgtShort c r.tgt r.off r.size = false) → (tgtOf l 0).peer = true →
        (∃ r ∈ snapRanges l, s.tagsHeld c (leAt l 24 8) r = true) → Runs (.snapEnable c) s (fun t => t.rd F.SNAP_STAT_PHASE c = 4 ∧
          aget t.rcv.snaps c = none ∧ t.rd F.SNAP_STAT_ERR c = 1 ∧ SameMemory s t)))) ∧
  (∀ (s : State) (c : Nat), c < 64 → aget s.rcv.snaps c = none → exec (.snapDisable c) s =
    .next ((s.wr F.SNAP_CFG_EN 0 c).wr F.SNAP_STAT_PHASE 0 c)) ∧
  (∀ (s : State) (c us : Nat) (x : Snap), c < 64 → aget s.rcv.snaps c = some x →
    (x.mine = false → s.snapBusy (.snap c) = false → Runs (.snapDisable c) s (fun t => aget t.rcv.snaps c = none ∧
      t.on F.SNAP_CFG_EN c = false ∧ t.rd F.SNAP_STAT_PHASE c = 0 ∧ SameMemory s t)) ∧
    (s.snapBusy (.snap c) = true → Runs (.snapDisable c) s (fun t => aget t.rcv.snaps c = some { x with stopping := true } ∧
      t.on F.SNAP_CFG_EN c = false ∧ t.rd F.SNAP_STAT_PHASE c = s.rd F.SNAP_STAT_PHASE c ∧ SameMemory s t)) ∧
    (∀ (r va : Nat) (q : SnapRange) (lf : Leaf) (hs : List Nat), x.ranges[r]? = some q → x.step < 2 → x.stopping = false → x.leaf = none → q.va ≤ va →
      va < q.va + q.len → s.on F.XLT_CTX_EN c = true → s.snapWaits c = false → s.rcv.writes.any (fun w => w.own == .snap c) = false →
      lf = s.leafAt c va → hs = (q.granules lf).take ((4096 - s.fab.send.length) / 2) →
      ((lf.valid = true ∨ pteHost lf.pte = true) → (lf.base < q.va ∨ q.va + q.len < lf.base + lf.size) → x.mine = false → s.snapBusy (.snap c) = false →
        Runs (.snapPageCopy c r va) s (fun t => aget t.rcv.snaps c = none ∧ t.rd F.SNAP_STAT_PHASE c = 4 ∧ t.rd F.SNAP_STAT_ERR c = 2 ∧
          s.Fires t (0x450 + c) ∧ SameMemory s t)) ∧
      ((lf.valid = false ∧ pteHost lf.pte = false ∨ q.va ≤ lf.base ∧ lf.base + lf.size ≤ q.va + q.len) →
        (x.wants lf = false → exec (.snapPageCopy c r va) s = .next (s.setSnap c { x.scan lf 0 with leaf := none })) ∧
        (x.wants lf = true → s.pageBusy lf.pa lf.size = true → exec (.snapPageCopy c r va) s = .next (s.setSnap c x)) ∧
        (∀ u w v gs, x.wants lf = true → s.pageBusy lf.pa lf.size = false → s.cleanLeaf c lf = some u → q.tgt.peer = true → hs ≠ [] →
          u.readLines (.snap c) (lf.pa / 320000000000) c (linesOf lf.pa (4096 * hs.length)) = (w, true) →
          (∀ ln ∈ linesOf lf.pa (4096 * hs.length), w.svcKind c (lf.pa / 320000000000) ln = .none) → w.rcv.writes = s.rcv.writes →
          gs = hs.map (fun g => (g, w.slotFor x r g none)) → w.putTargets (.snap c) c (w.leafWrites c x q lf gs) = .done v →
          Runs (.snapPageCopy c r va) s (fun t => t.mem = v.mem ∧ t.fab = v.fab ∧ ∃ y, aget t.rcv.snaps c = some y ∧ y.epoch = x.epoch ∧
            y.leaf = (if hs.length < lf.size / 4096 then some (r, lf.base, hs.length) else none) ∧ y.tags = gs.foldl (fun m e => aput m (r, e.1) (e.2, x.epoch)) x.tags)))) ∧
    (x.step = 0 → x.stopping = false → x.waiting = false →
      exec (.snapCutRequest c) s = .next ((s.setSnap c { x with step := 1, deferred := 0 }).wr F.SNAP_STAT_PHASE 3 c) ∧
      (s.rd F.SNAP_CFG_CUT_MS c ≠ 0 →
        exec (.snapCutTimer c) s = .next ((s.setSnap c { x with step := 1, deferred := 0 }).wr F.SNAP_STAT_PHASE 3 c)) ∧
      (s.rd F.SNAP_CFG_CUT_MS c = 0 → exec (.snapCutTimer c) s = .next s)) ∧
    (x.step ≠ 0 → exec (.snapCutRequest c) s = .next s) ∧
    (x.waiting = true → x.stopping = false →
      exec (.snapCutDeferExpire c) s = .next ((s.setSnap c { x with step := 1, waiting := false }).wr F.SNAP_STAT_PHASE 3 c)) ∧
    (x.waiting = false → exec (.snapCutDeferExpire c) s = .next s) ∧
    (x.stopping = true → s.rcv.writes.any (fun w => w.own == .snap c) = false → exec (.snapCutCopy c) s = .next (s.snapIdle c) ∧
      (s.snapBusy (.snap c) = false → exec (.snapCommit c us) s = .next (s.snapIdle c))) ∧
    (x.step = 1 → x.stopping = false → s.on F.XLT_CTX_EN c = true → s.rcv.writes.any (fun w => w.own == .snap c) = false →
      (s.copiesRun c = true → exec (.snapCutCopy c) s = .next s) ∧
      (s.copiesRun c = false → x.dirty = 0 → s.ctxState c = ctxLive → s.isSaving c = false → s.stockGoing c = false →
        Runs (.snapCutCopy c) s (fun t => aget t.rcv.snaps c = some { x with step := 2, mine := true } ∧ t.isSaving c = true ∧
          t.regs = s.regs ∧ SameMemory s t)) ∧
      (s.copiesRun c = false → x.dirty = 0 → s.ctxState c = ctxSaved → Runs (.snapCutCopy c) s (fun t =>
        aget t.rcv.snaps c = some { x with step := 2 } ∧ t.obj = s.obj ∧ t.regs = s.regs ∧ SameMemory s t))) ∧
    (∀ u w l, x.step = 2 → x.stopping = false → x.leaf = none → s.on F.XLT_CTX_EN c = true → s.ctxState c = ctxSaved → x.ranges = [] → x.img.peer = true →
      s.rcv.writes.any (fun w => w.own == .snap c) = false → s.bodySlot c x = .ok w l →
      w.putTargets (.snap c) c [⟨0, x.img, x.imgOff + 4096 + leNat l * w.bodySize c, w.bodyBytes s.thr.serial (w.bodySize c)⟩] = .done u →
      Runs (.snapCutCopy c) s (fun t => aget t.rcv.snaps c = some { x with step := 3, body := some (leNat l) } ∧
        (∀ k, x.body = some k → k < 2 → leNat l = 1 - k) ∧
        (aget t.rcv.images s.thr.serial).isSome = true ∧ t.mem = u.mem ∧ t.fab = u.fab)) ∧
    (s.rcv.writes.any (fun w => w.own == .snap c) = false → s.snapBusy (.snap c) = true → exec (.snapCommit c us) s = .next s) ∧
    (s.snapBusy (.snap c) = false → x.stopping = false → x.step = 4 → Runs (.snapCommit c us) s (fun t => t.rd F.SNAP_STAT_EPOCH c = x.epoch % 2 ^ 32 ∧
      t.rd F.SNAP_STAT2_PAUSE_US c = min 0xFFFFFF us ∧ t.rd F.SNAP_STAT_PHASE c = 2 ∧ s.Fires t (0x410 + c) ∧
      aget t.rcv.snaps c = some { x with epoch := x.epoch + 1, once := [], step := 0, mine := false, deferred := 0 } ∧
      (x.mine = true → s.ctxState c = ctxSaved → t.obj.restoring = s.obj.restoring ++ [c]) ∧ SameMemory s t)) ∧
    (∀ u, s.snapBusy (.snap c) = false → x.stopping = false → x.step = 3 → x.img.peer = true →
      s.putTargets (.snap c) c [⟨0, x.img, x.imgOff, s.headBytes c (x.body.getD 0) x.epoch⟩] = .done u →
      Runs (.snapCommit c us) s (fun t => aget t.rcv.snaps c = some { x with step := 4 } ∧ t.fab = u.fab ∧ t.regs = u.regs))) ∧
  (∀ (s : State) (k a : Nat) (l : List Byte), k < 16 → a = s.rd F.SNAP_PUSH_DESC k * 64 → l = s.rdBytes devKey a 64 →
    (s.on F.SNAP_PUSH_BUSY k = true → exec (.snapPushGo k) s = .next s) ∧
    (s.on F.SNAP_PUSH_BUSY k = false → Runs (.snapPushGo k) s (fun t => t.on F.SNAP_PUSH_BUSY k = true ∧ t.rd F.SNAP_PUSH_ERR k = 0 ∧
      t.rd F.SNAP_PUSH_CNT_SENT k = 0 ∧ t.rd F.SNAP_PUSH_CNT_SKIPPED k = 0 ∧ (∃ p, aget t.rcv.push k = some p ∧ p.src = leAt l 0 4 ∧
        p.off = leAt l 8 8 ∧ p.len = leAt l 16 8 ∧ p.epoch = leAt l 24 8 ∧ p.next = 0 ∧ (p.err = 0 ∨ p.err = 1) ∧
        (zeroIn l 48 64 = false → p.err = 1)) ∧ SameMemory s t))) ∧
  (∀ (s : State) (k : Nat) (p : Push), aget s.rcv.push k = some p → s.snapBusy (.push k) = false →
    (p.err ≠ 0 ∨ p.image = false ∧ p.len ≤ 4096 * p.next ∨ p.image = true ∧ p.next ≠ 0) → p.err < 16 → Runs (.snapPushDone k) s (fun t =>
      t.on F.SNAP_PUSH_BUSY k = false ∧ t.on F.SNAP_PUSH_DONE k = true ∧ t.rd F.SNAP_PUSH_ERR k = p.err % 2 ^ F.SNAP_PUSH_ERR.wid ∧
      aget t.rcv.push k = none ∧ s.Fires t (0x490 + k) ∧ SameMemory s t)) ∧
  (∀ (s : State) (c h o : Nat), c < 64 →
    (s.on F.SNAP_ADOPT_BUSY c = true → exec (.snapAdoptGo c h o) s = .next s) ∧
    (s.on F.SNAP_ADOPT_BUSY c = false → Runs (.snapAdoptGo c h o) s (fun t => t.on F.SNAP_ADOPT_BUSY c = true ∧ t.rd F.SNAP_ADOPT_CODE c = 0 ∧
      aget t.rcv.adopt c = some (h, o) ∧ SameMemory s t)) ∧
    (aget s.rcv.adopt c = some (h, o) →
      ((s.ctxState c ≠ ctxLive ∨ s.nextSeq c ≠ 0) → Runs (.snapAdoptDone c) s (fun t => t.on F.SNAP_ADOPT_BUSY c = false ∧
        t.on F.SNAP_ADOPT_DONE c = true ∧ t.rd F.SNAP_ADOPT_CODE c = 2 ∧ aget t.rcv.adopt c = none ∧ s.Fires t (0x4A0 + c) ∧ t.obj = s.obj ∧
        SameMemory s t)) ∧
      (s.ctxState c = ctxLive → s.nextSeq c = 0 → s.moBinds c 0 h = false → Runs (.snapAdoptDone c) s (fun t =>
        t.on F.SNAP_ADOPT_BUSY c = false ∧ t.rd F.SNAP_ADOPT_CODE c = 3 ∧ t.ctxState c = ctxLive ∧ SameMemory s t)) ∧
      (∀ va b w hd i u l v, s.ctxState c = ctxLive → s.nextSeq c = 0 → s.moBinds c 0 h = true →
        s.pastEnd h (o * 4096) 128 = false → va = s.moVa (h % 2 ^ 20) + o * 4096 → s.snapRead (.adopt c) 0 c va 128 = .ok u hd →
        leAt hd 0 4 = 0x4E53584B → leAt hd 4 2 = 1 → leAt hd 7 1 = u.fol.step →
        b = cdiv (leAt hd 24 4) 4 * 4096 → w = 4096 + leAt hd 6 1 % 2 * b → u.pastEnd h (o * 4096 + w) b = false →
        u.snapRead (.adopt c) 0 c (va + w) b = .ok v l → i = v.decodeBody l → (aget v.obj.ctxs c).isSome = true →
        v.imageFits c i = true → Runs (.snapAdoptDone c) s (fun t => t.on F.SNAP_ADOPT_BUSY c = false ∧ t.rd F.SNAP_ADOPT_CODE c = 0 ∧
          t.ctxState c = ctxSaved ∧ t.nextSeq c = i.seq ∧ t.rcv.adopted.contains c = true))))

/-- O55. A module reset empties every unit, keeps memory as stored under new keys and what the warden stores, and records its cause in RST_CAUSE with COUNT one more, zero after power-good; MOD_RESET_N below 100 ns is ignored and from 1 us on is taken; its release starts the sequence, in recovery where the image fails. MODULE_RESET raises MGMT_RESET and resets the module when its time is over; a RESET packet that passes the warden's checks resets the module or a partition, and another is counted. RST_PART puts a defined partition under reset and refuses an undefined one; at the time limit clusters with write-backs out are dead; its release, once the caches of its clusters are empty, makes a new key, returns clusters, empty, and shares and raises its source. Each bit of RST_CORE and RST_UNIT puts its unit under reset, with the blocks, entries or transfers it held lost, a clerk's queue slots passed to another, the loss of both UCIe modules of a die resetting the module, refused for a cluster that is quarantined or in no partition; the bit clears and UNIT_RESET is raised at its release. -/
def Obligations.Resets : Prop :=
  (∀ (s : State),
    exec .powerGoodRise s = .next { s with rst := { s.rst with power := true } } ∧
    Runs .powerGoodFall s (fun t => t.rst.power = false ∧ t.rst.asserted = true ∧ t.on F.RST_CAUSE_PGOOD = true ∧ t.rd F.RST_CAUSE_COUNT = 0 ∧
      t.sec.number = none ∧ t.sec.eid = 0 ∧ t.thr = State.reset.thr ∧ t.cmd = State.reset.cmd ∧ t.coh = State.reset.coh ∧
      (∀ i < 17, t.stk.keys[i]? = some (s.stk.keyNext + i)) ∧ t.pending = s.pending ∧ SameMemory s t) ∧
    (∀ ns, (s.rst.power = false ∨ ns < 100) → exec (.modResetAssert ns) s = .next s) ∧
    (∀ ns, s.rst.power = true → 1000 ≤ ns → Runs (.modResetAssert ns) s (fun t => t.rst.asserted = true ∧ t.on F.RST_CAUSE_PIN = true ∧
      t.on F.RST_CAUSE_PGOOD = false ∧ t.on F.RST_CAUSE_READY = false ∧ t.rd F.RST_CAUSE_COUNT = (s.rd F.RST_CAUSE_COUNT + 1) % 2 ^ 32 ∧
      t.sec.number = s.sec.number ∧ t.sec.keyHash = s.sec.keyHash ∧ t.thr = State.reset.thr ∧ t.cmd = State.reset.cmd ∧
      (∀ i < 17, t.stk.keys[i]? = some (s.stk.keyNext + i)) ∧ t.pending = s.pending ∧ SameMemory s t)) ∧
    (∀ ns, s.rst.power = true → 100 ≤ ns → ns < 1000 → Runs (.modResetAssert ns) s (fun t => (t = s.bump ∨ t.rst.asserted = true) ∧ SameMemory s t)) ∧
    (s.rst.power = true → s.rst.asserted = true → s.rst.hot = false → Runs .modResetRelease s (fun t => t.rst.asserted = false ∧ t.rst.step = 0 ∧
      (s.imageOk s.sec.image = false → t.rd F.SEC_FW_STATE = 2) ∧ (s.imageOk s.sec.image = true → t.regs = s.regs) ∧ SameMemory s t)) ∧
    ((s.rst.power = false ∨ s.rst.asserted = false ∨ s.rst.hot = true) → exec .modResetRelease s = .next s) ∧
    (s.rst.power = true → s.rd F.SEC_FW_STATE ≠ 2 → s.rst.asserted = false → Runs .moduleReset s (fun t => t.sec.mgmtReset = true ∧
      s.Fires t 0x032 ∧ t.out.getLast? = some (.mgmt 0 []) ∧ t.rst = s.rst ∧ SameMemory s t)) ∧
    (s.sec.mgmtReset = true → Runs .mgmtResetExpire s (fun t => t.rst.asserted = true ∧ t.on F.RST_CAUSE_WARDEN = true ∧ t.sec.mgmtReset = false ∧
      t.thr = State.reset.thr ∧ SameMemory s t)) ∧
    (s.sec.mgmtReset = false → exec .mgmtResetExpire s = .next s) ∧
    (∀ (a : Arr) (p : Nat), s.firstOf .reset = some a → a.port = some p → leAt a.pkt.payload 0 1 = 0 →
      Runs .fabReset s (fun t => if s.resetOk a.pkt.payload = true then t.rst.asserted = true ∧ t.on F.RST_CAUSE_FABRIC = true ∧
          t.fab.counter = leAt a.pkt.payload 2 8 else t.rd F.FAB_PORT_CNT_DROP p = min 65535 (s.rd F.FAB_PORT_CNT_DROP p + 1) ∧ t.rst = s.rst ∧
          t.fab = { s.fab with here := s.fab.here.erase a }))) ∧
  (∀ (s : State) (p : Nat) (d : PartDef) (g : Nat), p < 16 → g = d.group →
    (s.partDef p = none → exec (.rstPartAssert (1#16 <<< p)) s = .next (s.wr F.RST_ERR_REFUSED 1)) ∧
    (s.partDef p = some d → (s.fol.cur.defs.filter (fun e => e.2.group == g)).map (fun e => e.1) = [p] → s.rst.parts.contains p = false → Runs (.rstPartAssert (1#16 <<< p)) s (fun t =>
      t.rst.parts = s.rst.parts ++ [p] ∧ bitsOf (t.rd F.RST_PART_ASSERT) p 1 = 1)) ∧
    (s.partDef p = some d → (∀ e ∈ s.fol.cur.defs, e.2.group = g → s.rst.parts.contains e.1 = true) → exec (.rstPartAssert (1#16 <<< p)) s = .next s) ∧
    (s.groupParts g = [] → exec (.partResetWbTimeout g) s = .next s ∧
      (s.groupClusters g = [] → exec (.partResetRelease g) s = .next s)) ∧
    (∀ cl, s.groupParts g = [p] → (s.groupClusters g).filter (fun c => s.flushing c) = [cl] → cl < 64 →
      Runs (.partResetWbTimeout g) s (fun t => t.isDead cl = true ∧ (∀ e ∈ t.coh.cc, e.1.unit ≠ cl) ∧ (∀ e ∈ t.coh.vc, e.1 ≠ cl) ∧ SameMemory s t)) ∧
    (∀ u c, u = s.flushAgain (s.groupClusters g) → c ∈ s.groupClusters g → u.ccEmpty c = false → exec (.partResetRelease g) s = .next u) ∧
    (s.groupParts g = [p] → s.stk.keys.length = 17 → s.on F.REC_LOG_BASE_EN = false →
      (s.groupClusters g).all (fun c => s.ccEmpty c && s.coh.reclaim.all (fun e => e.2 != c)) = true →
      s.obj.ctxs.all (fun e => e.2.part != p || s.ctxState e.1 != ctxAborting) = true → s.stk.upd.all (fun u => u.key != p) = true → Runs (.partResetRelease g) s (fun t =>
        t.rst.parts = s.rst.parts.filter (fun q => q != p) ∧ bitsOf (t.rd F.RST_PART_ASSERT) p 1 = 0 ∧
        t.rd F.KEY_GEN_GEN p = (s.rd F.KEY_GEN_GEN p + 1) % 2 ^ 32 ∧ t.stk.keys[p]? = some s.stk.keyNext ∧
        (∀ c ∈ s.groupClusters g, t.clusterReset c = false ∧ t.ccEmpty c = true ∧ (∀ e ∈ t.thr.rf, e.1.core / 8 ≠ c)) ∧
        (∀ e, t.dom e = s.dom e) ∧ (∀ a, t.isDead a = s.isDead a) ∧
        (∀ c < 3, t.rd F.QOS_ADJ_SHARE c p = ((s.fol.cur.qos.getD c []).getD p (0, 0, 0)).1 % 256) ∧ s.Fires t 0x020 ∧ SameMemory s t))) ∧
  (∀ (s : State) (core cl : Nat), core < 512 → cl < 64 →
    (s.heldOff (core / 8) = true → exec (.rstCore core) s = .next (s.wr F.RST_ERR_REFUSED 1)) ∧
    (s.heldOff (core / 8) = false → s.inPartReset (core / 8) = false → s.rcv.cores.contains core = false → s.finds = [] →
      Runs (.rstCore core) s (fun t => t.unitBit F.RST_CORE_CORE (core / 64) (core % 64) = true ∧ t.rcv.cores.contains core = true ∧
        (∀ e ∈ t.thr.blocks, e.2.core ≠ core) ∧ t.rcv.logs = s.rcv.logs)) ∧
    (s.heldOff (core / 8) = false → (s.inPartReset (core / 8) = true ∨ s.rcv.cores.contains core = true) →
      exec (.rstCore core) s = .next (s.setUnit F.RST_CORE_CORE (core / 64) (core % 64))) ∧
    (s.heldOff cl = true → exec (.rstUnitCluster cl) s = .next (s.wr F.RST_ERR_REFUSED 1)) ∧
    (s.heldOff cl = false → s.clusterReset cl = false → s.inPartReset cl = false → Runs (.rstUnitCluster cl) s (fun t =>
      t.clusterReset cl = true ∧ t.rcv.testing = s.rcv.testing ++ [cl] ∧ (∀ e ∈ t.thr.blocks, e.2.core / 8 ≠ cl))) ∧
    (s.heldOff cl = false → s.clusterReset cl = true → exec (.rstUnitCluster cl) s = .next s)) ∧
  (∀ (s : State) (k : Nat),
    (k < 16 → Runs (.rstUnitClerk k) s (fun t => t.unitBit F.RST_UNIT_CLERK (k / 4) (k % 4) = true ∧
      (∀ i n, (List.range 4).find? (fun i => k / 4 * 4 + i != k && s.clerkIn (k / 4 * 4 + i)) = some i → n < 256 → s.on F.QSLOT_STAT_MAPPED n = true →
        s.rd F.QSLOT_STAT_CLERK n = k → t.rd F.QSLOT_STAT_CLERK n = k / 4 * 4 + i) ∧ t.cmd = s.cmd ∧ t.thr = s.thr ∧ SameMemory s t)) ∧
    (k < 16 → aget s.rst.homes k = none → Runs (.rstUnitHome k) s (fun t => t.unitBit F.RST_UNIT_HOME (k / 4) (k % 4) = true ∧
      aget t.rst.homes k = some ((s.coh.credq.filter (fun c => c.1 == k)).map (fun c => c.2)) ∧ t.thr = s.thr)) ∧
    (k < 16 → (aget s.rst.homes k).isSome = true → exec (.rstUnitHome k) s = .next s) ∧
    (k < 12 → Runs (.rstUnitPort k) s (fun t => t.unitBit F.RST_UNIT_PORT (k / 3) (k % 3) = true ∧ t.reg .FAB_PORT_STAT k 0 = (Reg.desc .FAB_PORT_STAT).reset ∧ t.rd F.FAB_PORT_STAT_STATE k = 0 ∧
      (s.rd F.FAB_PORT_STAT_STATE k ≠ 0 → t.port k = freshPort ∧ t.isDead (72 + k) = true) ∧ SameMemory s t)) ∧
    (k < 8 → s.unitBit F.RST_UNIT_UCIE (k / 2) (k % 2) = true → exec (.rstUnitUcie k) s = .next s) ∧
    (k < 8 → s.unitBit F.RST_UNIT_UCIE (k / 2) (k % 2) = false → s.rcv.ucie.contains (k / 2 * 2 + (1 - k % 2)) = true →
      Runs (.rstUnitUcie k) s (fun t => t.rst.asserted = true ∧ t.rst.fault = true ∧ t.on F.RST_CAUSE_WARDEN = true)) ∧
    (k < 8 → s.unitBit F.RST_UNIT_UCIE (k / 2) (k % 2) = false → s.rcv.ucie.contains (k / 2 * 2 + (1 - k % 2)) = false →
      s.on F.REC_LOG_BASE_EN = false → Runs (.rstUnitUcie k) s (fun t => t.unitBit F.RST_UNIT_UCIE (k / 2) (k % 2) = true ∧
      t.rd F.UCIE_STAT_STATE k = 0 ∧ t.rd F.UCIE_STAT_SLOW k = 0 ∧ s.Fires t (0x0AC + k) ∧
      t.isDead (64 + k) = true ∧ t.held = s.held.filter (fun a => a.mod != k) ∧ SameMemory s t)) ∧
    (k < 4 → Runs (.rstUnitDtc k) s (fun t => t.on F.RST_UNIT_DTC k = true ∧ (∀ e ∈ t.xlt.tlbs, e.place ≠ .die k) ∧
      (∀ e ∈ t.xlt.walkc, e.die ≠ k) ∧ SameMemory s t)) ∧
    (k < 4 → s.dieCopies k = [] → exec (.rstUnitCopy k) s = .next (s.wr F.RST_UNIT_COPY 1 k)) ∧
    (∀ id c, k < 4 → s.dieCopies k = [id] → s.cmdOf id = some c → c.ph = .started → c.wait = .idle → c.done = false → c.xfer = none →
      Runs (.rstUnitCopy k) s (fun t => t.on F.RST_UNIT_COPY k = true ∧ (∃ y, t.cmdOf id = some y ∧ y.ph = .ending ∧
        y.fail = (c.note stAborted).fail) ∧ SameMemory s t)) ∧
    (∀ c x, k < 4 → s.rcv.snaps = [(c, x)] → c < 64 → x.mine = false → s.snapBusy (.snap c) = false → s.rcv.push = [] →
      Runs (.rstUnitSnap k) s (fun t => t.on F.RST_UNIT_SNAP k = true ∧ t.rcv.snaps = [] ∧ t.rd F.SNAP_STAT_PHASE c = 0 ∧
        t.on F.SNAP_CFG_EN c = false ∧ SameMemory s t)) ∧
    (k < 4 → Runs (.rstUnitLedger k) s (fun t => t.on F.RST_UNIT_LEDGER k = true ∧ (∀ r ∈ ledgerRegs, t.reg r k 0 = r.desc.reset) ∧
      aget t.tal.leds k = none ∧ SameMemory s t))) ∧
  (∀ (s : State) (d b cl : Nat), d < 4 → cl = 16 * d + b →
    (b < 16 → s.clusterReset cl = true → s.inPartReset cl = false → s.ccEmpty cl = true → s.rcv.testing.contains cl = false →
      s.on F.REC_LOG_BASE_EN = false → Runs (.unitResetRelease d b) s (fun t => t.clusterReset cl = false ∧ (∀ e, t.dom e = s.dom e) ∧
        (∀ e ∈ t.thr.rf, e.1.core / 8 ≠ cl) ∧ (∀ k ∈ t.rcv.cores, k / 8 ≠ cl) ∧ s.Fires t 0x021 ∧ SameMemory s t)) ∧
    (∀ u, b < 16 → s.clusterReset cl = true → s.inPartReset cl = false → s.rcv.testing.contains cl = false → u = s.flushAgain [cl] →
      u.ccEmpty cl = false → exec (.unitResetRelease d b) s = .next u) ∧
    (b < 16 → s.clusterReset cl = false → exec (.unitResetRelease d b) s = .next s) ∧
    (16 ≤ b → b < 20 → s.unitBit F.RST_UNIT_CLERK d (b - 16) = true → s.on F.REC_LOG_BASE_EN = false → Runs (.unitResetRelease d b) s (fun t =>
      t.unitBit F.RST_UNIT_CLERK d (b - 16) = false ∧ t.cmd = s.cmd ∧ s.Fires t (0x0B4 + 4 * d + b - 16) ∧ s.Fires t 0x021 ∧ SameMemory s t)) ∧
    (20 ≤ b → b < 24 → (aget s.rst.homes (4 * d + b - 20)).isSome = true → s.homeIdle (4 * d + b - 20) = true →
      s.coh.dir.any (fun e => homeOf e.1 == 4 * d + b - 20) = false → Runs (.unitResetRelease d b) s (fun t =>
        t.unitBit F.RST_UNIT_HOME d (b - 20) = false ∧ aget t.rst.homes (4 * d + b - 20) = none ∧ t.reg .HS_CNT (4 * d + b - 20) 0 = 0 ∧
        s.Fires t 0x021 ∧ SameMemory s t)) ∧
    (24 ≤ b → b < 27 → s.unitBit F.RST_UNIT_PORT d (b - 24) = true → Runs (.unitResetRelease d b) s (fun t =>
      t.unitBit F.RST_UNIT_PORT d (b - 24) = false ∧ s.Fires t 0x021 ∧ SameMemory s t)) ∧
    (27 ≤ b → b < 29 → s.unitBit F.RST_UNIT_UCIE d (b - 27) = true → Runs (.unitResetRelease d b) s (fun t =>
      t.unitBit F.RST_UNIT_UCIE d (b - 27) = false ∧ t.rd F.UCIE_STAT_STATE (2 * d + b - 27) = 1 ∧
      s.Fires t (0x0AC + 2 * d + b - 27) ∧ s.Fires t 0x021 ∧ SameMemory s t)) ∧
    (∀ f : Fld, (b = 29 ∧ f = F.RST_UNIT_DTC ∨ b = 30 ∧ f = F.RST_UNIT_COPY ∨ b = 31 ∧ f = F.RST_UNIT_SNAP ∨ b = 32 ∧ f = F.RST_UNIT_LEDGER) →
      (s.on f d = true → Runs (.unitResetRelease d b) s (fun t => t.on f d = false ∧ s.Fires t 0x021 ∧ t.cmd = s.cmd ∧ SameMemory s t)) ∧
      (s.on f d = false → exec (.unitResetRelease d b) s = .next s)))

/-- O56. A gate command is refused with ERR 1 for a domain that cannot be named, 3 for one of a quarantined cluster and 2 for an OFF whose condition fails; another sets BUSY while its domain drains or wakes, or is done at once; while one is in progress another is only held in PWR_GATE. A waking domain comes ON and a draining one with nothing left goes OFF, which ends the command with PWR_GATE raised. AUTO_GATE_IDLE acts on an idle core, and CORE_CLOCK_STOP on one with no group ready. One loop run over the limit lowers the target by 25 MHz to no less than 600, then the matrix cap, ten runs after it last did; with room after ten runs it returns the cap, then the target, never above its top. Samples show in PWR_IN and PWR_TEMP; a die above 105 C raises its source, at 120 C the module is reset until every die is below 90 C. PWR_LIMIT takes each field in range and sets REJ otherwise. A droop is counted and holds the levels of its cluster; trims decay, the clock first. A UCIe module moves between ACTIVE and L1. -/
def Obligations.PowerAndClocks : Prop :=
  (∀ (s u : State) (d : Nat) (off : Bool) (i : Instr), d < 1024 → i = (if off then .gateOff d false else .gateOn d false) →
    u = ((s.wr F.PWR_GATE_TARGET d).wr F.PWR_GATE_GANG 0).wr F.PWR_GATE_OP (if off then 0 else 1) →
    (s.on F.PWR_GATE_STAT_BUSY = true → exec i s = .next u) ∧
    (s.on F.PWR_GATE_STAT_BUSY = false →
      (620 ≤ d → Runs i s (fun t => t.rd F.PWR_GATE_STAT_ERR = 1 ∧ t.on F.PWR_GATE_STAT_BUSY = false ∧ s.Fires t 0x013 ∧ t.pwr = s.pwr)) ∧
      (d < 620 → s.domQuar d = true → Runs i s (fun t => t.rd F.PWR_GATE_STAT_ERR = 3 ∧ t.on F.PWR_GATE_STAT_BUSY = false ∧ s.Fires t 0x013 ∧
        t.dom d = s.dom d ∧ t.pwr = s.pwr)) ∧
      (d < 620 → s.domQuar d = false → off = true → (d = 604 ∨ (s.dom d = domOn ∨ s.dom d = domWaking) ∧ s.gateCond d = false) → Runs i s (fun t =>
        t.rd F.PWR_GATE_STAT_ERR = 2 ∧ t.on F.PWR_GATE_STAT_BUSY = false ∧ s.Fires t 0x013 ∧ t.dom d = s.dom d ∧ t.pwr = s.pwr)) ∧
      (d < 620 → d ≠ 604 → s.domQuar d = false → s.dom d = (if off then domOff else domOn) → Runs i s (fun t => s.Fires t 0x013 ∧
        t.on F.PWR_GATE_STAT_BUSY = false ∧ t.dom d = s.dom d ∧ t.rd F.PWR_GATE_STAT_ERR = s.rd F.PWR_GATE_STAT_ERR)) ∧
      (604 < d → d < 620 → off = true → s.dom d = domOn → s.gateCond d = true → Runs i s (fun t => t.dom d = domDraining ∧
        t.on F.PWR_GATE_STAT_BUSY = true ∧ t.pwr.gate = [d] ∧ t.pwr.gateOff = true ∧ SameMemory s t)) ∧
      (d < 512 → s.domQuar d = false → off = true → s.dom d = domOn → s.gateCond d = true → s.coh.l1 = [] → Runs i s (fun t =>
        t.dom d = domDraining ∧ t.on F.PWR_GATE_STAT_BUSY = true ∧ t.pwr.gate = [d] ∧ SameMemory s t)) ∧
      (d < 620 → s.domQuar d = false → off = false → s.dom d = domOff → Runs i s (fun t => t.dom d = domWaking ∧
        t.on F.PWR_GATE_STAT_BUSY = true ∧ t.pwr.gate = [d] ∧ t.pwr.gateOff = false ∧ SameMemory s t)))) ∧
  (∀ (s : State) (d : Nat), d < 640 →
    (s.dom d = domWaking → (d < 592 ∨ 604 ≤ d) →
      (s.pwr.gate = [] → Runs (.domainWakeDone d) s (fun t => t.dom d = domOn ∧ (∀ e, e ≠ d → t.dom e = s.dom e) ∧ SameMemory s t)) ∧
      (s.pwr.gate = [d] → s.pwr.gateOff = false → s.pwr.gateErr = false → Runs (.domainWakeDone d) s (fun t => t.dom d = domOn ∧
        t.on F.PWR_GATE_STAT_BUSY = false ∧ t.rd F.PWR_GATE_STAT_ERR = s.rd F.PWR_GATE_STAT_ERR ∧ t.pwr.gate = [] ∧ s.Fires t 0x013))) ∧
    (s.dom d ≠ domWaking → exec (.domainWakeDone d) s = .next s) ∧
    (s.dom d = domDraining → (604 ≤ d ∨ d < 512 ∧ s.coh.l1 = [] ∧ s.coh.aq = [] ∧ s.coh.ar = [] ∧ s.coh.am = []) →
      (s.pwr.gate = [] → Runs (.domainDrainDone d) s (fun t => t.dom d = domOff ∧ (∀ e, e ≠ d → t.dom e = s.dom e) ∧
        (∀ k : RfKey, d < 512 → k.core = d → aget t.thr.rf k = none) ∧ SameMemory s t)) ∧
      (s.pwr.gate = [d] → s.pwr.gateOff = true → s.pwr.gateErr = false → Runs (.domainDrainDone d) s (fun t => t.dom d = domOff ∧
        t.on F.PWR_GATE_STAT_BUSY = false ∧ t.pwr.gate = [] ∧ s.Fires t 0x013))) ∧
    (s.dom d ≠ domDraining → exec (.domainDrainDone d) s = .next s) ∧
    (s.on F.PWR_POLICY_AUTO = false → exec (.autoGateIdle d) s = .next s) ∧
    (s.on F.PWR_POLICY_AUTO = true → d < 512 → s.dom d = domOn → s.gateCond d = true → s.coh.l1 = [] → Runs (.autoGateIdle d) s (fun t =>
      t.dom d = domDraining ∧ t.pwr = s.pwr ∧ SameMemory s t)) ∧
    (s.coreReady d = true → exec (.coreClockStop d) s = .next s) ∧
    (d < 512 → s.dom d = domOn → s.coreReady d = false → s.pwr.stopped.contains d = false →
      exec (.coreClockStop d) s = .next { s with pwr := { s.pwr with stopped := s.pwr.stopped ++ [d] } })) ∧
  (∀ (s : State) (mean lim clk cap top : Nat), s.rst.power = true → mean = s.rd F.PWR_AVG_W10MS → lim = s.rd F.PWR_LIMIT_WATTS →
    clk = s.rd F.PWR_CLK_TARGET → cap = s.rd F.PWR_CLK_MX_CAP → top = s.clkTop → clk ≤ 1500 → clk ≤ top →
    (s.rst.asserted = true → exec .powerLoopRun s = .next s) ∧
    (s.rst.asserted = false →
      (lim < mean → 600 < clk → Runs .powerLoopRun s (fun t => t.rd F.PWR_CLK_TARGET = max 600 (clk - 25) ∧ t.rd F.PWR_CLK_MX_CAP = cap ∧
        s.Fires t 0x010 ∧ SameMemory s t)) ∧
      (lim < mean → clk ≤ 600 → cap < 3 → 9 ≤ s.pwr.sinceCap → Runs .powerLoopRun s (fun t => t.rd F.PWR_CLK_TARGET = clk ∧
        t.rd F.PWR_CLK_MX_CAP = cap + 1 ∧ s.Fires t 0x010)) ∧
      (lim < mean → clk ≤ 600 → (cap = 3 ∨ s.pwr.sinceCap < 9) → Runs .powerLoopRun s (fun t => t.rd F.PWR_CLK_TARGET = clk ∧
        t.rd F.PWR_CLK_MX_CAP = cap)) ∧
      (100 * mean < 97 * lim → (List.range 4).all (fun d => s.dieTemp d ≤ 105) = true → 9 ≤ s.pwr.since →
        Runs .powerLoopRun s (fun t => t.rd F.PWR_CLK_TARGET = (if cap = 0 then min top (clk + 25) else clk) ∧
          t.rd F.PWR_CLK_MX_CAP = cap - 1 ∧ t.on F.PWR_CLK_THERMAL = false)) ∧
      (100 * mean < 97 * lim → (List.range 4).all (fun d => s.dieTemp d ≤ 105) = true → s.pwr.since < 9 → Runs .powerLoopRun s (fun t =>
        t.rd F.PWR_CLK_TARGET = clk ∧ t.rd F.PWR_CLK_MX_CAP = cap)) ∧
      (mean ≤ lim → 97 * lim ≤ 100 * mean → (List.range 4).all (fun d => s.dieTemp d ≤ 105) = true → Runs .powerLoopRun s (fun t =>
        t.rd F.PWR_CLK_TARGET = clk ∧ t.rd F.PWR_CLK_MX_CAP = cap)))) ∧
  (∀ (s : State) (cv ci : Nat),
    (s.rst.power = false → exec (.pwrSample cv ci) s = .next s) ∧
    (s.rst.power = true → s.rst.asserted = false → cv * ci % 10000 = 0 → Runs (.pwrSample cv ci) s (fun t =>
      t.rd F.PWR_IN_VOLT = min 65535 cv ∧ t.rd F.PWR_IN_CURR = min 65535 ci ∧ t.rd F.PWR_IN_WATTS = min 65535 (cv * ci / 10000) ∧
      t.pwr.outOf = (if cv < 4200 ∨ 6200 < cv then s.pwr.outOf + 1 else 0) ∧
      ((cv < 4200 ∨ 6200 < cv) → s.pwr.outOf = 9 → s.Fires t 0x011) ∧ SameMemory s t))) ∧
  (∀ (s : State) (die temp : Nat), s.rst.power = true → die < 4 →
    (s.rst.asserted = false → temp < 120 → Runs (.dieTempSample die temp) s (fun t => t.dieTemp die = temp ∧
      bitsOf (t.rd F.PWR_TEMP_TEMP) (8 * die) 8 = temp ∧ (105 < temp → s.Fires t 0x012) ∧ t.rst.asserted = false ∧ SameMemory s t)) ∧
    (s.rst.asserted = false → 120 ≤ temp → Runs (.dieTempSample die temp) s (fun t => t.rst.asserted = true ∧ t.rst.hot = true ∧
      t.on F.RST_CAUSE_WARDEN = true ∧ t.dieTemp die = temp ∧ SameMemory s t)) ∧
    (s.rst.asserted = true → temp < 90 → (List.range 4).all (fun d => d == die || s.dieTemp d < 90) = true →
      Runs (.dieTempSample die temp) s (fun t => t.rst.hot = false ∧ t.rst.asserted = true ∧ t.regs = s.regs))) ∧
  (∀ (s : State) (cl : Nat),
    (cl < 64 → s.dom (512 + cl) = domOn → Runs (.droopDetect cl) s (fun t =>
      t.rd F.DROOP_CNT_DETECT cl = min (2 ^ 32 - 1) (s.rd F.DROOP_CNT_DETECT cl + 1) ∧
      (∀ e ∈ s.mx.level, e.1.core / 8 = cl → aget t.mx.calm e.1 = some 4) ∧ t.mx.level = s.mx.level ∧ SameMemory s t)) ∧
    (s.dom (512 + cl) ≠ domOn → exec (.droopDetect cl) s = .next s) ∧
    (s.clkTrim cl ≠ 0 → Runs (.droopTrimDecay cl) s (fun t => t.clkTrim cl = s.clkTrim cl - 1 ∧ t.regs = s.regs)) ∧
    (s.clkTrim cl = 0 → s.rd F.DROOP_CNT_STEPS cl ≠ 0 → exec (.droopTrimDecay cl) s = .next (s.wr F.DROOP_CNT_STEPS (s.rd F.DROOP_CNT_STEPS cl - 1) cl)) ∧
    (s.clkTrim cl = 0 → s.rd F.DROOP_CNT_STEPS cl = 0 → exec (.droopTrimDecay cl) s = .next s)) ∧
  (∀ (s : State) (w c : Nat),
    ((1000 ≤ w ∧ w ≤ 3000 ∧ w % 25 = 0) → (600 ≤ c ∧ c ≤ 1500 ∧ c % 25 = 0) →
      exec (.pwrLimitWrite w c) s = .next ((s.wr F.PWR_LIMIT_WATTS w).wr F.PWR_LIMIT_CLK_MAX c)) ∧
    ((w < 1000 ∨ 3000 < w ∨ w % 25 ≠ 0) → (600 ≤ c ∧ c ≤ 1500 ∧ c % 25 = 0) →
      exec (.pwrLimitWrite w c) s = .next ((s.wr F.PWR_LIMIT_CLK_MAX c).wr F.PWR_LIMIT_REJ 1)) ∧
    ((1000 ≤ w ∧ w ≤ 3000 ∧ w % 25 = 0) → (c < 600 ∨ 1500 < c ∨ c % 25 ≠ 0) →
      exec (.pwrLimitWrite w c) s = .next ((s.wr F.PWR_LIMIT_WATTS w).wr F.PWR_LIMIT_REJ 1)) ∧
    ((w < 1000 ∨ 3000 < w ∨ w % 25 ≠ 0) → (c < 600 ∨ 1500 < c ∨ c % 25 ≠ 0) → exec (.pwrLimitWrite w c) s = .next (s.wr F.PWR_LIMIT_REJ 1))) ∧
  (∀ (s : State) (m : Nat), m < 8 →
    (s.rd F.UCIE_STAT_STATE m = 5 → Runs (.ucieL1Entry m) s (fun t => t.rd F.UCIE_STAT_STATE m = 8 ∧ s.Fires t (0x0AC + m) ∧ SameMemory s t)) ∧
    (s.rd F.UCIE_STAT_STATE m ≠ 5 → exec (.ucieL1Entry m) s = .next s) ∧
    (s.rd F.UCIE_STAT_STATE m = 8 → Runs (.ucieL1Exit m) s (fun t => t.rd F.UCIE_STAT_STATE m = 5 ∧ s.Fires t (0x0AC + m) ∧ SameMemory s t)) ∧
    (s.rd F.UCIE_STAT_STATE m ≠ 8 → exec (.ucieL1Exit m) s = .next s))

/-- O57. A counter of a set that counts, of a listed event, that wraps goes to 0 with WRAP one more and its OVF bit set, and raises its source where asked. TALRD writes the counter as it stands before its issue, an event that a clock makes counting a free amount more, zero without USER or in quarantine, to rd and rd + 1 of every active lane, and traps on a number above 8; TALMARK, once no FENCE.DEV of its group is open, offers the value of its lowest active lane, and SAMPLE_OFFER the record of the tagged instruction, to the ledger that takes it. An instruction that comes due is tagged unless the core has a tag in flight, and the count restarts either way. An interval sample offers a COUNTS record of each set with LEDGER. The writer sends, one write at a time, the trigger records to slot 0, then a GAP record once its queue has room, then the oldest record to its slot, to the home in the name of the service cluster; the acknowledgement of an ordinary record advances HEAD, and that of a trigger record sets FIRED and raises LED_TRIG; after EN = 0 the writer clears BUSY; the gap timer sends the closing GAP. EN set starts from n = 0; EN cleared finishes; arming clears FIRED; a trigger that fires clears ARMED and, with EN, takes its record. -/
def Obligations.CountersAndLedger : Prop :=
  (∀ (s : State) (d i j n : Nat), n = talSet d i →
    (d < 4 → j < setCounters i → s.counts d i = true → eventListed i (s.rd F.TAL_SEL_EVENT n j) = true → Runs (.counterWrap d i j) s (fun t => t.rd F.TAL_CNT_VALUE n j = 0 ∧
      t.rd F.TAL_CNT_WRAP n j = (s.rd F.TAL_CNT_WRAP n j + 1) % 65536 ∧ bitsOf (t.rd F.TAL_CTL_OVF n) j 1 = 1 ∧
      (s.on F.TAL_CTL_OVF_IRQ n = true → s.Fires t (0x310 + d)) ∧ SameMemory s t)) ∧
    ((s.on F.TAL_CTL_EN n = false ∨ s.dom (talDomain d i) ≠ domOn ∨ eventListed i (s.rd F.TAL_SEL_EVENT n j) = false) →
      exec (.counterWrap d i j) s = .next s)) ∧
  (∀ (s : State) (g : Gid) (x : Group) (b : Block) (c : Cmd) (rd n v : Nat) (u : State), s.Issues g x b c [rd, rd + 1] →
    u = (if s.on F.TAL_CTL_USER (coreSet g.core) = true ∧ s.on F.REC_CNT_QUAR (g.core / 8) = false then s.catchUp (g.core / 128) (g.core % 128) else s) →
    v = (if s.on F.TAL_CTL_USER (coreSet g.core) = true ∧ s.on F.REC_CNT_QUAR (g.core / 8) = false then
      (if n < 8 then u.rd F.TAL_CNT_WRAP (coreSet g.core) n * 2 ^ 48 + u.rd F.TAL_CNT_VALUE (coreSet g.core) n
        else u.rd F.TAL_CYC_COUNT (coreSet g.core)) else 0) →
    (n ≤ 8 → (n < 8 → timedEvent (g.core % 128) (s.rd F.TAL_SEL_EVENT (coreSet g.core) n) = false → u.counter (coreSet g.core) n =
        s.counter (coreSet g.core) n) ∧
      Runs (.talrd g rd n) s (fun t => WentOn t g x ∧ OthersStay s t g ∧ OnlyThreads s t g ∧ ∃ w, WroteReg s w g x rd (fun _ => BitVec.ofNat 32 v) ∧
      WroteReg w t g x (rd + 1) (fun _ => BitVec.ofNat 32 (v / 2 ^ 32)))) ∧
    (8 < n → Runs (.talrd g rd n) s (fun t => t.block x.bid = some { b with trapped := true } ∧ t.thr.rf = s.thr.rf))) ∧
  (∀ (s : State) (g : Gid) (x : Group) (b : Block) (c : Cmd) (rs l d : Nat), s.Issues g x b c [rs, rs + 1] → d = g.core / 128 →
    (lanesOf x.active).head? = some l → s.on F.TAL_CTL_EN (coreSet g.core) = false →
    (s.fenceDevOpen g = true → exec (.talmark g rs) s = .next s) ∧
    (s.fenceDevOpen g = false → s.on F.LED_CFG_EN d = false → Runs (.talmark g rs) s (fun t => WentOn t g x ∧ OthersStay s t g ∧ t.tal.leds = s.tal.leds ∧ t.thr.rf = s.thr.rf ∧
      SameMemory s t)) ∧
    (s.fenceDevOpen g = false → s.on F.LED_CFG_EN d = true → s.clusterPart (g.core / 8) = s.ctxPart (s.rd F.LED_CFG_CTX d) → s.rd F.LED_START_STAMP d = 0 →
      s.rd F.LED_END_STAMP d = 0 → s.on F.LED_PTR_FULL d = false → (s.led d).stopped = false → (s.led d).queue.length < 256 →
      Runs (.talmark g rs) s (fun t => WentOn t g x ∧ (∃ st, t.led d = { s.led d with queue := (s.led d).queue ++ [markRec g (s.tagOf d (g.core % 128)) st (s.getRegs g x rs 2 l)] }) ∧ t.on F.LED_PTR_BUSY d = true ∧
        t.thr.rf = s.thr.rf ∧ SameMemory s t))) ∧
  (∀ (s : State) (g : Gid) (pc : Pc) (m : Mask) (id : CmdId), g.core < 512 → aget s.tal.last g = some (pc, m) → aget s.tal.tags g.core = some id →
    ((s.on F.TAL_SMP_EN (coreSet g.core) = false ∨ s.smpDue g.core = false) → exec (.sampleTag g) s = .next s) ∧
    (s.on F.TAL_SMP_EN (coreSet g.core) = true → s.smpDue g.core = true → s.tal.inflight.any (fun t => t.core == g.core) = false → Runs (.sampleTag g) s (fun t =>
      (∃ st, t.tal.inflight = ⟨g.core, g.slot, pc, m, st, id⟩ :: s.tal.inflight) ∧
      aget t.tal.smp g.core = some (0, s.smpReload g.core) ∧ t.regs = s.regs ∧ SameMemory s t)) ∧
    (s.on F.TAL_SMP_EN (coreSet g.core) = true → s.smpDue g.core = true → s.tal.inflight.any (fun t => t.core == g.core) = true →
      s.on F.TAL_CTL_EN (coreSet g.core) = false → exec (.sampleTag g) s = .next (s.smpRestart g.core))) ∧
  (∀ (s : State) (core src iw lat ml sg d : Nat) (dis : Bool), d = core / 128 →
    (s.tal.inflight.find? (fun t => t.core == core) = none → exec (.sampleOffer core dis src iw lat ml sg) s = .next s) ∧
    (∀ x, s.tal.inflight.find? (fun t => t.core == core) = some x →
      (s.on F.LED_CFG_EN d = false → exec (.sampleOffer core dis src iw lat ml sg) s =
        .next { s with tal := { s.tal with inflight := s.tal.inflight.filter (fun t => t.core != core) } }) ∧
      (s.on F.LED_CFG_EN d = true → s.clusterPart (core / 8) = s.ctxPart (s.rd F.LED_CFG_CTX d) → s.rd F.LED_START_STAMP d ≤ x.stamp →
        (s.rd F.LED_END_STAMP d = 0 ∨ x.stamp < s.rd F.LED_END_STAMP d) → s.on F.LED_PTR_FULL d = false → (s.led d).stopped = false →
        ((s.led d).queue.length < 256 → Runs (.sampleOffer core dis src iw lat ml sg) s (fun t =>
          t.led d = { s.led d with queue := (s.led d).queue ++ [sampleRec x dis src iw lat ml sg] } ∧ t.on F.LED_PTR_BUSY d = true ∧
          t.tal.inflight = s.tal.inflight.filter (fun t => t.core != core) ∧ SameMemory s t)) ∧
        (256 ≤ (s.led d).queue.length → Runs (.sampleOffer core dis src iw lat ml sg) s (fun t => (t.led d).queue = (s.led d).queue ∧
          (t.led d).gap.isSome = true ∧ t.rd F.LED_STAT_DROPPED d = min (2 ^ 32 - 1) (s.rd F.LED_STAT_DROPPED d + 1) ∧ SameMemory s t))))) ∧
  (∀ (s u : State) (d k p i0 : Nat), d < 4 → u = s.bump.catchUp d i0 →
    (s.rd F.LED_INT_PERIOD_NS d = 0 → exec (.ledgerIntervalSample d) s = .next s) ∧
    (s.rd F.LED_INT_PERIOD_NS d ≠ 0 → p = max 1000 (s.rd F.LED_INT_PERIOD_NS d) → (s.led d).k = some k → 148 ≤ i0 → i0 < 151 →
      (∀ i < 151, s.on F.TAL_CTL_LEDGER (talSet d i) = (i == i0)) → s.on F.LED_CFG_EN d = true → s.on F.TAL_GLOBAL_SHARED = true →
      s.rd F.LED_END_STAMP d = 0 → s.on F.LED_PTR_FULL d = false → (s.led d).stopped = false → (s.led d).queue.length < 256 →
      s.tal.merged = [] → s.on F.LED_TRIG_ARMED d = false →
      Runs (.ledgerIntervalSample d) s (fun t => t.led d = { s.led d with k := some (k + 1), queue := (s.led d).queue ++ [u.countsRec d i0 0 3 (s.rd F.LED_START_STAMP d + k * p) (k % 2 ^ 32)] } ∧ SameMemory s t))) ∧
  (∀ (s : State) (d : Nat) (l : Led), l = s.led d →
    (∀ (pa : Nat) (r : List Byte) (what : LedWrite) (n : Nat), l.out = none → n = l.n → r.length = 64 →
      (l.trig.head? = some r ∧ what = .trig ∧ pa = s.rd F.LED_BASE_BASE d * 65536 ∨
        l.trig = [] ∧ l.stopped = false ∧ l.queue.length < 256 ∧ (∃ g, l.gap = some g ∧ r = gapRec g) ∧ what = .gap ∧
          pa = s.rd F.LED_BASE_BASE d * 65536 + 64 * s.ledSlot d n ∨
        l.trig = [] ∧ l.stopped = false ∧ (l.gap = none ∨ 256 ≤ l.queue.length) ∧ l.queue.head? = some r ∧ what = .record ∧
          pa = s.rd F.LED_BASE_BASE d * 65536 + 64 * s.ledSlot d n) →
      (s.svcWrite (s.rd F.LED_CFG_CTX d) d 7 (s.ctxKey (s.rd F.LED_CFG_CTX d)) pa r .none = none →
        exec (.ledgerRecordWrite d) s = .next (s.svcWake (s.rd F.LED_CFG_CTX d) d)) ∧
      (∀ v ser, s.svcWrite (s.rd F.LED_CFG_CTX d) d 7 (s.ctxKey (s.rd F.LED_CFG_CTX d)) pa r .none = some (v, ser) →
        Runs (.ledgerRecordWrite d) s (fun t => Carries t ser (s.ctxKey (s.rd F.LED_CFG_CTX d)) pa r .none ∧
          t.led d = (match what with
            | .trig => { l with trig := l.trig.drop 1, out := some (ser, what) }
            | .gap => { l with gap := none, out := some (ser, what) }
            | _ => { l with queue := l.queue.drop 1, out := some (ser, what) }) ∧
          t.rd F.LED_PTR_HEAD d = s.rd F.LED_PTR_HEAD d ∧ SameMemory s t))) ∧
    (∀ n, (s.rd F.LED_CFG_MODE d = 0 → s.ledSlot d n = 1 + n) ∧
      (s.rd F.LED_CFG_MODE d ≠ 0 → s.ledSlot d n =
        1 + n % (2 ^ (min 16 (s.rd F.LED_CFG_SIZE_LOG d) + 10) - 1))) ∧
    (∀ r ln p ser m, d < 4 → r < 64 → s.wayClear r (homeOf ln) → s.coh.bn = .wrAck r ln p ser :: m → s.thr.ops.all (fun o => o.ser != ser) = true →
      s.cmd.cmds.all (fun e => !e.2.outs.contains ser) = true → s.rcv.outs.all (fun e => e.1 != ser) = true →
      (∀ e, e ≠ d → (s.led e).out = none) →
      (l.out = some (ser, .record) → l.post = none → s.rd F.LED_CFG_MODE d ≠ 0 → s.rd F.LED_CFG_WM_LOG d = 0 →
        Runs (.wrack r ln) s (fun t => t.coh.bn = m ∧ t.led d = { l with out := none, n := l.n + 1 } ∧
          t.rd F.LED_PTR_HEAD d = (l.n + 1) % 2 ^ 32 ∧ SameMemory s t)) ∧
      (l.out = some (ser, .trig) → Runs (.wrack r ln) s (fun t => t.coh.bn = m ∧ t.led d = { l with out := none } ∧
        t.on F.LED_TRIG_FIRED d = true ∧ s.Fires t (0x300 + d) ∧ SameMemory s t))) ∧
    (l.out ≠ none → exec (.ledgerRecordWrite d) s = .next s ∧ exec (.ledgerGapTimer d) s = .next s) ∧
    (l.out = none → l.trig = [] → l.stopped = true → l.closing = true → s.on F.LED_PTR_FULL d = false → Runs (.ledgerRecordWrite d) s (fun t =>
      t.led d = { l with closing := false, gap := none, queue := [] } ∧ t.on F.LED_PTR_BUSY d = false ∧ SameMemory s t)) ∧
    (l.trig = [] → l.gap = none → l.queue = [] → l.closing = false → exec (.ledgerRecordWrite d) s = .next s) ∧
    (∀ g pa v ser, s.on F.LED_CFG_EN d = true → s.on F.LED_PTR_FULL d = true → l.out = none → l.gap = some g →
      pa = s.rd F.LED_BASE_BASE d * 65536 + 64 * (2 ^ (min 16 (s.rd F.LED_CFG_SIZE_LOG d) + 10) - 1) →
      s.svcWrite (s.rd F.LED_CFG_CTX d) d 7 (s.ctxKey (s.rd F.LED_CFG_CTX d)) pa (gapRec g) .none = some (v, ser) →
      Runs (.ledgerGapTimer d) s (fun t => Carries t ser (s.ctxKey (s.rd F.LED_CFG_CTX d)) pa (gapRec g) .none ∧
        t.led d = { l with out := some (ser, .closing) } ∧ SameMemory s t)) ∧
    (s.on F.LED_CFG_EN d = false → exec (.ledgerGapTimer d) s = .next s ∧ exec (.ledDisable d) s = .next s) ∧
    (d < 4 → s.on F.LED_CFG_EN d = true → exec (.ledEnable d) s = .next s ∧ Runs (.ledDisable d) s (fun t => t.on F.LED_CFG_EN d = false ∧
      t.led d = { l with closing := true } ∧ t.on F.LED_PTR_BUSY d = true ∧ SameMemory s t)) ∧
    (d < 4 → s.on F.LED_CFG_EN d = false → Runs (.ledEnable d) s (fun t => t.on F.LED_CFG_EN d = true ∧ t.rd F.LED_PTR_HEAD d = 0 ∧
      t.on F.LED_PTR_FULL d = false ∧ t.on F.LED_PTR_DONE d = false ∧ t.on F.LED_PTR_BUSY d = false ∧ (t.led d).queue = [] ∧ (t.led d).n = 0 ∧ SameMemory s t)) ∧
    (d < 4 → exec (.ledArm d) s = .next ((s.wr F.LED_TRIG_ARMED 1 d).wr F.LED_TRIG_FIRED 0 d)) ∧
    (s.on F.LED_TRIG_ARMED d = false → exec (.ledFire d) s = .next s) ∧
    (s.on F.LED_TRIG_ARMED d = true → Runs (.ledFire d) s (fun t => t.on F.LED_TRIG_ARMED d = false ∧ t.on F.LED_TRIG_FIRED d = s.on F.LED_TRIG_FIRED d ∧ SameMemory s t ∧
      (s.on F.LED_CFG_EN d = false → t.led d = l) ∧ (s.on F.LED_CFG_EN d = true → (∃ r, (t.led d).trig = l.trig ++ [r] ∧ r.length = 64) ∧
        (t.led d).queue = l.queue ∧ (s.rd F.LED_CFG_MODE d = 2 → s.rd F.LED_CFG_POST d = 0 → d < 4 → t.on F.LED_PTR_DONE d = true ∧
          (t.led d).stopped = true ∧ s.Fires t (0x304 + d)) ∧
        (s.rd F.LED_CFG_MODE d = 2 → 0 < s.rd F.LED_CFG_POST d →
          (t.led d).post = some (min (s.rd F.LED_CFG_POST d) (2 ^ (min 16 (s.rd F.LED_CFG_SIZE_LOG d) + 10) - 2)))))))

/-- O58. A module attaches and detaches a context, the connector only an unlocked one in scope; detaching resumes the context's halted groups, disables its breakpoints and watchpoints and empties its queue. HALT, RESUME and STEP act on a group of an attached context: otherwise the first refusal is recorded as NOT_ATTACHED or GONE. HALT of a halted group, and RESUME or STEP of one that is not, change nothing; HALT_ALL and RESUME_ALL act on every group, RESUME_ALL but not on one halted by a trap. HALTED_EVENT queues the event when every result has been written, with PENDING where an access waits on the blotter and a second event once its accesses are over; STEP_DONE ends a step when the group would issue. DBG_DATA reads and writes a register of a group that is halted, or whose block has trapped, or its scratch; PC_READ removes the head event. A submitted token is accepted, or refused with one more failure and lockout at the third; RELOCK locks and clears connector attachments. -/
def Obligations.Debugging : Prop :=
  (∀ (s : State) (c m : Nat), c < 64 →
    (s.on F.DBG_ATTACH_EN c = false → Runs (.dbgAttach (.host m) c) s (fun t => t.on F.DBG_ATTACH_EN c = true ∧
      t.on F.DBG_ATTACH_ORIGIN c = false ∧ t.thr = s.thr ∧ SameMemory s t) ∧
      exec (.dbgDetach (.host m) c) s = .next s) ∧
    (s.on F.DBG_ATTACH_EN c = true → exec (.dbgAttach (.host m) c) s = .next s) ∧
    (s.inScope c = true → s.on F.DBG_ATTACH_EN c = false → Runs (.dbgAttach .connector c) s (fun t => t.on F.DBG_ATTACH_EN c = true ∧
      t.on F.DBG_ATTACH_ORIGIN c = true ∧ t.thr = s.thr ∧ SameMemory s t)) ∧
    (s.inScope c = false → exec (.dbgAttach .connector c) s = .next s ∧ exec (.dbgDetach .connector c) s = .next s) ∧
    (s.on F.DBG_ATTACH_EN c = true → Runs (.dbgDetach (.host m) c) s (fun t => t.on F.DBG_ATTACH_EN c = false ∧
      t.rd F.DBG_ATTACH_BP_EN c = 0 ∧ t.rd F.DBG_ATTACH_WP_EN c = 0 ∧ t.evtHead c = none ∧ SameMemory s t ∧
      (∀ g x, s.group g = some x → (∃ b, s.block x.bid = some b ∧ b.cmd.ctx = c) → x.halt ≠ 0 → ∃ y, t.group g = some y ∧ y.halt = 0 ∧
        y.pc = x.pc ∧ y.live = x.live ∧ y.active = x.active ∧ y.stack = x.stack)))) ∧
  (∀ (s : State) (c : Nat) (g : Gid), c < 64 → s.on F.DBG_STAT_VALID = false →
    (s.on F.DBG_ATTACH_EN c = false → (∀ i ∈ [Instr.halt c g, .resume c g, .step c g, .haltAll c, .resumeAll c], Runs i s (fun t =>
      t.on F.DBG_STAT_VALID = true ∧ t.rd F.DBG_STAT_ERR = 1 ∧ t.thr = s.thr ∧ SameMemory s t))) ∧
    (s.on F.DBG_ATTACH_EN c = true → s.groupOfCtx c g = none → (∀ i ∈ [Instr.halt c g, .resume c g, .step c g], Runs i s (fun t =>
      t.on F.DBG_STAT_VALID = true ∧ t.rd F.DBG_STAT_ERR = 5 ∧ t.thr = s.thr ∧ SameMemory s t)))) ∧
  (∀ (s : State) (c : Nat) (g : Gid) (x : Group), s.on F.DBG_ATTACH_EN c = true → s.groupOfCtx c g = some x →
    (x.halt = 0 → x.wait = .ready → exec (.halt c g) s = .next (s.setGroup g { x with halt := 1, stepping := 0, evt := 1 })) ∧
    (∀ pc n w, x.halt = 0 → x.wait = .regroup pc n w →
      exec (.halt c g) s = .next (s.setGroup g { x with halt := 1, stepping := 0, evt := 1, wait := .ready })) ∧
    (∀ n, x.halt = 0 → x.wait = .bar n → exec (.halt c g) s = .next (s.setGroup g { x with halt := 1, stepping := 0, evt := 1 })) ∧
    (∀ i ∈ (if x.halt = 0 then [Instr.resume c g, .step c g] else [Instr.halt c g]), Runs i s (fun t => (∀ h, t.group h = s.group h) ∧
      t.regs = s.regs ∧ t.dbg = s.dbg ∧ SameMemory s t)) ∧
    (x.halt ∈ [1, 2, 3, 4, 5] → exec (.resume c g) s = .next (s.setGroup g { x with halt := 0, stepping := 0, evt := 0 })) ∧
    (x.halt ∈ [1, 2, 4] → exec (.step c g) s = .next (s.setGroup g { x with halt := 0, stepping := 1, evt := 0 })) ∧
    (x.halt = 3 → exec (.step c g) s = .next (s.setGroup g { x with halt := 0, stepping := 1, evt := 0, bpSkip := none })) ∧
    (x.halt = 5 → exec (.step c g) s = .next (s.setGroup g x))) ∧
  (∀ (s : State) (c : Nat), s.on F.DBG_ATTACH_EN c = true →
    Runs (.haltAll c) s (fun t => SameMemory s t ∧ t.regs = s.regs ∧ ∀ g,
      (∀ x, s.groupOfCtx c g = some x → ∃ y, t.group g = some y ∧ y.halt ≠ 0 ∧ y.pc = x.pc ∧ y.live = x.live ∧ y.active = x.active) ∧
      (s.groupOfCtx c g = none → t.group g = s.group g)) ∧
    Runs (.resumeAll c) s (fun t => SameMemory s t ∧ t.regs = s.regs ∧ ∀ g,
      (∀ x, s.groupOfCtx c g = some x → ∃ y, t.group g = some y ∧ y.pc = x.pc ∧ y.live = x.live ∧ y.active = x.active ∧
        (x.halt ≠ 5 → y.halt = 0) ∧ (x.halt = 5 → y = x)) ∧
      (s.groupOfCtx c g = none → t.group g = s.group g))) ∧
  (∀ (s : State) (g : Gid) (x : Group) (b : Block) (q : List DbgEvt) (c : Nat), s.group g = some x → s.block x.bid = some b →
    c = b.cmd.ctx → c < 64 → q = (aget s.dbg.evts c).getD [] → q.length < 64 →
    (x.halt = 0 ∨ x.evt = 0 → exec (.haltedEvent g) s = .next s) ∧
    (x.halt ≠ 0 → x.evt ≠ 0 → s.heldByFault g x b.cmd = false → s.resultsOut g x = true → exec (.haltedEvent g) s = .next s) ∧
    (x.halt ≠ 0 → x.evt ≠ 0 → s.heldByFault g x b.cmd = false → s.resultsOut g x = false →
      (x.evt = 2 → s.thr.ops.any (fun o => x.inOp g o && o.op != .fence) = false) → Runs (.haltedEvent g) s (fun t =>
      aget t.dbg.evts c = some (q ++ [⟨1, false, false, g.core, g.slot, 0, x.pc⟩]) ∧ t.group g = some { x with evt := 0 } ∧
      s.Fires t (0x380 + c) ∧ SameMemory s t)) ∧
    (x.halt ≠ 0 → x.evt = 1 → s.heldByFault g x b.cmd = true → Runs (.haltedEvent g) s (fun t =>
      aget t.dbg.evts c = some (q ++ [⟨1, true, false, g.core, g.slot, 0, x.pc⟩]) ∧ t.group g = some { x with evt := 2 } ∧ SameMemory s t)) ∧
    (x.stepping < 2 → exec (.stepDone g) s = .next s) ∧
    (2 ≤ x.stepping → x.wait = .ready → x.live ≠ 0 → s.waitsFault g x = false → Runs (.stepDone g) s (fun t =>
      aget t.dbg.evts c = some (q ++ [⟨2, false, x.stepping == 3, g.core, g.slot, 0, x.pc⟩]) ∧
      t.group g = some { x with halt := 2, stepping := 0 } ∧ s.Fires t (0x380 + c) ∧ SameMemory s t))) ∧
  (∀ (s : State) (c : Nat), c < 64 →
    (s.evtHead c = none → Runs (.dbgEvtPcRead c) s (fun t => t.out = s.out ++ [.debug 0 0] ∧ t.dbg = s.dbg)) ∧
    (∀ e r, aget s.dbg.evts c = some (e :: r) → Runs (.dbgEvtPcRead c) s (fun t => t.out = s.out ++ [.debug 0 (BitVec.ofNat 64 e.pc.toNat)] ∧
      (aget t.dbg.evts c).getD [] = r ∧ t.regs = s.regs ∧ SameMemory s t))) ∧
  (∀ (s : State) (g : Gid) (x : Group) (b : Block) (l k : Nat) (v : W64), s.rd F.DBG_SEL_CORE = g.core → s.rd F.DBG_SEL_SLOT = g.slot →
    s.rd F.DBG_SEL_LANE = l → s.rd F.DBG_SEL_INDEX = k → s.group g = some x → s.block x.bid = some b → s.on F.DBG_STAT_VALID = false →
    (s.on F.DBG_ATTACH_EN b.cmd.ctx = false → Runs (.dbgDataWrite v) s (fun t => t.rd F.DBG_STAT_ERR = 1 ∧ t.thr = s.thr) ∧
      Runs .dbgDataRead s (fun t => t.rd F.DBG_STAT_ERR = 1 ∧ t.out = s.out ++ [.debug 0 0] ∧ t.thr = s.thr)) ∧
    (s.on F.DBG_ATTACH_EN b.cmd.ctx = true → s.rd F.DBG_SEL_KIND = 0 → x.halt = 0 → b.trapped = false →
      Runs (.dbgDataWrite v) s (fun t => t.rd F.DBG_STAT_ERR = 2 ∧ t.thr = s.thr)) ∧
    (s.on F.DBG_ATTACH_EN b.cmd.ctx = true → s.rd F.DBG_SEL_KIND = 0 → (x.halt ≠ 0 ∨ b.trapped = true) →
      (k < 8 * x.pages.length → exec .dbgDataRead s = .next (s.send (.debug 0 ((s.getReg g x k l).setWidth 64))) ∧
        Runs (.dbgDataWrite v) s (fun t => t.getReg g x k l = v.setWidth 32 ∧ SameMemory s t ∧ t.regs = s.regs ∧ t.thr.groups = s.thr.groups ∧
          ∀ r, r ≠ s.rfKey g.core (x.homeSlot g l) k l → aget t.thr.rf r = aget s.thr.rf r)) ∧
      (8 * x.pages.length ≤ k → Runs (.dbgDataWrite v) s (fun t => t.rd F.DBG_STAT_ERR = 3 ∧ t.thr = s.thr))) ∧
    (s.on F.DBG_ATTACH_EN b.cmd.ctx = true → s.rd F.DBG_SEL_KIND = 2 → (x.halt ≠ 0 ∨ b.trapped = true) →
      (k = 0 → exec (.dbgDataWrite v) s = .next (s.setGroup g { x with pc := BitVec.ofNat 57 v.toNat })) ∧
      (k = 1 → exec .dbgDataRead s = .next (s.send (.debug 0 (BitVec.ofNat 64 x.active.toNat))) ∧
        Runs (.dbgDataWrite v) s (fun t => t.rd F.DBG_STAT_ERR = 6 ∧ t.thr = s.thr))) ∧
    (s.on F.DBG_ATTACH_EN b.cmd.ctx = true → s.rd F.DBG_SEL_KIND = 3 →
      exec .dbgDataRead s = .next (s.send (.debug 0 (BitVec.ofNat 64 (s.rdScr b (8 * k) 8)))) ∧
      exec (.dbgDataWrite v) s = .next (s.wrScr b (8 * k) (leBytes 8 v.toNat)))) ∧
  (∀ s : State,
    (s.rd F.DBG_LOCK_STATE = 0 → Runs .tokenSubmit s (fun t => t.rd F.DBG_LOCK_STATE = 1 ∧ s.Fires t 0x3C0 ∧ SameMemory s t)) ∧
    (s.rd F.DBG_LOCK_STATE ≠ 0 → exec .tokenSubmit s = .next s) ∧
    (s.rd F.DBG_LOCK_STATE ≠ 1 → exec .tokenVerifyDone s = .next s) ∧
    (s.rd F.DBG_LOCK_STATE = 1 → Runs .tokenVerifyDone s (fun t => s.Fires t 0x3C0 ∧ SameMemory s t ∧
      (if s.tokenOk then t.rd F.DBG_LOCK_STATE = 2 ∧ t.rd F.DBG_LOCK_PMASK = leAt s.token 6 2 ∧ t.rd F.DBG_LOCK_FULL = leAt s.token 8 1 % 2
       else t.rd F.DBG_LOCK_FAILS = min 3 (s.rd F.DBG_LOCK_FAILS + 1) ∧ t.rd F.DBG_LOCK_STATE = (if 2 ≤ s.rd F.DBG_LOCK_FAILS then 3 else 0)))) ∧
    (s.rd F.DBG_LOCK_STATE ≠ 2 → exec .relock s = .next s) ∧
    (s.rd F.DBG_LOCK_STATE = 2 → Runs .relock s (fun t => t.rd F.DBG_LOCK_STATE = 0 ∧ t.rd F.DBG_LOCK_PMASK = 0 ∧ t.rd F.DBG_LOCK_FULL = 0 ∧
      s.Fires t 0x3C0 ∧ SameMemory s t ∧ (∀ c < 64, s.on F.DBG_ATTACH_EN c = true → s.on F.DBG_ATTACH_ORIGIN c = true → t.on F.DBG_ATTACH_EN c = false) ∧
      (∀ c < 64, s.on F.DBG_ATTACH_ORIGIN c = false → t.on F.DBG_ATTACH_EN c = s.on F.DBG_ATTACH_EN c))))

/-- O59. (The answers' codes and bodies, and the order that SPDM requests keep, are the model's choice, log 40.) REQUEST_UPDATE enters UPDATE, once. An image that passes the checks is received and its flash write begins, or waits for a folio write; one that fails ends the update. When the write is done the image is in flash, PENDING is set and STATE is RUNNING. In recovery at step 6 a fetched image that passes is written and recovery ends; otherwise K0 fetches again, as at a timeout. GET_VERSION begins an exchange, GET_CAPABILITIES follows it and NEGOTIATE_ALGORITHMS follows that, for Ed448 and SHA3-512 only. After it GET_DIGESTS, GET_CERTIFICATE of slot 0 from an offset in the chain, CHALLENGE of slot 0 and GET_MEASUREMENTS are answered, the last two with a signature over the exchange that leaves the transcript empty. Refused requests, and all of them in recovery, change nothing but the answer. -/
def Obligations.FirmwareAndAttestation : Prop :=
  (∀ s : State, s.serves = true →
    (s.rst.asserted = false → s.rd F.SEC_FW_STATE ≠ 1 → Runs .requestUpdate s (fun t => t.rd F.SEC_FW_STATE = 1 ∧ s.Fires t 0x030 ∧
      t.sec = s.sec ∧ SameMemory s t)) ∧
    (s.rst.asserted = false → s.rd F.SEC_FW_STATE = 1 → exec .requestUpdate s = .next (s.reply mgUpdating [])) ∧
    (∀ img, s.rd F.SEC_FW_STATE = 1 → s.sec.writing = 0 → Runs (.fwImageVerify img) s (fun t => t.sec.image = s.sec.image ∧ SameMemory s t ∧
      (if s.imageOk img then t.sec.received = some img ∧ t.sec.writing = (if s.rd F.FOLIO_STAT_PHASE = phPersist then 1 else 2) ∧
          t.rd F.SEC_FW_STATE = 1
        else t.sec = s.sec ∧ t.rd F.SEC_FW_STATE = 0))) ∧
    (∀ img, s.rd F.SEC_FW_STATE ≠ 1 → exec (.fwImageVerify img) s = .next s)) ∧
  (∀ s : State,
    (s.sec.received = none → exec .fwFlashWriteDone s = .next s) ∧
    (∀ img, s.sec.received = some img → s.sec.writing = 2 → Runs .fwFlashWriteDone s (fun t =>
      t.sec = { s.sec with image := img, received := none, writing := 0 } ∧ t.on F.SEC_FW_PENDING = true ∧ t.rd F.SEC_FW_STATE = 0 ∧
      s.Fires t 0x030 ∧ SameMemory s t)) ∧
    (∀ img, s.sec.received = some img → s.sec.writing ≠ 2 → exec .fwFlashWriteDone s = .next s)) ∧
  (∀ (s : State) (img : List Byte),
    (s.recovering = false → exec (.fwRecoveryFetch img) s = .next s ∧ exec .fwRecoveryTimeout s = .next s) ∧
    (s.recovering = true → s.rst.asserted = false → s.rst.step = 6 →
      exec .fwRecoveryTimeout s = .next { s with sec := { s.sec with fetching := true } } ∧
      Runs (.fwRecoveryFetch img) s (fun t => SameMemory s t ∧ t.rst = s.rst ∧
        (if s.imageOk img then t.sec = { s.sec with image := img, fetching := false } ∧ t.rd F.SEC_FW_STATE = 0
          else t = { s with sec := { s.sec with fetching := true } })))) ∧
  (∀ (s : State) (base hash slot off len : Nat) (nonce : List Byte),
    (s.serves = false → ∀ c ∈ [Instr.getVersion, .getCapabilities, .negotiateAlgorithms base hash, .getDigests, .getCertificate slot off len,
      .challenge slot nonce, .getMeasurements nonce, .requestUpdate], exec c s = .next s) ∧
    (s.serves = true →
      Runs .getVersion s (fun t => t.sec = { s.sec with spdm := 1, transcript := [0x84, 0x13] } ∧ t.out = s.out ++ [.mgmt mgOk [0x13]] ∧
        t.regs = s.regs ∧ SameMemory s t) ∧
      (1 ≤ s.sec.spdm → Runs .getCapabilities s (fun t => t.sec = { s.sec with spdm := 2, transcript := s.sec.transcript ++ [0xE1] } ∧
        t.out = s.out ++ [.mgmt mgOk []] ∧ t.regs = s.regs ∧ SameMemory s t)) ∧
      (s.sec.spdm < 1 → exec .getCapabilities s = .next (s.reply mgError [])) ∧
      (2 ≤ s.sec.spdm → bitsOf base 11 1 = 1 → bitsOf hash 5 1 = 1 → Runs (.negotiateAlgorithms base hash) s (fun t => t.sec.spdm = 3 ∧
        t.out = s.out ++ [.mgmt mgOk (leBytes 4 0x800 ++ leBytes 4 0x20)] ∧ t.regs = s.regs ∧ SameMemory s t)) ∧
      (bitsOf base 11 1 = 0 ∨ bitsOf hash 5 1 = 0 ∨ s.sec.spdm < 2 → exec (.negotiateAlgorithms base hash) s = .next (s.reply mgError [])) ∧
      (s.sec.spdm < 3 → ∀ c ∈ [Instr.getDigests, .getCertificate slot off len, .challenge slot nonce, .getMeasurements nonce],
        exec c s = .next (s.reply mgError [])) ∧
      (3 ≤ s.sec.spdm →
        Runs .getDigests s (fun t => t.out = s.out ++ [.mgmt mgOk (Config.sha3 chain0)] ∧ t.sec.spdm = 3 ∧ t.regs = s.regs ∧ SameMemory s t) ∧
        (slot ≠ 0 → exec (.getCertificate slot off len) s = .next (s.reply mgError []) ∧ exec (.challenge slot nonce) s = .next (s.reply mgError [])) ∧
        (slot = 0 → off ≤ chain0.length → Runs (.getCertificate slot off len) s (fun t =>
          t.out = s.out ++ [.mgmt mgOk ((chain0.drop off).take len)] ∧ t.regs = s.regs ∧ SameMemory s t)) ∧
        (slot = 0 → Runs (.challenge slot nonce) s (fun t => t.out = s.out ++ [.mgmt mgOk (Config.sha3 chain0 ++
          Config.ed448Sign 0 (s.sec.transcript ++ [0x83] ++ nonce ++ Config.sha3 chain0))] ∧
          t.sec = { s.sec with transcript := [] } ∧ t.regs = s.regs ∧ SameMemory s t)) ∧
        Runs (.getMeasurements nonce) s (fun t => (∃ body, t.out = s.out ++ [.mgmt mgOk (body ++
            Config.ed448Sign 0 (s.sec.transcript ++ [0xE0] ++ nonce ++ body))] ∧
          body = s.measurements.zipIdx.flatMap (fun m => leBytes 1 (m.2 + 1) ++ leBytes 2 m.1.length ++ m.1)) ∧
          s.measurements.length = 7 ∧ t.sec = { s.sec with transcript := [] } ∧ t.regs = s.regs ∧ SameMemory s t))))

/-- O60. (The answers' codes and bodies are the model's choice, log 40.) The bus owner sets and reads the endpoint ID; messages of other types are dropped. GetPLDMTypes reports types 0, 2, 5 and 63. A sensor read answers its value, in recovery the STATE sensor alone; reading the module-fault sensor releases MOD_FAULT_N. A module number below 4096 is kept for the next module reset, a larger one refused. Retirement lists of stacks 0 to 15, one that has overflowed with four bytes of ones after it (the model's choice, log 31), the fuse map, the calibration set and the recovery log from TAIL to HEAD are read without a change of state. A calibration write stores the set with SOURCE 1 and raises its event, one interrupted leaves a torn set, and one during a flash write is refused. A leak is only reported. -/
def Obligations.ManagementRequests : Prop :=
  (∀ (s : State) (typ : Nat) (body : List Byte), s.rst.power = true →
    (typ ≠ 0 → exec (.mctpControl typ body) s = .next s) ∧
    (typ = 0 → leAt body 0 1 = 1 → Runs (.mctpControl typ body) s (fun t => t.sec = { s.sec with eid := leAt body 2 1 } ∧ t.regs = s.regs ∧
      SameMemory s t)) ∧
    (typ = 0 → leAt body 0 1 = 2 → exec (.mctpControl typ body) s = .next (s.reply mgOk (leBytes 1 s.sec.eid))) ∧
    exec (.pldmBase 4) s = .next (s.reply mgOk (leBytes 8 0x8000000000000025))) ∧
  (∀ (s : State) (n : Nat), s.rst.power = true →
    (s.recovering = true → n ≠ 65 → exec (.pldmSensorRead n) s = .next s) ∧
    (n = 65 → exec (.pldmSensorRead n) s = .next (s.reply mgOk (leBytes 1 (s.rd F.SEC_FW_STATE)))) ∧
    (s.recovering = false →
      (n = 0 → exec (.pldmSensorRead n) s = .next (s.reply mgOk (leBytes 2 (s.rd F.PWR_IN_VOLT)))) ∧
      (n = 2 → exec (.pldmSensorRead n) s = .next (s.reply mgOk (leBytes 2 (s.rd F.PWR_IN_WATTS)))) ∧
      (n = 7 → exec (.pldmSensorRead n) s = .next (s.reply mgOk (leBytes 2 (s.rd F.PWR_AVG_W10MS)))) ∧
      (n = 8 → exec (.pldmSensorRead n) s = .next (s.reply mgOk (leBytes 2 (s.rd F.PWR_AVG_W1S)))) ∧
      (16 ≤ n → n < 32 → exec (.pldmSensorRead n) s = .next (s.reply mgOk (leBytes 1 (s.rd F.STK_STAT_TEMP (n - 16))))) ∧
      (n = 67 → Runs (.pldmSensorRead n) s (fun t => t.out = s.out ++ [.mgmt mgOk (leBytes 1 (b2n s.rst.fault))] ∧
        t.rst = { s.rst with fault := false, faultN := false } ∧ t.regs = s.regs ∧ SameMemory s t)) ∧
      (n = 68 → exec (.pldmSensorRead n) s = .next (s.reply mgOk (leBytes 1 (b2n s.sec.leak)))) ∧
      (68 < n → exec (.pldmSensorRead n) s = .next (s.reply mgError [])))) ∧
  (∀ (s : State) (n : Nat), s.serves = true →
    (n < 4096 → exec (.setModuleNumber n) s = .next (({ s with sec := { s.sec with number := some n } }).reply mgOk [])) ∧
    (4096 ≤ n → exec (.setModuleNumber n) s = .next (s.reply mgError [])) ∧
    (n < 16 → s.stk.full.contains n = false →
      exec (.readRetirement n) s = .next (s.reply mgOk ((s.stk.retired.filter (fun e => e.1 == n)).flatMap (fun e => leBytes 4 e.2)))) ∧
    (n < 16 → s.stk.full.contains n = true → exec (.readRetirement n) s = .next (s.reply mgOk
      ((s.stk.retired.filter (fun e => e.1 == n)).flatMap (fun e => leBytes 4 e.2) ++ List.replicate 4 0xFF))) ∧
    (16 ≤ n → exec (.readRetirement n) s = .next (s.reply mgError [])) ∧
    exec .readFuseMap s = .next (s.reply mgOk (packNibbles s.sec.fuseMap)) ∧
    (∀ c, s.sec.cal = some c → exec .readCalibration s = .next (s.reply mgOk (c.data ++ [c.source] ++ leBytes 8 c.crc.toNat))) ∧
    (s.sec.cal = none → exec .readCalibration s = .next (s.reply mgError [])) ∧
    (s.on F.REC_LOG_BASE_EN = false → exec .readRecoveryLog s = .next (s.reply mgOk [])) ∧
    (s.on F.REC_LOG_BASE_EN = true → s.rd F.REC_LOG_PTR_HEAD = s.rd F.REC_LOG_PTR_TAIL + 1 → exec .readRecoveryLog s =
      .next (s.reply mgOk (s.rdBytes devKey (s.rd F.REC_LOG_BASE_BASE * 16384 + 32 * (s.rd F.REC_LOG_PTR_TAIL % 512)) 32)))) ∧
  (∀ (s : State) (body crc : List Byte), s.serves = true → crc.length = 8 →
    (s.sec.writing = 0 → s.rd F.FOLIO_STAT_PHASE ≠ phPersist →
      Runs (.writeCalibration (body ++ crc) false) s (fun t => t.sec = { s.sec with cal := some ⟨body, BitVec.ofNat 64 (leNat crc), 1, false⟩ } ∧
        s.Fires t 0x031 ∧ SameMemory s t) ∧
      exec (.writeCalibration (body ++ crc) true) s =
        .next { s with sec := { s.sec with cal := some ⟨body, BitVec.ofNat 64 (leNat crc), 1, true⟩ } }) ∧
    (s.sec.writing ≠ 0 → ∀ i, exec (.writeCalibration (body ++ crc) i) s = .next (s.reply mgNotReady []))) ∧
  (∀ s : State, exec .leakDetect s = .next { s with sec := { s.sec with leak := true } })
end

