-- ==== Sys2Proof/Laws/Maps.lean ====
section
/-! SUPPORT. Laws of the finite maps: a read after a put, and that the sorted form is kept. -/

namespace Sys2Proof.Machine

theorem aget_aput_self {κ α : Type} [DecidableEq κ] (m : List (κ × α)) (k : κ) (v : α) : aget (aput m k v) k = some v := by
  induction m with
  | nil => simp [aput, aget]
  | cons e r ih =>
    obtain ⟨a, w⟩ := e
    by_cases h : a = k <;> simp [aput, aget, h, ih]

theorem aget_aput_ne {κ α : Type} [DecidableEq κ] (m : List (κ × α)) {k j : κ} (v : α) (h : k ≠ j) :
    aget (aput m k v) j = aget m j := by
  induction m with
  | nil => simp [aput, aget, h]
  | cons e r ih =>
    obtain ⟨a, w⟩ := e
    by_cases ha : a = k
    · subst ha; simp [aput, aget, h]
    · by_cases hj : a = j
      · subst hj; simp [aput, aget, ha]
      · simp [aput, aget, ha, hj, ih]

theorem mget_mput_self {α : Type} (m : List (Nat × α)) (a : Nat) (v : α) : mget (mput m a v) a = some v := by
  induction m with
  | nil => simp [mput, mget]
  | cons e r ih =>
    obtain ⟨k, w⟩ := e
    by_cases h : k = a
    · simp [mput, mget, h]
    · by_cases g : a < k <;> simp [mput, mget, h, g, ih]

theorem mget_mput_ne {α : Type} (m : List (Nat × α)) {a b : Nat} (v : α) (h : a ≠ b) : mget (mput m a v) b = mget m b := by
  induction m with
  | nil => simp [mput, mget, h]
  | cons e r ih =>
    obtain ⟨k, w⟩ := e
    by_cases hk : k = a
    · subst hk; simp [mput, mget, h]
    · by_cases g : a < k
      · simp [mput, mget, hk, g, h]
      · by_cases hb : k = b
        · subst hb; simp [mput, mget, hk, g]
        · simp [mput, mget, hk, g, hb, ih]

/-- The keys of a sorted list lie above `a`. -/
def above {α : Type} (a : Nat) (m : List (Nat × α)) : Prop := ∀ e ∈ m, a < e.1

theorem rising_cons {α : Type} (a : Nat) (v : α) (m : List (Nat × α)) :
    rising ((a, v) :: m) = true ↔ above a m ∧ rising m = true := by
  induction m generalizing a v with
  | nil => simp [rising, above]
  | cons e r ih =>
    obtain ⟨b, w⟩ := e
    simp only [rising, Bool.and_eq_true, decide_eq_true_eq, ih, above, List.mem_cons]
    constructor
    · rintro ⟨hab, hr, h⟩
      refine ⟨?_, hr, h⟩
      rintro e (rfl | he)
      · exact hab
      · exact lt_trans hab (hr e he)
    · rintro ⟨h1, h2, h3⟩
      exact ⟨h1 (b, w) (Or.inl rfl), h2, h3⟩

theorem above_mput {α : Type} {a k : Nat} (v : α) (m : List (Nat × α)) (h : above a m) (hk : a < k) : above a (mput m k v) := by
  induction m with
  | nil => intro e he; simp [mput] at he; subst he; exact hk
  | cons x r ih =>
    obtain ⟨b, w⟩ := x
    have hb : a < b := h (b, w) (List.mem_cons_self ..)
    have hr : above a r := fun e he => h e (List.mem_cons_of_mem _ he)
    unfold mput
    split
    · intro e he
      rcases List.mem_cons.1 he with rfl | he
      · exact hk
      · exact hr e he
    · split
      · intro e he
        rcases List.mem_cons.1 he with rfl | he
        · exact hk
        · exact h e he
      · intro e he
        rcases List.mem_cons.1 he with rfl | he
        · exact hb
        · exact ih hr e he

/-- A put keeps the sorted form. -/
theorem rising_mput {α : Type} (m : List (Nat × α)) (a : Nat) (v : α) (h : rising m = true) : rising (mput m a v) = true := by
  induction m with
  | nil => simp [mput, rising]
  | cons x r ih =>
    obtain ⟨b, w⟩ := x
    obtain ⟨hb, hr⟩ := (rising_cons b w r).1 h
    unfold mput
    split
    · rename_i hk; subst hk; exact (rising_cons ..).2 ⟨hb, hr⟩
    · split
      · rename_i hlt
        refine (rising_cons ..).2 ⟨?_, h⟩
        intro e he
        rcases List.mem_cons.1 he with rfl | he
        · exact hlt
        · exact lt_trans hlt (hb e he)
      · rename_i h1 h2
        exact (rising_cons ..).2 ⟨above_mput v r hb (by omega), ih hr⟩

/-- A filter keeps the sorted form. -/
theorem rising_filter {α : Type} (m : List (Nat × α)) (p : Nat × α → Bool) (h : rising m = true) : rising (m.filter p) = true := by
  induction m with
  | nil => simp [rising]
  | cons x r ih =>
    obtain ⟨b, w⟩ := x
    obtain ⟨hb, hr⟩ := (rising_cons b w r).1 h
    by_cases hp : p (b, w)
    · rw [List.filter_cons_of_pos hp]
      exact (rising_cons ..).2 ⟨fun e he => hb e (List.mem_filter.1 he).1, ih hr⟩
    · rw [List.filter_cons_of_neg hp]
      exact ih hr

theorem rising_mdel {α : Type} (m : List (Nat × α)) (a : Nat) (h : rising m = true) : rising (mdel m a) = true :=
  rising_filter m _ h

end Sys2Proof.Machine
end

