-- ==== Sys2Proof/Laws/State.lean ====
section
/-! SUPPORT. What the plain updates of the state leave as it was: one lemma for each field and update. -/

namespace Sys2Proof.Machine

variable (s : State)

@[simp] theorem State.setReg_pending (r : Reg) (i j : Nat) (v : W64) : (s.setReg r i j v).pending = s.pending := rfl
@[simp] theorem State.setReg_free (r : Reg) (i j : Nat) (v : W64) : (s.setReg r i j v).free = s.free := rfl
@[simp] theorem State.setReg_held (r : Reg) (i j : Nat) (v : W64) : (s.setReg r i j v).held = s.held := rfl
@[simp] theorem State.setReg_out (r : Reg) (i j : Nat) (v : W64) : (s.setReg r i j v).out = s.out := rfl
@[simp] theorem State.setReg_mem (r : Reg) (i j : Nat) (v : W64) : (s.setReg r i j v).mem = s.mem := rfl
@[simp] theorem State.setReg_lines (r : Reg) (i j : Nat) (v : W64) : (s.setReg r i j v).lines = s.lines := rfl
@[simp] theorem State.setReg_hostMem (r : Reg) (i j : Nat) (v : W64) : (s.setReg r i j v).hostMem = s.hostMem := rfl
@[simp] theorem State.setReg_int (r : Reg) (i j : Nat) (v : W64) : (s.setReg r i j v).int = s.int := rfl
@[simp] theorem State.setReg_fol (r : Reg) (i j : Nat) (v : W64) : (s.setReg r i j v).fol = s.fol := rfl
@[simp] theorem State.setReg_obj (r : Reg) (i j : Nat) (v : W64) : (s.setReg r i j v).obj = s.obj := rfl
@[simp] theorem State.setReg_cmd (r : Reg) (i j : Nat) (v : W64) : (s.setReg r i j v).cmd = s.cmd := rfl
@[simp] theorem State.setReg_syn (r : Reg) (i j : Nat) (v : W64) : (s.setReg r i j v).syn = s.syn := rfl
@[simp] theorem State.setReg_thr (r : Reg) (i j : Nat) (v : W64) : (s.setReg r i j v).thr = s.thr := rfl
@[simp] theorem State.setReg_mx (r : Reg) (i j : Nat) (v : W64) : (s.setReg r i j v).mx = s.mx := rfl
@[simp] theorem State.setReg_stk (r : Reg) (i j : Nat) (v : W64) : (s.setReg r i j v).stk = s.stk := rfl
@[simp] theorem State.setReg_coh (r : Reg) (i j : Nat) (v : W64) : (s.setReg r i j v).coh = s.coh := rfl
@[simp] theorem State.setReg_xlt (r : Reg) (i j : Nat) (v : W64) : (s.setReg r i j v).xlt = s.xlt := rfl
@[simp] theorem State.setReg_fab (r : Reg) (i j : Nat) (v : W64) : (s.setReg r i j v).fab = s.fab := rfl
@[simp] theorem State.setReg_rcv (r : Reg) (i j : Nat) (v : W64) : (s.setReg r i j v).rcv = s.rcv := rfl
@[simp] theorem State.setReg_rst (r : Reg) (i j : Nat) (v : W64) : (s.setReg r i j v).rst = s.rst := rfl
@[simp] theorem State.setReg_pwr (r : Reg) (i j : Nat) (v : W64) : (s.setReg r i j v).pwr = s.pwr := rfl
@[simp] theorem State.setReg_tal (r : Reg) (i j : Nat) (v : W64) : (s.setReg r i j v).tal = s.tal := rfl
@[simp] theorem State.setReg_dbg (r : Reg) (i j : Nat) (v : W64) : (s.setReg r i j v).dbg = s.dbg := rfl
@[simp] theorem State.setReg_sec (r : Reg) (i j : Nat) (v : W64) : (s.setReg r i j v).sec = s.sec := rfl
@[simp] theorem State.setReg_finds (r : Reg) (i j : Nat) (v : W64) : (s.setReg r i j v).finds = s.finds := rfl

@[simp] theorem State.wr_pending (f : Fld) (v i j : Nat) : (s.wr f v i j).pending = s.pending := rfl
@[simp] theorem State.wr_free (f : Fld) (v i j : Nat) : (s.wr f v i j).free = s.free := rfl
@[simp] theorem State.wr_held (f : Fld) (v i j : Nat) : (s.wr f v i j).held = s.held := rfl
@[simp] theorem State.wr_out (f : Fld) (v i j : Nat) : (s.wr f v i j).out = s.out := rfl
@[simp] theorem State.wr_mem (f : Fld) (v i j : Nat) : (s.wr f v i j).mem = s.mem := rfl
@[simp] theorem State.wr_lines (f : Fld) (v i j : Nat) : (s.wr f v i j).lines = s.lines := rfl
@[simp] theorem State.wr_hostMem (f : Fld) (v i j : Nat) : (s.wr f v i j).hostMem = s.hostMem := rfl
@[simp] theorem State.wr_int (f : Fld) (v i j : Nat) : (s.wr f v i j).int = s.int := rfl
@[simp] theorem State.wr_fol (f : Fld) (v i j : Nat) : (s.wr f v i j).fol = s.fol := rfl
@[simp] theorem State.wr_obj (f : Fld) (v i j : Nat) : (s.wr f v i j).obj = s.obj := rfl
@[simp] theorem State.wr_cmd (f : Fld) (v i j : Nat) : (s.wr f v i j).cmd = s.cmd := rfl
@[simp] theorem State.wr_syn (f : Fld) (v i j : Nat) : (s.wr f v i j).syn = s.syn := rfl
@[simp] theorem State.wr_thr (f : Fld) (v i j : Nat) : (s.wr f v i j).thr = s.thr := rfl
@[simp] theorem State.wr_mx (f : Fld) (v i j : Nat) : (s.wr f v i j).mx = s.mx := rfl
@[simp] theorem State.wr_stk (f : Fld) (v i j : Nat) : (s.wr f v i j).stk = s.stk := rfl
@[simp] theorem State.wr_coh (f : Fld) (v i j : Nat) : (s.wr f v i j).coh = s.coh := rfl
@[simp] theorem State.wr_xlt (f : Fld) (v i j : Nat) : (s.wr f v i j).xlt = s.xlt := rfl
@[simp] theorem State.wr_fab (f : Fld) (v i j : Nat) : (s.wr f v i j).fab = s.fab := rfl
@[simp] theorem State.wr_rcv (f : Fld) (v i j : Nat) : (s.wr f v i j).rcv = s.rcv := rfl
@[simp] theorem State.wr_rst (f : Fld) (v i j : Nat) : (s.wr f v i j).rst = s.rst := rfl
@[simp] theorem State.wr_pwr (f : Fld) (v i j : Nat) : (s.wr f v i j).pwr = s.pwr := rfl
@[simp] theorem State.wr_tal (f : Fld) (v i j : Nat) : (s.wr f v i j).tal = s.tal := rfl
@[simp] theorem State.wr_dbg (f : Fld) (v i j : Nat) : (s.wr f v i j).dbg = s.dbg := rfl
@[simp] theorem State.wr_sec (f : Fld) (v i j : Nat) : (s.wr f v i j).sec = s.sec := rfl
@[simp] theorem State.wr_finds (f : Fld) (v i j : Nat) : (s.wr f v i j).finds = s.finds := rfl

@[simp] theorem State.inc_pending (f : Fld) (i j : Nat) : (s.inc f i j).pending = s.pending := rfl
@[simp] theorem State.inc_free (f : Fld) (i j : Nat) : (s.inc f i j).free = s.free := rfl
@[simp] theorem State.inc_held (f : Fld) (i j : Nat) : (s.inc f i j).held = s.held := rfl
@[simp] theorem State.inc_out (f : Fld) (i j : Nat) : (s.inc f i j).out = s.out := rfl
@[simp] theorem State.inc_mem (f : Fld) (i j : Nat) : (s.inc f i j).mem = s.mem := rfl
@[simp] theorem State.inc_lines (f : Fld) (i j : Nat) : (s.inc f i j).lines = s.lines := rfl
@[simp] theorem State.inc_hostMem (f : Fld) (i j : Nat) : (s.inc f i j).hostMem = s.hostMem := rfl
@[simp] theorem State.inc_int (f : Fld) (i j : Nat) : (s.inc f i j).int = s.int := rfl
@[simp] theorem State.inc_fol (f : Fld) (i j : Nat) : (s.inc f i j).fol = s.fol := rfl
@[simp] theorem State.inc_obj (f : Fld) (i j : Nat) : (s.inc f i j).obj = s.obj := rfl
@[simp] theorem State.inc_cmd (f : Fld) (i j : Nat) : (s.inc f i j).cmd = s.cmd := rfl
@[simp] theorem State.inc_syn (f : Fld) (i j : Nat) : (s.inc f i j).syn = s.syn := rfl
@[simp] theorem State.inc_thr (f : Fld) (i j : Nat) : (s.inc f i j).thr = s.thr := rfl
@[simp] theorem State.inc_mx (f : Fld) (i j : Nat) : (s.inc f i j).mx = s.mx := rfl
@[simp] theorem State.inc_stk (f : Fld) (i j : Nat) : (s.inc f i j).stk = s.stk := rfl
@[simp] theorem State.inc_coh (f : Fld) (i j : Nat) : (s.inc f i j).coh = s.coh := rfl
@[simp] theorem State.inc_xlt (f : Fld) (i j : Nat) : (s.inc f i j).xlt = s.xlt := rfl
@[simp] theorem State.inc_fab (f : Fld) (i j : Nat) : (s.inc f i j).fab = s.fab := rfl
@[simp] theorem State.inc_rcv (f : Fld) (i j : Nat) : (s.inc f i j).rcv = s.rcv := rfl
@[simp] theorem State.inc_rst (f : Fld) (i j : Nat) : (s.inc f i j).rst = s.rst := rfl
@[simp] theorem State.inc_pwr (f : Fld) (i j : Nat) : (s.inc f i j).pwr = s.pwr := rfl
@[simp] theorem State.inc_tal (f : Fld) (i j : Nat) : (s.inc f i j).tal = s.tal := rfl
@[simp] theorem State.inc_dbg (f : Fld) (i j : Nat) : (s.inc f i j).dbg = s.dbg := rfl
@[simp] theorem State.inc_sec (f : Fld) (i j : Nat) : (s.inc f i j).sec = s.sec := rfl
@[simp] theorem State.inc_finds (f : Fld) (i j : Nat) : (s.inc f i j).finds = s.finds := rfl

@[simp] theorem State.incSat_pending (f : Fld) (i j : Nat) : (s.incSat f i j).pending = s.pending := rfl
@[simp] theorem State.incSat_free (f : Fld) (i j : Nat) : (s.incSat f i j).free = s.free := rfl
@[simp] theorem State.incSat_held (f : Fld) (i j : Nat) : (s.incSat f i j).held = s.held := rfl
@[simp] theorem State.incSat_out (f : Fld) (i j : Nat) : (s.incSat f i j).out = s.out := rfl
@[simp] theorem State.incSat_mem (f : Fld) (i j : Nat) : (s.incSat f i j).mem = s.mem := rfl
@[simp] theorem State.incSat_lines (f : Fld) (i j : Nat) : (s.incSat f i j).lines = s.lines := rfl
@[simp] theorem State.incSat_hostMem (f : Fld) (i j : Nat) : (s.incSat f i j).hostMem = s.hostMem := rfl
@[simp] theorem State.incSat_int (f : Fld) (i j : Nat) : (s.incSat f i j).int = s.int := rfl
@[simp] theorem State.incSat_fol (f : Fld) (i j : Nat) : (s.incSat f i j).fol = s.fol := rfl
@[simp] theorem State.incSat_obj (f : Fld) (i j : Nat) : (s.incSat f i j).obj = s.obj := rfl
@[simp] theorem State.incSat_cmd (f : Fld) (i j : Nat) : (s.incSat f i j).cmd = s.cmd := rfl
@[simp] theorem State.incSat_syn (f : Fld) (i j : Nat) : (s.incSat f i j).syn = s.syn := rfl
@[simp] theorem State.incSat_thr (f : Fld) (i j : Nat) : (s.incSat f i j).thr = s.thr := rfl
@[simp] theorem State.incSat_mx (f : Fld) (i j : Nat) : (s.incSat f i j).mx = s.mx := rfl
@[simp] theorem State.incSat_stk (f : Fld) (i j : Nat) : (s.incSat f i j).stk = s.stk := rfl
@[simp] theorem State.incSat_coh (f : Fld) (i j : Nat) : (s.incSat f i j).coh = s.coh := rfl
@[simp] theorem State.incSat_xlt (f : Fld) (i j : Nat) : (s.incSat f i j).xlt = s.xlt := rfl
@[simp] theorem State.incSat_fab (f : Fld) (i j : Nat) : (s.incSat f i j).fab = s.fab := rfl
@[simp] theorem State.incSat_rcv (f : Fld) (i j : Nat) : (s.incSat f i j).rcv = s.rcv := rfl
@[simp] theorem State.incSat_rst (f : Fld) (i j : Nat) : (s.incSat f i j).rst = s.rst := rfl
@[simp] theorem State.incSat_pwr (f : Fld) (i j : Nat) : (s.incSat f i j).pwr = s.pwr := rfl
@[simp] theorem State.incSat_tal (f : Fld) (i j : Nat) : (s.incSat f i j).tal = s.tal := rfl
@[simp] theorem State.incSat_dbg (f : Fld) (i j : Nat) : (s.incSat f i j).dbg = s.dbg := rfl
@[simp] theorem State.incSat_sec (f : Fld) (i j : Nat) : (s.incSat f i j).sec = s.sec := rfl
@[simp] theorem State.incSat_finds (f : Fld) (i j : Nat) : (s.incSat f i j).finds = s.finds := rfl

@[simp] theorem State.bump_pending : (s.bump).pending = s.pending := rfl
@[simp] theorem State.bump_regs : (s.bump).regs = s.regs := rfl
@[simp] theorem State.bump_held : (s.bump).held = s.held := rfl
@[simp] theorem State.bump_out : (s.bump).out = s.out := rfl
@[simp] theorem State.bump_mem : (s.bump).mem = s.mem := rfl
@[simp] theorem State.bump_lines : (s.bump).lines = s.lines := rfl
@[simp] theorem State.bump_hostMem : (s.bump).hostMem = s.hostMem := rfl
@[simp] theorem State.bump_int : (s.bump).int = s.int := rfl
@[simp] theorem State.bump_fol : (s.bump).fol = s.fol := rfl
@[simp] theorem State.bump_obj : (s.bump).obj = s.obj := rfl
@[simp] theorem State.bump_cmd : (s.bump).cmd = s.cmd := rfl
@[simp] theorem State.bump_syn : (s.bump).syn = s.syn := rfl
@[simp] theorem State.bump_thr : (s.bump).thr = s.thr := rfl
@[simp] theorem State.bump_mx : (s.bump).mx = s.mx := rfl
@[simp] theorem State.bump_stk : (s.bump).stk = s.stk := rfl
@[simp] theorem State.bump_coh : (s.bump).coh = s.coh := rfl
@[simp] theorem State.bump_xlt : (s.bump).xlt = s.xlt := rfl
@[simp] theorem State.bump_fab : (s.bump).fab = s.fab := rfl
@[simp] theorem State.bump_rcv : (s.bump).rcv = s.rcv := rfl
@[simp] theorem State.bump_rst : (s.bump).rst = s.rst := rfl
@[simp] theorem State.bump_pwr : (s.bump).pwr = s.pwr := rfl
@[simp] theorem State.bump_tal : (s.bump).tal = s.tal := rfl
@[simp] theorem State.bump_dbg : (s.bump).dbg = s.dbg := rfl
@[simp] theorem State.bump_sec : (s.bump).sec = s.sec := rfl
@[simp] theorem State.bump_finds : (s.bump).finds = s.finds := rfl

@[simp] theorem State.send_pending (o : Out) : (s.send o).pending = s.pending := rfl
@[simp] theorem State.send_free (o : Out) : (s.send o).free = s.free := rfl
@[simp] theorem State.send_regs (o : Out) : (s.send o).regs = s.regs := rfl
@[simp] theorem State.send_held (o : Out) : (s.send o).held = s.held := rfl
@[simp] theorem State.send_mem (o : Out) : (s.send o).mem = s.mem := rfl
@[simp] theorem State.send_lines (o : Out) : (s.send o).lines = s.lines := rfl
@[simp] theorem State.send_hostMem (o : Out) : (s.send o).hostMem = s.hostMem := rfl
@[simp] theorem State.send_int (o : Out) : (s.send o).int = s.int := rfl
@[simp] theorem State.send_fol (o : Out) : (s.send o).fol = s.fol := rfl
@[simp] theorem State.send_obj (o : Out) : (s.send o).obj = s.obj := rfl
@[simp] theorem State.send_cmd (o : Out) : (s.send o).cmd = s.cmd := rfl
@[simp] theorem State.send_syn (o : Out) : (s.send o).syn = s.syn := rfl
@[simp] theorem State.send_thr (o : Out) : (s.send o).thr = s.thr := rfl
@[simp] theorem State.send_mx (o : Out) : (s.send o).mx = s.mx := rfl
@[simp] theorem State.send_stk (o : Out) : (s.send o).stk = s.stk := rfl
@[simp] theorem State.send_coh (o : Out) : (s.send o).coh = s.coh := rfl
@[simp] theorem State.send_xlt (o : Out) : (s.send o).xlt = s.xlt := rfl
@[simp] theorem State.send_fab (o : Out) : (s.send o).fab = s.fab := rfl
@[simp] theorem State.send_rcv (o : Out) : (s.send o).rcv = s.rcv := rfl
@[simp] theorem State.send_rst (o : Out) : (s.send o).rst = s.rst := rfl
@[simp] theorem State.send_pwr (o : Out) : (s.send o).pwr = s.pwr := rfl
@[simp] theorem State.send_tal (o : Out) : (s.send o).tal = s.tal := rfl
@[simp] theorem State.send_dbg (o : Out) : (s.send o).dbg = s.dbg := rfl
@[simp] theorem State.send_sec (o : Out) : (s.send o).sec = s.sec := rfl
@[simp] theorem State.send_finds (o : Out) : (s.send o).finds = s.finds := rfl

@[simp] theorem State.wrHost_pending (a : Nat) (bs : List Byte) : (s.wrHost a bs).pending = s.pending := rfl
@[simp] theorem State.wrHost_free (a : Nat) (bs : List Byte) : (s.wrHost a bs).free = s.free := rfl
@[simp] theorem State.wrHost_regs (a : Nat) (bs : List Byte) : (s.wrHost a bs).regs = s.regs := rfl
@[simp] theorem State.wrHost_held (a : Nat) (bs : List Byte) : (s.wrHost a bs).held = s.held := rfl
@[simp] theorem State.wrHost_out (a : Nat) (bs : List Byte) : (s.wrHost a bs).out = s.out := rfl
@[simp] theorem State.wrHost_mem (a : Nat) (bs : List Byte) : (s.wrHost a bs).mem = s.mem := rfl
@[simp] theorem State.wrHost_lines (a : Nat) (bs : List Byte) : (s.wrHost a bs).lines = s.lines := rfl
@[simp] theorem State.wrHost_int (a : Nat) (bs : List Byte) : (s.wrHost a bs).int = s.int := rfl
@[simp] theorem State.wrHost_fol (a : Nat) (bs : List Byte) : (s.wrHost a bs).fol = s.fol := rfl
@[simp] theorem State.wrHost_obj (a : Nat) (bs : List Byte) : (s.wrHost a bs).obj = s.obj := rfl
@[simp] theorem State.wrHost_cmd (a : Nat) (bs : List Byte) : (s.wrHost a bs).cmd = s.cmd := rfl
@[simp] theorem State.wrHost_syn (a : Nat) (bs : List Byte) : (s.wrHost a bs).syn = s.syn := rfl
@[simp] theorem State.wrHost_thr (a : Nat) (bs : List Byte) : (s.wrHost a bs).thr = s.thr := rfl
@[simp] theorem State.wrHost_mx (a : Nat) (bs : List Byte) : (s.wrHost a bs).mx = s.mx := rfl
@[simp] theorem State.wrHost_stk (a : Nat) (bs : List Byte) : (s.wrHost a bs).stk = s.stk := rfl
@[simp] theorem State.wrHost_coh (a : Nat) (bs : List Byte) : (s.wrHost a bs).coh = s.coh := rfl
@[simp] theorem State.wrHost_xlt (a : Nat) (bs : List Byte) : (s.wrHost a bs).xlt = s.xlt := rfl
@[simp] theorem State.wrHost_fab (a : Nat) (bs : List Byte) : (s.wrHost a bs).fab = s.fab := rfl
@[simp] theorem State.wrHost_rcv (a : Nat) (bs : List Byte) : (s.wrHost a bs).rcv = s.rcv := rfl
@[simp] theorem State.wrHost_rst (a : Nat) (bs : List Byte) : (s.wrHost a bs).rst = s.rst := rfl
@[simp] theorem State.wrHost_pwr (a : Nat) (bs : List Byte) : (s.wrHost a bs).pwr = s.pwr := rfl
@[simp] theorem State.wrHost_tal (a : Nat) (bs : List Byte) : (s.wrHost a bs).tal = s.tal := rfl
@[simp] theorem State.wrHost_dbg (a : Nat) (bs : List Byte) : (s.wrHost a bs).dbg = s.dbg := rfl
@[simp] theorem State.wrHost_sec (a : Nat) (bs : List Byte) : (s.wrHost a bs).sec = s.sec := rfl
@[simp] theorem State.wrHost_finds (a : Nat) (bs : List Byte) : (s.wrHost a bs).finds = s.finds := rfl

@[simp] theorem State.setPoison_pending (ln : Nat) (p : Poison) : (s.setPoison ln p).pending = s.pending := rfl
@[simp] theorem State.setPoison_free (ln : Nat) (p : Poison) : (s.setPoison ln p).free = s.free := rfl
@[simp] theorem State.setPoison_regs (ln : Nat) (p : Poison) : (s.setPoison ln p).regs = s.regs := rfl
@[simp] theorem State.setPoison_held (ln : Nat) (p : Poison) : (s.setPoison ln p).held = s.held := rfl
@[simp] theorem State.setPoison_out (ln : Nat) (p : Poison) : (s.setPoison ln p).out = s.out := rfl
@[simp] theorem State.setPoison_mem (ln : Nat) (p : Poison) : (s.setPoison ln p).mem = s.mem := rfl
@[simp] theorem State.setPoison_hostMem (ln : Nat) (p : Poison) : (s.setPoison ln p).hostMem = s.hostMem := rfl
@[simp] theorem State.setPoison_int (ln : Nat) (p : Poison) : (s.setPoison ln p).int = s.int := rfl
@[simp] theorem State.setPoison_fol (ln : Nat) (p : Poison) : (s.setPoison ln p).fol = s.fol := rfl
@[simp] theorem State.setPoison_obj (ln : Nat) (p : Poison) : (s.setPoison ln p).obj = s.obj := rfl
@[simp] theorem State.setPoison_cmd (ln : Nat) (p : Poison) : (s.setPoison ln p).cmd = s.cmd := rfl
@[simp] theorem State.setPoison_syn (ln : Nat) (p : Poison) : (s.setPoison ln p).syn = s.syn := rfl
@[simp] theorem State.setPoison_thr (ln : Nat) (p : Poison) : (s.setPoison ln p).thr = s.thr := rfl
@[simp] theorem State.setPoison_mx (ln : Nat) (p : Poison) : (s.setPoison ln p).mx = s.mx := rfl
@[simp] theorem State.setPoison_stk (ln : Nat) (p : Poison) : (s.setPoison ln p).stk = s.stk := rfl
@[simp] theorem State.setPoison_coh (ln : Nat) (p : Poison) : (s.setPoison ln p).coh = s.coh := rfl
@[simp] theorem State.setPoison_xlt (ln : Nat) (p : Poison) : (s.setPoison ln p).xlt = s.xlt := rfl
@[simp] theorem State.setPoison_fab (ln : Nat) (p : Poison) : (s.setPoison ln p).fab = s.fab := rfl
@[simp] theorem State.setPoison_rcv (ln : Nat) (p : Poison) : (s.setPoison ln p).rcv = s.rcv := rfl
@[simp] theorem State.setPoison_rst (ln : Nat) (p : Poison) : (s.setPoison ln p).rst = s.rst := rfl
@[simp] theorem State.setPoison_pwr (ln : Nat) (p : Poison) : (s.setPoison ln p).pwr = s.pwr := rfl
@[simp] theorem State.setPoison_tal (ln : Nat) (p : Poison) : (s.setPoison ln p).tal = s.tal := rfl
@[simp] theorem State.setPoison_dbg (ln : Nat) (p : Poison) : (s.setPoison ln p).dbg = s.dbg := rfl
@[simp] theorem State.setPoison_sec (ln : Nat) (p : Poison) : (s.setPoison ln p).sec = s.sec := rfl
@[simp] theorem State.setPoison_finds (ln : Nat) (p : Poison) : (s.setPoison ln p).finds = s.finds := rfl

@[simp] theorem State.bump_free : s.bump.free = s.free + 1 := rfl
@[simp] theorem State.send_out (o : Out) : (s.send o).out = s.out ++ [o] := rfl

/-! ### Errors that the checks find (log 93) -/

/-- With no error to be found, no check finds one. -/
@[simp] theorem State.takeFind_nil (u : FUnit) (h : s.finds = []) : s.takeFind u = none := by simp [State.takeFind, h]

/-- What a check finds is taken from the list, and nothing else changes. -/
theorem State.takeFind_some (u : FUnit) (f : Found) (t : State) (h : s.takeFind u = some (f, t)) :
    (u, f) ∈ s.finds ∧ t = { s with finds := s.finds.erase (u, f) } := by
  simp only [State.takeFind, Option.map_eq_some_iff] at h
  obtain ⟨e, he, hf⟩ := h
  have hm := List.mem_of_find?_eq_some he
  have hu : e.1 = u := by simpa using List.find?_some he
  obtain ⟨rfl, rfl⟩ := Prod.mk.inj hf
  subst hu
  exact ⟨hm, rfl⟩

end Sys2Proof.Machine
end

