-- ==== Sys2Proof/Laws/Registers.lean ====
section
/-! SUPPORT. Laws of the register aperture: what a field reads after a field is written. -/

namespace Sys2Proof.Machine

theorem State.reg_setReg_self (s : State) (r : Reg) (i j : Nat) (v : W64) : (s.setReg r i j v).reg r i j = v := by
  simp [State.reg, State.setReg, aget_aput_self]

theorem State.reg_setReg_ne (s : State) (r r' : Reg) (i j i' j' : Nat) (v : W64) (h : (r, i, j) ≠ (r', i', j')) :
    (s.setReg r i j v).reg r' i' j' = s.reg r' i' j' := by
  have hk : (⟨r, i, j⟩ : RegKey) ≠ ⟨r', i', j'⟩ := by
    intro e; injection e with a b c; exact h (by simp [a, b, c])
  simp [State.reg, State.setReg, aget_aput_ne _ _ hk]

/-- Bits `[lo + wid - 1 : lo]` of a number after they are replaced. -/
theorem bitsOf_insNat_self (x lo wid v : Nat) : bitsOf (insNat x lo wid v) lo wid = v % 2 ^ wid := by
  have h2 : 0 < 2 ^ lo := Nat.two_pow_pos lo
  have hx : x % 2 ^ lo < 2 ^ lo := Nat.mod_lt _ h2
  have e : insNat x lo wid v = 2 ^ lo * (2 ^ wid * (x / 2 ^ (lo + wid)) + v % 2 ^ wid) + x % 2 ^ lo := by
    unfold insNat; rw [pow_add]; ring
  unfold bitsOf
  rw [e, Nat.shiftRight_eq_div_pow, Nat.mul_add_div h2, Nat.div_eq_of_lt hx, Nat.add_zero, Nat.mul_add_mod, Nat.mod_mod]

theorem insNat_lt (x lo wid v n : Nat) (hx : x < 2 ^ n) (h : lo + wid ≤ n) : insNat x lo wid v < 2 ^ n := by
  obtain ⟨k, rfl⟩ := Nat.exists_eq_add_of_le h
  have h1 : x / 2 ^ (lo + wid) < 2 ^ k := by
    rw [Nat.div_lt_iff_lt_mul (Nat.two_pow_pos _), ← pow_add, Nat.add_comm k]; exact hx
  have h2 : v % 2 ^ wid < 2 ^ wid := Nat.mod_lt _ (Nat.two_pow_pos _)
  have h3 : x % 2 ^ lo < 2 ^ lo := Nat.mod_lt _ (Nat.two_pow_pos _)
  unfold insNat
  generalize x / 2 ^ (lo + wid) = q at *
  generalize v % 2 ^ wid = r at *
  generalize x % 2 ^ lo = t at *
  rw [pow_add 2 (lo + wid) k, pow_add 2 lo wid]
  generalize 2 ^ lo = a at *
  generalize 2 ^ wid = b at *
  generalize 2 ^ k = c at *
  have a1 : (q + 1) * (a * b) ≤ c * (a * b) := Nat.mul_le_mul_right _ h1
  have a2 : (r + 1) * a ≤ b * a := Nat.mul_le_mul_right _ h2
  nlinarith [a1, a2, h3]

/-- A field that the device writes reads as the value written, cut to its width. -/
theorem State.rd_wr_self (s : State) (f : Fld) (v i j : Nat) (h : f.lo + f.wid ≤ 64) :
    (s.wr f v i j).rd f i j = v % 2 ^ f.wid := by
  have hlt := insNat_lt (s.reg f.reg i j).toNat f.lo f.wid v 64 (s.reg f.reg i j).isLt h
  simp only [State.rd, State.wr, State.reg_setReg_self, BitVec.toNat_ofNat, Nat.mod_eq_of_lt hlt, bitsOf_insNat_self]

/-- A field of another register keeps its value. -/
theorem State.rd_wr_ne (s : State) (f g : Fld) (v i j i' j' : Nat) (h : (f.reg, i, j) ≠ (g.reg, i', j')) :
    (s.wr f v i j).rd g i' j' = s.rd g i' j' := by
  simp [State.rd, State.wr, State.reg_setReg_ne _ _ _ _ _ _ _ _ h]

/-- Bits outside the replaced ones keep their value. -/
theorem testBit_insNat (x lo wid v k : Nat) (h : k < lo ∨ lo + wid ≤ k) : (insNat x lo wid v).testBit k = x.testBit k := by
  have h2 : 0 < 2 ^ lo := Nat.two_pow_pos lo
  have hx : x % 2 ^ lo < 2 ^ lo := Nat.mod_lt _ h2
  have hv : v % 2 ^ wid < 2 ^ wid := Nat.mod_lt _ (Nat.two_pow_pos _)
  have e : insNat x lo wid v = 2 ^ lo * (2 ^ wid * (x / 2 ^ (lo + wid)) + v % 2 ^ wid) + x % 2 ^ lo := by
    unfold insNat; rw [pow_add]; ring
  rw [e, Nat.testBit_two_pow_mul_add _ hx]
  rcases h with h | h
  · simp [h, Nat.testBit_mod_two_pow]
  · have hk : ¬ k < lo := by omega
    rw [if_neg hk, Nat.testBit_two_pow_mul_add _ hv, if_neg (by omega), Nat.testBit_div_two_pow]
    congr 1; omega

/-- Another field of the same register keeps its value. -/
theorem State.rd_wr_disjoint (s : State) (f g : Fld) (v i j : Nat) (hf : f.lo + f.wid ≤ 64)
    (hr : f.reg = g.reg) (h : g.lo + g.wid ≤ f.lo ∨ f.lo + f.wid ≤ g.lo) : (s.wr f v i j).rd g i j = s.rd g i j := by
  have hlt := insNat_lt (s.reg f.reg i j).toNat f.lo f.wid v 64 (s.reg f.reg i j).isLt hf
  obtain ⟨gr, gl, gw⟩ := g
  simp only at hr h
  subst hr
  simp only [State.rd, State.wr, State.reg_setReg_self, BitVec.toNat_ofNat, Nat.mod_eq_of_lt hlt]
  apply Nat.eq_of_testBit_eq
  intro k
  simp only [bitsOf, Nat.testBit_mod_two_pow, Nat.testBit_shiftRight]
  by_cases hk : k < gw
  · rw [testBit_insNat]
    omega
  · simp [hk]

end Sys2Proof.Machine
end

