-- ==== Sys2Proof/Laws/Interrupts.lean ====
section
/-! SUPPORT. What raising an interrupt source leaves as it was: everything but the interrupt registers, the latches, the request
levels and what is sent. -/

namespace Sys2Proof.Machine

/-- A fold of steps that each keep a projection keeps it. -/
theorem foldl_keeps {α β σ : Type} (f : σ → α → σ) (p : σ → β) (hf : ∀ s a, p (f s a) = p s) (l : List α) (s : σ) :
    p (l.foldl f s) = p s := by
  induction l generalizing s with
  | nil => rfl
  | cons a r ih => rw [List.foldl_cons, ih, hf]

variable (s : State)

@[simp] theorem State.syncLevel_pending (t : Nat) : (s.syncLevel t).pending = s.pending := by unfold State.syncLevel; split <;> rfl
@[simp] theorem State.syncLevel_free (t : Nat) : (s.syncLevel t).free = s.free := by unfold State.syncLevel; split <;> rfl
@[simp] theorem State.syncLevel_finds (t : Nat) : (s.syncLevel t).finds = s.finds := by unfold State.syncLevel; split <;> rfl
@[simp] theorem State.syncLevel_held (t : Nat) : (s.syncLevel t).held = s.held := by unfold State.syncLevel; split <;> rfl
@[simp] theorem State.syncLevel_mem (t : Nat) : (s.syncLevel t).mem = s.mem := by unfold State.syncLevel; split <;> rfl
@[simp] theorem State.syncLevel_lines (t : Nat) : (s.syncLevel t).lines = s.lines := by unfold State.syncLevel; split <;> rfl
@[simp] theorem State.syncLevel_hostMem (t : Nat) : (s.syncLevel t).hostMem = s.hostMem := by unfold State.syncLevel; split <;> rfl
@[simp] theorem State.syncLevel_fol (t : Nat) : (s.syncLevel t).fol = s.fol := by unfold State.syncLevel; split <;> rfl
@[simp] theorem State.syncLevel_obj (t : Nat) : (s.syncLevel t).obj = s.obj := by unfold State.syncLevel; split <;> rfl
@[simp] theorem State.syncLevel_cmd (t : Nat) : (s.syncLevel t).cmd = s.cmd := by unfold State.syncLevel; split <;> rfl
@[simp] theorem State.syncLevel_syn (t : Nat) : (s.syncLevel t).syn = s.syn := by unfold State.syncLevel; split <;> rfl
@[simp] theorem State.syncLevel_thr (t : Nat) : (s.syncLevel t).thr = s.thr := by unfold State.syncLevel; split <;> rfl
@[simp] theorem State.syncLevel_mx (t : Nat) : (s.syncLevel t).mx = s.mx := by unfold State.syncLevel; split <;> rfl
@[simp] theorem State.syncLevel_stk (t : Nat) : (s.syncLevel t).stk = s.stk := by unfold State.syncLevel; split <;> rfl
@[simp] theorem State.syncLevel_coh (t : Nat) : (s.syncLevel t).coh = s.coh := by unfold State.syncLevel; split <;> rfl
@[simp] theorem State.syncLevel_xlt (t : Nat) : (s.syncLevel t).xlt = s.xlt := by unfold State.syncLevel; split <;> rfl
@[simp] theorem State.syncLevel_fab (t : Nat) : (s.syncLevel t).fab = s.fab := by unfold State.syncLevel; split <;> rfl
@[simp] theorem State.syncLevel_rcv (t : Nat) : (s.syncLevel t).rcv = s.rcv := by unfold State.syncLevel; split <;> rfl
@[simp] theorem State.syncLevel_rst (t : Nat) : (s.syncLevel t).rst = s.rst := by unfold State.syncLevel; split <;> rfl
@[simp] theorem State.syncLevel_pwr (t : Nat) : (s.syncLevel t).pwr = s.pwr := by unfold State.syncLevel; split <;> rfl
@[simp] theorem State.syncLevel_tal (t : Nat) : (s.syncLevel t).tal = s.tal := by unfold State.syncLevel; split <;> rfl
@[simp] theorem State.syncLevel_dbg (t : Nat) : (s.syncLevel t).dbg = s.dbg := by unfold State.syncLevel; split <;> rfl
@[simp] theorem State.syncLevel_sec (t : Nat) : (s.syncLevel t).sec = s.sec := by unfold State.syncLevel; split <;> rfl
@[simp] theorem State.syncLevel_regs (t : Nat) : (s.syncLevel t).regs = s.regs := by unfold State.syncLevel; split <;> rfl

@[simp] theorem State.syncLevels_pending : s.syncLevels.pending = s.pending := foldl_keeps _ (fun s : State => s.pending) State.syncLevel_pending _ _
@[simp] theorem State.syncLevels_free : s.syncLevels.free = s.free := foldl_keeps _ (fun s : State => s.free) State.syncLevel_free _ _
@[simp] theorem State.syncLevels_finds : s.syncLevels.finds = s.finds := foldl_keeps _ (fun s : State => s.finds) State.syncLevel_finds _ _
@[simp] theorem State.syncLevels_held : s.syncLevels.held = s.held := foldl_keeps _ (fun s : State => s.held) State.syncLevel_held _ _
@[simp] theorem State.syncLevels_mem : s.syncLevels.mem = s.mem := foldl_keeps _ (fun s : State => s.mem) State.syncLevel_mem _ _
@[simp] theorem State.syncLevels_lines : s.syncLevels.lines = s.lines := foldl_keeps _ (fun s : State => s.lines) State.syncLevel_lines _ _
@[simp] theorem State.syncLevels_hostMem : s.syncLevels.hostMem = s.hostMem := foldl_keeps _ (fun s : State => s.hostMem) State.syncLevel_hostMem _ _
@[simp] theorem State.syncLevels_fol : s.syncLevels.fol = s.fol := foldl_keeps _ (fun s : State => s.fol) State.syncLevel_fol _ _
@[simp] theorem State.syncLevels_obj : s.syncLevels.obj = s.obj := foldl_keeps _ (fun s : State => s.obj) State.syncLevel_obj _ _
@[simp] theorem State.syncLevels_cmd : s.syncLevels.cmd = s.cmd := foldl_keeps _ (fun s : State => s.cmd) State.syncLevel_cmd _ _
@[simp] theorem State.syncLevels_syn : s.syncLevels.syn = s.syn := foldl_keeps _ (fun s : State => s.syn) State.syncLevel_syn _ _
@[simp] theorem State.syncLevels_thr : s.syncLevels.thr = s.thr := foldl_keeps _ (fun s : State => s.thr) State.syncLevel_thr _ _
@[simp] theorem State.syncLevels_mx : s.syncLevels.mx = s.mx := foldl_keeps _ (fun s : State => s.mx) State.syncLevel_mx _ _
@[simp] theorem State.syncLevels_stk : s.syncLevels.stk = s.stk := foldl_keeps _ (fun s : State => s.stk) State.syncLevel_stk _ _
@[simp] theorem State.syncLevels_coh : s.syncLevels.coh = s.coh := foldl_keeps _ (fun s : State => s.coh) State.syncLevel_coh _ _
@[simp] theorem State.syncLevels_xlt : s.syncLevels.xlt = s.xlt := foldl_keeps _ (fun s : State => s.xlt) State.syncLevel_xlt _ _
@[simp] theorem State.syncLevels_fab : s.syncLevels.fab = s.fab := foldl_keeps _ (fun s : State => s.fab) State.syncLevel_fab _ _
@[simp] theorem State.syncLevels_rcv : s.syncLevels.rcv = s.rcv := foldl_keeps _ (fun s : State => s.rcv) State.syncLevel_rcv _ _
@[simp] theorem State.syncLevels_rst : s.syncLevels.rst = s.rst := foldl_keeps _ (fun s : State => s.rst) State.syncLevel_rst _ _
@[simp] theorem State.syncLevels_pwr : s.syncLevels.pwr = s.pwr := foldl_keeps _ (fun s : State => s.pwr) State.syncLevel_pwr _ _
@[simp] theorem State.syncLevels_tal : s.syncLevels.tal = s.tal := foldl_keeps _ (fun s : State => s.tal) State.syncLevel_tal _ _
@[simp] theorem State.syncLevels_dbg : s.syncLevels.dbg = s.dbg := foldl_keeps _ (fun s : State => s.dbg) State.syncLevel_dbg _ _
@[simp] theorem State.syncLevels_sec : s.syncLevels.sec = s.sec := foldl_keeps _ (fun s : State => s.sec) State.syncLevel_sec _ _
@[simp] theorem State.syncLevels_regs : s.syncLevels.regs = s.regs := foldl_keeps _ (fun s : State => s.regs) State.syncLevel_regs _ _

@[simp] theorem State.caught_pending (n : Nat) : (s.caught n).pending = s.pending := by simp [State.caught]
@[simp] theorem State.caught_free (n : Nat) : (s.caught n).free = s.free := by simp [State.caught]
@[simp] theorem State.caught_finds (n : Nat) : (s.caught n).finds = s.finds := by simp [State.caught]
@[simp] theorem State.caught_held (n : Nat) : (s.caught n).held = s.held := by simp [State.caught]
@[simp] theorem State.caught_mem (n : Nat) : (s.caught n).mem = s.mem := by simp [State.caught]
@[simp] theorem State.caught_lines (n : Nat) : (s.caught n).lines = s.lines := by simp [State.caught]
@[simp] theorem State.caught_hostMem (n : Nat) : (s.caught n).hostMem = s.hostMem := by simp [State.caught]
@[simp] theorem State.caught_fol (n : Nat) : (s.caught n).fol = s.fol := by simp [State.caught]
@[simp] theorem State.caught_obj (n : Nat) : (s.caught n).obj = s.obj := by simp [State.caught]
@[simp] theorem State.caught_cmd (n : Nat) : (s.caught n).cmd = s.cmd := by simp [State.caught]
@[simp] theorem State.caught_syn (n : Nat) : (s.caught n).syn = s.syn := by simp [State.caught]
@[simp] theorem State.caught_thr (n : Nat) : (s.caught n).thr = s.thr := by simp [State.caught]
@[simp] theorem State.caught_mx (n : Nat) : (s.caught n).mx = s.mx := by simp [State.caught]
@[simp] theorem State.caught_stk (n : Nat) : (s.caught n).stk = s.stk := by simp [State.caught]
@[simp] theorem State.caught_coh (n : Nat) : (s.caught n).coh = s.coh := by simp [State.caught]
@[simp] theorem State.caught_xlt (n : Nat) : (s.caught n).xlt = s.xlt := by simp [State.caught]
@[simp] theorem State.caught_fab (n : Nat) : (s.caught n).fab = s.fab := by simp [State.caught]
@[simp] theorem State.caught_rcv (n : Nat) : (s.caught n).rcv = s.rcv := by simp [State.caught]
@[simp] theorem State.caught_rst (n : Nat) : (s.caught n).rst = s.rst := by simp [State.caught]
@[simp] theorem State.caught_pwr (n : Nat) : (s.caught n).pwr = s.pwr := by simp [State.caught]
@[simp] theorem State.caught_tal (n : Nat) : (s.caught n).tal = s.tal := by simp [State.caught]
@[simp] theorem State.caught_dbg (n : Nat) : (s.caught n).dbg = s.dbg := by simp [State.caught]
@[simp] theorem State.caught_sec (n : Nat) : (s.caught n).sec = s.sec := by simp [State.caught]

@[simp] theorem State.raise_pending (n : Nat) : (s.raise n).pending = s.pending := by
  unfold State.raise; split
  · rfl
  · split <;> simp
@[simp] theorem State.raise_free (n : Nat) : (s.raise n).free = s.free := by
  unfold State.raise; split
  · rfl
  · split <;> simp
@[simp] theorem State.raise_finds (n : Nat) : (s.raise n).finds = s.finds := by
  unfold State.raise; split
  · rfl
  · split <;> simp
@[simp] theorem State.raise_held (n : Nat) : (s.raise n).held = s.held := by
  unfold State.raise; split
  · rfl
  · split <;> simp
@[simp] theorem State.raise_mem (n : Nat) : (s.raise n).mem = s.mem := by
  unfold State.raise; split
  · rfl
  · split <;> simp
@[simp] theorem State.raise_lines (n : Nat) : (s.raise n).lines = s.lines := by
  unfold State.raise; split
  · rfl
  · split <;> simp
@[simp] theorem State.raise_hostMem (n : Nat) : (s.raise n).hostMem = s.hostMem := by
  unfold State.raise; split
  · rfl
  · split <;> simp
@[simp] theorem State.raise_fol (n : Nat) : (s.raise n).fol = s.fol := by
  unfold State.raise; split
  · rfl
  · split <;> simp
@[simp] theorem State.raise_obj (n : Nat) : (s.raise n).obj = s.obj := by
  unfold State.raise; split
  · rfl
  · split <;> simp
@[simp] theorem State.raise_cmd (n : Nat) : (s.raise n).cmd = s.cmd := by
  unfold State.raise; split
  · rfl
  · split <;> simp
@[simp] theorem State.raise_syn (n : Nat) : (s.raise n).syn = s.syn := by
  unfold State.raise; split
  · rfl
  · split <;> simp
@[simp] theorem State.raise_thr (n : Nat) : (s.raise n).thr = s.thr := by
  unfold State.raise; split
  · rfl
  · split <;> simp
@[simp] theorem State.raise_mx (n : Nat) : (s.raise n).mx = s.mx := by
  unfold State.raise; split
  · rfl
  · split <;> simp
@[simp] theorem State.raise_stk (n : Nat) : (s.raise n).stk = s.stk := by
  unfold State.raise; split
  · rfl
  · split <;> simp
@[simp] theorem State.raise_coh (n : Nat) : (s.raise n).coh = s.coh := by
  unfold State.raise; split
  · rfl
  · split <;> simp
@[simp] theorem State.raise_xlt (n : Nat) : (s.raise n).xlt = s.xlt := by
  unfold State.raise; split
  · rfl
  · split <;> simp
@[simp] theorem State.raise_fab (n : Nat) : (s.raise n).fab = s.fab := by
  unfold State.raise; split
  · rfl
  · split <;> simp
@[simp] theorem State.raise_rcv (n : Nat) : (s.raise n).rcv = s.rcv := by
  unfold State.raise; split
  · rfl
  · split <;> simp
@[simp] theorem State.raise_rst (n : Nat) : (s.raise n).rst = s.rst := by
  unfold State.raise; split
  · rfl
  · split <;> simp
@[simp] theorem State.raise_pwr (n : Nat) : (s.raise n).pwr = s.pwr := by
  unfold State.raise; split
  · rfl
  · split <;> simp
@[simp] theorem State.raise_tal (n : Nat) : (s.raise n).tal = s.tal := by
  unfold State.raise; split
  · rfl
  · split <;> simp
@[simp] theorem State.raise_dbg (n : Nat) : (s.raise n).dbg = s.dbg := by
  unfold State.raise; split
  · rfl
  · split <;> simp
@[simp] theorem State.raise_sec (n : Nat) : (s.raise n).sec = s.sec := by
  unfold State.raise; split
  · rfl
  · split <;> simp

@[simp] theorem State.syncLevels_rd (f : Fld) (i j : Nat) : s.syncLevels.rd f i j = s.rd f i j := by
  simp [State.rd, State.reg]

/-- A source raised leaves every register but its own control register and its island's. -/
theorem State.rd_raise (n : Nat) (f : Fld) (i j : Nat) (h1 : f.reg ≠ .INT_SRC_CTL) (h2 : f.reg ≠ .INT_ISL) :
    (s.raise n).rd f i j = s.rd f i j := by
  have a1 : ∀ (s : State) v i' j', (s.wr F.INT_SRC_CTL_PEND v i' j').rd f i j = s.rd f i j := fun s v i' j' =>
    s.rd_wr_ne _ _ _ _ _ _ _ (by intro e; injection e with e; exact h1 e.symm)
  have a2 : ∀ (s : State) v i' j', (s.wr F.INT_ISL_WAKING v i' j').rd f i j = s.rd f i j := fun s v i' j' =>
    s.rd_wr_ne _ _ _ _ _ _ _ (by intro e; injection e with e; exact h2 e.symm)
  have a3 : ∀ (s : State) v i' j', (s.wr F.INT_ISL_CAUGHT v i' j').rd f i j = s.rd f i j := fun s v i' j' =>
    s.rd_wr_ne _ _ _ _ _ _ _ (by intro e; injection e with e; exact h2 e.symm)
  unfold State.raise
  split
  · rfl
  · split
    · simp only [State.caught, State.incSat, a2, a3]; rfl
    · rw [State.syncLevels_rd, a1]

end Sys2Proof.Machine
end

