-- ==== Sys2Proof/Laws/Coh.lean ====
section
/-! SUPPORT. What an access of an agent through a cluster cache can do: it sends messages, moves lines of caches and counts; memory and
the work of contexts stay as they were. -/

namespace Sys2Proof.Machine

/-- Memory, what it holds beside data, and the work of contexts are as they were. -/
def State.SameWork (s t : State) : Prop :=
  t.mem = s.mem ∧ t.lines = s.lines ∧ t.hostMem = s.hostMem ∧ t.fol = s.fol ∧ t.obj = s.obj ∧ t.cmd = s.cmd ∧ t.syn = s.syn ∧
    t.thr = s.thr ∧ t.mx = s.mx ∧ t.stk = s.stk ∧ t.xlt = s.xlt ∧ t.pending = s.pending ∧ t.finds = s.finds

theorem State.SameWork.rfl' (s : State) : s.SameWork s := by simp [State.SameWork]

theorem State.SameWork.trans {a b c : State} (h : a.SameWork b) (k : b.SameWork c) : a.SameWork c := by
  obtain ⟨h1, h2, h3, h4, h5, h6, h7, h8, h9, h10, h11, h12, h13⟩ := h
  obtain ⟨k1, k2, k3, k4, k5, k6, k7, k8, k9, k10, k11, k12, k13⟩ := k
  exact ⟨k1.trans h1, k2.trans h2, k3.trans h3, k4.trans h4, k5.trans h5, k6.trans h6, k7.trans h7, k8.trans h8, k9.trans h9,
    k10.trans h10, k11.trans h11, k12.trans h12, k13.trans h13⟩

/-- A fold of steps that each leave the work as it was. -/
theorem State.SameWork.foldl {α : Type} (f : State → α → State) (h : ∀ (s : State) (a : α), s.SameWork (f s a)) (l : List α) (s : State) :
    s.SameWork (l.foldl f s) := by
  induction l generalizing s with
  | nil => exact State.SameWork.rfl' s
  | cons a l ih => exact (h s a).trans (ih _)

theorem State.sameWork_wr (s : State) (f : Fld) (v i j : Nat) : s.SameWork (s.wr f v i j) := by simp [State.SameWork]

theorem State.sameWork_inc (s : State) (f : Fld) (i j : Nat) : s.SameWork (s.inc f i j) := by simp [State.SameWork]

theorem State.sameWork_raise (s : State) (n : Nat) : s.SameWork (s.raise n) := by simp [State.SameWork]

theorem State.sameWork_bump (s : State) : s.SameWork s.bump := by simp [State.SameWork]

theorem State.sameWork_coh (s : State) (c : CohSt) : s.SameWork { s with coh := c } := State.SameWork.rfl' s

theorem State.sameWork_tal (s : State) (t : TalSt) : s.SameWork { s with tal := t } := State.SameWork.rfl' s

theorem State.sameWork_setCc (s : State) (cl ln : Nat) (x : CcLine) : s.SameWork (s.setCc cl ln x) := State.SameWork.rfl' s

theorem State.sameWork_delCc (s : State) (cl ln : Nat) : s.SameWork (s.delCc cl ln) := State.SameWork.rfl' s

theorem State.sameWork_msgA (s : State) (core ln : Nat) (m : AMsg) : s.SameWork (s.msgA core ln m) := State.SameWork.rfl' s

theorem State.sameWork_sendB (s : State) (m : BMsg) : s.SameWork (s.sendB m) := by
  unfold State.sendB; split <;> exact State.SameWork.rfl' s

/-- Either branch of a choice. -/
theorem State.SameWork.ite {s a b : State} (c : Prop) [Decidable c] (h : s.SameWork a) (k : s.SameWork b) :
    s.SameWork (if c then a else b) := by split <;> assumption

theorem State.sameWork_ledBusy (s : State) (d : Nat) : s.SameWork (s.ledBusy d) := State.sameWork_wr _ _ _ _ _

theorem State.sameWork_ledFire (s : State) (d : Nat) : s.SameWork (s.ledFire d) := by
  unfold State.ledFire
  simp only
  refine State.SameWork.ite _ (State.SameWork.rfl' s) ?_
  refine State.SameWork.trans ((State.sameWork_bump s).trans (State.sameWork_wr _ F.LED_TRIG_ARMED 0 d 0))
    (State.SameWork.ite _ (State.SameWork.rfl' _) ?_)
  refine State.SameWork.trans ((State.sameWork_tal _ _).trans (State.sameWork_ledBusy _ _)) (State.SameWork.ite _ ?_ (State.SameWork.rfl' _))
  exact (State.sameWork_wr _ _ _ _ _).trans (State.sameWork_raise _ _)

theorem State.sameWork_counterWrap (s : State) (d i j : Nat) : s.SameWork (s.counterWrap d i j) := by
  unfold State.counterWrap
  extract_lets n s1 l s2 s3
  have h1 : s.SameWork s1 := (State.sameWork_inc s F.TAL_CNT_WRAP n j).trans (State.sameWork_wr _ F.TAL_CTL_OVF _ n 0)
  have h2 : s1.SameWork s2 := State.sameWork_tal s1 _
  have h3 : s2.SameWork s3 := State.SameWork.ite _ (State.sameWork_raise s2 (0x310 + d)) (State.SameWork.rfl' s2)
  have h4 := State.SameWork.ite (s3.rd F.LED_TRIG_SRC d == 1 && s3.rd F.LED_TRIG_SET d == i && s3.rd F.LED_TRIG_CTR d == j)
    (State.sameWork_ledFire s3 d) (State.SameWork.rfl' s3)
  exact ((h1.trans h2).trans h3).trans h4

theorem State.sameWork_addCount (s : State) (d i j v : Nat) : s.SameWork (s.addCount d i j v) := by
  unfold State.addCount
  exact State.SameWork.ite _ ((State.sameWork_wr _ _ _ _ _).trans (State.sameWork_counterWrap _ _ _ _)) (State.sameWork_wr _ _ _ _ _)

theorem State.sameWork_edgeCount (s : State) (n j v : Nat) : s.SameWork (s.edgeCount n j v).1 := by
  unfold State.edgeCount
  split
  · exact State.SameWork.rfl' s
  · split
    · exact State.sameWork_bump s
    · exact State.sameWork_tal s _

/-- A counted event changes counters, flags and what a wrap fires. -/
theorem State.sameWork_tally (s : State) (d i code v : Nat) (e : Ev) : s.SameWork (s.tally d i code v e) := by
  unfold State.tally
  simp only
  refine State.SameWork.ite _ (State.SameWork.rfl' s) ?_
  have h : ∀ (b : Bool) (x : TalSt), s.SameWork (if b = true then { s with tal := x } else s) := by
    intro b x; cases b <;> exact State.SameWork.rfl' s
  exact (h _ _).trans (State.SameWork.foldl _ (fun s j => (State.sameWork_edgeCount _ _ _ _).trans (State.sameWork_addCount _ _ _ _ _)) _ _)

theorem State.sameWork_tallyCc (s : State) (cl code cls : Nat) : s.SameWork (s.tallyCc cl code cls) := State.sameWork_tally _ _ _ _ _ _

theorem State.sameWork_looked (s : State) (cl cls : Nat) (x : CcLine) : s.SameWork (s.looked cl cls x) := by
  unfold State.looked; split
  · exact State.SameWork.rfl' s
  · exact State.sameWork_tallyCc _ _ _ _

theorem State.sameWork_sendInvs (s : State) (cl ln : Nat) (p : BitVec 8) (b : Option Nat) : s.SameWork (s.sendInvs cl ln p b) := by
  unfold State.sendInvs
  refine State.SameWork.foldl _ (fun s c => ?_) _ _
  simp only
  split <;> split <;> exact State.SameWork.rfl' _

theorem State.sameWork_takeBack (s : State) (cl ln : Nat) (x : CcLine) : s.SameWork (s.takeBack cl ln x).1 := by
  unfold State.takeBack
  simp only
  refine State.SameWork.trans ?_ (State.sameWork_sendInvs _ _ _ _ _)
  split
  · exact State.SameWork.rfl' s
  · split <;> exact State.SameWork.rfl' s

theorem State.sameWork_evictCc (s : State) (cl ln cls : Nat) : s.SameWork (s.evictCc cl ln cls) := by
  unfold State.evictCc
  split
  · exact State.SameWork.rfl' s
  · rename_i x _
    have h := State.sameWork_takeBack s cl ln x
    revert h
    generalize s.takeBack cl ln x = p
    obtain ⟨t, dirty⟩ := p
    intro h
    simp only
    split
    · exact h.trans (State.sameWork_delCc _ _ _)
    · split
      · exact h
      · exact h.trans (State.sameWork_tallyCc _ _ _ _)

theorem State.sameWork_ccWay {s t : State} {cl ln cls w : Nat} (h : s.ccWay cl ln cls = some (t, w)) : s.SameWork t := by
  unfold State.ccWay at h
  split at h
  · simp only [Option.some.injEq, Prod.mk.injEq] at h
    obtain ⟨rfl, _⟩ := h
    exact State.SameWork.rfl' s
  · cases h
  · split at h
    · cases h
    · simp only [Option.some.injEq, Prod.mk.injEq] at h
      obtain ⟨rfl, _⟩ := h
      exact State.SameWork.trans (State.sameWork_coh s _) (State.sameWork_evictCc _ _ _ _)

theorem State.sameWork_fillWaits (s : State) (cl ln cls : Nat) : s.SameWork (s.fillWaits cl ln cls) := by
  unfold State.fillWaits
  split
  · refine State.SameWork.trans ?_ (State.sameWork_tallyCc _ _ _ _)
    simp [State.SameWork, State.incSat]
  · exact State.SameWork.rfl' s

theorem State.sameWork_ccFilled (s : State) (cl cls age : Nat) : s.SameWork (s.ccFilled cl cls age) := by
  unfold State.ccFilled
  simp only
  split
  · exact (State.sameWork_tallyCc _ _ _ _).trans (State.sameWork_tallyCc _ _ _ _)
  · exact State.sameWork_tallyCc _ _ _ _

theorem State.ccFound_nil (s : State) (cl ln : Nat) (h : s.finds = []) : s.ccFound cl ln .none = s := by
  simp [State.ccFound, State.takeFind_nil, h]

/-- An agent's access through a cluster cache whose check finds no error, served or not. -/
theorem State.sameWork_ccAsk (s : State) (cl cls ln : Nat) (w : Bool) (h : s.finds = []) : s.SameWork (s.ccAsk cl cls ln w).1 := by
  unfold State.ccAsk
  simp only [State.ccFound_nil s cl ln h]
  split
  · split
    · exact State.SameWork.rfl' s
    · split
      · exact State.sameWork_fillWaits _ _ _ _
      · rename_i h
        refine (State.sameWork_ccWay h).trans (State.SameWork.trans ?_ (State.sameWork_sendB _ _))
        exact (State.sameWork_coh _ _).trans ((State.sameWork_tallyCc _ _ _ _).trans ((State.sameWork_ccFilled _ _ _ _).trans
          (State.sameWork_setCc _ _ _ _)))
  · split
    · exact State.SameWork.rfl' s
    · split
      · split
        · exact (State.sameWork_looked _ _ _ _).trans (State.sameWork_setCc _ _ _ _)
        · exact State.SameWork.rfl' s
      · split
        · exact (State.sameWork_looked _ _ _ _).trans (State.sameWork_setCc _ _ _ _)
        · split
          · exact (State.sameWork_looked _ _ _ _).trans ((State.sameWork_sendInvs _ _ _ _ _).trans (State.sameWork_setCc _ _ _ _))
          · exact (State.sameWork_looked _ _ _ _).trans ((State.sameWork_sendInvs _ _ _ _ _).trans
              ((State.sameWork_setCc _ _ _ _).trans (State.sameWork_sendB _ _)))

/-- What leaves the work as it was leaves no error to find where there was none. -/
theorem State.SameWork.finds {s t : State} (h : s.SameWork t) (k : s.finds = []) : t.finds = [] := by
  obtain ⟨-, -, -, -, -, -, -, -, -, -, -, -, h⟩ := h
  exact h.trans k

theorem State.sameWork_ccAskAll (cl cls : Nat) (w : Bool) (l : List Nat) (s : State) (h : s.finds = []) :
    s.SameWork (s.ccAskAll cl cls l w).1 := by
  have H : ∀ (l : List Nat) (s : State) (b : Bool), s.finds = [] → s.SameWork
      (l.foldl (fun (p : State × Bool) ln => ((p.1.ccAsk cl cls ln w).1, p.2 && (p.1.ccAsk cl cls ln w).2)) (s, b)).1 := by
    intro l
    induction l with
    | nil => exact fun s _ _ => State.SameWork.rfl' s
    | cons a l ih => exact fun s b h =>
        (State.sameWork_ccAsk s cl cls a w h).trans (ih _ _ ((State.sameWork_ccAsk s cl cls a w h).finds h))
  exact H l s true h

/-- The access of a die-level agent through its service cluster's cache (09_caches.md R196), whose check finds no error. -/
theorem State.sameWork_svcAsk (s : State) (c die cls : Nat) (l : List Nat) (w : Bool) (h : s.finds = []) :
    s.SameWork (s.svcAsk c die cls l w).1 := by
  unfold State.svcAsk
  split
  · exact State.SameWork.rfl' s
  · split
    · exact State.SameWork.rfl' s
    · split
      · exact State.sameWork_ccAskAll _ _ _ _ _ h
      · unfold State.svcWake
        split
        · exact State.SameWork.rfl' s
        · exact State.SameWork.ite _ (State.sameWork_wr _ _ _ _ _) (State.SameWork.rfl' s)

end Sys2Proof.Machine
end

