-- ==== Sys2Proof/Laws/Flits.lean ====
section
/-! SUPPORT. Laws of little-endian numbers and of flits. -/

namespace Sys2Proof.Machine
open Sys2Proof
/-- Bytes written little-endian and read again. -/
theorem leBytes_leNat (l : List Byte) : leBytes l.length (leNat l) = l := by
  induction l with
  | nil => rfl
  | cons b r ih =>
    have h : b.toNat < 256 := b.isLt
    have h1 : (b.toNat + 256 * leNat r) / 256 = leNat r := by omega
    have h2 : BitVec.ofNat 8 (b.toNat + 256 * leNat r) = b := by
      apply BitVec.eq_of_toNat_eq; rw [BitVec.toNat_ofNat]; omega
    simp only [List.length_cons, leNat, leBytes, h1, h2, ih]

theorem leNat_lt (l : List Byte) : leNat l < 256 ^ l.length := by
  induction l with
  | nil => simp [leNat]
  | cons b r ih =>
    have h : b.toNat < 256 := b.isLt
    simp only [leNat, List.length_cons, pow_succ]; omega

theorem length_leBytes (n x : Nat) : (leBytes n x).length = n := by
  induction n generalizing x with
  | zero => rfl
  | succ n ih => simp [leBytes, ih]

theorem leNat_leBytes (n x : Nat) : leNat (leBytes n x) = x % 256 ^ n := by
  induction n generalizing x with
  | zero => simp [leBytes, leNat, Nat.mod_one]
  | succ n ih =>
    have h : (BitVec.ofNat 8 x).toNat = x % 256 := BitVec.toNat_ofNat x 8
    rw [leBytes, leNat, ih, h, pow_succ, Nat.mul_comm (256 ^ n) 256, Nat.mod_mul]

/-- What a flit holds ahead of its CRC (16_yorin_fabric.md Table 16.2). -/
def flitHead (seq kind ack nak vc cred first : Nat) (payload : List Byte) : List Byte :=
  leBytes 2 (seq % 4096 + kind * 4096) ++ leBytes 2 (ack % 4096 + nak * 4096) ++ leBytes 1 vc ++ leBytes 1 cred
    ++ leBytes 1 first ++ leBytes 1 0 ++ (payload ++ List.replicate (240 - payload.length) 0)

theorem length_flitHead (seq kind ack nak vc cred first : Nat) (payload : List Byte) (h : payload.length ≤ 240) :
    (flitHead seq kind ack nak vc cred first payload).length = 248 := by
  simp only [flitHead, List.length_append, length_leBytes, List.length_replicate]; omega

/-- The bytes of a flit: what stands ahead of its CRC, and the CRC of that. -/
theorem bytes_mkFlit (seq kind ack nak vc cred first : Nat) (payload : List Byte) (h : payload.length ≤ 240) :
    leBytes 256 (mkFlit seq kind ack nak vc cred first payload).toNat =
      flitHead seq kind ack nak vc cred first payload ++
        leBytes 8 (crc64 (flitHead seq kind ack nak vc cred first payload)).toNat := by
  have e : mkFlit seq kind ack nak vc cred first payload = BitVec.ofNat 2048 (leNat (flitHead seq kind ack nak vc cred first payload ++
      leBytes 8 (crc64 (flitHead seq kind ack nak vc cred first payload)).toNat)) := rfl
  have hl := length_flitHead seq kind ack nak vc cred first payload h
  rw [e]
  generalize flitHead seq kind ack nak vc cred first payload = l at *
  have h2 : (l ++ leBytes 8 (crc64 l).toNat).length = 256 := by rw [List.length_append, hl, length_leBytes]
  have h3 := leNat_lt (l ++ leBytes 8 (crc64 l).toNat)
  have h4 := leBytes_leNat (l ++ leBytes 8 (crc64 l).toNat)
  rw [h2] at h3 h4
  rw [BitVec.toNat_ofNat, Nat.mod_eq_of_lt (lt_of_lt_of_eq h3 ((pow_mul 2 8 256).symm)), h4]

/-- A flit as it is built passes its CRC. -/
theorem crc_mkFlit (seq kind ack nak vc cred first : Nat) (payload : List Byte) (h : payload.length ≤ 240) :
    leAt (leBytes 256 (mkFlit seq kind ack nak vc cred first payload).toNat) 248 8 =
      (crc64 ((leBytes 256 (mkFlit seq kind ack nak vc cred first payload).toNat).take 248)).toNat := by
  have hl := length_flitHead seq kind ack nak vc cred first payload h
  rw [bytes_mkFlit _ _ _ _ _ _ _ _ h]
  generalize flitHead seq kind ack nak vc cred first payload = l at *
  rw [leAt, ← hl, List.drop_left, List.take_left, List.take_of_length_le (by rw [length_leBytes]), leNat_leBytes]
  exact Nat.mod_eq_of_lt (lt_of_lt_of_eq (crc64 l).isLt (by norm_num))
end Sys2Proof.Machine
end

