-- ==== Sys2Proof/Laws/Memory.lean ====
section
/-! SUPPORT. Laws of memory: every operation keeps the canonical form, and what a byte reads after bytes are put. -/

namespace Sys2Proof.Machine

theorem putBytes_wf (m : List Host.Cell) (pa : Nat) (l : List Byte) (h : Memory.wf m = true) :
    Memory.wf (putBytes m pa l) = true := by
  induction l generalizing m pa with
  | nil => exact h
  | cons b r ih => exact ih _ _ (rising_mput m pa b h)

/-- A byte outside those put keeps its value. -/
theorem mget_putBytes_outside (m : List Host.Cell) (pa a : Nat) (l : List Byte) (h : a < pa ∨ pa + l.length ≤ a) :
    mget (putBytes m pa l) a = mget m a := by
  induction l generalizing m pa with
  | nil => rfl
  | cons b r ih =>
    simp only [List.length_cons] at h
    rw [putBytes, ih _ _ (by omega), mget_mput_ne]
    omega

/-- A byte put reads as it was put. -/
theorem mget_putBytes_inside (m : List Host.Cell) (pa i : Nat) (l : List Byte) (h : i < l.length) :
    mget (putBytes m pa l) (pa + i) = some l[i] := by
  induction l generalizing m pa i with
  | nil => simp at h
  | cons b r ih =>
    cases i with
    | zero =>
      rw [putBytes, mget_putBytes_outside _ _ _ _ (by omega)]
      simp [mget_mput_self]
    | succ i =>
      rw [putBytes, show pa + (i + 1) = pa + 1 + i by omega, ih _ _ _ (by simpa using h)]
      simp

theorem maskBytes_wf (mask : BitVec 128) (data : Line) (m : List Host.Cell) (ln n : Nat) (h : Memory.wf m = true) :
    Memory.wf (maskBytes mask data m ln n) = true := by
  induction n with
  | zero => exact h
  | succ n ih =>
    simp only [maskBytes]
    split
    · exact rising_mput _ _ _ ih
    · exact ih

theorem State.memFor_wf (s : State) (k ln : Nat) (h : Memory.wf s.mem = true) : Memory.wf (s.memFor k ln) = true := by
  unfold State.memFor
  split
  · split
    · exact h
    · exact rising_filter _ _ h
  · exact h

theorem State.setPoison_canonical (s : State) (ln : Nat) (p : Poison) (h : s.canonical) : (s.setPoison ln p).canonical :=
  ⟨h.1, h.2.1, rising_mput _ _ _ h.2.2⟩

theorem State.wrHost_canonical (s : State) (a : Nat) (bs : List Byte) (h : s.canonical) : (s.wrHost a bs).canonical :=
  ⟨h.1, putBytes_wf _ _ _ h.2.1, h.2.2⟩

theorem State.wrLine_canonical (s : State) (k ln off : Nat) (bs : List Byte) (h : s.canonical) :
    (s.wrLine k ln off bs).canonical := by
  unfold State.wrLine
  split
  · exact h
  · exact ⟨putBytes_wf _ _ _ (s.memFor_wf k ln h.1), h.2.1, rising_mput _ _ _ h.2.2⟩

theorem State.wrLines_canonical (k n : Nat) (s : State) (pa : Nat) (bs : List Byte) (h : s.canonical) :
    (State.wrLines k n s pa bs).canonical := by
  induction n generalizing s pa bs with
  | zero => exact h
  | succ n ih =>
    simp only [State.wrLines]
    split
    · exact h
    · exact ih _ _ _ (s.wrLine_canonical _ _ _ _ h)

theorem State.wrBytes_canonical (s : State) (k pa : Nat) (bs : List Byte) (h : s.canonical) :
    (s.wrBytes k pa bs).canonical := State.wrLines_canonical _ _ _ _ _ h

theorem State.wrNat_canonical (s : State) (k pa n v : Nat) (h : s.canonical) : (s.wrNat k pa n v).canonical :=
  s.wrBytes_canonical _ _ _ h

theorem State.wrMask_canonical (s : State) (k ln : Nat) (mask : BitVec 128) (data : Line) (h : s.canonical) :
    (s.wrMask k ln mask data).canonical := by
  unfold State.wrMask
  split
  · exact h
  · exact ⟨maskBytes_wf _ _ _ _ _ (s.memFor_wf k ln h.1), h.2.1, rising_mput _ _ _ h.2.2⟩

theorem State.wr_canonical (s : State) (f : Fld) (v i j : Nat) (h : s.canonical) : (s.wr f v i j).canonical := h

theorem State.syncLevel_same (s : State) (t : Nat) : SameMemory s (s.syncLevel t) := by
  unfold State.syncLevel SameMemory; split <;> simp

theorem State.foldl_same {α : Type} (f : State → α → State) (hf : ∀ s a, SameMemory s (f s a)) (l : List α) (s : State) :
    SameMemory s (l.foldl f s) := by
  induction l generalizing s with
  | nil => exact ⟨rfl, rfl, rfl⟩
  | cons a r ih =>
    have h1 := hf s a
    have h2 := ih (f s a)
    exact ⟨h2.1.trans h1.1, h2.2.1.trans h1.2.1, h2.2.2.trans h1.2.2⟩

theorem State.syncLevels_same (s : State) : SameMemory s s.syncLevels :=
  State.foldl_same _ (fun s a => s.syncLevel_same a) _ _

/-- Raising a source leaves memory as it was. -/
theorem State.raise_same (s : State) (n : Nat) : SameMemory s (s.raise n) := by
  unfold State.raise
  split
  · exact ⟨rfl, rfl, rfl⟩
  · split
    · unfold State.caught SameMemory; simp
    · have h := State.syncLevels_same (s.wr F.INT_SRC_CTL_PEND 1 n)
      simpa [SameMemory] using h

theorem SameMemory.canonical {s t : State} (h : SameMemory s t) (hs : s.canonical) : t.canonical := by
  unfold State.canonical at *
  rw [h.1, h.2.1, h.2.2]; exact hs

end Sys2Proof.Machine
end

