-- ==== Sys2Proof/Laws/Sync.lean ====
section
/-! SUPPORT. What an owning unit's access to the sync store can do (14_synchronisation.md R294). -/

namespace Sys2Proof.Machine

/-- The access to an object's line leaves memory, the objects and the commands as they were. -/
theorem State.sameWork_syncAsk (s : State) (o : Bool × Nat) (h : s.finds = []) : s.SameWork (s.syncAsk o).1 := by
  unfold State.syncAsk
  split
  · exact State.SameWork.rfl' s
  · exact State.sameWork_svcAsk _ _ _ _ _ _ h

theorem State.sameWork_syncAskAll (l : List (Bool × Nat)) (s : State) (h : s.finds = []) : s.SameWork (s.syncAskAll l).1 := by
  have H : ∀ (l : List (Bool × Nat)) (s : State) (b : Bool), s.finds = [] → s.SameWork
      (l.foldl (fun (p : State × Bool) o => ((p.1.syncAsk o).1, p.2 && (p.1.syncAsk o).2)) (s, b)).1 := by
    intro l
    induction l with
    | nil => exact fun s _ _ => State.SameWork.rfl' s
    | cons a l ih => exact fun s b h => (State.sameWork_syncAsk s a h).trans (ih _ _ ((State.sameWork_syncAsk s a h).finds h))
  exact H l s true h

/-- An operation on an object acts on what its line's access leaves, or waits; no check of the cache has an error to find. -/
theorem State.withSync_cases (s : State) (o : Bool × Nat) (f : State → State) (h : s.finds = []) :
    ∃ u, s.SameWork u ∧ ((s.syncAsk o = (u, true) ∧ s.withSync o f = f u) ∨ (s.syncAsk o = (u, false) ∧ s.withSync o f = u)) := by
  have h := State.sameWork_syncAsk s o h
  unfold State.withSync
  generalize s.syncAsk o = p at h ⊢
  obtain ⟨u, b⟩ := p
  cases b
  · exact ⟨u, h, Or.inr ⟨rfl, rfl⟩⟩
  · exact ⟨u, h, Or.inl ⟨rfl, rfl⟩⟩

end Sys2Proof.Machine
end

