-- ==== Sys2Proof/Tests/Slice0.lean ====
section
/-! SUPPORT. Tests: ill-formed commands refused, and for each statement with hypotheses a state and operands that meet them. -/

namespace Sys2Proof.Machine.Tests

set_option Elab.async false

open Sys2Proof Sys2Proof.Machine

/-- The module after its release, READY, with the structure of the boot ROM's folio. -/
def readyState : State :=
  let s := State.reset.wr F.RST_CAUSE_READY 1
  { s with rst := { s.rst with asserted := false, step := 11 }, fol := { s.fol with cur := safeFolio } }

/-- A started launch of context 1. -/
def tcid : CmdId := ⟨1, 0, 0⟩
def tcmd : Cmd :=
  ⟨0, List.replicate 64 0, .started, [], none, none, none, false, 1, 0, [], [], false, false, .idle, false, false, false, false, false,
    false, false, none, false, 0, 0, [], false⟩

/-- Its block on core 0 with `n` granules of scratch, both engines and groups of 32 threads in slots 0 and 1. -/
def tblk (n : Nat) : Block := ⟨tcid, 0, 0, [0, 1], List.range n, true, true, none, true, false⟩
def tgrp (k : Nat) : Group := freshGroup 0 k k 64 0 [2 * k, 2 * k + 1]
def g0 : Gid := ⟨0, 0⟩
def g1 : Gid := ⟨0, 1⟩

/-- A state in which group 0 of a block is `x` and group 1, if there is one, is `y`. -/
def running (x : Group) (y : Option Group) : State :=
  let s := readyState.wr F.CTX_STAT_STATE ctxLive 1
  { s with
    thr := { s.thr with blocks := [(0, tblk 1)], groups := [(g0, x)] ++ (match y with | some y => [(g1, y)] | none => []), serial := 1 }
    mx := { s.mx with eng := [(⟨0, 0⟩, freshEngine 0), (⟨0, 1⟩, freshEngine 0)] }
    cmd := { s.cmd with cmds := [(tcid, tcmd)] } }

theorem wit_StepRunsFront : ({ State.reset with pending := [.powerGoodFall] } : State).pending = .powerGoodFall :: [] ∧
    State.reset.pending = [] := by decide +kernel

theorem wit_StepKeepsCanonical : ∃ t, State.reset.canonical ∧ step State.reset = .next t :=
  ⟨State.reset, by unfold State.canonical; decide, rfl⟩

theorem wit_BytesWrittenAreRead :
    let s := State.reset.wrBytes 3 256 [1, 2]
    let bs : List Byte := [7, 8, 9]
    (∀ ln ∈ linesOf 382 bs.length, s.tripped ln = false ∧ s.linePoison ln = .none) ∧ 4 ∉ linesOf 382 bs.length ∧
    ∃ m, mget s.lines (256 / 128) = some m ∧ m.wser = s.keySer 3 := by
  refine ⟨by decide +kernel, by decide +kernel, ⟨.none, 3⟩, by decide +kernel, by decide⟩

theorem wit_PoisonedLineKeepsItsKind : State.reset.tripped 5 = false ∧ (List.replicate 128 (3 : Byte)).length = 128 ∧
    (State.reset.setPoison 5 .poison).linePoison 5 ≠ .none ∧ ([1] : List Byte).length < 128 ∧ (1 : BitVec 128) ≠ BitVec.allOnes 128 := by
  decide +kernel

theorem wit_FieldWritten : F.INT_SRC_CTL_PEND.lo + F.INT_SRC_CTL_PEND.wid ≤ 64 ∧
    (F.INT_SRC_CTL_PEND.reg, 3, 0) ≠ (F.INT_ERR_EOI.reg, 0, 0) ∧ F.INT_SRC_CTL_PEND.reg = F.INT_SRC_CTL_EN.reg ∧
    (F.INT_SRC_CTL_EN.lo + F.INT_SRC_CTL_EN.wid ≤ F.INT_SRC_CTL_PEND.lo
      ∨ F.INT_SRC_CTL_PEND.lo + F.INT_SRC_CTL_PEND.wid ≤ F.INT_SRC_CTL_EN.lo) := by decide +kernel

theorem wit_InterruptEvents :
    State.reset.srcMuted 0x022 = false ∧ State.reset.on F.INT_ISL_STOPPED (srcHome 0x022) = false ∧
    State.reset.srcMuted (0x600 + (5 : Byte).toNat) = false ∧
    State.reset.on F.INT_ISL_STOPPED (srcHome (0x600 + (5 : Byte).toNat)) = false ∧
    (State.reset.wr F.INT_ISL_STOPPED 1 0).srcMuted 0x022 = false ∧
    (State.reset.wr F.INT_ISL_STOPPED 1 0).on F.INT_ISL_STOPPED (srcHome 0x022) = true := by decide +kernel

/-- Source 0x022 pending, with its mask at the reset targets and EN set. -/
def intPending : State := (State.reset.wr F.INT_SRC_CTL_EN 1 0x022).wr F.INT_SRC_CTL_PEND 1 0x022

theorem wit_ClaimTakesTheBestSource : intPending.best 0 = some 0x022 ∧ State.reset.best 0 = none := by decide +kernel

theorem wit_EndOfInterrupt :
    let a := (State.reset.wr F.INT_SRC_CTL_ACTIVE 1 7).wr F.INT_SRC_CTL_CLAIMER 80 7
    let d : State := { State.reset with int := { State.reset.int with dropped := [(7, 3)] } }
    (a.on F.INT_SRC_CTL_ACTIVE 7 = true ∧ a.rd F.INT_SRC_CTL_CLAIMER 7 = 80) ∧
    (State.reset.on F.INT_SRC_CTL_ACTIVE 7 = false ∧ (7, 3) ∉ State.reset.int.dropped ∧ State.reset.on F.INT_ERR_PERMIT = false
      ∧ State.reset.on F.INT_ERR_EOI = false) ∧
    (d.on F.INT_SRC_CTL_ACTIVE 7 = false ∧ (7, 3) ∈ d.int.dropped) := by decide +kernel

theorem wit_TargetMaskCommit :
    let a : State := { State.reset with int := { State.reset.int with staged := [(5, 3#64)] } }
    aget a.int.staged 5 = some 3#64 ∧
    BitVec.ofNat 128 ((3#64).toNat + (0#17).toNat * 2 ^ 64) &&& ~~~ (a.wr F.INT_SRC_CTL_OWNER 0x1F 5).permit 5 = 0 ∧
    BitVec.ofNat 128 ((3#64).toNat + (0#17).toNat * 2 ^ 64) &&& ~~~ (a.wr F.INT_SRC_CTL_OWNER 4 5).permit 5 ≠ 0 := by decide +kernel

theorem wit_LevelsFollowOffers : ∃ t, (∀ k < 81, State.reset.int.high.getLsbD k = State.reset.level k) ∧
    exec (.intEvent 0x022) State.reset = .next t := ⟨_, by decide +kernel, rfl⟩

/-- A load in a phase, of the safe folio's own map. -/
def folioAt (ph : Nat) : State :=
  let s := State.reset.wr F.FOLIO_STAT_PHASE ph
  { s with fol := { s.fol with cur := safeFolio, next := some safeFolio, persist := true, boot := some false } }

theorem wit_FolioLoad :
    (folioAt 1).rd F.FOLIO_STAT_PHASE ≠ phIdle ∧ State.reset.rd F.FOLIO_STAT_PHASE = phIdle ∧
    ((folioAt phVerify).rd F.FOLIO_STAT_PHASE = phVerify ∧
      (((folioAt phVerify).setPoison 0 .poison).folioCheck ((folioAt phVerify).setPoison 0 .poison).staged = (feFetch, []))) ∧
    ((folioAt phDrain).rd F.FOLIO_STAT_PHASE = phDrain ∧ (folioAt phDrain).fol.next = some safeFolio ∧ (folioAt phDrain).fol.force = false
      ∧ (folioAt phDrain).affectedCtxs safeFolio = []) ∧
    ((folioAt phSwitch).rd F.FOLIO_STAT_PHASE = phSwitch ∧ (folioAt phSwitch).fol.persist = true
      ∧ (folioAt phSwitch).affectedCtxs safeFolio = [] ∧ safeFolio.clusters = (folioAt phSwitch).fol.cur.clusters
      ∧ (folioAt phSwitch).fol.quarAt = [] ∧ safeFolio.raise = false) ∧
    ((folioAt phPersist).rd F.FOLIO_STAT_PHASE = phPersist ∧ (folioAt phPersist).sec.writing = 0
      ∧ (folioAt phPersist).fol.boot = some false) := by decide +kernel

/-- A context of partition 0, live, with a folio to come that changes its partition. -/
def folioBusy : State :=
  let s := (folioAt phDrain).wr F.CTX_STAT_STATE ctxLive 3
  { s with obj := { s.obj with ctxs := [(3, ⟨0, 0, none, false⟩)] }, fol := { s.fol with next := some Folio.none } }

theorem wit_FolioLoad_busy : folioBusy.rd F.FOLIO_STAT_PHASE = phDrain ∧ folioBusy.fol.next = some Folio.none ∧
    folioBusy.fol.force = false ∧ folioBusy.affectedCtxs Folio.none ≠ [] := by decide +kernel

theorem wit_RuntimeAdjustment :
    let s := ((readyState.wr F.QOS_ADJ_MIN 1 2 0).wr F.QOS_ADJ_MAX 255 2 0).wr F.WAY_ADJ_PERMIT 1 0 7
    (s.partDef 0).isSome = true ∧ (s.wr F.FOLIO_STAT_PHASE phSwitch).rd F.FOLIO_STAT_PHASE = phSwitch ∧
    ((s.wr F.FOLIO_STAT_PHASE phSwitch).partDef 0).isSome = true ∧ s.rd F.FOLIO_STAT_PHASE ≠ phSwitch ∧
    (s.rd F.QOS_ADJ_MIN 2 0 ≤ (255 : Byte).toNat ∧ (255 : Byte).toNat ≤ s.rd F.QOS_ADJ_MAX 2 0 ∧
      ((s.fol.cur.defs.filter (fun e => e.1 != 0)).map (fun e => s.rd F.QOS_ADJ_SHARE 2 e.1)).sum + (255 : Byte).toNat ≤ 256) ∧
    (0 : Byte).toNat < s.rd F.QOS_ADJ_MIN 2 0 ∧ (1 : BitVec 16) ≠ 0 ∧
    (1 : BitVec 16) &&& ~~~ BitVec.ofNat 16 (s.rd F.WAY_ADJ_PERMIT 0 7) = 0 := by decide +kernel

theorem wit_AccessCodes : (∀ f ∈ RegTable.XLT_PASID.fields, f.lo + f.wid ≤ 64 ∧ ¬ (f.lo ≤ 20 ∧ 20 < f.lo + f.wid)) ∧
    (⟨0, 20, .rw⟩ : Field).lo + (⟨0, 20, .rw⟩ : Field).wid ≤ 64 := by decide +kernel

theorem wit_RegisterWrites :
    let b := { readyState with regs := [] }
    let f := b.wr F.RST_CAUSE_FAIL_STEP 9
    readyState.moduleUp 7 = true ∧ 8 ≤ readyState.rst.step ∧ inRstWindow 0x23000 = true ∧ inRstWindow 0x24000 = false ∧
    (f.moduleUp 7 = true ∧ 8 ≤ f.rst.step ∧ f.bootFailed = true) ∧
    (b.moduleUp 0 = true ∧ 8 ≤ b.rst.step ∧ b.bootFailed = false ∧ b.hostReady = false) ∧
    (readyState.bootFailed = false ∧ readyState.hostReady = true ∧ readyState.held = [] ∧ readyState.moduleBusy 7 = false ∧
      readyState.asleep ⟨7, .reg 0x100C8 8 5⟩ = []) ∧
    readyState.connectorUp = true ∧ readyState.connectorReach 0x44000 = true ∧ readyState.connectorReach 0x10000 = false ∧
    readyState.moduleUp 8 = false ∧ State.reset.rst.step < 8 ∧
    ((readyState.wr F.DBG_LOCK_STATE 2).wr F.DBG_LOCK_FULL 1).connectorReach 0x100C8 = true := by decide +kernel

theorem wit_HostMemoryAccesses :
    let s := readyState
    (s.moduleUp 3 = true ∧ s.hostReady = true ∧ s.bootFailed = false ∧ 8 ≤ s.rst.step ∧ s.held = [] ∧ s.moduleBusy 3 = false ∧
      (List.replicate 128 (1 : Byte)).length = 128 ∧ 128 * 10000000000 - 128 + 128 ≤ stackTop ∧
      s.asleep ⟨3, .mem ⟨.wrF, 67, 9999999999, 3, false, 0, BitVec.allOnes 128, 0, [], 0, .none⟩⟩ = []) ∧
    (0 < 8 ∧ 1279999999992 % 128 + 8 ≤ 128 ∧ 1279999999992 + 8 ≤ stackTop ∧
      s.asleep ⟨3, .mem ⟨.rdN, 67, 1279999999992 / 128, 3, false, 0, 0, 0, [], 0, .none⟩⟩ = []) ∧
    stackTop < 1279999999993 + 8 ∧ (s.wr F.RST_CAUSE_FAIL_STEP 9).bootFailed = true ∧
    (s.wr F.RST_CAUSE_FAIL_STEP 9).moduleUp 3 = true ∧ s.moduleUp 8 = false ∧
    ({ s with coh := { s.coh with bn := [.rdData 67 5 .none 640 [1]] } } : State).coh.bn = [.rdData (64 + 3) 5 .none 640 [1]] ∧
    s.thr.ops = [] ∧ s.wayClear (64 + 3) (homeOf 5) := by
  refine ⟨by decide +kernel, by decide +kernel, by decide +kernel, by decide +kernel, by decide +kernel, by decide +kernel,
    by decide +kernel, by decide +kernel, ?_⟩
  unfold State.wayClear; decide +kernel

theorem wit_DebugTransactions :
    readyState.connectorUp = true ∧ 0x44004 % 8 ≠ 0 ∧ 0x10000 % 8 = 0 ∧ readyState.connectorReach 0x10000 = false ∧
    readyState.connectorReach 0x44000 = true ∧ readyState.rd F.DBG_LOCK_STATE ≠ 2 := by decide +kernel

/-- The release sequence with `n` steps done. -/
def bootAt (n : Nat) : State := { State.reset with rst := { State.reset.rst with asserted := false, step := n } }

theorem wit_ReleaseSteps :
    ((bootAt 8).rst.power = true ∧ (bootAt 8).rst.asserted = false ∧ (bootAt 8).rst.step < 11 ∧ (bootAt 8).held = []) ∧
    ((bootAt 7).rst.step = 7 ∧ (bootAt 7).rd F.RST_CAUSE_FAIL_STEP = 0 ∧ (bootAt 7).rd F.RST_CAUSE_READY = 0) ∧
    ((bootAt 10).rst.step = 10 ∧ (bootAt 10).rd F.RST_CAUSE_FAIL_STEP = 0) ∧
    readyState.dieIdle 3 = true ∧ (readyState.wr F.INT_ISL_STOPPED 1 3).on F.INT_ISL_STOPPED 3 = true ∧
    readyState.held = [] ∧ readyState.int.latch = [] := by decide +kernel

theorem wit_LaneResults : (running (tgrp 0) none).Issues g0 (tgrp 0) (tblk 1) tcmd [15, 3] ∧
    (running (tgrp 0) none).Issues g0 (tgrp 0) (tblk 1) tcmd (vecRegs .ffma 15 1 2 3) ∧
    (running (tgrp 0) none).Issues g0 (tgrp 0) (tblk 1) tcmd (vecRegs (.float .fma .b16) 15 1 2 3) ∧
    (running (tgrp 0) none).Issues g0 (tgrp 0) (tblk 1) tcmd (vecRegs (.double .fma) 14 0 2 4) ∧ 8 * (tgrp 0).pages.length ≤ 16 := by
  unfold State.Issues; decide +kernel

theorem wit_Votes : (running (tgrp 0) none).Issues g0 (tgrp 0) (tblk 1) tcmd [] ∧ 15 < 16 ∧
    (∀ l ∈ lanesOf (tgrp 0).active, ∃ h, (running (tgrp 0) none).group ⟨g0.core, (tgrp 0).homeSlot g0 l⟩ = some h ∧ h.preds.length = 32) := by
  refine ⟨by unfold State.Issues; decide +kernel, by decide, ?_⟩
  intro l hl
  refine ⟨tgrp 0, ?_, by decide +kernel⟩
  have : ∀ l ∈ lanesOf (tgrp 0).active, (running (tgrp 0) none).group ⟨g0.core, (tgrp 0).homeSlot g0 l⟩ = some (tgrp 0) := by
    decide +kernel
  exact this l hl

theorem wit_Exchanges : (running (tgrp 0) none).Issues g0 (tgrp 0) (tblk 1) tcmd [4, 5, 6] ∧ segOk 32 = true ∧ 31 < 32 ∧
    segOk 3 = false := by
  unfold State.Issues; decide +kernel

/-- Lanes 0 to 15 active, the others pending. -/
def half : Group := { tgrp 0 with active := 0xFFFF, stack := [⟨.pend, 0xFFFF0000, 7, 0, .grp⟩] }
/-- Predicate 0 true in lane 0. -/
def oneLane : Group := { tgrp 0 with preds := 1#16 :: List.replicate 31 0 }
/-- Predicate 0 true in every lane. -/
def allLanes : Group := { tgrp 0 with preds := List.replicate 32 1 }
/-- A full stack. -/
def deep : Group := { tgrp 0 with stack := List.replicate 32 ⟨.sync, 1, 0, 0, .grp⟩ }

theorem wit_MaskStack :
    ((running (tgrp 0) none).Issues g0 (tgrp 0) (tblk 1) tcmd [] ∧ (tgrp 0).stack.length < 32 ∧
      ∀ l ∈ lanesOf (tgrp 0).active, (running (tgrp 0) none).getPred g0 (tgrp 0) 0 l = false) ∧
    ((running deep none).Issues g0 deep (tblk 1) tcmd [] ∧ 32 ≤ deep.stack.length) ∧
    ((running allLanes none).Issues g0 allLanes (tblk 1) tcmd [] ∧ allLanes.active ≠ 0 ∧
      ∀ l ∈ lanesOf allLanes.active, (running allLanes none).getPred g0 allLanes 0 l = true) ∧
    ((running oneLane none).Issues g0 oneLane (tblk 1) tcmd [] ∧ (1 : Mask) ≠ 0 ∧ (1 : Mask) ≠ oneLane.active ∧
      ∀ l < 32, (1 : Mask).getLsbD l = (oneLane.active.getLsbD l && (running oneLane none).getPred g0 oneLane 0 l)) ∧
    ((running half none).Issues g0 half (tblk 1) tcmd [] ∧ half.stack = ⟨.pend, 0xFFFF0000, 7, 0, .grp⟩ :: [] ∧
      half.live &&& ~~~half.active ≠ 0 ∧ (running half none).remaining half.bid = [(g0, half)] ∧ (tblk 1).cohort = none ∧
      (running half none).thr.ops = []) := by
  unfold State.Issues
  refine ⟨?_, ?_, ?_, ?_, ?_⟩ <;> decide +kernel

theorem wit_Barriers :
    ((running half none).Issues g0 half (tblk 1) tcmd [] ∧ half.active ≠ half.live) ∧
    ((running (tgrp 0) (some (tgrp 1))).Issues g0 (tgrp 0) (tblk 1) tcmd [] ∧ (tgrp 0).active = (tgrp 0).live ∧
      (running (tgrp 0) (some (tgrp 1))).remaining 0 = [(g0, tgrp 0), (g1, tgrp 1)] ∧ g0 ≠ g1 ∧
      (running (tgrp 0) (some (tgrp 1))).thr.ops = [] ∧ (tblk 1).cohort = none ∧ (tgrp 1).wait = .ready) ∧
    (running (tgrp 0) (some { tgrp 1 with wait := .bar 15 })).Issues g0 (tgrp 0) (tblk 1) tcmd [] ∧
    (running (tgrp 0) (some { tgrp 1 with wait := .bar 15 })).remaining 0 = [(g0, tgrp 0), (g1, { tgrp 1 with wait := .bar 15 })] ∧
    (running (tgrp 0) (some { tgrp 1 with wait := .cbar 3 })).Issues g0 (tgrp 0) (tblk 1) tcmd [] ∧
    (running (tgrp 0) (some { tgrp 1 with wait := .cbar 3 })).remaining 0 = [(g0, tgrp 0), (g1, { tgrp 1 with wait := .cbar 3 })] := by
  unfold State.Issues; decide +kernel

/-- Lane 0 in a locked section of lanes 0 to 31. -/
def locked : Group := { tgrp 0 with active := 1, stack := [⟨.lock, 0xFFFFFFFF, 0, 1, .blk⟩] }

theorem wit_LockedSections :
    ((running (tgrp 0) none).Issues g0 (tgrp 0) (tblk 1) tcmd [3] ∧ (tgrp 0).stack = [] ∧ (running (tgrp 0) none).thr.ops = [] ∧
      (lanesOf (tgrp 0).active).head? = some 0 ∧
      (∀ l ∈ lanesOf (tgrp 0).active, (running (tgrp 0) none).laneAddr g0 (tgrp 0) .scr 3 l = 0) ∧
      (∀ i < 4, ((tblk 1).scrAddr (0 + i)).isSome = true) ∧ (running (tgrp 0) none).rdScr (tblk 1) 0 4 = 0) ∧
    (((running (tgrp 0) none).wrScr (tblk 1) 0 [5]).rdScr (tblk 1) 0 4 = 5 ∧ ∀ l < 32, 5 ≠ ownerWord g0 l) ∧
    ((running locked none).Issues g0 locked (tblk 1) tcmd [3] ∧ locked.active = laneBit 0 ∧
      ((running locked none).wrScr (tblk 1) 0 (leBytes 4 (ownerWord g0 0))).rdScr (tblk 1) 0 4 = ownerWord g0 0) ∧
    (running { tgrp 0 with wait := .backoff 64 } none).group g0 = some { tgrp 0 with wait := .backoff 64 } ∧
    (running { tgrp 0 with wait := .backoff 64 } none).block (tgrp 0).bid = some (tblk 1) ∧ (tblk 1).trapped = false := by
  unfold State.Issues; decide +kernel

/-- Lane 3 alone is live; and the same waiting at a regroup point. -/
def partLive : Group := { tgrp 0 with live := 8, active := 8 }
def atRegroup : Group := { partLive with wait := .regroup 0 0 100 }

theorem wit_RegroupPoints :
    ((running (tgrp 0) none).Issues g0 (tgrp 0) (tblk 1) tcmd [] ∧ (tgrp 0).stepping ≠ 1 ∧ (tgrp 0).live = BitVec.allOnes 32) ∧
    ((running partLive (some (tgrp 1))).Issues g0 partLive (tblk 1) tcmd [] ∧ partLive.stack = [] ∧ partLive.live ≠ BitVec.allOnes 32 ∧
      (running partLive (some (tgrp 1))).remaining 0 = [(g0, partLive), (g1, tgrp 1)] ∧ (tgrp 1).wait = .ready) ∧
    ((running atRegroup (some (tgrp 1))).remaining 0 = [(g0, atRegroup), (g1, tgrp 1)] ∧ atRegroup.wait = .regroup atRegroup.pc 0 100 ∧
      atRegroup.halt = 0 ∧ atRegroup.live ≠ 0 ∧ atRegroup.irt.length = 32 ∧ (∀ l ∈ lanesOf atRegroup.live, atRegroup.homeSlot g0 l = g0.slot) ∧
      (running atRegroup (some (tgrp 1))).cmdOf (tblk 1).cmd = some tcmd ∧ (tblk 1).trapped = false) := by
  unfold State.Issues; decide +kernel

/-- A launch of one block of 32 threads with 16 registers, not placed yet, and the module with core 5 on. -/
def lpkt : List Byte := [1] ++ List.replicate 39 0 ++ [1, 0, 0, 0, 32, 0, 16, 1] ++ List.replicate 16 0
def toPlace : State :=
  let s := ((readyState.wr F.CTX_STAT_STATE ctxLive 1).setDom domOn 512).setDom domOn 5
  { s with cmd := { s.cmd with cmds := [(tcid, { tcmd with pkt := lpkt, blocks := 0 })] }, obj := { s.obj with ctxs := [(1, ⟨0, 0, none, false⟩)] } }

theorem wit_BlocksComeAndGo_place :
    let c := { tcmd with pkt := lpkt, blocks := 0 }
    toPlace.cmdOf tcid = some c ∧ pkOp c.pkt = opLaunch ∧ c.ph = .started ∧ lnCohort c.pkt = 0 ∧ c.nextBlocks 1 = some ([0], false) ∧
    toPlace.ctxState tcid.ctx ≠ ctxSaved ∧ toPlace.isSaving tcid.ctx = false ∧ (∀ e ∈ toPlace.obj.saved, e.1 ≠ tcid.ctx) ∧ toPlace.dom 5 = domOn ∧ toPlace.dom (512 + 5 / 8) = domOn ∧
    ((toPlace.resizeL1 5 (lnSteps c.pkt)).map (fun s' => (s'.fits 5 tcid c.pkt, decide (s'.cmd = toPlace.cmd)))) = some (true, true) ∧
    toPlace.outranked [5] tcid c = false := by
  decide +kernel

def endedGroup : Group := { tgrp 0 with live := 0, active := 0 }

theorem wit_BlocksComeAndGo :
    ((running endedGroup none).block 0 = some (tblk 1) ∧ (running endedGroup none).cmdOf (tblk 1).cmd = some tcmd ∧
      (running endedGroup none).blockQuiet 0 = true ∧ (tblk 1).cohort = none ∧ (running endedGroup none).remaining 0 = [] ∧
      (tblk 1).trapped = false) ∧
    (((running (tgrp 0) none).setBlock 0 { tblk 1 with zeroed := false }).block 0 = some { tblk 1 with zeroed := false }) ∧
    (((running (tgrp 0) none).setBlock 0 { tblk 1 with trapped := true }).block 0 = some { tblk 1 with trapped := true } ∧
      ((running (tgrp 0) none).setBlock 0 { tblk 1 with trapped := true }).blockQuiet 0 = true) := by
  decide +kernel

/-- Lane 31 alone is active. -/
def lane31 : Group := { tgrp 0 with active := 0x80000000 }

theorem wit_ScratchAccesses :
    ((running (tgrp 0) none).Issues g0 (tgrp 0) (tblk 1) tcmd (regRun 15 1 ++ [3]) ∧ (running (tgrp 0) none).thr.ops = [] ∧
      (running (tgrp 0) none).remaining 0 = [(g0, tgrp 0)] ∧ (tblk 1).cohort = none ∧ (running (tgrp 0) none).invBlocked 0 = false ∧
      ∀ l ∈ lanesOf (tgrp 0).active, (running (tgrp 0) none).laneAddr g0 (tgrp 0) .scr 3 l % 4 = 0) ∧
    ((running lane31 none).Issues g0 lane31 (tblk 1) tcmd (regRun 15 1 ++ [3]) ∧ lane31.active = laneBit 31 ∧
      (running lane31 none).laneAddr g0 lane31 .scr 3 31 % 4 = 0 ∧ (∀ k ∈ (tblk 1).gran, k < 1024) ∧
      ((tblk 1).scrAddr ((running lane31 none).laneAddr g0 lane31 .scr 3 31)).isSome = true) ∧
    (((running lane31 none).putReg g0 lane31 3 31 2).Issues g0 lane31 (tblk 1) tcmd (regRun 15 1 ++ [3]) ∧
      31 ∈ lanesOf lane31.active ∧ ((running lane31 none).putReg g0 lane31 3 31 2).laneAddr g0 lane31 .scr 3 31 % 4 ≠ 0) := by
  unfold State.Issues; decide +kernel

theorem wit_ScratchAtomics : (running lane31 none).Issues g0 lane31 (tblk 1) tcmd [15, 3, 4, 5] ∧ atomBits .uint32 = 32 ∧
    atomLegal aAdd .uint32 = true ∧ atomLegal aCas .b32 = true ∧ (running lane31 none).remaining 0 = [(g0, lane31)] ∧
    (RedTy.f32 ≠ .bf16) := by
  unfold State.Issues; decide +kernel

/-- Lane 31 of context 1 with translation on, page 0 cached for reading and writing, and line 0 in M in the L1 of core 0. -/
def cached (x : Group) : State :=
  let s := (running x none).wr F.XLT_CTX_EN 1 1
  { s with
    xlt := { s.xlt with tlbs := [⟨.micro 0, 1, 0, 1, 0, true, true, true, false, [0], 0⟩] }
    coh := { s.coh with l1 := [(⟨0, 0⟩, ⟨.M, 0, false, none, false, false⟩)] } }

theorem wit_DeviceAccesses :
    let s := cached lane31
    let tl : Tlb := ⟨.micro 0, 1, 0, 1, 0, true, true, true, false, [0], 0⟩
    let ln : L1Line := ⟨.M, 0, false, none, false, false⟩
    (s.Issues g0 lane31 (tblk 1) tcmd (regRun 15 1 ++ [3, 3 + 1]) ∧ s.Issues g0 lane31 (tblk 1) tcmd [15, 3, 3 + 1] ∧ s.thr.ops = [] ∧
      s.remaining 0 = [(g0, lane31)]) ∧
    (s.laneAddr g0 lane31 .dev 3 31 = 0 ∧ s.on F.XLT_CTX_EN 1 = true ∧ s.on F.DBG_ATTACH_EN 1 = false ∧
      s.tlbHit (.micro 0) 1 0 = some tl ∧ permOk tl.r tl.w tl.a accWrite = true ∧ permOk tl.r tl.w tl.a accRead = true ∧
      permOk tl.r tl.w tl.a accRed = true ∧ tl.dirty.contains (0 / levelSize tl.level) = true) ∧
    (s.l1 0 0 = some ln ∧ ln.st.loads = true ∧ s.kindIn 0 0 = .none ∧ aget s.thr.streams 0 = none ∧
      s.coh.want = [] ∧ s.coh.aq = [] ∧ s.coh.ar = [] ∧ s.l1 0 1 = none ∧ s.ccLine 0 1 = none) ∧
    ((running lane31 none).wr F.XLT_CTX_EN 1 1).xlt.walks = [] ∧
    ((running lane31 none).wr F.XLT_CTX_EN 1 1).Issues g0 lane31 (tblk 1) tcmd (regRun 15 1 ++ [3, 3 + 1]) := by
  unfold State.Issues; decide +kernel

/-- Engine 0 with a full queue. -/
def fullEngine : Engine := { freshEngine 0 with queue := List.replicate 8 ⟨0, g0, tcid, 0, .ew 0 .f32 0 0 0 0 noDesc⟩ }

theorem wit_MatrixIssue :
    (lanesOf (tgrp 0).active).head? = some 0 ∧ (running (tgrp 0) none).engine ⟨g0.core, 0⟩ = some (freshEngine 0) ∧
    (freshEngine 0).bid = (tgrp 0).bid ∧ (running (tgrp 0) none).Issues g0 (tgrp 0) (tblk 1) tcmd (regRun 8 8) ∧
    (running (tgrp 0) none).tdescRsv g0 (tgrp 0) 8 0 = false ∧ (running (tgrp 0) none).Issues g0 (tgrp 0) (tblk 1) tcmd [14, 15] ∧
    (freshEngine 0).illegal (.ew 8 .f32 63 0 0 0 noDesc) = false ∧ (freshEngine 0).illegal (.ew 8 .f32 64 0 0 0 noDesc) = true ∧
    (freshEngine 0).queue.length < 8 ∧ 8 ≤ fullEngine.queue.length ∧ fullEngine.illegal (.ew 8 .f32 63 0 0 0 noDesc) = false ∧
    (freshEngine 0).illegal (.lds 1 ((running (tgrp 0) none).tdesc g0 (tgrp 0) 8 0)) = true := by
  unfold State.Issues; decide +kernel

/-- An element-wise instruction of group 0, queued and in the side port; and an MMA whose row 31 is in the array. -/
def ewIns (op : Nat) : MxIns := ⟨0, g0, tcid, 0, .ew op .f32 63 62 0 0 noDesc⟩
def mmaIns : MxIns := ⟨1, g0, tcid, 0, .mma true 0 63 0 ⟨false, 0, 64, 32, 0, 1, false, false, 0, 0⟩⟩
def mmaRun (n : Nat) (rows : List (Nat × List Byte × List Byte)) : MxRun := ⟨mmaIns, ⟨some 1, 32, 0, [], [], false⟩, rows, n, [], false, false⟩
def withEngine (e : Engine) : State :=
  let s := running (tgrp 0) none
  { s with mx := { s.mx with eng := [(⟨0, 0⟩, e)], level := [(⟨0, 0⟩, 1)] } }

theorem wit_MatrixPipes :
    (let e := { freshEngine 0 with queue := [ewIns 2] }
     (withEngine e).engine ⟨0, 0⟩ = some e ∧ e.queue.find? (fun j => j.op.pipe == .side) = some (ewIns 2) ∧ e.met (ewIns 2) = true ∧
      (withEngine e).mxReady (ewIns 2) = true ∧ e.side = none) ∧
    (let r := { mmaRun 31 [] with ins := { mmaIns with op := .mma true 0 63 0 ⟨false, 0, 64, 31, 0, 1, false, false, 0, 0⟩ } }
     let s := withEngine { freshEngine 0 with array := [r] }
     r.advanced < s.advancesOf r.ins ∧ 31 ≤ r.advanced / advPerRow (s.mxMode r.ins) 1 ∧ s.mxWaits ⟨0, 0⟩ .array = false ∧
      (aget s.mx.made ⟨0, 0⟩).getD 0 < 2 * (aget s.mx.level ⟨0, 0⟩).getD 0) ∧
    (let r := mmaRun 32 [(31, [], [])]
     rowDoneAt ((withEngine (freshEngine 0)).mxMode r.ins) 0 1 31 ≤ r.advanced ∧ r.cells.rows ≤ 32 ∧ r.again = false) ∧
    (let e := { freshEngine 0 with side := some (ewIns 8) }
     (withEngine e).engine ⟨0, 0⟩ = some e ∧ (withEngine e).mxWaits ⟨0, 0⟩ .side = false ∧ rising e.acc = true ∧ (withEngine e).finds = []) ∧
    (let s := withEngine { freshEngine 0 with array := [mmaRun 0 []] }
     aget s.mx.level ⟨0, 0⟩ = some 1 ∧ aget s.mx.calm ⟨0, 0⟩ = none ∧ 1 < s.mxCap ∧ s.arrayFree { freshEngine 0 with array := [mmaRun 0 []] } = false ∧
      s.arrayFree (freshEngine 0) = true) ∧
    (let x := { tgrp 0 with wait := .mwait true false 9 }
     (running x none).group g0 = some x ∧ (running x none).mxOwes g0 0 9 = false ∧
      ({ running x none with mx := { (running x none).mx with eng := [(⟨0, 0⟩, { freshEngine 0 with queue := [ewIns 2] })] } } : State).mxOwes g0 0 9 = true) := by
  decide +kernel

/-- An addition of 5 to the first word of line 7, queued at its reduction unit. -/
def upd7 : RedUpd := ⟨7, 0, .add, .i32, 5, devKey, false, none⟩
def withUpd : State := { readyState with stk := { readyState.stk with upd := [upd7] } }

theorem wit_StackReads :
    (128 * 0 < stackTop ∧ 128 * (stackTop / 128 - 1) < stackTop ∧ readyState.tripped 0 = false ∧ readyState.buffered 0 = false ∧
      readyState.on F.STK_ELOG_VALID (homeOf 0) = false ∧
      (readyState.wr F.STK_ELOG_VALID 1 0).on F.STK_ELOG_VALID (homeOf 0) = true) ∧
    (readyState.lineBusy 0 = false ∧ readyState.dirOf 0 = none ∧ readyState.linePoison 0 = .none ∧ (16 : Nat) ≤ 16) ∧
    (withUpd.stk.upd.find? (fun u => u.line == 7) = some upd7 ∧ withUpd.tripped 7 = false ∧ withUpd.coh.txns = [] ∧ withUpd.coh.queued = [] ∧
      upd7.off + redBytes upd7.ty ≤ 128 ∧ withUpd.linePoison 7 = .none ∧ (withUpd.setPoison 7 .poison).linePoison 7 ≠ .none) := by
  decide +kernel

theorem wit_StackUpkeep :
    ((0 : Nat) < 16 ∧ (15 : Nat) < 16 ∧ readyState.on F.STK_STAT_TRIP 15 = false ∧ readyState.tableLevel 15 = 1 ∧ tempLevel 44 < 1 ∧
      42 + 3 ≤ levelEdge 1 ∧ levelEdge 1 < 44 + 3 ∧ readyState.tableLevel 15 ≤ tempLevel 114 ∧ readyState.obj.ctxs = []) ∧
    ({ readyState with stk := { readyState.stk with pend := [(3, 9), (3, 2 ^ 25 - 1)] } }.stk.pend.find? (fun e => e.1 == 3) = some (3, 9)) := by
  decide +kernel

/-- Line 9 of core 511 in one L1 state, with one message on its way to the core. -/
def atL1 (st : ASt) (m : AMsg) : State :=
  { readyState with coh := { readyState.coh with l1 := [(⟨511, 9⟩, ⟨st, 0, false, none, false, false⟩)], am := [(511, 9, m)] } }

theorem wit_L1Messages :
    (([(ASt.IR, AMsg.dataS), (.IR, .dataE), (.IM, .dataM), (.SM, .grant), (.WI, .putAck), (.S, .inv), (.Z, .inv), (.IR, .inv),
        (.IM, .inv), (.SM, .inv), (.E, .recall), (.M, .recall), (.E, .down), (.M, .down), (.WI, .recall), (.WI, .down)] : List (ASt × AMsg)).all (fun p =>
      decide ((atL1 p.1 p.2).coh.am.find? (fun e => e.1 == 511) = some (511, 9, p.2)) &&
      decide ((atL1 p.1 p.2).l1 511 9 = some ⟨p.1, 0, false, none, false, false⟩) && decide ((atL1 p.1 p.2).coreOps 511 = [])) = true) ∧
    ({ readyState with coh := { readyState.coh with am := [(511, 9, .inv)] } }.l1 511 9 = none) ∧
    (atL1 .Z .inv).l1St 511 9 = .Z ∧ (atL1 .S .inv).l1St 511 9 ≠ .Z := by
  decide +kernel

/-- A request of core 9 for line 5 at cluster 1 of partition 0, which holds the line as given. -/
def asking (q : AReq) (x : Option CcLine) : State :=
  let s := (readyState.wr F.WAY_ADJ_MASK 0x8000 0 3)
  { s with coh := { s.coh with aq := [(9, 5, q)], cc := match x with | some x => [(⟨1, 5⟩, x)] | none => [] } }
/-- A line of a cluster cache with presence bits and an owner. -/
def ccl (st : BSt) (p : BitVec 8) (o : Option Nat) : CcLine := ⟨st, false, p, o, 15, 1, 3, none, .none, none, false, .none, none, false⟩
/-- An Rdata of core 8 for a request in hand. -/
def returned (x : CcLine) : State :=
  { readyState with coh := { readyState.coh with ar := [(8, 5, true)], cc := [(⟨1, 5⟩, x)] } }

theorem wit_ClusterRequests_miss :
    ([AReq.getS, .getM, .upg].all (fun q =>
      decide ((asking q none).coh.aq.find? (fun e => e.1 / 8 == 9 / 8 && e.2.1 == 5) = some (9, 5, q)) &&
      decide ((asking q none).ccLine (9 / 8) 5 = none) && ((asking q none).ccWays 1 5).isEmpty && !(asking q none).ownWrite 1 5 &&
      (asking q none).coh.want.isEmpty &&
      decide ((asking q none).clusterPart 1 = 0) && decide ((asking q none).rd F.WAY_ADJ_MASK 0 3 = 0x8000))) = true ∧
    9 / 8 = 1 ∧ ccSet 5 = 5 ∧ ((List.range 16).filter (fun w => bitsOf 0x8000 w 1 == 1)).head? = some 15 := by
  decide +kernel

theorem wit_ClusterRequests_hit :
    (∀ x ∈ [ccl .S 0xFF none, ccl .O 0xFF none, ccl .O 0 none, ccl .O 2 none, ccl .O 3 (some 8)],
      (asking .getS (some x)).ccLine (9 / 8) 5 = some x ∧ x.cur = none ∧ x.snoop = none ∧ x.wait = .none) ∧
    (ccl .O 0xFF none).pres &&& ~~~(1#8 <<< (9 % 8)) ≠ 0 ∧ (ccl .O 2 none).pres &&& ~~~(1#8 <<< (9 % 8)) = 0 ∧
    (ccl .O 2 none).pres.getLsbD (9 % 8) = true ∧ (ccl .O 3 (some 8)).own = some 8 ∧
    (ccl .O 3 (some 8)).pres &&& ~~~((1#8 <<< (9 % 8)) ||| (1#8 <<< (8 % 8))) = 0 ∧ (ccl .O 2 (some 9)).own = some 9 ∧
    (asking .upg (some (ccl .O 2 none))).coh.aq.find? (fun e => e.1 / 8 == 9 / 8 && e.2.1 == 5) = some (9, 5, .upg) ∧
    (asking .putM (some (ccl .O 2 (some 9)))).coh.aq.find? (fun e => e.1 / 8 == 9 / 8 && e.2.1 == 5) = some (9, 5, .putM) := by
  decide +kernel

theorem wit_ClusterRequests_rest :
    (let x := { ccl .O 1 (some 8) with wait := .down, cur := some (9, .getS) };
      (returned x).coh.ar.find? (fun e => e.1 == 8 && e.2.1 == 5) = some (8, 5, true) ∧ (returned x).ccLine (8 / 8) 5 = some x ∧
      x.pres.getLsbD (8 % 8) = true) ∧
    (let x := { ccl .O 1 (some 8) with wait := .recall, cur := some (9, .getM) };
      (returned x).ccLine (8 / 8) 5 = some x ∧ x.own = some 8 ∧ x.snoop = none) ∧
    (let x := { ccl .O 0 none with victim := true, dirty := true };
     let s := { readyState with coh := { readyState.coh with cc := [(⟨63, 5⟩, x)], vc := [(63, 5)] } };
      s.ccLine 63 5 = some x ∧ s.coh.vc.find? (fun e => e.1 == 63 && (s.ccLine 63 e.2).any (fun y => y.st == .O)) = some (63, 5) ∧ s.inTransit 63 5 x = false ∧ s.vcDraining 63 < 8 ∧
      s.wbOut 63 (homeOf 5) < 8) ∧
    aget { readyState with thr := { readyState.thr with streams := [(511, [⟨1, 2, 3⟩])] } }.thr.streams 511 = some [⟨1, 2, 3⟩] := by
  decide +kernel

/-- One request of cluster 63 for line 5 on its way, and what the directory holds of the line. -/
def atHome (q : BReq) (d : Option Dir) : State :=
  { readyState with coh := { readyState.coh with
    bq := [⟨q, 63, 5, 3, false, 16, BitVec.allOnes 128, 0, [⟨5, 0, .add, .i32, 1, 16, false, none⟩], 0, .none⟩]
    dir := match d with | some d => [(5, d)] | none => [] } }
def theMsg (q : BReq) : BMsg := ⟨q, 63, 5, 3, false, 16, BitVec.allOnes 128, 0, [⟨5, 0, .add, .i32, 1, 16, false, none⟩], 0, .none⟩
/-- A home whose shared entries are all set aside. -/
def fullHome : State :=
  let s := atHome .rdS none
  { s with coh := { s.coh with aside := (List.range 172).map (fun i => (homeOf 5, 63, 84 + i)) } }

theorem wit_HomeRequests_free (q : BReq) : (atHome q none).Accepts (theMsg q) ∧ (atHome q none).dirOf (theMsg q).line = none ∧
    (atHome q none).coh.queued = [] ∧ (theMsg q).upd.any (fun u => u.line == (theMsg q).line) = true ∧ (atHome q none).tripped 5 = false ∧
    (theMsg q).mask = BitVec.allOnes 128 ∧ (theMsg q).pk = .none := by
  unfold State.Accepts State.wayClear; cases q <;> decide +kernel

theorem wit_HomeRequests_held (q : BReq) : (atHome q (some ⟨0, some 1, false, false⟩)).Accepts (theMsg q) ∧
    (atHome q (some ⟨3, none, false, false⟩)).Accepts (theMsg q) ∧ (atHome q (some ⟨3, none, false, false⟩)).coh.queued = [] ∧ (1 : Nat) ≠ (theMsg q).r ∧ (theMsg q).r < 64 ∧
    (3 : BitVec 64) &&& ~~~(1#64 <<< 63) ≠ 0 := by
  unfold State.Accepts State.wayClear; cases q <;> decide +kernel

theorem wit_HomeRequests_full :
    fullHome.coh.bq.find? (fun x => x.req == .rdS && x.r == 63 && x.line == 5) = some (theMsg .rdS) ∧
    fullHome.hostTurn (theMsg .rdS) = true ∧ aget fullHome.rst.homes (homeOf 5) = none ∧ fullHome.sharedFree (homeOf 5) = none ∧
    fullHome.wayClear 63 (homeOf 5) := by
  unfold State.wayClear
  decide +kernel

theorem wit_HomeRequests_end :
    (let x : Txn := ⟨theMsg .rdS, 84, [], some 63, true, false, false, false, false⟩;
     let s := { readyState with coh := { readyState.coh with bn := [.done 63 5], txns := [x] } };
      s.coh.bn.contains (.done 63 5) = true ∧ s.txnOf 5 = some x ∧ x.msg.req ≠ .redU ∧ s.coh.queued = [] ∧
      s.coh.credq.all (fun c => c.1 != homeOf 5) = true ∧ s.wayClear 63 (homeOf 5)) ∧
    (let s := { readyState with coh := { readyState.coh with bn := [.wbM 63 5], dir := [(5, ⟨0, some 63, false, false⟩)] } };
      s.coh.bn.contains (.wbM 63 5) = true ∧ s.txnOf 5 = none ∧ s.dirOf 5 = some ⟨0, some 63, false, false⟩ ∧ s.coh.queued = [] ∧ s.wayClear 63 (homeOf 5)) := by
  unfold State.wayClear
  decide +kernel

/-- Line 5 of cluster 1 in a level-B state with a request in hand, and a message for it. -/
def atCc (st : BSt) (cur : Option (Nat × AReq)) (n : BNote) : State :=
  { readyState with coh := { readyState.coh with cc := [(⟨1, 5⟩, { ccl st 0 none with cur := cur })], bn := [n] } }
/-- The kinds of message with data or a grant. -/
def dataKinds : List (Snoop ⊕ Nat) := [.inr 0, .inl .fwdS, .inr 1, .inr 1, .inr 2, .inl .fwdX]

theorem wit_CacheAnswers_data :
    (([(BSt.ISb, AReq.getS, BNote.datS 1 5 .lost), (.ISb, .getS, .fwdS 1 5 .none), (.ISb, .getS, .datX 1 5 .none), (.IXb, .getM, .datX 1 5 .none),
      (.SXb, .upg, .gntX 1 5 .none), (.IXb, .getM, .fwdX 1 5 .none)].zip dataKinds).all (fun (e, j) =>
        let s := atCc e.1 (some (15, e.2.1)) e.2.2;
        let x := { ccl e.1 0 none with cur := some (15, e.2.1) };
        decide (s.coh.bn.find? (fun z => (z.kindFor 1 5 j).isSome) = some e.2.2) && decide (s.ccLine 1 5 = some x) && !s.wayHeld 1 5 x && decide (x.own = none) && decide (x.pres = 0)))
      = true ∧ (atCc .ISb none (.datS 1 5 .none)).wayClear 1 (homeOf 5) := by
  unfold State.wayClear
  decide +kernel

theorem wit_CacheAnswers_snoop :
    (let s := atCc .OIb none (.wbAck 1 5);
      s.coh.bn.contains (.wbAck 1 5) = true ∧ (s.ccLine 1 5).map (fun x => x.st) = some .OIb ∧ s.rcv.wb.contains 1 = false ∧ s.coh.flush.contains 1 = false ∧ s.wayClear 1 (homeOf 5) ∧ s.finds = []) ∧
    ((atCc .S none (.sn .inv 1 5 84)).coh.bn = [] ++ .sn .inv 1 5 84 :: [] ∧ (atCc .O none (.sn .fwdS 1 5 84)).ccLine 1 5 = some (ccl .O 0 none) ∧
      (ccl .O 0 none).cur = none ∧ (ccl .O 0 none).victim = false) ∧
    ({ readyState with coh := { readyState.coh with bn := [.sn .rcl 1 5 84] } }.ccLine 1 5 = none) ∧
    ({ readyState with coh := { readyState.coh with bn := [.retry (theMsg .rdN) 15] } }.coh.bn = [] ++ .retry (theMsg .rdN) 15 :: [] ∧
      (theMsg .rdN).r = 63 ∧ readyState.coh.cred.contains (63, 15) = false ∧ readyState.on F.TAL_CTL_EN (talSet 3 143) = false) ∧
    (let s := { readyState with coh := { readyState.coh with bn := [.crGnt 63 (homeOf 5)], want := [theMsg .upX, theMsg .rdS] } };
      s.coh.bn.contains (.crGnt 63 (homeOf 5)) = true ∧
      s.coh.want.filter (fun m => m.r == 63 && homeOf m.line == homeOf 5) = theMsg .upX :: [theMsg .rdS] ∧ s.ccLine 63 5 = none ∧ s.wayClear 63 (homeOf 5)) := by
  unfold State.wayClear
  decide +kernel

/-- A transaction of cluster 2 for line 5 that waits on a reply of cluster 1, which owns or shares the line. -/
def waiting (q : BReq) (k : Snoop) (n : List BNote) : Txn × State :=
  let x : Txn := ⟨{ theMsg q with r := 2 }, 84, [(1, k)], if q = .rdS then some 2 else none, q == .rdS, false, false, false, false⟩
  let d : Dir := ⟨if k = .inv then 2 else 0, if k = .inv then none else some 1, q == .upX, false⟩
  (x, { readyState with coh := { readyState.coh with txns := [x], bn := n, dir := [(5, d)], held := [(1, 5)] } })

theorem wit_SnoopReplies_reply :
    (let p := waiting .rdX .inv [.snAck 1 5];
      p.2.txnOf 5 = some p.1 ∧ p.1.again = false ∧ p.1.msg.r = 2 ∧ p.1.evict = false ∧ p.1.gone = false ∧ (p.2.dirOf 5).isSome = true ∧ p.2.coh.queued = [] ∧
      p.2.coh.bn.contains (.snAck 1 5) = true ∧ p.1.snoops = [(1, .inv)] ∧ p.1.replied = false ∧ p.2.wayClear 1 (homeOf 5)) ∧
    (let p := waiting .rdS .fwdS [.snAckD 1 5 .poison];
      p.2.txnOf 5 = some p.1 ∧ p.2.coh.bn = [.snAckD 1 5 .poison] ∧ p.1.snoops = [(1, .fwdS)] ∧ p.1.replied = true ∧ p.1.needDone = some 2 ∧ (p.2.dirOf 5).isSome = true) ∧
    (let p := waiting .rdX .fwdX [.snMiss 1 5, .snWb 1 5];
      p.2.txnOf 5 = some p.1 ∧ p.1.snoops = [(1, .fwdX)] ∧ p.2.coh.bn.contains (.snWb 1 5) = true ∧
      (p.2.dirOf 5).map (fun d => d.own) = some (some 1) ∧ p.2.coh.held.contains (1, 5) = true ∧
      { p.2 with coh := { p.2.coh with held := [] } }.coh.held.contains (1, 5) = false) := by
  unfold State.wayClear
  decide +kernel

theorem wit_SnoopReplies_rest :
    (let p := waiting .upX .fwdX [];
      p.2.txnOf 5 = some p.1 ∧ (1, Snoop.fwdX) ∈ p.1.snoops ∧ (p.2.dirOf 5).map (fun d => d.ctl) = some true ∧ p.2.tripped 5 = false ∧
      p.2.coh.queued = [] ∧ p.2.coh.credq.all (fun c => c.1 != homeOf 5) = true) ∧
    (let x : Txn := { (waiting .rdX .fwdX []).1 with snoops := [(64, .fwdX)] };
     let s := { readyState with coh := { readyState.coh with txns := [x], dir := [(5, ⟨0, some 64, false, false⟩)] } };
      s.txnOf 5 = some x ∧ (64, Snoop.fwdX) ∈ x.snoops ∧ (s.dirOf 5).map (fun d => d.ctl) = some false ∧
      s.srcMuted (0x080 + homeOf 5) = false ∧ s.on F.INT_ISL_STOPPED (srcHome (0x080 + homeOf 5)) = false) ∧
    (readyState.isDead 83 = false ∧ readyState.coh.bq ++ readyState.coh.want = []) ∧
    (let s := { readyState with coh := { readyState.coh with reclaim := [(homeOf 5, 1), (15, 1)], dir := [(5, ⟨0, some 1, false, false⟩)] } };
      s.coh.reclaim.contains (homeOf 5, 1) = true ∧ (15, 1) ∈ s.coh.reclaim.erase (homeOf 5, 1) ∧ s.coh.txns = [] ∧ s.coh.queued = [] ∧
      s.coh.credq = [] ∧ (s.dirOf 5).map (fun d => d.own) = some (some 1) ∧ s.tripped 5 = false) ∧
    (let s := { readyState with coh := { readyState.coh with reclaim := [(15, 63)] } };
      s.coh.reclaim.contains (15, 63) = true ∧ s.coh.reclaim.erase (15, 63) = [] ∧ s.coh.dir = [] ∧ aget s.rcv.lost 63 = none) := by
  decide +kernel

/-- A walk of the copy command of context 1 on die 0 at a level, for a page, and its entry in memory. -/
def aWalk (ph : WalkPh) (acc lvl : Nat) : Walk :=
  ⟨0, 1, 0x3000, acc, accSetsD acc, lvl, 0x10000, 0x1000000000F, 0x10018, ph, false, ⟨3, 0, some tcid, none, none⟩, .die 0, 0⟩
def walking (w : Walk) (e : Nat) : State :=
  let s := ((readyState.wr F.XLT_CTX_EN 1 1).setDom domOn 512).wrNat 0 (w.table + 8 * levelIndex w.va w.level) 8 e
  { s with xlt := { s.xlt with walks := [w] }, obj := { s.obj with ctxs := [(1, ⟨0, 0, none, false⟩)] } }

/-- The same after the service cluster's cache has the line of an address, in a state. -/
def warmAt (pa : Nat) (s : State) (st : BSt) : State :=
  s.setCc 0 (pa / 128) ⟨st, false, 0, none, 0, 0, 0, none, .none, none, false, .none, none, false⟩

def warm (s : State) (st : BSt) : State := warmAt 0x10000 s st

theorem wit_TableWalks_table :
    let s := warm (walking (aWalk .table accRead 4) 0x20001) .S
    s.walkAt 0 0 = some (aWalk .table accRead 4) ∧ (s.svcAsk 1 0 0 [(0x10000 + 8 * levelIndex 0x3000 4) / 128] false).2 = true ∧
    ((walking (aWalk .table accRead 4) 0x20001).svcAsk 1 0 0 [(0x10000 + 8 * levelIndex 0x3000 4) / 128] false).2 = false ∧
    0x10000 + 8 * levelIndex 0x3000 4 < stackTop ∧ s.ctxKey 1 = 0 ∧
    (s.svcAsk 1 0 0 [(0x10000 + 8 * levelIndex 0x3000 4) / 128] false).1.readPte 0 (0x10000 + 8 * levelIndex 0x3000 4) 4
      ((s.svcAsk 1 0 0 [(0x10000 + 8 * levelIndex 0x3000 4) / 128] false).1.svcKind 1 0 ((0x10000 + 8 * levelIndex 0x3000 4) / 128))
        = .table 0x20000 := by
  decide +kernel

theorem wit_TableWalks_leaf :
    let s := warm (walking (aWalk .table accRead 0) 0x1000000000F) .S
    let pa := 0x10000 + 8 * levelIndex 0x3000 0
    let u := (s.svcAsk 1 0 0 [pa / 128] false).1
    (s.svcAsk 1 0 0 [pa / 128] false).2 = true ∧ u.readPte 0 pa 0 (u.svcKind 1 0 (pa / 128)) = .leaf 0x1000000000F ∧ s.thr.ops = [] ∧
    permOk (pteR 0x1000000000F) (pteW 0x1000000000F) (pteA 0x1000000000F) accRead = true ∧ pteHost 0x1000000000F = false ∧
    u.runBroken 0 0x1000000000F 0 pa = false ∧
    pteD 0x1000000000F = false ∧ (aWalk .table accRead 0).setD = false ∧ (aWalk .table accWrite 0).setD = true ∧
    permOk (pteR 0x1000000000F) (pteW 0x1000000000F) (pteA 0x1000000000F) accAtomic = false ∧ u.blotFull 1 = false ∧
    (walking (aWalk .table accRead 0) 0x4F).readPte 0 pa 0 .none = .leaf 0x4F ∧ pteHost 0x4F = true ∧
    (walking (aWalk .table accRead 0) 0x4F).runBroken 0 0x4F 0 pa = false ∧ u.rd F.UCIE_STAT_STATE (u.viaDie 0) ≠ 8 ∧
    ptePa 0x1000000000F / 4096 * 4096 + 4096 ≤ stackTop := by
  decide +kernel

theorem wit_TableWalks_rest :
    let s := warm (walking (aWalk .dirty accWrite 0) 0x1000000000F) .O
    (s.walkAt 0 0 = some (aWalk .dirty accWrite 0) ∧ 0x10018 % 8 = 0 ∧ (s.svcAsk 1 0 0 [0x10018 / 128] true).2 = true ∧
      (s.svcAsk 1 0 0 [0x10018 / 128] true).1.svcKind 1 0 (0x10018 / 128) = .none ∧
      (mget s.lines (0x10018 / 128)).map (fun m => m.wser) = some 0 ∧ s.keySer 0 = 0 ∧ s.thr.ops = [] ∧
      s.rdNat 0 0x10018 8 = (0x1000000000F#64).toNat ∧
      (walking (aWalk .dirty accWrite 0) 0x1000000002F).rdNat 0 0x10018 8 ≠ (0x1000000000F#64).toNat) ∧
    ((walking (aWalk .htu accRead 0) 0x4F).walkAt 0 0 = some (aWalk .htu accRead 0) ∧ permOk true false (true && false) accRead = true ∧
      (walking (aWalk .htu accRead 0) 0x4F).blotFull 1 = false) := by
  decide +kernel

/-- `n` driver invalidations pending, a cached page of context 63. -/
def invs (n : Nat) (host : Option Nat) : State :=
  { readyState with xlt := { readyState.xlt with
    invs := List.replicate n ⟨host, [63], 0, 4096, true, []⟩
    tlbs := [⟨.die 0, 63, 0, 1, 5, true, true, true, false, [], 0⟩] } }

theorem wit_Invalidations :
    (((invs 47 none).xlt.invs.filter (fun o => o.host.isNone)).length < 48 ∧ (invs 47 none).xlt.invs.length < 64 ∧ (2 : Nat) < 3 ∧ 0 < 1) ∧
    48 ≤ ((invs 48 none).xlt.invs.filter (fun o => o.host.isNone)).length ∧
    ((invs 63 none).xlt.invs.length < 64 ∧ 64 ≤ (invs 64 none).xlt.invs.length ∧
      ((List.range 64).filter (fun c => readyState.rd F.XLT_PASID_PASID c == 0)).length = 64) ∧
    ((invs 1 none).xlt.invs = ⟨none, [63], 0, 4096, true, []⟩ :: [] ∧ (invs 1 none).xlt.walks = [] ∧ (invs 1 none).flights [63] ++ (invs 1 none).strays [63] = [] ∧
      (invs 1 none).xlt.htuHeld = [] ∧ (invs 1 none).srcMuted 2 = false ∧ (invs 1 none).on F.INT_ISL_STOPPED 0 = false ∧
      (invs 1 (some 15)).xlt.invs = ⟨some 15, [63], 0, 4096, true, []⟩ :: []) := by
  decide +kernel

/-- Context 1 with one record of cause NOT_VALID in quire 0, open or closed. -/
def faulted (isOpen : Bool) : State :=
  let s := (readyState.wr F.XLT_CTX_EN 1 1).wr F.CTX_STAT_STATE ctxLive 1
  let r : BRec := ⟨0, 0, 5, caNotValid, accRead, stFaultXlate, 1⟩
  s.setBlot 1 ⟨1, if isOpen then some 0 else none, 1, [r], if isOpen then [] else [0], []⟩

theorem wit_Quires :
    (((faulted true).blot 1).openQ = some 0 ∧ (faulted true).srcMuted (0x100 + 1) = false ∧
      (faulted true).on F.INT_ISL_STOPPED (srcHome (0x100 + 1)) = false) ∧
    (((faulted false).blot 1).closed.contains 0 = true ∧ (faulted false).ctxCores 1 = [] ∧ (faulted false).ctxState 1 = ctxLive ∧
      ((faulted false).blot 1).recs.find? (fun r => r.quire == 0) = some ⟨0, 0, 5, caNotValid, accRead, stFaultXlate, 1⟩) ∧
    (((faulted true).blot 1).closed.contains 0 = false ∧ (faulted true).ctxState 1 ≠ ctxAborting ∧ (faulted true).ctxState 1 ≠ ctxAborted) ∧
    (((faulted true).wr F.XLT_BLOT_PTR_HEAD 4096 1).rd F.XLT_BLOT_PTR_TAIL 1 = 0 ∧
      (4096 + 8192 - 0) % 8192 ≤ (((faulted true).wr F.XLT_BLOT_PTR_HEAD 4096 1).rd F.XLT_BLOT_PTR_HEAD 1 + 8192 - 0) % 8192 ∧
      (((faulted true).wr F.XLT_BLOT_PTR_HEAD 4096 1).rd F.XLT_BLOT_PTR_HEAD 1 + 8192 - 0) % 8192 < (4097 + 8192 - 0) % 8192) ∧
    ((faulted true).on F.XLT_CTX_EN 1 = true ∧ (faulted true).thr.ops = [] ∧ ((faulted true).blot 1).waiting = []) := by
  decide +kernel

/-- K0's queue holds one operation; context 1 is LIVE, 2 is free, and the tables lie at 0x2000000. -/
def asked (o : ObjOp) : State :=
  let s := ((readyState.wr F.CTX_STAT_STATE ctxLive 1).wr F.OBJ_BASE_BASE 1).wr F.GRAPH_STORE_SIZE 1
  { s with obj := { s.obj with ops := [o], ctxs := [(1, ⟨0, 5, none, false⟩)] } }
def anOp (typ op idx arg : Nat) : ObjOp := ⟨1, typ, op, true, 1, idx, 0, arg⟩
/-- A queue descriptor of 16 entries and 16 records on die 3; a one-node graph image of a NOP; a patch of it. -/
def aDesc : List Byte := leBytes 8 0x1000 ++ leBytes 8 0x2000 ++ leBytes 4 100 ++ leBytes 4 0 ++ [4, 4, 1, 3] ++ zeros 36
def aNop : List Byte := zeros 64
def anImage : List Byte := leBytes 4 0x4847584B ++ leBytes 2 1 ++ leBytes 4 0 ++ leBytes 4 96 ++ zeros 18 ++ aNop
def aPatch : List Byte := leBytes 4 0x5047584B ++ leBytes 2 1 ++ leBytes 4 1 ++ zeros 22 ++ leBytes 2 0 ++ zeros 6 ++ aNop
/-- A memory object entry: address 0x1000, 4096 bytes, context 1, free. -/
def anEntry : List Byte := leBytes 8 0x1000 ++ leBytes 8 4096 ++ [1, 0, 0, 0] ++ zeros 12
def aVer : GVer := ⟨1, [aNop], [], 0, none, [], []⟩
def aGraph : Graph := ⟨1, [aVer], false, false⟩

theorem wit_Creation_ctx :
    (let s := asked (anOp 0 oCreate 2 0);
      s.headOp 0 oCreate = some (anOp 0 oCreate 2 0) ∧ s.ctxState 2 = ctxFree ∧ s.rd F.CTX_CFG_PART 2 = 0 ∧ (s.partDef 0).isSome = true ∧
      s.switchHolds 0 = false ∧ s.rst.parts.contains 0 = false ∧ s.statusPage 2 = 0 ∧ ((List.range 32).all (fun i => !s.tripped i)) = true ∧
      s.obj.ops = [anOp 0 oCreate 2 0]) ∧
    ((asked (anOp 0 oCreate 1 0)).headOp 0 oCreate = some (anOp 0 oCreate 1 0) ∧ (asked (anOp 0 oCreate 1 0)).ctxState 1 ≠ ctxFree ∧
      (asked (anOp 0 oCreate 1 0)).on F.OBJ_ERR_VALID = false) := by
  decide +kernel

theorem wit_Creation_queue :
    (let s := (asked (anOp 1 oCreate 4095 0x4000)).wrBytes devKey 0x4000 aDesc;
      s.headOp 1 oCreate = some (anOp 1 oCreate 4095 0x4000) ∧ s.ctxState 1 = ctxLive ∧ s.rd F.SWQ_STAT_STATE 4095 = 0 ∧
      s.poisonOf 0x4000 64 = .none ∧ s.rdBytes devKey 0x4000 64 = aDesc ∧ descBad aDesc = false ∧ leAt aDesc 26 1 = 1) ∧
    (let s := (asked (anOp 2 oCreate 7 0)).wrBytes devKey (0x2000000 + 224) anEntry;
      s.headOp 2 oCreate = some (anOp 2 oCreate 7 0) ∧ s.moAt 7 = 0x2000000 + 224 ∧ s.poisonOf (0x2000000 + 224) 32 = .none ∧ s.moCtx 7 = 1 ∧
      s.moGen 7 = 0 ∧ s.moState 7 = 0 ∧ s.moVa 7 = 0x1000 ∧ s.moBytes 7 = 4096) ∧
    ((asked (anOp 3 oCreate 65535 0)).headOp 3 oCreate = some (anOp 3 oCreate 65535 0) ∧
      aget (asked (anOp 3 oCreate 65535 0)).syn.notes 65535 = none ∧
      (asked (anOp 4 oCreate 4095 0)).headOp 4 oCreate = some (anOp 4 oCreate 4095 0)) := by
  decide +kernel

theorem wit_Creation_graph :
    (let s := (asked (anOp 5 oCreate 1023 0x4000)).wrBytes devKey 0x4000 anImage;
      s.headOp 5 oCreate = some (anOp 5 oCreate 1023 0x4000) ∧ aget s.obj.graphs 1023 = none ∧
      s.rdBytes devKey 0x4000 96 = anImage ∧ s.rdBytes devKey 0x4000 32 = anImage.take 32 ∧ imageBad (anImage.take 32) = false ∧
      s.poisonOf 0x4000 96 = .none ∧ leAt (anImage.take 32) 10 4 = 96 ∧ pieces anImage 32 64 1 = [aNop] ∧ s.nodeBad 1 (s.nextSeq 1) aNop = false ∧
      s.listBad 1 aNop = false ∧ s.listWalk 1 aNop = none ∧ s.versionHolds (s.versionRefs 1 (s.nextSeq 1) [aNop]).1 = false ∧ s.storeFits 96 = true) ∧
    (let s0 := (asked (anOp 5 oPatch 1023 0x4000)).wrBytes devKey 0x4000 aPatch;
     let s := s0.setGraph 1023 aGraph;
      s.headOp 5 oPatch = some (anOp 5 oPatch 1023 0x4000) ∧ aget s.obj.graphs 1023 = some aGraph ∧
      aGraph.vers.find? (fun v => v.stop.isNone) = some aVer ∧ s.rdBytes devKey 0x4000 104 = aPatch ∧ patchBad (aPatch.take 32) = false ∧
      s.poisonOf 0x4000 104 = .none ∧ leAt (aPatch.take 32) 6 4 = 1 ∧ patchEntries aPatch 1 = [(0, aNop)] ∧
      (pieces aPatch 32 72 1).any (fun e => !zeroIn e 2 8) = false ∧ s.storeFits 96 = true ∧ s.listWalk 1 aNop = none ∧ s.versionHolds (s.versionRefs 1 (s.nextSeq 1) [aNop]).1 = false) := by
  decide +kernel

/-- Context 1 LIVE, with a queue, a note, a timeline and a graph of two versions, and its entry 7. -/
def owning (o : ObjOp) (rel : Option Nat) : State :=
  let s := (asked o).wrBytes devKey (0x2000000 + 224) (leBytes 8 0x1000 ++ leBytes 8 4096 ++ [1, if rel.isSome then 2 else 1, 0, 0] ++ zeros 12)
  { s with
    syn := { s.syn with notes := [(9, ⟨1, rel, true⟩)], tls := [(8, ⟨1, rel, true⟩)] }
    cmd := { s.cmd with swqs := [(4, ⟨1, 0, 0, 0, 4, 4, 0, 0, false, 0, none, 0, none, rel, true⟩)] }
    obj := { s.obj with mos := [7], graphs := [(6, { aGraph with vers := [{ aVer with stop := some 5 }, { aVer with ver := 2, start := 5 }] })] } }

theorem wit_Releases_ops :
    ((owning (anOp 0 oRelease 1 0) none).headOp 0 oRelease = some (anOp 0 oRelease 1 0) ∧
      (owning (anOp 0 oRelease 1 0) none).ctxState 1 = ctxLive ∧
      aget (owning (anOp 0 oRelease 1 0) none).obj.ctxs 1 = some ⟨0, 5, none, false⟩) ∧
    (let s := owning (anOp 2 oRelease 7 0) none;
      s.headOp 2 oRelease = some (anOp 2 oRelease 7 0) ∧ s.moState 7 = 1 ∧ s.moCtx 7 = 1 ∧ s.moGen 7 = 0 ∧ s.moUnreadable 7 = false ∧
      s.nextSeq 1 = 5) ∧
    (let s := owning (anOp 5 oRelease 6 0) none;
      s.headOp 5 oRelease = some (anOp 5 oRelease 6 0) ∧ (aget s.obj.graphs 6).map (fun g => (g.ctx, g.released)) = some (1, false)) ∧
    ((owning (anOp 3 oRelease 9 0) none).relHead = some (anOp 3 oRelease 9 0) ∧
      (owning (anOp 3 oRelease 9 0) none).objOwner 3 9 = some (1, none, true) ∧ (owning (anOp 4 oRelease 8 0) none).objOwner 4 8 = some (1, none, true) ∧
      (owning (anOp 1 oRelease 4 0) none).objOwner 1 4 = some (1, none, true)) := by
  decide +kernel

theorem wit_Releases_points :
    (let s := owning (anOp 0 oRelease 1 0) (some 5);
      s.moState 7 = 2 ∧ s.moRefs 7 = 0 ∧ s.allBelow (s.moCtx 7) (s.moRelSeq 7) = true ∧
      (mget s.lines (s.moAt 7 / 128)).map (fun m => m.wser) = some (s.keySer devKey) ∧ s.verHeld 6 1 = false ∧ s.allBelow 1 5 = true ∧
      ((aget s.obj.graphs 6).bind (fun g => g.until 1)) = some 5 ∧ s.objOwner 3 9 = some (1, some 5, true) ∧
      s.objOwner 4 8 = some (1, some 5, true) ∧ s.objOwner 1 4 = some (1, some 5, true) ∧ s.syncKept .note 9 = false ∧
      s.syncKept .timeline 8 = false ∧ s.syncKept .swq 4 = false ∧ s.syn.ops = []) ∧
    (let s0 := readyState.wr F.CTX_STAT_STATE ctxReleasing 63;
     let s := { s0 with obj := { s0.obj with ctxs := [(63, ⟨0, 5, some 5, true⟩)] } };
      aget s.obj.ctxs 63 = some ⟨0, 5, some 5, true⟩ ∧ s.ctxState 63 = ctxReleasing ∧ s.allBelow 63 5 = true) ∧
    ((readyState.wr F.CTX_STAT_STATE ctxAborting 63).ctxState 63 = ctxAborting ∧ (readyState.wr F.CTX_STAT_STATE ctxAborting 63).ctxCmds 63 = []) := by
  decide +kernel

/-- Context 1 LIVE or SAVED, with nothing resident. -/
def inState (st : Nat) (o : ObjOp) : State := (asked o).wr F.CTX_STAT_STATE st 1

theorem wit_DestroyAndSave_destroy :
    ((asked (anOp 0 oDestroy 1 0)).headOp 0 oDestroy = some (anOp 0 oDestroy 1 0) ∧ (asked (anOp 0 oDestroy 1 0)).ctxState 1 ≠ ctxFree) ∧
    ((owning (anOp 4 oDestroy 8 0) none).desHead = some (anOp 4 oDestroy 8 0) ∧
      (owning (anOp 4 oDestroy 8 0) none).objOwner 4 8 = some (1, none, true) ∧
      (owning (anOp 3 oDestroy 9 0) none).desHead = some (anOp 3 oDestroy 9 0) ∧
      (owning (anOp 3 oDestroy 9 0) none).objOwner 3 9 = some (1, none, true) ∧ (owning (anOp 3 oDestroy 9 0) none).cmd.cmds = [] ∧
      (owning (anOp 3 oDestroy 9 0) none).syn.ops = []) ∧
    (let s := (owning (anOp 3 oDestroy 9 0) none).opBusy;
      s.obj.ops = anOp 3 oDestroy 9 0 :: [] ∧ s.obj.busy = true ∧ s.syn.ops = [] ∧
      (s.pushSync 9 (.destroy true 9 true)).firstOp (true, 9) = some (.destroy true 9 true) ∧ s.cmd.cmds.any (fun e => s.holds .note 9 e.2) = false ∧
      s.cmd.cmds.any (fun e => s.holds .timeline 9 e.2) = false ∧ s.cmd.cmds.any (fun e => s.holds .swq 9 e.2) = false ∧ s.ctxCmds 1 = []) := by
  decide +kernel

theorem wit_DestroyAndSave_save :
    ((asked (anOp 0 oSave 1 0)).headOp 0 oSave = some (anOp 0 oSave 1 0) ∧ (asked (anOp 0 oSave 1 0)).isSaving 1 = false ∧
      (asked (anOp 0 oSave 1 0)).stockGoing 1 = false) ∧
    (let s := (running (tgrp 0) none).beginSave 1;
      s.isSaving 1 = true ∧ s.saveReady 1 = true ∧ s.ctxBlocks 1 = [(0, tblk 1)]) ∧
    (let s := inState ctxSaved (anOp 0 oRestore 1 0);
      s.obj.restoring = [] ∧ s.headOp 0 oRestore = some (anOp 0 oRestore 1 0) ∧ s.ctxState 1 = ctxSaved ∧
      s.obj.saved.filter (fun b => b.1 == 1) = [] ∧ s.waitsFit 1 = true ∧ ((s.restoreCtx 1 []).map (fun u => u.ctxState 1)) = some ctxLive) := by
  decide +kernel

theorem wit_LoadDuringALoad : (readyState.wr F.FOLIO_STAT_PHASE phVerify).rd F.FOLIO_STAT_PHASE ≠ phIdle := by decide +kernel

/-- Timeline 4095 at `x` and note 65535 at `n`, with an operation at die 3 and waiters. -/
def syncing (x n : Nat) (o : List SyncOp) (w : List Waiter) : State :=
  let s := ((readyState.wr F.TL_VAL_VALUE x 4095).wr F.NOTE_VAL_COUNT n 65535).setDom domOn 560
  { s with
    syn := { s.syn with tls := [(4095, ⟨1, none, false⟩)], notes := [(65535, ⟨1, none, false⟩)], ops := o.map (fun o => (3, o)), waiters := w }
    cmd := { s.cmd with cmds := [(tcid, { tcmd with wait := .registered })] } }

/-- The line of the sync store that holds an object. -/
def syncLineOf (s : State) (o : Bool × Nat) : Nat := s.rd F.SYNC_BASE_BASE * 2 ^ 14 + Config.syncLine o.1 o.2 % 2 ^ 14

/-- The state with an object's line of the sync store held by the service cluster of context 1 on die 3. -/
def heldLine : CcLine := ⟨.O, true, 0, none, 0, 0, 2, none, .none, none, false, .none, none, true⟩
def synced (s : State) (cl : Nat) (o : Bool × Nat) : State :=
  s.setCc cl (syncLineOf s o) heldLine

theorem ccAsk_held (s : State) (cl ln : Nat) (h : s.ccLine cl ln = some heldLine) (hf : s.finds = []) :
    s.ccAsk cl 2 ln true = (s.setCc cl ln { heldLine with fresh := false }, true) := by
  have e : s.sendInvs cl ln 0 none = s := by simp [State.sendInvs]
  have e1 : s.ccFound cl ln .none = s := by simp [State.ccFound, State.takeFind, hf]
  simp only [State.ccAsk, e1]
  simp [h, State.looked, heldLine] at *
  exact congrArg (fun t => State.setCc t cl ln _) e

theorem setCc_frame (s : State) (cl ln : Nat) (x : CcLine) :
    (s.setCc cl ln x).syn = s.syn ∧ (s.setCc cl ln x).cmd = s.cmd ∧ (s.setCc cl ln x).regs = s.regs := ⟨rfl, rfl, rfl⟩

theorem syncAsk_held (s : State) (cl : Nat) (o : Bool × Nat) (hc : s.objCtx o = some 1) (hs : s.svcCluster 1 (o.2 % 4) = some cl)
    (hd : s.dom (512 + cl) = domOn) (hl : s.ccLine cl (syncLineOf s o) = some heldLine) (hf : s.finds = []) :
    s.syncAsk o = (s.setCc cl (syncLineOf s o) { heldLine with fresh := false }, true) := by
  have hb : (domOn == domOn) = true := rfl
  have ha := ccAsk_held _ _ _ hl hf
  simp only [syncLineOf] at ha ⊢
  simp only [State.syncAsk, hc, State.svcAsk, hs, hd, hb, State.ccAskAll, List.foldl_cons, List.foldl_nil, ha]
  rfl

/-- The state `u` that an operation finds holds what `s` held, so that the theorems below hold of it. -/
theorem wit_Signals_served (s : State) (cl : Nat) (o : Bool × Nat) (hc : s.objCtx o = some 1) (hs : s.svcCluster 1 (o.2 % 4) = some cl)
    (hd : s.dom (512 + cl) = domOn) (hf : s.finds = []) :
    ∃ u, (synced s cl o).syncAsk o = (u, true) ∧ u.syn = s.syn ∧ u.cmd = s.cmd ∧ u.regs = s.regs := by
  have hl : (synced s cl o).ccLine cl (syncLineOf s o) = some heldLine := by
    simp [synced, State.ccLine, State.setCc, aget_aput_self]
  refine ⟨(synced s cl o).setCc cl (syncLineOf s o) { heldLine with fresh := false },
    syncAsk_held (synced s cl o) cl o hc hs hd hl hf, ?_⟩
  simp only [synced, setCc_frame, and_self]

theorem wit_DestroyAndSave_served (n : Bool) (i t : Nat) (h : n = true ∧ i = 9 ∧ t = 3 ∨ n = false ∧ i = 8 ∧ t = 4) :
    let s := synced ((owning (anOp t oDestroy i 0) none).setDom domOn (512 + i % 4 * 16)) (i % 4 * 16) (n, i)
    s.syn.ops = [] ∧ s.finds = [] ∧ s.cmd.cmds = [] ∧ ∃ u, s.syncAsk (n, i) = (u, true) := by
  refine ⟨by rcases h with h | h <;> (obtain ⟨rfl, rfl, rfl⟩ := h; rfl), by rcases h with h | h <;> (obtain ⟨rfl, rfl, rfl⟩ := h; rfl),
    by rcases h with h | h <;> (obtain ⟨rfl, rfl, rfl⟩ := h; rfl), ?_⟩
  obtain ⟨u, hu, -⟩ := wit_Signals_served ((owning (anOp t oDestroy i 0) none).setDom domOn (512 + i % 4 * 16)) (i % 4 * 16) (n, i)
    (by rcases h with h | h <;> (obtain ⟨rfl, rfl, rfl⟩ := h; decide +kernel))
    (by rcases h with h | h <;> (obtain ⟨rfl, rfl, rfl⟩ := h; decide +kernel))
    (by rcases h with h | h <;> (obtain ⟨rfl, rfl, rfl⟩ := h; decide +kernel))
    (by rcases h with h | h <;> (obtain ⟨rfl, rfl, rfl⟩ := h; rfl))
  exact ⟨u, hu⟩

theorem wit_Signals_ready : (∀ x ∈ [0, 8], ∀ n ∈ [0, 5],
    (syncing x n [] []).objCtx (false, 4095) = some 1 ∧ (syncing x n [] []).objCtx (true, 65535) = some 1 ∧
    (syncing x n [] []).svcCluster 1 3 = some 48 ∧ (syncing x n [] []).dom (512 + 48) = domOn ∧ (syncing x n [] []).finds = []) ∧
    readyState.svcCluster 1 0 = some 0 ∧ (readyState.dom (512 + 0) = domOn ∨ readyState.dom (512 + 0) = domOff) := by
  decide +kernel

theorem wit_Signals_timeline :
    ([SyncOp.signal false 4095 7 tcid, .host false 4095 7, .host false 4095 terminal].all (fun o =>
      let s := syncing 8 0 [o] [];
      decide (s.syn.ops = (3, o) :: []) && s.tlExists 4095 && s.syn.waiters.isEmpty && (s.watching false 4095).isEmpty && decide (s.tlVal 4095 = 8)))
      = true ∧
    (let s := syncing 8 0 [.host false 4095 terminal] [⟨false, 4095, terminal, tcid, 0⟩];
      s.syn.waiters = [⟨false, 4095, terminal, tcid, 0⟩] ∧ (s.cmdOf tcid).isSome = true ∧ s.tlVal 4095 < terminal ∧ terminal < 2 ^ 64 ∧
      s.tlVal 4095 < 9 ∧ 9 < terminal) := by
  decide +kernel

theorem wit_Signals_note :
    (let s := syncing 0 5 [.signal true 65535 (noteMax - 6) tcid] [];
      s.noteExists 65535 = true ∧ (s.watching true 65535).isEmpty = true ∧
      s.noteVal 65535 + (noteMax - 6) < noteMax ∧ noteMax ≤ s.noteVal 65535 + (noteMax - 5)) ∧
    (let s := syncing 0 5 [.host true 65535 1] [⟨true, 65535, 6, tcid, 0⟩, ⟨true, 65535, 1, tcid, 0⟩];
      6 ≤ s.noteVal 65535 + 1 ∧ s.noteVal 65535 + 1 - 6 < 1) ∧
    (let s := syncing 0 5 [.host true 65535 1] [⟨true, 65535, 7, tcid, 0⟩, ⟨true, 65535, 1, tcid, 0⟩];
      s.noteVal 65535 + 1 < 7 ∧ 1 ≤ s.noteVal 65535 + 1) ∧
    (readyState.tlExists 0 = false ∧ readyState.noteExists 0 = false ∧ readyState.goesNow ⟨0, .reg (RegTable.TL_SIG.off 4095) 8 0⟩ = true ∧
      readyState.goesNow ⟨7, .reg (RegTable.NOTE_SIG.off 65535) 8 0⟩ = true ∧ readyState.goesNow ⟨0, .reg (RegTable.HOST_WATCH_CTL.off 255) 4 1⟩ = true ∧
      State.reset.goesNow ⟨0, .reg (RegTable.TL_SIG.off 0) 8 0⟩ = false) := by
  decide +kernel

def regCmd : Cmd := { tcmd with wait := .registering }
def syncingAs (x n : Nat) (o : SyncOp) (w : List Waiter) (c : Cmd) : State :=
  let s := syncing x n [o] w
  { s with cmd := { s.cmd with cmds := [(tcid, c)] } }

theorem wit_WaitsAndWatchers_waits :
    (let s := syncingAs 8 5 (.register false 4095 8 tcid) [] regCmd;
      s.syn.ops = (3, .register false 4095 8 tcid) :: [] ∧ s.cmdOf tcid = some regCmd ∧ 8 ≤ s.tlVal 4095 ∧
      s.tlVal 4095 < 9 ∧ 5 ≤ s.noteVal 65535 ∧ s.noteVal 65535 < 6 ∧ (s.watching true 65535).isEmpty = true ∧
      s.syn.waiters = []) ∧
    (let c := { tcmd with wait := .satisfied stPoison }; (syncingAs 8 5 (.withdraw true 65535 tcid) [] c).cmdOf tcid = some c) ∧
    (let s := syncingAs 8 5 (.withdraw true 65535 tcid) [⟨true, 65535, 9, tcid, 0⟩] { tcmd with wait := .withdrawing };
      s.syn.ops = (3, .withdraw true 65535 tcid) :: [] ∧ s.syn.waiters.all (fun w => decide (w.cmd = tcid)) = true) := by
  decide +kernel

/-- Watcher 255 on timeline 4095; queue 9 with its last pair on notes 1 and 2. -/
def watched (x : Nat) : State :=
  ((syncing x 0 [] []).wr F.HOST_WATCH_CTL_INDEX 4095 255).wr F.HOST_WATCH_VAL_VALUE 8 255
def stocked (tk : Option Taking) : State :=
  let s := (((readyState.wr F.SWQ_PAIR_A 1 9 3).wr F.SWQ_PAIR_B 2 9 3).wr F.SWQ_PAIR_CAP 10 9 3).wr F.SWQ_PAIR_EN 1 9 3
  let s := (((s.wr F.NOTE_VAL_COUNT 6 1).wr F.NOTE_VAL_COUNT 7 2).setDom domOn 604).wr F.CTX_STAT_STATE ctxLive 1
  { s with
    syn := { s.syn with notes := [(1, ⟨1, none, false⟩), (2, ⟨1, none, false⟩)] }
    cmd := { s.cmd with swqs := [(9, ⟨1, 0, 0, 100, 4, 4, 0, 0, false, 0, none, 0, tk, none, false⟩)] } }

theorem wit_WaitsAndWatchers_watch :
    ((watched 8).on F.HOST_WATCH_CTL_KIND 255 = false ∧ (watched 8).rd F.HOST_WATCH_CTL_INDEX 255 % 4096 = 4095 ∧
      (watched 8).rd F.HOST_WATCH_VAL_VALUE 255 ≤ (watched 8).tlVal 4095 ∧ (watched 7).tlVal 4095 < (watched 7).rd F.HOST_WATCH_VAL_VALUE 255 ∧ (watched 7).syn.ops = [] ∧
      (syncing 7 0 [.host false 4095 1] []).firstOp (false, 4095) = some (.host false 4095 1)) ∧
    ({ readyState with syn := { readyState.syn with firing := [(255, true)] } }.syn.firing.find? (fun f => f.1 == 255) = some (255, true) ∧
      readyState.srcMuted (0x200 + 255) = false ∧ readyState.on F.INT_ISL_STOPPED (srcHome (0x200 + 255)) = false) := by
  decide +kernel

/-- The pair as it is taken, with ALIGN. -/
def aPair (al : Nat) : PairW := (3, (((stocked none).wr F.SWQ_PAIR_ALIGN al 9 3).reg .SWQ_PAIR 9 3))
def aligning (al a b : Nat) : State :=
  let s := ((stocked (some ⟨[aPair al], true⟩)).wr F.NOTE_VAL_COUNT a 1).wr F.NOTE_VAL_COUNT b 2
  (s.pushSync 1 (.hold 1 9)).pushSync 2 (.hold 2 9)

/-- Both notes' lines held by their dies' service clusters: what the stocktake finds holds what the state held. -/
theorem wit_WaitsAndWatchers_served (s : State) (a b : Nat) (ha : s.objCtx (true, 1) = some 1) (hb : s.objCtx (true, 2) = some 1)
    (hca : s.svcCluster 1 1 = some a) (hcb : s.svcCluster 1 2 = some b) (hda : s.dom (512 + a) = domOn) (hdb : s.dom (512 + b) = domOn)
    (hne : a ≠ b) (hf : s.finds = []) :
    ∃ u, (synced (synced s a (true, 1)) b (true, 2)).syncAskAll [(true, 1), (true, 2)] = (u, true) ∧ u.syn = s.syn ∧ u.cmd = s.cmd ∧
      u.regs = s.regs := by
  let la := s.rd F.SYNC_BASE_BASE * 2 ^ 14 + Config.syncLine true 1 % 2 ^ 14
  let lb := s.rd F.SYNC_BASE_BASE * 2 ^ 14 + Config.syncLine true 2 % 2 ^ 14
  let t := synced (synced s a (true, 1)) b (true, 2)
  have h1 : t.ccLine a la = some heldLine := by
    have e : aget (aput (aput s.coh.cc ⟨a, la⟩ heldLine) ⟨b, lb⟩ heldLine) ⟨a, la⟩ = some heldLine := by
      rw [aget_aput_ne _ _ (by intro h; exact hne (by simpa using (congrArg UL.unit h).symm)), aget_aput_self]
    exact e
  have h2 : (t.setCc a la { heldLine with fresh := false }).ccLine b lb = some heldLine := by
    have e : aget (aput (aput (aput s.coh.cc ⟨a, la⟩ heldLine) ⟨b, lb⟩ heldLine) ⟨a, la⟩ { heldLine with fresh := false }) ⟨b, lb⟩ =
        some heldLine := by
      rw [aget_aput_ne _ _ (by intro h; exact hne (by simpa using congrArg UL.unit h)), aget_aput_self]
    exact e
  have e1 : t.syncAsk (true, 1) = (t.setCc a la { heldLine with fresh := false }, true) :=
    syncAsk_held t a (true, 1) ha hca hda h1 hf
  have e2 : (t.setCc a la { heldLine with fresh := false }).syncAsk (true, 2) =
      ((t.setCc a la { heldLine with fresh := false }).setCc b lb { heldLine with fresh := false }, true) :=
    syncAsk_held _ b (true, 2) hb hcb hdb h2 hf
  refine ⟨(t.setCc a la { heldLine with fresh := false }).setCc b lb { heldLine with fresh := false }, ?_, ?_⟩
  · show t.syncAskAll _ = _
    simp [State.syncAskAll, e1, e2]
  · simp only [t, synced, setCc_frame, and_self]

theorem wit_WaitsAndWatchers_ready :
    (let s := ((aligning 1 6 7).setDom domOn 528).setDom domOn 544;
      s.objCtx (true, 1) = some 1 ∧ s.objCtx (true, 2) = some 1 ∧ s.svcCluster 1 1 = some 16 ∧ s.svcCluster 1 2 = some 32 ∧
      s.dom (512 + 16) = domOn ∧ s.dom (512 + 32) = domOn ∧ s.stockHeld 9 ⟨[aPair 1], true⟩ = true) := by
  decide +kernel

theorem wit_WaitsAndWatchers_stock :
    ((stocked none).swq 9 = some ⟨1, 0, 0, 100, 4, 4, 0, 0, false, 0, none, 0, none, none, false⟩ ∧ (stocked none).ctxState 1 ≠ ctxSaved ∧
      (stocked none).isSaving 1 = false ∧ (stocked none).clerkAwake 0 = true ∧ (stocked none).stockReady 9 = true ∧
      (stocked none).pairs 9 = [aPair 0] ∧ (stocked none).pairBad 1 (aPair 0) = false ∧ pairNotes [aPair 0] = [1, 2] ∧
      (stocked none).firstOp (true, 1) = none) ∧
    ((aPair 1).1 = 3 ∧ (aPair 1).fld F.SWQ_PAIR_A = 1 ∧ (aPair 1).fld F.SWQ_PAIR_B = 2 ∧ (aPair 1).fld F.SWQ_PAIR_CAP = 10 ∧
      (aPair 1).fld F.SWQ_PAIR_ALIGN = 1 ∧ (aPair 0).fld F.SWQ_PAIR_ALIGN ≠ 1 ∧ (aligning 1 6 7).stockHeld 9 ⟨[aPair 1], true⟩ = true ∧
      (aligning 1 6 7).syn.ops = [(1, .hold 1 9), (2, .hold 2 9)] ∧ 10 < (aligning 1 6 7).noteVal 1 + (aligning 1 6 7).noteVal 2 ∧
      (aligning 1 6 7).noteVal 2 ≤ 10 ∧ 10 < (aligning 1 6 11).noteVal 2 ∧ (aligning 1 6 4).noteVal 1 + (aligning 1 6 4).noteVal 2 ≤ 10) := by
  decide +kernel

/-- Queue 4095 of context 1 on die 0, ACTIVE, with its commands. -/
def queued (l : List (CmdId × Cmd)) : State :=
  let s := ((readyState.wr F.CTX_STAT_STATE ctxLive 1).wr F.SWQ_STAT_STATE 1 4095).setDom domOn 604
  { s with
    cmd := { s.cmd with cmds := l, swqs := [(4095, ⟨1, 0x10000, 0x20000, 0, 4, 4, 0, 0, false, 2 ^ 32 - 1, none, 5, none, none, false⟩)] }
    obj := { s.obj with ctxs := [(1, ⟨0, 7, none, false⟩)] } }
def qHead (l : List (CmdId × Cmd)) (h : Nat) : State := (queued l).wr F.SWQ_STAT_HEAD h 4095
/-- A command of that queue in a phase with the bytes of its packet. -/
def qCmd (ph : CmdPh) (p : List Byte) : Cmd := { newCmd 4095 with ph := ph, pkt := p ++ zeros (64 - p.length) }
def qid : CmdId := ⟨1, 6, 0⟩

theorem wit_QueueControl_doorbell :
    (let s := qHead [] (2 ^ 32 - 1);
      (s.swq 4095).map (fun w => (w.devEnq, w.tail, w.ringLog)) = some (false, 2 ^ 32 - 1, 4) ∧ aget s.obj.ctxs 1 = some ⟨0, 7, none, false⟩ ∧
      s.ctxState 1 = ctxLive ∧ ((15#32).toNat + 2 ^ 32 - s.rd F.SWQ_STAT_HEAD 4095) % 2 ^ 32 = 2 ^ 4 ∧
      2 ^ 4 < ((16#32).toNat + 2 ^ 32 - s.rd F.SWQ_STAT_HEAD 4095) % 2 ^ 32) ∧
    (let s := (queued [(qid, qCmd .unparsed [])]).wr F.QSLOT_CTL_EN 1 3;
      s.on F.QSLOT_CTL_EN 3 = true ∧ s.on F.QSLOT_STAT_MAPPED 3 = false ∧ s.eligible 4095 = true ∧ s.mapped 4095 = false ∧
      (s.swq 4095).any (fun w => s.firstWaiting 4095 w) = true ∧ s.dom (604 + 3 / 16) = domOn) ∧
    (let s := ((queued []).wr F.QSLOT_STAT_MAPPED 1 255).wr F.QSLOT_STAT_SWQ 4095 255;
      s.on F.QSLOT_STAT_MAPPED 255 = true ∧ s.rd F.QSLOT_STAT_SWQ 255 = 4095 ∧ (s.unstarted 4095).isEmpty = true) := by
  decide +kernel

theorem wit_QueueControl_rest :
    ((queued []).rd F.SWQ_STAT_STATE 4095 ≠ 0 ∧ ((queued []).wr F.SWQ_STAT_STATE 2 4095).rd F.SWQ_STAT_STATE 4095 = 2 ∧
      (let s := (queued []).wr F.SWQ_STAT_STATE 2 4095; s.cmd.swqs.any (fun e => e.2.ctx == 1 && s.rd F.SWQ_STAT_STATE e.1 == 2)) = true ∧
      (queued []).cmd.swqs.any (fun e => e.2.ctx == 1 && (queued []).rd F.SWQ_STAT_STATE e.1 == 2) = false ∧
      (queued []).linePoison ((queued []).statusPage 1 / 128) = .none) ∧
    (let s := queued [(qid, qCmd .started [1])];
      s.cmdOf qid = some (qCmd .started [1]) ∧ s.cmdHalted qid = false ∧ (qCmd .started [1]).wait = .idle ∧ (qCmd .started [1]).done = false) := by
  decide +kernel

/-- Bytes at an address; the table of context 1, whose two leaves map pages 0x10 and 0x20; a queue mapped on slot 0. -/
def cellsAt (a : Nat) (l : List Byte) : List Host.Cell := l.zipIdx.map (fun e => (a + e.2, e.1))
def tabledOn (low high : List Host.Cell) (lines : List Nat) (s : State) (leaf : Nat := 0x4003F) : State :=
  let s := ((s.wr F.XLT_CTX_EN 1 1).wr F.XLT_CTX_ROOT 0x100 1)
  { s with
    mem := low ++ cellsAt 0x100000 (leBytes 8 0x101001) ++ cellsAt 0x101000 (leBytes 8 0x102001) ++ cellsAt 0x102000 (leBytes 8 0x103001)
      ++ cellsAt 0x103000 (leBytes 8 0x104001) ++ cellsAt 0x104080 (leBytes 8 leaf) ++ cellsAt 0x104100 (leBytes 8 0x5003F) ++ high
    lines := lines.map (fun a => (a / 128, ⟨.none, if a < 0x2000000 then 0 else 16⟩)) }
def tableLines : List Nat := [0x100000, 0x101000, 0x102000, 0x103000, 0x104080, 0x104100]
def tabled (s : State) : State := tabledOn [] [] tableLines s
def mappedQ (s : State) : State := (s.wr F.QSLOT_STAT_MAPPED 1 0).wr F.QSLOT_STAT_SWQ 4095 0

/-- A translation of page 0x20 to host memory, in the die's cache. -/
def onHost (s : State) : State :=
  { s with xlt := { s.xlt with tlbs := ⟨.die 0, 1, 0x20, 1, 0x50, true, true, true, true, [0x20], 0⟩ ::
    ⟨.die 0, 1, 0x10, 1, 0x40, true, true, true, false, [0x10], 0⟩ :: [] } }
/-- The same to stack memory; both pages' lines in the service cluster's cache. -/
def onDev (s : State) : State :=
  warmAt 0x40000 { s with xlt := { s.xlt with tlbs := ⟨.die 0, 1, 0x20, 1, 0x50, true, true, true, false, [0x20], 0⟩ ::
    ⟨.die 0, 1, 0x10, 1, 0x40, true, true, true, false, [0x10], 0⟩ :: [] } } .S

/-- The queue's packet at page 0x10, and the line that holds it in the service cluster's cache or not. -/
def parsing (served : Bool) : State :=
  let s := onDev ((tabledOn (cellsAt 0x40000 (qCmd .parsed [7]).pkt) [] (tableLines ++ [0x40000])
    (mappedQ (queued [(qid, qCmd .unparsed [])]))).setDom domOn 512)
  if served then s else { s with coh := readyState.coh }

theorem wit_CommandStarts_parse :
    (let s := parsing true; let u := (s.vaAsk 0 1 1 0x10000 64).1;
      lowest ((s.queueCmds 4095).filter (fun e => e.2.ph == .unparsed)) = some (qid, qCmd .unparsed []) ∧ s.mapped 4095 = true ∧
      s.cmdWaits qid = false ∧ s.isSaving 1 = false ∧ s.dbg.armed.isEmpty = true ∧ s.vaStop 0 1 accRead 0x10000 64 = none ∧
      (s.vaAsk 0 1 1 0x10000 64).2 = true ∧ u.vaPoison 0 1 0x10000 64 = .none ∧ u.rdVas 0 1 0x10000 64 = (qCmd .parsed [7]).pkt ∧
      pkBad (qCmd .parsed [7]).pkt = false ∧ pkBad (qCmd .parsed [99]).pkt = true) ∧
    (parsing false).vaStop 0 1 accRead 0x10000 64 = none ∧ ((parsing false).vaAsk 0 1 1 0x10000 64).2 = false := by
  decide +kernel

theorem wit_CommandStarts_start :
    ([opNop, opFence, opLaunch, opRecord, opSignal, opWait, opGraph].all (fun o =>
      decide ((mappedQ (queued [(qid, qCmd .parsed [BitVec.ofNat 8 o])])).ready qid o = some (qCmd .parsed [BitVec.ofNat 8 o])))) = true ∧
    ((mappedQ (queued [(qid, qCmd .parsed [4])])).earlier 4095 6).isEmpty = true ∧
    ((mappedQ (queued [(⟨1, 5, 0⟩, qCmd .started [0]), (qid, qCmd .parsed [4])])).ready qid opRecord).isSome = true ∧
    ((mappedQ (queued [(⟨1, 5, 0⟩, qCmd .started [0]), (qid, qCmd .parsed [4])])).earlier 4095 6).isEmpty = false ∧
    wtNote (qCmd .parsed [5]).pkt = false ∧ (mappedQ (queued [(qid, qCmd .parsed [5])])).waitEntries 0 < 1024 ∧
    wtNote (qCmd .parsed ([5] ++ zeros 15 ++ [1])).pkt = true ∧ rcVal (qCmd .parsed ([5] ++ zeros 15 ++ [1])).pkt = 0 ∧
    ((mappedQ (queued [(qid, qCmd .parsed ([5] ++ zeros 15 ++ [1]))])).ready qid opWait).isSome = true ∧
    (let p := qCmd .parsed ([9] ++ zeros 31 ++ List.replicate 8 255);
      (mappedQ (queued [(qid, p)])).ready qid opDump = some p ∧ dpStep p.pkt = 2 ^ 64 - 1) ∧
    (let c := { qCmd .parsed [8] with gver := some (6, 1) };
      (mappedQ (queued [(qid, c)])).ready qid opGraph = some c ∧ aGraph.vers.find? (fun x => x.ver == 1) = some aVer) := by
  decide +kernel

/-- Objects 0 and 1 of context 1 at pages 0x10 and 0x20, and a FILL or a COPY of 16 bytes between them that has started. -/
def engineOn (p : List Byte) (bytes : Nat) : State :=
  let e := fun (va n : Nat) => leBytes 8 va ++ leBytes 8 n ++ [1, 1, 0, 0] ++ zeros 12
  let s := tabledOn (cellsAt 0x40000 (zeros 16)) (cellsAt 0x2000000 (e 0x10000 bytes) ++ cellsAt 0x2000020 (e 0x20000 4096))
    (0x40000 :: tableLines ++ [0x2000000]) (mappedQ (queued [(qid, qCmd .started p)]))
  let s := (s.wr F.OBJ_BASE_BASE 1).setDom domOn 512
  { s with obj := { s.obj with mos := [0, 1] } }
def engineOf (p : List Byte) : State := engineOn p 4096
def aFill : List Byte := [3] ++ zeros 15 ++ leBytes 4 1 ++ zeros 4 ++ leBytes 8 112 ++ leBytes 8 16 ++ leBytes 8 0x0807060504030201
def aCopy : List Byte := [2] ++ zeros 15 ++ leBytes 4 0 ++ leBytes 4 1 ++ leBytes 8 0 ++ leBytes 8 112 ++ leBytes 8 16

theorem wit_EnginesAndRecords_fill :
    (let s := onDev (engineOf aFill); let c := qCmd .started aFill;
      (s.begin qid opFill).any (fun e => decide (e.2 = c)) = true ∧ s.engineDie qid c = some 0 ∧ c.sent = false ∧
      s.moVa (flDst c.pkt % 2 ^ 20) + flOff c.pkt = 0x20070 ∧ pieceLen 0x20070 (flLen c.pkt) c.pos = 16 ∧
      s.vaStop 0 1 accWrite 0x20070 16 = none ∧ s.xlate 0 1 0x20070 accWrite = .pa 0x50070 ∧
      (s.svcWrite 1 0 5 (s.ctxKey 1) 0x50070 (List.replicate 16 1) .none).isSome = true) ∧
    (let s := onHost (engineOf aFill);
      s.vaStop 0 1 accWrite 0x20070 16 = none ∧ s.xlate 0 1 0x20070 accWrite = .host 0x50070 0) := by
  decide +kernel

theorem wit_EnginesAndRecords_copy :
    (let s := onDev (engineOf aCopy); let c := qCmd .started aCopy; let v := (s.vaAsk 0 1 5 0x10000 16).1;
      (s.begin qid opCopy).any (fun e => decide (e.2 = c)) = true ∧ s.cmdOf qid = some c ∧ cpPeer c.pkt = false ∧
      s.moVa (cpSrc c.pkt % 2 ^ 20) + cpSrcOff c.pkt = 0x10000 ∧ s.moVa (cpDst c.pkt % 2 ^ 20) + cpDstOff c.pkt = 0x20070 ∧
      pieceLen 0x20070 (cpLen c.pkt) c.pos = 16 ∧ bitsOf (cpRed c.pkt) 0 2 = 0 ∧ s.vaStop 0 1 accRead 0x10000 16 = none ∧
      s.vaStop 0 1 accWrite 0x20070 16 = none ∧ (s.vaAsk 0 1 5 0x10000 16).2 = true ∧ v.vaPoison 0 1 0x10000 16 = .none ∧
      v.xlate 0 1 0x20070 accWrite = .pa 0x50070 ∧
      (v.svcWrite 1 0 5 (v.ctxKey 1) 0x50070 (v.rdVas 0 1 0x10000 16) .none).isSome = true) ∧
    ({ onDev (engineOf aCopy) with coh := readyState.coh }.vaAsk 0 1 5 0x10000 16).2 = false := by
  decide +kernel

/-- A capture of object 0, 128 bytes, into object 1, whose step has completed, `pos` bytes on its way. -/
def capturing (pos : Nat) (k : State → State) : State :=
  let p : List Byte := [9] ++ zeros 15 ++ leBytes 4 0 ++ leBytes 4 1 ++ zeros 16 ++ leBytes 8 5 ++ zeros 8
  let s := k (engineOn p 128)
  { s with
    dbg := { s.dbg with armed := [⟨qid, some 5, some 4095, some (stOk, 9), false⟩] }
    cmd := { s.cmd with cmds := [(qid, { qCmd .started p with pos := pos })] } }

theorem wit_EnginesAndRecords_dump :
    (let s := capturing 0 onDev; let u := (s.vaAsk 0 1 5 0x10000 64).1;
      s.dbg.armed.find? (fun a => a.dump == qid) = some ⟨qid, some 5, some 4095, some (stOk, 9), false⟩ ∧ s.cmdWaits qid = false ∧
      (s.cmdOf qid).map (fun c => (s.engineDie qid c, s.moBytes (dpTensor c.pkt % 2 ^ 20), s.moVa (dpDst c.pkt % 2 ^ 20) + dpOff c.pkt))
        = some (some 0, 128, 0x20000) ∧ pieceLen (0x20000 + 64) 128 0 = 64 ∧
      s.vaStop 0 1 accRead 0x10000 64 = none ∧ s.vaStop 0 1 accWrite 0x20040 64 = none ∧ (s.vaAsk 0 1 5 0x10000 64).2 = true ∧
      u.xlate 0 1 0x20040 accWrite = .pa 0x50040 ∧
      (u.svcWrite 1 0 5 (u.ctxKey 1) 0x50040 (u.rdVas 0 1 0x10000 64) (u.vaPoison 0 1 0x10000 64)).isSome = true) ∧
    (let s := capturing 128 onHost;
      pieceLen 0x20000 64 0 = 64 ∧ s.vaStop 0 1 accWrite 0x20000 64 = none ∧ s.xlate 0 1 0x20000 accWrite = .host 0x50000 0 ∧
      (s.cmdOf qid).map (fun c => (s.engineDie qid c, c.outs)) = some (some 0, [])) := by
  decide +kernel

theorem wit_EnginesAndRecords_qenq :
    (let s := running (tgrp 0) none;
      s.Issues g0 (tgrp 0) (tblk 1) tcmd [9, 8, 2, 2 + 1] ∧ (lanesOf (tgrp 0).active).head? = some 0 ∧ s.getRegs g0 (tgrp 0) 2 2 0 % 64 = 0 ∧
      s.cmdWaits (tblk 1).cmd = false ∧ s.remaining (tgrp 0).bid = [(g0, tgrp 0)] ∧ (s.swq 0).isSome = false ∧
      (s.setHomeReg 0 0 2 0 1).getRegs g0 (tgrp 0) 2 2 0 % 64 ≠ 0) := by
  unfold State.Issues; decide +kernel

/-- The same with queue 0 of its context, whose ring is at page 0x20, as full as asked. -/
def withRing (tail : Nat) : State :=
  let s := warmAt 0x500C0 (warmAt 0x503C0 (onDev (tabled (running (tgrp 0) none))) .O) .O
  let s := ((s.wr F.SWQ_STAT_STATE 1 0).setHomeReg 0 0 2 0 0x10000).setDom domOn 512
  { s with
    cmd := { s.cmd with swqs := [(0, ⟨1, 0x20000, 0x20800, 0, 4, 4, 0, 0, true, tail, none, 0, none, none, false⟩)] }
    obj := { s.obj with ctxs := [(1, ⟨0, 7, none, false⟩)] } }

theorem wit_EnginesAndRecords_ring :
    let s := withRing 15
    let u := (s.vaAsk 0 1 1 0x10000 64).1
    let v := (u.svcAsk 1 0 1 [0x503C0 / 128] true).1
    s.Issues g0 (tgrp 0) (tblk 1) tcmd [9, 8, 2, 2 + 1] ∧ s.getRegs g0 (tgrp 0) 2 2 0 = 0x10000 ∧
    s.getReg g0 (tgrp 0) 8 0 = 0 ∧ s.rd F.SWQ_STAT_STATE 0 = 1 ∧ s.ctxState 1 = ctxLive ∧ s.dying 1 0 = false ∧
    2 ^ 4 ≤ (16 + 2 ^ 32 - (withRing 16).rd F.SWQ_STAT_HEAD 0) % 2 ^ 32 ∧ (15 + 2 ^ 32 - s.rd F.SWQ_STAT_HEAD 0) % 2 ^ 32 < 2 ^ 4 ∧
    s.vaStop 0 1 accRead 0x10000 64 = none ∧ s.vaStop 0 1 accWrite (0x20000 + 64 * 15) 64 = none ∧ (s.vaAsk 0 1 1 0x10000 64).2 = true ∧
    u.vaPoison 0 1 0x10000 64 = .none ∧ u.xlate 0 1 (0x20000 + 64 * 15) accWrite = .pa 0x503C0 ∧
    (u.svcAsk 1 0 1 [0x503C0 / 128] true).2 = true ∧ v.svcKind 1 0 (0x503C0 / 128) = .none := by
  unfold State.Issues; decide +kernel

/-- A queue with a command, and the line of its next record in the service cluster's cache. -/
def recording (st : BSt) (c : Cmd) : State := warmAt 0x50000 ((onDev (tabled (queued [(qid, c)]))).setDom domOn 512) st

theorem wit_EnginesAndRecords_record :
    (let c := { qCmd .started [0] with done := true, began := true }; let s := recording .O c; let u := (s.svcAsk 1 0 1 [0x50000 / 128] true).1;
      s.cmdOf qid = some c ∧ s.canComplete qid c = true ∧ s.dbg.armed.isEmpty = true ∧ c.refs.isEmpty = true ∧ pkQuiet c.pkt = false ∧
      pkOp c.pkt ≠ opWait ∧ s.rd F.SWQ_CMPL_WRITTEN 4095 = 0 ∧ (0 + 0 + 2 ^ 32 - s.rd F.SWQ_CMPL_ACK 4095) % 2 ^ 32 < 2 ^ 4 ∧
      0x50000 % 32 = 0 ∧ s.xlate 0 1 (0x20000 + 32 * (0 % 2 ^ 4)) accWrite = .pa 0x50000 ∧
      (s.svcAsk 1 0 1 [0x50000 / 128] true).2 = true ∧ u.svcKind 1 0 (0x50000 / 128) = .none ∧
      ((recording .S c).svcAsk 1 0 1 [0x50000 / 128] true).2 = false) ∧
    (let c := { qCmd .started [0, 2] with done := true }; (queued [(qid, c)]).canComplete qid c = true ∧ pkQuiet c.pkt = true ∧ c.status = stOk) ∧
    (queued [(⟨1, 6, 1⟩, { qCmd .started [0] with done := true })]).canComplete ⟨1, 6, 1⟩ { qCmd .started [0] with done := true } = true := by
  decide +kernel

/-- Port 11 in a state, with its retry buffer. -/
def portAt (st : Nat) (r : List (Nat × BitVec 2048)) : State := (readyState.wr F.FAB_PORT_STAT_STATE st 11).setPort 11 { freshPort with retry := r, full := true }
/-- The flit of some bytes with its CRC. -/
def aFlit (seq kind ack nak first : Nat) (l : List Byte) : BitVec 2048 := mkFlit seq kind ack nak 0 0 first l
def kept1 : List (Nat × BitVec 2048) := [(0, 7)]
/-- A packet with a payload of two bytes. -/
def aPkt (t : FabTyp) (dst hops : Nat) : FabPkt := ⟨t, hops, dst, 9, false, 0, 3, 0, [1, 2]⟩
def arriving (port : Option Nat) (k : FabPkt) : State :=
  let s := portAt 2 []
  { s with fab := { s.fab with arrivals := [⟨port, 3, 0, k⟩] } }

theorem wit_PortsAndFlits_up : (portAt 2 []).portUp 11 = true ∧ (portAt 3 []).portUp 11 = true ∧ ((portAt 2 []).port 11).nak = false ∧
    ((portAt 2 []).port 11).expect = 0 ∧ ((portAt 2 []).port 11).egress.isEmpty = true ∧ ((portAt 2 []).port 11).rx.isEmpty = true := by
  decide +kernel

theorem wit_PortsAndFlits_bad (l : List Byte) (h : l = leBytes 256 (aFlit 1 1 0 0 0xFF []).toNat) :
    leAt l 0 2 / 4096 ≠ 0 ∧ leAt l 0 2 % 4096 ≠ 0 := by
  rw [h, aFlit, bytes_mkFlit _ _ _ _ _ _ _ _ (by decide)]; decide +kernel

theorem wit_PortsAndFlits_ack (l : List Byte) (h : l = leBytes 256 (aFlit 0 0 1 0 0xFF []).toNat) :
    leAt l 248 8 = (crc64 (l.take 248)).toNat ∧ leAt l 0 2 / 4096 = 0 ∧ (leAt l 2 2 % 4096 + 4096 - 0) % 4096 = kept1.length ∧
      bitsOf (leAt l 2 2) 12 1 = 0 := by
  refine ⟨by rw [h]; exact crc_mkFlit _ _ _ _ _ _ _ _ (by decide), ?_⟩
  rw [h, aFlit, bytes_mkFlit _ _ _ _ _ _ _ _ (by decide)]; decide +kernel

theorem wit_PortsAndFlits_nak (l : List Byte) (h : l = leBytes 256 (aFlit 0 0 0 1 0xFF []).toNat) :
    leAt l 248 8 = (crc64 (l.take 248)).toNat ∧ leAt l 0 2 / 4096 = 0 ∧ (leAt l 2 2 % 4096 + 4096 - 0) % 4096 = 0 ∧
      bitsOf (leAt l 2 2) 12 1 = 1 := by
  refine ⟨by rw [h]; exact crc_mkFlit _ _ _ _ _ _ _ _ (by decide), ?_⟩
  rw [h, aFlit, bytes_mkFlit _ _ _ _ _ _ _ _ (by decide)]; decide +kernel

theorem wit_PortsAndFlits_data (l : List Byte) (h : l = leBytes 256 (aFlit 0 1 0 0 0 (fabBytes (aPkt .ack 9 32))).toNat) :
    leAt l 248 8 = (crc64 (l.take 248)).toNat ∧ leAt l 0 2 / 4096 = 1 ∧ leAt l 0 2 % 4096 = 0 ∧ leAt l 6 1 = 0 ∧
      leAt l 8 1 ≠ 0 ∧ 16 + leAt l 16 2 < 240 ∧ leAt l (8 + (16 + leAt l 16 2)) 1 = 0 ∧ fabParse ((l.drop 8).take 240) = aPkt .ack 9 32 := by
  refine ⟨by rw [h]; exact crc_mkFlit _ _ _ _ _ _ _ _ (by decide), ?_⟩
  rw [h, aFlit, bytes_mkFlit _ _ _ _ _ _ _ _ (by decide)]; decide +kernel

theorem wit_PortsAndFlits_ports :
    (let s := { (readyState.wr F.FAB_MODULE_VALID 1).setDom domOn 603 with fab := { readyState.fab with seated := 0x800 } };
      s.on F.FAB_MODULE_VALID = true ∧ s.fab.seated.getLsbD 11 = true ∧ s.rd F.FAB_PORT_STAT_STATE 11 = 0 ∧
      s.rd F.PWR_DSTAT_STATE 603 = 2 ∧ bitsOf (s.rd F.RST_UNIT_PORT 3) 2 1 = 0 ∧ (s.wr F.FAB_PORT_CTL_EN 1 11).on F.FAB_PORT_CTL_EN 11 = true) ∧
    readyState.on F.FAB_MODULE_VALID = false ∧ (portAt 1 []).rd F.FAB_PORT_STAT_STATE 11 = 1 ∧ ((portAt 1 []).port 11).full = true ∧
    ((portAt 1 []).port 11).egress.isEmpty = true ∧ (portAt 1 []).on F.FAB_PORT_CTL_HALF_OK 11 = true ∧
    ((portAt 1 []).wr F.FAB_PORT_CTL_HALF_OK 0 11).on F.FAB_PORT_CTL_HALF_OK 11 = false ∧ (0xF7#8).toNat % 16 ≠ 15 ∧ (0xF7#8).toNat / 16 = 15 ∧
    (0x7F#8).toNat % 16 = 15 ∧ (0x77#8).toNat % 16 ≠ 15 ∧ (0x77#8).toNat / 16 ≠ 15 ∧
    (portAt 2 []).rd F.FAB_PORT_STAT_STATE 11 = 2 ∧ (portAt 2 []).rd F.FAB_PORT_STAT_LANE_FAIL 11 = 0 ∧ ((portAt 2 kept1).port 11).retry.isEmpty = false := by
  decide +kernel

theorem wit_PortsAndFlits_route :
    (arriving none (aPkt .ack 0 32)).on F.INT_ISL_STOPPED 3 = false ∧ ((arriving none (aPkt .ack 0 32)).wr F.INT_ISL_STOPPED 1 3).on F.INT_ISL_STOPPED 3 = true ∧
    (arriving none (aPkt .fin 9 0)).routes ⟨none, 3, 0, aPkt .fin 9 0⟩ = [] ∧
    (arriving none (aPkt .ack 0 32)).rd F.FAB_MODULE_MODULE = 0 ∧ (arriving (some 0) (aPkt .write 9 0)).routes ⟨some 0, 3, 0, aPkt .write 9 0⟩ = [] ∧
    (let s := arriving (some 0) (aPkt .write 9 1); let s := { s with fol := { s.fol with cur := { s.fol.cur with route := [(9, 0x800)] } } };
      s.routes ⟨some 0, 3, 0, aPkt .write 9 1⟩ = [11] ∧ s.bestPort (fabVc (aPkt .write 9 1)) [11] = some 11 ∧ (s.port 11).egress.isEmpty = true ∧
      (s.port 11).credits.length = 4 ∧ (s.port 11).canSend 0 (aPkt .write 9 0) = true) ∧
    (let s := (portAt 3 []).wr F.FAB_STAMP_CTL_EN 1; s.on F.FAB_STAMP_CTL_EN = true ∧ s.on F.FAB_MODULE_VALID = false ∧ s.fab.dists.isEmpty = true ∧
      (s.wr F.FAB_MODULE_VALID 1).rd F.FAB_MODULE_MODULE = s.rd F.FAB_STAMP_CTL_ROOT_MOD ∧ (s.wr F.FAB_MODULE_VALID 1).on F.FAB_MODULE_VALID = true) ∧
    readyState.on F.FAB_STAMP_STAT_ROOT = false ∧ (readyState.wr F.FAB_STAMP_STAT_ROOT 1).on F.FAB_STAMP_STAT_ROOT = true := by
  decide +kernel

/-- A packet of module 4095 delivered here over port 11, and a clerk awake on die 3. -/
def delivered (s : State) (t : FabTyp) (pseq : Nat) (l : List Byte) : State :=
  let s := s.setDom domOn 616
  { s with fab := { s.fab with here := [⟨some 11, 3, 0, ⟨t, 0, 0, 4095, false, 0, 7, pseq, l⟩⟩] } }
/-- A COPY's transfer of 256 bytes to module 4095, and an entry for one of its transfers. -/
def aSend (bound ended : Bool) (sent : Nat) : SendX :=
  ⟨.cmd qid, 4095, 3, 0, 1, 0, 0, 256, 0, false, .bytes (zeros 256), bound, false, sent, 0, ended⟩
def aRecv (ended : Bool) : RecvX := ⟨some 11, 3, 1, 1, 7, 0x20070, 16, 0, false, 0, [], [], [], [], none, ended, 0⟩
def sending (t : SendX) : State :=
  let s := engineOf aFill
  { s with fab := { s.fab with send := [(7, t)] } }
def receiving (t : RecvX) : State :=
  let s := engineOf aFill
  { s with
    xlt := { s.xlt with tlbs := [⟨.die 3, 1, 0x20, 1, 0x50, true, true, true, false, [0x20], 0⟩] }
    fab := { s.fab with recv := [((4095, 7), t)] } }
def aBind (h off : Nat) : List Byte := [1, 0, 0, 0] ++ leBytes 4 h ++ leBytes 8 off ++ leBytes 8 4096 ++ zeros 8

theorem wit_PeerTransfers_bind :
    (let s := delivered ((engineOf aFill).wr F.FAB_CTX_ACL_EN 1 1) .bind 0 (aBind 1 0); let s2 := s.wr F.FAB_CTX_ACL_LAST 4095 1;
      s.clerkAwake 3 = true ∧ s.rd F.FAB_CTX_ACL_LAST 1 < 4095 ∧ s2.on F.FAB_CTX_ACL_EN 1 = true ∧ s2.rd F.FAB_CTX_ACL_FIRST 1 ≤ 4095 ∧
      4095 ≤ s2.rd F.FAB_CTX_ACL_LAST 1 ∧ s2.fab.recv.length < 4096 ∧ submitFail (s2.ctxState 1) = none ∧ s2.moBinds 1 (s2.nextSeq 1) 0x100001 = false ∧
      s2.moBinds 1 (s2.nextSeq 1) 1 = true ∧ s2.pastEnd 1 1 4096 = true ∧ s2.pastEnd 1 0 4096 = false ∧ s2.moFull 1 = false ∧ submitFail (s2.ctxState 0) = some stObjGone ∧
      (s2.moVa 1 + 1) % redSize 1 ≠ 0 ∧ s.firstOf .bind = some ⟨some 11, 3, 0, ⟨.bind, 0, 0, 4095, false, 0, 7, 0, aBind 1 0⟩⟩ ∧
      (s.setDom domOff 616).clerkAwake 3 = false) ∧
    (aget (receiving (aRecv false)).fab.recv (4095, 7)).isSome = true ∧ 4096 ≤ (List.replicate 4096 ((0, 0), aRecv false)).length := by
  decide +kernel

theorem wit_PeerTransfers_send :
    aget (sending (aSend false false 0)).fab.send 7 = some (aSend false false 0) ∧ (aSend true true 1).total = 1 ∧
    (sending (aSend false false 0)).cmdOf qid = some (qCmd .started aFill) ∧
    (sending (aSend false false 0)).cmdWaits qid = false ∧ leAt (leBytes 2 stObjGone) 0 2 ≠ stOk ∧
    ([(FabTyp.bindOk, 0), (.bindFail, 0), (.ack, 1), (.done, 0), (.abort, 0)].all (fun p =>
      decide ((delivered (sending (aSend true true 1)) p.1 p.2 []).firstOf p.1 =
        some ⟨some 11, 3, 0, ⟨p.1, 0, 0, 4095, false, 0, 7, p.2, []⟩⟩))) = true ∧ (aSend true true 1).acked < 1 ∧ 1 ≤ (aSend true true 1).sent := by
  decide +kernel

theorem wit_PeerTransfers_receive :
    (let s := delivered (receiving (aRecv false)) .write 0 (zeros 16);
      s.firstOf .write = some ⟨some 11, 3, 0, ⟨.write, 0, 0, 4095, false, 0, 7, 0, zeros 16⟩⟩ ∧
      aget s.fab.recv (4095, 7) = some (aRecv false) ∧ s.recvWaits 1 (4095, 7) = false ∧ (aRecv false).got.contains 0 = false ∧
      0x20070 % 128 + (zeros 16).length ≤ 128 ∧ s.vaStop 3 1 accWrite 0x20070 16 = none ∧
      s.xlate 3 1 0x20070 accWrite = .pa 0x50070 ∧ s.coh.want.isEmpty = true) ∧
    (leAt (leBytes 4 0) 0 4 = (aRecv false).count ∧ (aRecv false).count < leAt (leBytes 4 1) 0 4 ∧ aget (receiving (aRecv false)).fab.send 7 = none) ∧
    { aRecv false with count := 1 }.count ≠ (aRecv false).told := by
  decide +kernel

/-- Core 511 and cluster 63 in the middle of their responses. -/
def inFaults : State :=
  let r : Rec := ⟨6, 1, 511, 0, 0, 0, 0, 0, 9⟩
  { readyState with rcv := { readyState.rcv with
    cores := [511], logs := [r, { r with action := 2, unit := 63 }], wb := [63], repart := [63], testing := [63], ucie := [7] } }

theorem wit_FaultResponses :
    inFaults.rcv.cores.contains 511 = true ∧ inFaults.unitBit F.RST_CORE_CORE (511 / 64) (511 % 64) = false ∧ inFaults.on F.REC_LOG_BASE_EN = false ∧
    (let s := inFaults.wr F.REC_LOG_BASE_EN 1; s.on F.REC_LOG_BASE_EN = true ∧
      (s.rcv.logs.find? (fun r => r.action == 1 && r.unit == 511)).isSome = true ∧
      (s.rd F.REC_LOG_PTR_HEAD + 1024 - s.rd F.REC_LOG_PTR_TAIL) % 1024 ≠ 512 ∧ s.linePoison 0 = .none) ∧
    inFaults.on F.REC_CNT_QUAR 63 = false ∧ (inFaults.wr F.REC_CNT_QUAR 1 63).on F.REC_CNT_QUAR 63 = true ∧ inFaults.flushing 63 = false ∧
    ({ inFaults with coh := { inFaults.coh with cc := [(⟨63, 9⟩, ⟨.OIb, false, 0, none, 0, 0, 3, none, .none, none, false, .none, none, false⟩)] } }.flushing 63) = true ∧
    inFaults.quarSettled 63 = false ∧ { inFaults with rcv := { inFaults.rcv with wb := [] } }.quarSettled 63 = true ∧
    (let s := (inFaults.setDom domOn 616).wr F.QSLOT_STAT_MAPPED 1 255; let s := s.wr F.QSLOT_STAT_CLERK 15 255;
      (List.range 4).find? (fun i => 15 / 4 * 4 + i != 15 && s.clerkIn (15 / 4 * 4 + i)) = some 0 ∧ s.on F.QSLOT_STAT_MAPPED 255 = true ∧
      s.rd F.QSLOT_STAT_CLERK 255 = 15) ∧
    inFaults.clerkAwake (63 / 16) = false ∧ (inFaults.setDom domOn 616).clerkAwake (63 / 16) = true ∧
    inFaults.rcv.logs.filter (fun x => x.action == 1 && x.unit / 8 == 63) = [⟨6, 1, 511, 0, 0, 0, 0, 0, 9⟩] ∧
    { inFaults with rst := { inFaults.rst with step := 9 } }.rst.step < 10 ∧ inFaults.rd F.REC_CNT_CONTAIN 63 = 0 ∧
    (inFaults.wr F.REC_CNT_CONTAIN 4 63).rd F.REC_CNT_CONTAIN 63 ≠ 0 ∧ inFaults.rcv.ucie.contains 7 = true ∧ inFaults.rcv.ucie.contains 6 = false ∧
    inFaults.rcv.ucie.contains (6 / 2 * 2 + (1 - 6 % 2)) = true ∧ inFaults.rcv.ucie.contains 0 = false ∧
    inFaults.rcv.ucie.contains (0 / 2 * 2 + (1 - 0 % 2)) = false ∧ inFaults.unitBit F.RST_UNIT_UCIE (7 / 2) (7 % 2) = false := by
  decide +kernel

/-- A descriptor with one range of 2 MiB, both targets at module 9, first epoch 5, for context 1; its snapshot. -/
def peerT : Nat := 2 ^ 50 + 9 * 2 ^ 32
def sDescr : List Byte := leBytes 8 peerT ++ zeros 8 ++ [1] ++ zeros 7 ++ leBytes 8 5 ++ zeros 32 ++ leBytes 8 0 ++ leBytes 8 (2 ^ 21)
  ++ leBytes 8 peerT ++ zeros 8 ++ zeros 480
def described (l : List Byte) : State :=
  let s := engineOf aFill
  { s with mem := cellsAt 0 l, lines := [(0, ⟨.none, 16⟩), (1, ⟨.none, 16⟩), (2, ⟨.none, 16⟩), (3, ⟨.none, 16⟩), (4, ⟨.none, 16⟩)] }
def aTgt : Tgt := ⟨0, 9, 0, true⟩
def aSnap (step : Nat) : Snap := ⟨aTgt, 0, [⟨0, 2 ^ 21, aTgt, 0⟩], 5, 5, [], [], 0, [], none, 0, false, step, false, false, none⟩
def snapped (x : Snap) : State :=
  let s := engineOf aFill
  { s with rcv := { s.rcv with snaps := [(1, x)] } }

theorem wit_SnapshotsAndPushes_enable :
    (let l := (described sDescr).rdBytes devKey 0 576;
      l.take 96 = sDescr.take 96 ∧ snapHeadBad l = false ∧ snapRangesBad l = false ∧ (snapRanges l).all (fun r => r.tgt.peer) = true ∧
      (tgtOf l 0).peer = true) ∧
    (described sDescr).on F.SNAP_CFG_EN 1 = false ∧ (described sDescr).ctxState 1 = ctxLive ∧ (described sDescr).poisonOf 0 96 = .none ∧
    snapHeadBad (zeros 576) = true ∧ (described sDescr).ctxState 2 = ctxFree ∧ ((described sDescr).sendsOf (.snap 1)).isEmpty = true ∧
    ((described sDescr).wr F.SNAP_CFG_EN 1 63).on F.SNAP_CFG_EN 63 = true := by
  decide +kernel

theorem wit_SnapshotsAndPushes_cut :
    (let s := snapped (aSnap 0); aget s.rcv.snaps 1 = some (aSnap 0) ∧ s.snapBusy (.snap 1) = false ∧ s.snapWaits 1 = false ∧
      s.rcv.writes.any (fun w => w.own == .snap 1) = false ∧ s.rd F.SNAP_CFG_CUT_MS 1 = 0 ∧
      (s.wr F.SNAP_CFG_CUT_MS 7 1).rd F.SNAP_CFG_CUT_MS 1 ≠ 0 ∧ (aSnap 0).ranges[0]? = some ⟨0, 2 ^ 21, aTgt, 0⟩ ∧ s.on F.XLT_CTX_EN 1 = true ∧
      (s.leafAt 1 0x10000).valid = true ∧ 0 ≤ (s.leafAt 1 0x10000).base ∧ (s.leafAt 1 0x10000).base + (s.leafAt 1 0x10000).size ≤ 2 ^ 21 ∧
      { aSnap 0 with once := [0x10000] }.wants ((tabledOn [] [] tableLines s 0x4001F).leafAt 1 0x10000) = false ∧
      (aSnap 0).wants (s.leafAt 1 0x10000) = true ∧
      s.pageBusy 0x40000 4096 = false ∧ (s.leafAt 1 0x10000).base < 0x11000 ∧ (s.cleanLeaf 1 (s.leafAt 1 0x10000)).isSome = true ∧
      (let lns := linesOf (s.leafAt 1 0x10000).pa 4096
       let u := { s with rcv := { s.rcv with reads := [(.snap 1, lns)] } }
       (u.readLines (.snap 1) 0 1 lns).2 = true ∧ (u.readLines (.snap 1) 0 1 lns).1.rcv.writes = [] ∧
         lns.all (fun ln => u.svcKind 1 0 ln == .none) = true) ∧
      { s with rcv := { s.rcv with writes := [⟨.snap 1, 0, 1, 0, []⟩] } }.snapBusy (.snap 1) = true) ∧
    (let s := snapped (aSnap 1); s.copiesRun 1 = true ∧ ({ s with cmd := { s.cmd with cmds := [] } }).copiesRun 1 = false ∧ s.isSaving 1 = false ∧
      s.stockGoing 1 = false ∧ (s.wr F.CTX_STAT_STATE ctxSaved 1).ctxState 1 = ctxSaved) ∧
    (let x := { aSnap 4 with mine := true }; aget (snapped x).rcv.snaps 1 = some x ∧ x.step = 4) := by
  decide +kernel

theorem wit_SnapshotsAndPushes_body (s : State) (h : s.fab.send = []) (k : Nat) (l : List Byte) :
    ∃ u, s.putTargets (.snap 1) 1 [⟨0, aTgt, k, l⟩] = .done u :=
  ⟨_, by simp [State.putTargets, h, aTgt]; rfl⟩

theorem wit_SnapshotsAndPushes_push :
    (let s := snapped (aSnap 0);
      s.on F.SNAP_PUSH_BUSY 15 = false ∧ (s.wr F.SNAP_PUSH_BUSY 1 15).on F.SNAP_PUSH_BUSY 15 = true ∧
      (let p : Push := ⟨0, false, 1, 0, 4096, 5, aTgt, 0, 1, 0⟩; p.len ≤ 4096 * p.next) ∧
      (let p : Push := ⟨0, true, 1, 0, 4096, 5, aTgt, 0, 1, 3⟩; p.err ≠ 0 ∧ p.err < 16 ∧ p.next ≠ 0) ∧ s.snapBusy (.push 15) = false ∧
      s.on F.SNAP_ADOPT_BUSY 63 = false ∧ s.nextSeq 1 = 7 ∧ s.ctxState 63 ≠ ctxLive) := by
  decide +kernel

/-- Object 0 of context 1, which has run nothing, holds a header whose body of no bytes is image 0 of this module. -/
def adopting (l : List Byte) : State :=
  let s := (engineOf aFill)
  let s := { s with
    mem := cellsAt 0x40000 l ++ s.mem.drop 16
    obj := { s.obj with ctxs := [(1, ⟨0, 0, none, false⟩)] }
    rcv := { s.rcv with adopt := [(1, (0, 0))] } }
  s

theorem wit_SnapshotsAndPushes_targets :
    (let s := onDev (adopting (leBytes 8 9)); let q : SnapRange := ⟨0, 2 ^ 21, ⟨0, 0, 1, false⟩, 0⟩;
      s.tagsHeld 1 5 q = true ∧ s.tgtShort 1 q.tgt q.off q.size = true ∧ s.tgtShort 1 q.tgt q.off 4096 = false) := by
  decide +kernel

theorem wit_SnapshotsAndPushes_adopt :
    (let l := leBytes 4 0x4E53584B ++ leBytes 2 1 ++ [0, 1] ++ zeros 24; let s := onDev (adopting l);
      aget s.rcv.adopt 1 = some (0, 0) ∧ s.ctxState 1 = ctxLive ∧ s.nextSeq 1 = 0 ∧ (aget s.obj.ctxs 1).isSome = true ∧
      s.moBinds 1 0 0 = true ∧ s.moBinds 1 0 0x100000 = false ∧ s.pastEnd 0 0 128 = false ∧ 
      (match { s with rcv := { s.rcv with reads := [(.adopt 1, s.vaLines 0 1 0x10000 128)] } }.snapRead (.adopt 1) 0 1 0x10000 128 with
        | .ok _ hd => decide (hd.take 8 = l.take 8)
        | _ => false) = true ∧ s.fol.step = 1 ∧
      s.imageFits 1 ⟨9, [], [], [], [], [], [], []⟩ = true) := by
  decide +kernel

/-- The module with unit bits set, home 15 under reset, and partition 0 under reset or not. -/
def inReset (parts : List Nat) : State :=
  let s := ((((readyState.wr F.RST_UNIT_CLUSTER 0x8000 3).wr F.RST_UNIT_CLERK 8 3).wr F.RST_UNIT_PORT 4 3).wr F.RST_UNIT_UCIE 2 3).wr
    F.RST_UNIT_DTC 1 3
  let s := ((s.wr F.RST_UNIT_COPY 1 3).wr F.RST_UNIT_SNAP 1 3).wr F.RST_UNIT_LEDGER 1 3
  { s with rst := { s.rst with homes := [(15, [])], parts := parts } }

theorem wit_Resets_module :
    State.reset.rst.power = true ∧ readyState.rst.power = true ∧ State.reset.rst.asserted = true ∧ State.reset.rst.hot = false ∧
    State.reset.imageOk State.reset.sec.image = false ∧ readyState.rst.asserted = false ∧ readyState.rd F.SEC_FW_STATE ≠ 2 ∧
    { readyState with sec := { readyState.sec with mgmtReset := true } }.sec.mgmtReset = true ∧ readyState.sec.mgmtReset = false ∧
    (let a : Arr := ⟨some 11, 3, 0, ⟨FabTyp.reset, 0, 0, 9, false, 0, 0, 0, zeros 142⟩⟩;
      { readyState with fab := { readyState.fab with here := [a] } }.firstOf FabTyp.reset = some a ∧
      leAt a.pkt.payload 0 1 = 0) := by
  decide +kernel

theorem wit_Resets_partition :
    (let s := readyState; (s.partDef 0).isSome = true ∧ s.partDef 15 = none ∧ (s.partDef 0).any (fun d => decide ((s.fol.cur.defs.filter (fun e => e.2.group == d.group)).map (fun e => e.1) = [0])) = true ∧
      (s.partDef 0).any (fun d => (inReset [0]).groupParts d.group == [0]) = true ∧ s.groupParts 0 = [] ∧ s.groupClusters 0 = [] ∧
      s.rst.parts.contains 0 = false ∧ (inReset [0]).rst.parts.contains 0 = true ∧ (inReset [0]).stk.keys.length = 17) ∧
    (let s := { inReset [0] with coh := { readyState.coh with cc := [(⟨63, 9⟩, ⟨.OIb, false, 0, none, 0, 0, 3, none, .none, none, false, .none, none, false⟩)] } };
      (s.partDef 0).any (fun d => (s.groupClusters d.group).filter (fun c => s.flushing c) == [63] &&
        !(s.flushAgain (s.groupClusters d.group)).ccEmpty 63) = true) ∧
    (let s := inReset [0]; (s.partDef 0).any (fun d => (s.groupClusters d.group).all (fun c => s.ccEmpty c && s.coh.reclaim.all (fun e => e.2 != c)))
      = true ∧ s.obj.ctxs.all (fun e => e.2.part != 0 || s.ctxState e.1 != ctxAborting) = true ∧ s.stk.upd.all (fun u => u.key != 0) = true) := by
  decide +kernel

theorem wit_Resets_units :
    (let s := readyState; s.heldOff 63 = false ∧ (s.wr F.REC_CNT_QUAR 1 63).heldOff 63 = true ∧ s.snapBusy (.snap 1) = false ∧ s.inPartReset 63 = false ∧
      s.rcv.cores.contains 511 = false ∧ s.finds.isEmpty = true ∧ s.clusterReset 63 = false ∧ s.unitBit F.RST_UNIT_UCIE 3 1 = false ∧
      s.rcv.ucie.contains (7 / 2 * 2 + (1 - 7 % 2)) = false ∧ (s.setDom domOn 616).clerkIn 12 = true ∧ aget s.rst.homes 15 = none ∧ (s.dieCopies 3).isEmpty = true) ∧
    (let s := engineOf aFill; let s := { s with cmd := { s.cmd with swqs := (s.cmd.swqs.map (fun (e : Nat × Swq) => (e.1, { e.2 with die := 3 }))) } };
      s.dieCopies 3 = [qid] ∧ s.cmdOf qid = some (qCmd .started aFill) ∧ (qCmd .started aFill).xfer = none ∧ (qCmd .started aFill).done = false) ∧
    ((snapped (aSnap 0)).rcv.snaps = [(1, aSnap 0)] ∧ (snapped (aSnap 0)).rcv.push.isEmpty = true) ∧
    (let s := inReset []; s.clusterReset 63 = true ∧ s.inPartReset 63 = false ∧ s.ccEmpty 63 = true ∧ s.rcv.testing.contains 63 = false ∧
      s.unitBit F.RST_UNIT_CLERK 3 3 = true ∧ s.on F.REC_LOG_BASE_EN = false ∧ (aget s.rst.homes 15).isSome = true ∧ s.homeIdle 15 = true ∧
      s.coh.dir.any (fun e => homeOf e.1 == 15) = false ∧ s.unitBit F.RST_UNIT_PORT 3 2 = true ∧ s.unitBit F.RST_UNIT_UCIE 3 1 = true ∧
      s.on F.RST_UNIT_DTC 3 = true ∧ s.on F.RST_UNIT_COPY 3 = true ∧ s.on F.RST_UNIT_SNAP 3 = true ∧ s.on F.RST_UNIT_LEDGER 3 = true) := by
  decide +kernel

/-- Domain `d` in a state, waited for by a gate command or not. -/
def gated (d st : Nat) (l : List Nat) (off : Bool) : State :=
  let s := readyState.setDom st d
  { s with pwr := { s.pwr with gate := l, gateOff := off } }

theorem wit_PowerAndClocks_gate :
    readyState.on F.PWR_GATE_STAT_BUSY = false ∧ (readyState.wr F.PWR_GATE_STAT_BUSY 1).on F.PWR_GATE_STAT_BUSY = true ∧
    (readyState.wr F.REC_CNT_QUAR 1 63).domQuar 511 = true ∧ readyState.domQuar 511 = false ∧ (gated 512 domOn [] false).dom 512 = domOn ∧
    (gated 600 domOn [] false).gateCond 600 = true ∧ ((gated 600 domOn [] false).wr F.FAB_PORT_CTL_EN 1 8).gateCond 600 = false ∧
    (gated 619 domOn [] false).dom 619 = domOn ∧ (gated 619 domOn [] false).gateCond 619 = true ∧ (gated 511 domOn [] false).gateCond 511 = true ∧
    (gated 511 domOn [] false).coh.l1.isEmpty = true ∧ readyState.dom 511 = domOff ∧ (gated 604 domOff [] false).dom 0 = domOff ∧
    (gated 511 domWaking [511] false).dom 511 = domWaking ∧ (gated 511 domWaking [511] false).pwr.gate = [511] ∧
    (gated 619 domWaking [] false).pwr.gate.isEmpty = true ∧ (gated 511 domDraining [511] true).dom 511 = domDraining ∧
    (gated 511 domDraining [511] true).coh.aq.isEmpty = true ∧ (gated 511 domDraining [511] true).coh.am.isEmpty = true ∧
    (gated 619 domDraining [] true).dom 619 = domDraining ∧ (gated 511 domOn [] false).on F.PWR_POLICY_AUTO = true ∧
    ((gated 511 domOn [] false).wr F.PWR_POLICY_AUTO 0).on F.PWR_POLICY_AUTO = false ∧ (gated 511 domOn [] false).pwr.stopped.contains 511 = false ∧ (gated 511 domOn [] false).coreReady 511 = false := by
  decide +kernel

/-- The loop with its target, cap, mean and limit. -/
def looped (clk cap mean lim : Nat) : State :=
  (((readyState.wr F.PWR_CLK_TARGET clk).wr F.PWR_CLK_MX_CAP cap).wr F.PWR_AVG_W10MS mean).wr F.PWR_LIMIT_WATTS lim

theorem wit_PowerAndClocks_loop :
    (looped 601 0 1001 1000).rd F.PWR_LIMIT_WATTS < (looped 601 0 1001 1000).rd F.PWR_AVG_W10MS ∧ 600 < (looped 601 0 1001 1000).rd F.PWR_CLK_TARGET ∧
    (looped 601 0 1001 1000).rd F.PWR_CLK_TARGET ≤ (looped 601 0 1001 1000).clkTop ∧ (looped 600 2 1001 1000).rd F.PWR_CLK_TARGET ≤ 600 ∧
    (looped 600 2 1001 1000).rd F.PWR_CLK_MX_CAP < 3 ∧ 9 ≤ (looped 600 2 1001 1000).pwr.sinceCap ∧ (looped 600 3 1001 1000).rd F.PWR_CLK_MX_CAP = 3 ∧
    100 * (looped 600 1 969 1000).rd F.PWR_AVG_W10MS < 97 * (looped 600 1 969 1000).rd F.PWR_LIMIT_WATTS ∧
    (List.range 4).all (fun d => (looped 600 1 969 1000).dieTemp d ≤ 105) = true ∧ 9 ≤ (looped 600 1 969 1000).pwr.since ∧
    (looped 600 1 970 1000).rd F.PWR_AVG_W10MS ≤ (looped 600 1 970 1000).rd F.PWR_LIMIT_WATTS ∧
    97 * (looped 600 1 970 1000).rd F.PWR_LIMIT_WATTS ≤ 100 * (looped 600 1 970 1000).rd F.PWR_AVG_W10MS ∧ State.reset.rst.asserted = true ∧
    State.reset.rd F.PWR_CLK_TARGET ≤ 1500 ∧ State.reset.rd F.PWR_CLK_TARGET ≤ State.reset.clkTop ∧ 4199 * 10000 % 10000 = 0 := by
  decide +kernel

theorem wit_PowerAndClocks_rest :
    readyState.rst.power = true ∧ readyState.rst.asserted = false ∧ (List.range 4).all (fun d => d == 3 || State.reset.dieTemp d < 90) = true ∧
    (gated 575 domOn [] false).dom (512 + 63) = domOn ∧ readyState.dom (512 + 63) ≠ domOn ∧ readyState.clkTrim 63 = 0 ∧
    { readyState with pwr := { readyState.pwr with slow := [(63, 1)] } }.clkTrim 63 ≠ 0 ∧ readyState.rd F.DROOP_CNT_STEPS 63 = 0 ∧
    (readyState.wr F.DROOP_CNT_STEPS 15 63).rd F.DROOP_CNT_STEPS 63 ≠ 0 ∧ (readyState.wr F.UCIE_STAT_STATE 5 7).rd F.UCIE_STAT_STATE 7 = 5 ∧
    (readyState.wr F.UCIE_STAT_STATE 8 7).rd F.UCIE_STAT_STATE 7 = 8 ∧ readyState.rd F.UCIE_STAT_STATE 7 ≠ 5 ∧ readyState.rd F.UCIE_STAT_STATE 7 ≠ 8 := by
  decide +kernel

/-- Die 3's ledger, enabled in a mode for context 1 of partition 0, with a writer. -/
def ledgered (mode : Nat) (l : Led) : State :=
  let s := (((readyState.wr F.LED_CFG_EN 1 3).wr F.LED_CFG_MODE mode 3).wr F.LED_CFG_CTX 1 3).wr F.LED_BASE_BASE 5 3
  { s with
    tal := { s.tal with leds := [(3, l)], inflight := [⟨511, 0, 9, 1, 7, tcid⟩], smp := [(511, 64, 64)], tags := [(511, tcid)], last := [(⟨511, 0⟩, 9, 1)] }
    obj := { s.obj with ctxs := [(1, ⟨0, 0, none, false⟩)] } }
def aLed : Led := ⟨[zeros 64], [], none, none, false, false, some 2, none, 5⟩
/-- The same with a service cluster whose cache is on. -/
def served3 (l : Led) : State :=
  let s := ledgered 1 l
  (List.range 64).foldl (fun s c => s.setDom domOn (512 + c)) s

theorem wit_CountersAndLedger_counters :
    (7 < setCounters 147 ∧ ((readyState.wr F.TAL_CTL_EN 1 (talSet 3 147)).setDom domOn 591).counts 3 147 = true ∧
      eventListed 147 (((readyState.wr F.TAL_SEL_EVENT 0x201 (talSet 3 147) 7).rd F.TAL_SEL_EVENT (talSet 3 147) 7)) = true ∧ readyState.dom (talDomain 3 147) ≠ domOn ∧
      eventListed 147 (readyState.rd F.TAL_SEL_EVENT (talSet 3 147) 7) = false ∧ (running (tgrp 0) none).fenceDevOpen g0 = false ∧
      readyState.on F.TAL_CTL_EN (talSet 3 147) = false) ∧
    (running (tgrp 0) none).Issues g0 (tgrp 0) (tblk 1) tcmd [14, 14 + 1] ∧ (lanesOf (tgrp 0).active).head? = some 0 ∧
    (running (tgrp 0) none).on F.TAL_CTL_EN (coreSet 0) = false ∧ (running (tgrp 0) none).on F.LED_CFG_EN 0 = false ∧
    ((running (tgrp 0) none).wr F.LED_CFG_EN 1 0).clusterPart 0 = ((running (tgrp 0) none).wr F.LED_CFG_EN 1 0).ctxPart 0 ∧
    ((running (tgrp 0) none).wr F.LED_CFG_EN 1 0).on F.LED_CFG_EN 0 = true := by
  unfold State.Issues; decide +kernel

theorem wit_CountersAndLedger_samples :
    (let s := ledgered 1 aLed; aget s.tal.last ⟨511, 0⟩ = some (9, 1) ∧ aget s.tal.tags 511 = some tcid ∧
      s.on F.TAL_SMP_EN (coreSet 511) = false ∧ (s.wr F.TAL_SMP_EN 1 (coreSet 511)).on F.TAL_SMP_EN (coreSet 511) = true ∧
      s.tal.inflight.any (fun t => t.core == 511) = true ∧ s.smpDue 511 = true ∧ s.smpDue 510 = false ∧ (readyState.tal.inflight.any (fun t => t.core == 511)) = false ∧
      s.tal.inflight.find? (fun t => t.core == 511) = some ⟨511, 0, 9, 1, 7, tcid⟩ ∧ s.tal.inflight.find? (fun t => t.core == 510) = none ∧
      s.clusterPart 63 = s.ctxPart (s.rd F.LED_CFG_CTX 3) ∧ s.rd F.LED_START_STAMP 3 ≤ 7 ∧ s.rd F.LED_END_STAMP 3 = 0 ∧
      s.on F.LED_PTR_FULL 3 = false ∧ (s.led 3).stopped = false ∧ (s.led 3).queue.length < 256 ∧
      256 ≤ ((ledgered 1 { aLed with queue := List.replicate 256 (zeros 64) }).led 3).queue.length ∧ s.rd F.LED_INT_PERIOD_NS 3 = 0) ∧
    (let s := ((((ledgered 1 aLed).wr F.LED_INT_PERIOD_NS 1 3).wr F.TAL_CTL_LEDGER 1 (talSet 3 150)).wr F.TAL_GLOBAL_SHARED 1);
      s.rd F.LED_INT_PERIOD_NS 3 ≠ 0 ∧ (s.led 3).k = some 2 ∧ s.tal.merged = [] ∧ s.on F.LED_TRIG_ARMED 3 = false ∧ s.on F.TAL_GLOBAL_SHARED = true ∧
      (List.range 151).all (fun i => s.on F.TAL_CTL_LEDGER (talSet 3 i) == (i == 150)) = true) := by
  decide +kernel

theorem wit_CountersAndLedger_writer :
    ((ledgered 1 { aLed with trig := [zeros 64] }).led 3).trig.head? = some (zeros 64) ∧
    ((ledgered 1 aLed).svcWrite 1 3 7 ((ledgered 1 aLed).ctxKey 1) (5 * 65536 + 64) (zeros 64) .none).isNone = true ∧
    ((served3 aLed).svcWrite 1 3 7 ((served3 aLed).ctxKey 1) (5 * 65536 + 64) (zeros 64) .none).isSome = true ∧
    ((served3 { aLed with out := some (4, .record) }).led 3).out = some (4, .record) ∧ ((served3 aLed).led 2).out = none ∧
    ((served3 aLed).led 3).post = none ∧ (served3 aLed).thr.ops.all (fun o => o.ser != 4) = true ∧
    (served3 aLed).cmd.cmds.all (fun e => !e.2.outs.contains 4) = true ∧ (served3 aLed).rcv.outs.all (fun e => e.1 != 4) = true ∧
    ((ledgered 1 aLed).led 3).trig = [] ∧ ((served3 aLed).wayClear 63 (homeOf 5)) ∧ ((served3 { aLed with out := some (4, .trig) }).led 3).out = some (4, .trig) ∧ ((ledgered 1 aLed).led 3).queue = [zeros 64] ∧ (ledgered 1 aLed).rd F.LED_CFG_MODE 3 ≠ 0 ∧
    (ledgered 1 aLed).rd F.LED_CFG_WM_LOG 3 = 0 ∧ ((ledgered 1 { aLed with stopped := true, closing := true }).led 3).closing = true ∧
    ((ledgered 1 { aLed with queue := [] }).led 3).queue.isEmpty = true ∧ ((ledgered 0 { aLed with gap := some (1, 2, 3) }).led 3).gap = some (1, 2, 3) ∧
    ((ledgered 0 aLed).wr F.LED_PTR_FULL 1 3).on F.LED_PTR_FULL 3 = true ∧ (ledgered 1 aLed).on F.LED_CFG_EN 3 = true ∧
    readyState.on F.LED_CFG_EN 3 = false ∧ readyState.on F.LED_TRIG_ARMED 3 = false ∧
    (let s := ((ledgered 2 aLed).wr F.LED_TRIG_ARMED 1 3).wr F.LED_CFG_POST 7 3; s.on F.LED_TRIG_ARMED 3 = true ∧ s.rd F.LED_CFG_MODE 3 = 2 ∧
      0 < s.rd F.LED_CFG_POST 3) := by
  unfold State.wayClear; decide +kernel

/-- Context 1 attached, its group 0 as `x`, the selection at register or item `k` of a kind. -/
def debugged (x : Group) (kind k : Nat) : State :=
  ((((running x none).wr F.DBG_ATTACH_EN 1 1).wr F.DBG_SEL_KIND kind).wr F.DBG_SEL_INDEX k).wr F.DBG_SEL_LANE 31
/-- An access of group 0 that waits on the blotter, writing register 8. -/
def stuckOp : MemOp := ⟨1, g0, tcid, 0, .ld, .blk, false, false, 8, 4, .dev, .none, [⟨31, 0, 0, 0, 0, 0, .quire 7 0⟩]⟩

theorem wit_Debugging_control :
    (running (tgrp 0) none).on F.DBG_ATTACH_EN 1 = false ∧ (debugged (tgrp 0) 0 0).on F.DBG_ATTACH_EN 1 = true ∧
    ((readyState.wr F.DBG_LOCK_STATE 2).wr F.DBG_LOCK_PMASK 1).inScope 63 = true ∧ readyState.inScope 63 = false ∧
    (debugged (tgrp 0) 0 0).on F.DBG_STAT_VALID = false ∧ (debugged (tgrp 0) 0 0).groupOfCtx 1 g1 = none ∧
    (debugged (tgrp 0) 0 0).groupOfCtx 1 g0 = some (tgrp 0) ∧ (tgrp 0).halt = 0 ∧ (tgrp 0).wait = .ready ∧
    (debugged atRegroup 0 0).groupOfCtx 1 g0 = some atRegroup ∧ (debugged { tgrp 0 with wait := .bar 15 } 0 0).groupOfCtx 1 g0 = some { tgrp 0 with wait := .bar 15 } ∧
    (debugged { tgrp 0 with halt := 3 } 0 0).groupOfCtx 1 g0 = some { tgrp 0 with halt := 3 } ∧
    (debugged { tgrp 0 with halt := 5 } 0 0).groupOfCtx 1 g0 = some { tgrp 0 with halt := 5 } := by
  decide +kernel

theorem wit_Debugging_events :
    (let x := { tgrp 0 with halt := 1, evt := 1 }; (debugged x 0 0).group g0 = some x ∧ (debugged x 0 0).heldByFault g0 x tcid = false ∧
      (debugged x 0 0).resultsOut g0 x = false ∧ (debugged x 0 0).thr.ops.any (fun o => x.inOp g0 o && o.op != .fence) = false ∧
      (debugged { x with wait := .mem } 0 0).resultsOut g0 { x with wait := .mem } = true ∧ (aget (debugged x 0 0).dbg.evts 1).isNone = true ∧
      (let s := { debugged x 0 0 with thr := { (debugged x 0 0).thr with ops := [stuckOp] } }; s.heldByFault g0 x tcid = true ∧ s.group g0 = some x)) ∧
    (let x := { tgrp 0 with stepping := 3 }; (debugged x 0 0).group g0 = some x ∧ (debugged x 0 0).waitsFault g0 x = false ∧ x.live ≠ 0) ∧
    readyState.evtHead 63 = none ∧ aget ({ readyState with dbg := { readyState.dbg with evts := [(63, [⟨1, false, false, 0, 0, 0, 9⟩])] } }).dbg.evts 63 =
      some [⟨1, false, false, 0, 0, 0, 9⟩] := by
  decide +kernel

theorem wit_Debugging_items :
    (let s := debugged (tgrp 0) 0 15; s.rd F.DBG_SEL_CORE = g0.core ∧ s.rd F.DBG_SEL_SLOT = g0.slot ∧ s.rd F.DBG_SEL_LANE = 31 ∧
      s.rd F.DBG_SEL_INDEX = 15 ∧ s.rd F.DBG_SEL_KIND = 0 ∧ s.group g0 = some (tgrp 0) ∧ (s.wr F.DBG_ATTACH_EN 0 1).on F.DBG_ATTACH_EN 1 = false ∧
      15 < 8 * (tgrp 0).pages.length ∧ 8 * (tgrp 0).pages.length ≤ 16) ∧
    (debugged { tgrp 0 with halt := 1 } 2 1).rd F.DBG_SEL_KIND = 2 ∧ (debugged { tgrp 0 with halt := 1 } 2 1).rd F.DBG_SEL_INDEX = 1 ∧
    (debugged (tgrp 0) 3 0).rd F.DBG_SEL_KIND = 3 := by
  decide +kernel

theorem wit_Debugging_lock :
    readyState.rd F.DBG_LOCK_STATE = 0 ∧ (readyState.wr F.DBG_LOCK_STATE 1).rd F.DBG_LOCK_STATE = 1 ∧
    (readyState.wr F.DBG_LOCK_STATE 1).tokenOk = false ∧ ((readyState.wr F.DBG_LOCK_STATE 1).wr F.DBG_LOCK_FAILS 2).rd F.DBG_LOCK_FAILS = 2 ∧
    (readyState.wr F.DBG_LOCK_STATE 2).rd F.DBG_LOCK_STATE = 2 := by
  decide +kernel

/-- The module with its firmware in a state and an SPDM exchange at a place. -/
def firm (st spdm : Nat) (got : Option (List Byte)) (w : Nat) : State :=
  let s := readyState.wr F.SEC_FW_STATE st
  { s with sec := { s.sec with spdm := spdm, received := got, writing := w } }

theorem wit_FirmwareAndAttestation :
    (firm 0 0 none 0).serves = true ∧ (firm 0 0 none 0).rst.asserted = false ∧ (firm 0 0 none 0).rd F.SEC_FW_STATE ≠ 1 ∧
    (firm 1 0 none 0).serves = true ∧ (firm 1 0 none 0).rd F.SEC_FW_STATE = 1 ∧ (firm 1 0 none 0).sec.writing = 0 ∧
    (firm 1 0 (some [7]) 2).sec.received = some [7] ∧ (firm 1 0 (some [7]) 1).sec.writing ≠ 2 ∧ (firm 2 0 none 0).recovering = true ∧
    ({ firm 2 0 none 0 with rst := { readyState.rst with step := 6 } }).recovering = true ∧ (firm 0 0 none 0).recovering = false ∧
    (firm 2 3 none 0).serves = false ∧ (firm 0 1 none 0).sec.spdm < 2 ∧ 2 ≤ (firm 0 2 none 0).sec.spdm ∧ 3 ≤ (firm 0 3 none 0).sec.spdm ∧
    (firm 0 2 none 0).sec.spdm < 3 ∧ bitsOf 0x800 11 1 = 1 ∧ bitsOf 0x20 5 1 = 1 ∧ bitsOf 0x7FF 11 1 = 0 ∧ bitsOf 0x1F 5 1 = 0 := by
  decide +kernel

theorem wit_ManagementRequests :
    readyState.rst.power = true ∧ leAt [1, 0, 8] 0 1 = 1 ∧ leAt [2] 0 1 = 2 ∧ (firm 2 0 none 0).recovering = true ∧ readyState.recovering = false ∧
    readyState.serves = true ∧ readyState.stk.full.contains 15 = false ∧
    { readyState with stk := { readyState.stk with full := [15] } }.stk.full.contains 15 = true ∧ readyState.sec.cal.isNone = true ∧
    ({ readyState with sec := { readyState.sec with cal := some ⟨[1], 2, 1, false⟩ } }).sec.cal.isSome = true ∧
    readyState.on F.REC_LOG_BASE_EN = false ∧ (let s := ((readyState.wr F.REC_LOG_BASE_EN 1).wr F.REC_LOG_PTR_HEAD 512).wr F.REC_LOG_PTR_TAIL 511
      s.on F.REC_LOG_BASE_EN = true ∧ s.rd F.REC_LOG_PTR_HEAD = s.rd F.REC_LOG_PTR_TAIL + 1) ∧
    readyState.sec.writing = 0 ∧ readyState.rd F.FOLIO_STAT_PHASE ≠ phPersist ∧ (firm 1 0 (some [7]) 2).sec.writing ≠ 0 ∧ (zeros 8).length = 8 := by
  decide +kernel


/-! ### Well-formedness: an ill-formed command for each check is refused, its neighbour at the boundary is not -/

theorem test_illformed_thread_operands :
    [Instr.coreClockStop 512, .rsync ⟨512, 0⟩, .rsync ⟨511, 64⟩, .lpeer g0 256 0, .lvoteEvery g0 16 0, .lvoteEvery g0 0 16, .ld g0 0 0 3 .dev Found.none,
      .mxAdvance 0 2, .portEnable 12, .laneFail 0 8].all (fun c => !c.wf) = true ∧
    [Instr.coreClockStop 511, .rsync ⟨511, 63⟩, .lpeer g0 255 0, .lvoteEvery g0 15 15, .ld g0 255 255 16 .dev Found.none, .mxAdvance 511 1, .portEnable 11,
      .laneFail 11 7].all Instr.wf = true := by decide +kernel

theorem test_illformed_memory_operands :
    [Instr.registerWrite (.host 8) 0 8 0, .registerWrite (.host 7) 0x10000000 8 0, .registerWrite (.host 7) 0 2 0, .hostRead 0 17 0 1,
      .hostRead 0 16 (2 ^ 57) 1, .stackRead 0x2540BE400 .ok, .stackRead 0 (.corrected 4), .stackRead 0 (.bad 4), .refreshCommand 16, .rds 85 0,
      .droopDetect 64].all (fun c => !c.wf) = true ∧
    [Instr.registerWrite (.host 7) 0xFFFFFFF 4 0, .hostRead 7 16 (2 ^ 57 - 1) 1, .stackRead 0x2540BE3FF (.corrected 3), .refreshCommand 15, .rds 84 0,
      .droopDetect 63].all Instr.wf = true := by decide +kernel

theorem test_illformed_system_operands :
    [Instr.qosAdjWrite 3 0 0, .qosAdjWrite 0 16 0, .wayAdjWrite 0 8 0, .swqDoorbell 4096 0, .queueUnmap 256 0 false, .snapPushGo 16, .tlSig .connector 4096 0,
      .noteSig .connector 65536 0, .watcherFire 256, .intEvent 2047, .intClaim 81, .fabAckTimer 256 0, .fabAckTimer 0 65536, .clerkWdt 16,
      .unitResetRelease 4 0, .unitResetRelease 0 33, .domainWakeDone 640, .counterWrap 0 151 0, .haltAll 64].all (fun c => !c.wf) = true ∧
    [Instr.qosAdjWrite 2 15 0, .wayAdjWrite 15 7 0, .swqDoorbell 4095 0, .snapPushGo 15, .tlSig .connector 4095 0, .noteSig .connector 65535 0,
      .watcherFire 255, .intEvent 2046, .intClaim 80, .fabAckTimer 255 65535, .clerkWdt 15, .unitResetRelease 3 32, .domainWakeDone 639,
      .counterWrap 3 150 0, .haltAll 63].all Instr.wf = true := by decide +kernel

/-- The table gives no row any bits, so no word spells a command. -/
theorem test_no_word_spells_a_command : decodeTableWord 32 0x12345678 = none ∧ (State.reset.withFetchWord 32 7).pending = [] := by
  decide +kernel

end Sys2Proof.Machine.Tests
end

section
/-! SUPPORT. What a register write does bit by bit (00_scope.md R9, R10): the bits a write reaches in a field, each access code
on one bit, and the bits that no field covers. -/

namespace Sys2Proof.Machine

/-- The bits of a field that a write of the bits of `m` reaches. -/
def Field.reached (f : Field) (m : W64) : W64 := BitVec.ofNat 64 ((2 ^ f.wid - 1) * 2 ^ f.lo) &&& m

theorem Field.getLsbD_reached (f : Field) (m : W64) (k : Nat) (h : f.lo + f.wid ≤ 64) :
    (f.reached m).getLsbD k = true ↔ f.lo ≤ k ∧ k < f.lo + f.wid ∧ m.getLsbD k = true := by
  have hb : k < 64 ∧ f.lo ≤ k ∧ k - f.lo < f.wid ↔ f.lo ≤ k ∧ k < f.lo + f.wid := by omega
  have hm : (BitVec.ofNat 64 ((2 ^ f.wid - 1) * 2 ^ f.lo)).getLsbD k = true ↔ f.lo ≤ k ∧ k < f.lo + f.wid := by
    rw [← hb]
    simp [BitVec.getLsbD_ofNat, Nat.testBit_mul_two_pow, Nat.testBit_two_pow_sub_one]
  rw [Field.reached, BitVec.getLsbD_and, Bool.and_eq_true, hm, and_assoc]

/-! One equation for each access code of Table 0.2. -/

theorem Field.write_ro (lo wid : Nat) (old v m : W64) : Field.write ⟨lo, wid, .ro⟩ old v m = old := rfl

theorem Field.write_wo (lo wid : Nat) (old v m : W64) : Field.write ⟨lo, wid, .wo⟩ old v m = old := rfl

theorem Field.write_rw (lo wid : Nat) (old v m : W64) : Field.write ⟨lo, wid, .rw⟩ old v m =
    (old &&& ~~~(Field.reached ⟨lo, wid, .rw⟩ m)) ||| (v &&& Field.reached ⟨lo, wid, .rw⟩ m) := rfl

theorem Field.write_w1c (lo wid : Nat) (old v m : W64) : Field.write ⟨lo, wid, .w1c⟩ old v m =
    old &&& ~~~(v &&& Field.reached ⟨lo, wid, .w1c⟩ m) := rfl

theorem Field.write_w1s (lo wid : Nat) (old v m : W64) : Field.write ⟨lo, wid, .w1s⟩ old v m =
    old ||| (v &&& Field.reached ⟨lo, wid, .w1s⟩ m) := rfl

/-- A bit of a word cleared where another word has it set. -/
theorem getLsbD_and_not (x y : W64) (k : Nat) : (x &&& ~~~y).getLsbD k = (x.getLsbD k && !y.getLsbD k) := by
  by_cases hk : k < 64
  · simp [hk]
  · simp [BitVec.getLsbD_of_ge x k (by omega)]

/-- A bit that a write reaches takes the value its field's access code gives it; every other bit stays. -/
theorem Field.getLsbD_write (f : Field) (old v m : W64) (k : Nat) (h : f.lo + f.wid ≤ 64) :
    (f.write old v m).getLsbD k =
      if f.lo ≤ k ∧ k < f.lo + f.wid ∧ m.getLsbD k then
        (match f.acc with
        | .ro => old.getLsbD k
        | .wo => old.getLsbD k
        | .rw => v.getLsbD k
        | .w1c => old.getLsbD k && !v.getLsbD k
        | .w1s => old.getLsbD k || v.getLsbD k)
      else old.getLsbD k := by
  rw [if_congr (f.getLsbD_reached m k h).symm rfl rfl]
  obtain ⟨lo, wid, acc⟩ := f
  cases acc with
  | ro => simp [Field.write_ro]
  | wo => simp [Field.write_wo]
  | rw =>
    rw [Field.write_rw, BitVec.getLsbD_or, getLsbD_and_not, BitVec.getLsbD_and]
    split <;> simp [*]
  | w1c =>
    rw [Field.write_w1c, getLsbD_and_not, BitVec.getLsbD_and]
    split <;> simp [*]
  | w1s =>
    rw [Field.write_w1s, BitVec.getLsbD_or, BitVec.getLsbD_and]
    split <;> simp [*]

theorem Field.getLsbD_write_outside (f : Field) (old v m : W64) (k : Nat) (h : f.lo + f.wid ≤ 64)
    (hk : ¬ (f.lo ≤ k ∧ k < f.lo + f.wid)) : (f.write old v m).getLsbD k = old.getLsbD k := by
  rw [f.getLsbD_write old v m k h, if_neg (fun hc => hk ⟨hc.1, hc.2.1⟩)]

/-- Writing a list of fields one after another keeps a bit that lies in none of them. -/
theorem getLsbD_foldl_write_outside (l : List Field) (old v m : W64) (k : Nat)
    (h : ∀ f ∈ l, f.lo + f.wid ≤ 64 ∧ ¬ (f.lo ≤ k ∧ k < f.lo + f.wid)) :
    (l.foldl (fun x f => f.write x v m) old).getLsbD k = old.getLsbD k := by
  induction l generalizing old with
  | nil => rfl
  | cons f l ih =>
    obtain ⟨⟨hf, hk⟩, hl⟩ := List.forall_mem_cons.mp h
    rw [List.foldl_cons, ih _ hl, f.getLsbD_write_outside old v m k hf hk]

/-- Reserved bits of a register stay as they are (R10). -/
theorem RegDesc.getLsbD_write_reserved (d : RegDesc) (old v m : W64) (k : Nat)
    (h : ∀ f ∈ d.fields, f.lo + f.wid ≤ 64 ∧ ¬ (f.lo ≤ k ∧ k < f.lo + f.wid)) :
    (d.write old v m).getLsbD k = old.getLsbD k :=
  getLsbD_foldl_write_outside d.fields old v m k h

/-- Settles O14: each access code bit by bit, and an induction over the register's list of fields for the reserved bits. -/
theorem accessCodes : Obligations.AccessCodes := by
  unfold Obligations.AccessCodes
  exact ⟨Field.getLsbD_write, RegDesc.getLsbD_write_reserved⟩

end Sys2Proof.Machine
end

section
/-! SUPPORT. The folio (02_folio.md): what the steps of a load do to FOLIO_STAT, the folio in force and memory, and the writes
that adjust QoS shares and ways at runtime. -/

namespace Sys2Proof.Machine

/-! ### Fields that a write leaves, and fields written at each of their indices -/

/-- A field of another register, or one that shares no bit with the field written, keeps its value. -/
theorem State.rd_wr_apart (s : State) {f g : Fld} (v i j i' j' : Nat) (hf : f.lo + f.wid ≤ 64)
    (h : f.reg ≠ g.reg ∨ g.lo + g.wid ≤ f.lo ∨ f.lo + f.wid ≤ g.lo) : (s.wr f v i j).rd g i' j' = s.rd g i' j' := by
  by_cases hk : (f.reg, i, j) = (g.reg, i', j')
  · obtain ⟨hr, rfl, rfl⟩ : f.reg = g.reg ∧ i = i' ∧ j = j' := by simpa using hk
    exact s.rd_wr_disjoint f g v i j hf hr (h.resolve_left (not_not.mpr hr))
  · exact s.rd_wr_ne f g v i j i' j' hk

theorem State.reg_wr_ne (s : State) (f : Fld) (v i j : Nat) {r : Reg} (i' j' : Nat) (h : f.reg ≠ r) :
    (s.wr f v i j).reg r i' j' = s.reg r i' j' :=
  s.reg_setReg_ne _ _ _ _ _ _ _ (fun e => h (congrArg Prod.fst e))

theorem b2n_mod_two (b : Bool) : b2n b % 2 = b2n b := by cases b <;> rfl

/-- A field written at each index of a list holds, at an index of the list, what was written there. -/
theorem State.rd_foldl_wr (f : Fld) (v : Nat → Nat) (l : List Nat) (n : Nat) (s : State) (hf : f.lo + f.wid ≤ 64) (hn : n ∈ l) :
    (l.foldl (fun s n => s.wr f (v n) n) s).rd f n = v n % 2 ^ f.wid := by
  induction l using List.reverseRecOn with
  | nil => cases hn
  | append_singleton l a ih =>
    rw [List.foldl_concat]
    by_cases ha : a = n
    · subst ha
      exact State.rd_wr_self _ f _ _ _ hf
    · have hl : n ∈ l := by simpa [Ne.symm ha] using hn
      rw [State.rd_wr_ne _ _ _ _ _ _ _ _ (by simpa using ha), ih hl]

/-! ### The end of a load -/

theorem State.loadEnd_fol (s : State) : s.loadEnd.fol = { s.fol with next := none, img := [] } := by
  simp [State.loadEnd]

theorem State.rd_loadEnd_phase (s : State) : s.loadEnd.rd F.FOLIO_STAT_PHASE = phIdle := by
  rw [State.loadEnd, State.rd_raise _ _ _ _ _ (by decide) (by decide), State.rd_wr_apart _ _ _ _ _ _ (by decide) (by decide)]
  exact State.rd_wr_self _ _ _ _ _ (by decide)

theorem State.rd_loadEnd_done (s : State) : s.loadEnd.rd F.FOLIO_STAT_DONE = 1 := by
  rw [State.loadEnd, State.rd_raise _ _ _ _ _ (by decide) (by decide)]
  exact State.rd_wr_self _ _ _ _ _ (by decide)

/-- The end of a load writes PHASE and DONE alone in FOLIO_STAT. -/
theorem State.rd_loadEnd_apart (s : State) (g : Fld) (hg : g.reg = .FOLIO_STAT) (hp : 3 ≤ g.lo)
    (hd : g.lo + g.wid ≤ 15 ∨ 16 ≤ g.lo) : s.loadEnd.rd g = s.rd g := by
  have hdone : g.lo + g.wid ≤ F.FOLIO_STAT_DONE.lo ∨ F.FOLIO_STAT_DONE.lo + F.FOLIO_STAT_DONE.wid ≤ g.lo := hd
  have hphase : F.FOLIO_STAT_PHASE.lo + F.FOLIO_STAT_PHASE.wid ≤ g.lo := hp
  rw [State.loadEnd, State.rd_raise _ _ _ _ _ (by simp [hg]) (by simp [hg]),
    State.rd_wr_apart _ _ _ _ _ _ (by decide) (.inr hdone), State.rd_wr_apart _ _ _ _ _ _ (by decide) (.inr (.inr hphase))]
  rfl

/-- A rejected load reports its error; the folio in force stays, and none waits for a switch (R49). -/
theorem State.loadFail_rejects (s : State) (e : Nat) (he : e < 16) : (s.loadFail e).rd F.FOLIO_STAT_ERR = e ∧
    (s.loadFail e).rd F.FOLIO_STAT_PHASE = phIdle ∧ (s.loadFail e).rd F.FOLIO_STAT_DONE = 1 ∧
    (s.loadFail e).fol.cur = s.fol.cur ∧ (s.loadFail e).fol.next = none := by
  have herr : (s.loadFail e).rd F.FOLIO_STAT_ERR = e := by
    rw [State.loadFail, State.rd_loadEnd_apart _ _ rfl (by decide) (by decide), State.rd_wr_self _ _ _ _ _ (by decide)]
    exact Nat.mod_eq_of_lt he
  refine ⟨herr, State.rd_loadEnd_phase _, State.rd_loadEnd_done _, ?_, ?_⟩ <;> simp [State.loadFail, State.loadEnd_fol]

theorem State.rd_loadFail_busyHit (s : State) (e : Nat) :
    (s.loadFail e).rd F.FOLIO_STAT_BUSY_HIT = s.rd F.FOLIO_STAT_BUSY_HIT := by
  rw [State.loadFail, State.rd_loadEnd_apart _ _ rfl (by decide) (by decide), State.rd_wr_apart _ _ _ _ _ _ (by decide) (by decide)]

/-! ### LOAD -/

/-- A write of FOLIO_CTL stores FORCE and PERSIST. -/
def State.ctlStored (s : State) (force persist : Bool) : State :=
  (s.wr F.FOLIO_CTL_FORCE (b2n force)).wr F.FOLIO_CTL_PERSIST (b2n persist)

theorem State.rd_ctlStored (s : State) (force persist : Bool) (g : Fld) (h : g.reg ≠ .FOLIO_CTL) (i j : Nat) :
    (s.ctlStored force persist).rd g i j = s.rd g i j := by
  rw [State.ctlStored, State.rd_wr_apart _ _ _ _ _ _ (by decide) (.inl h.symm), State.rd_wr_apart _ _ _ _ _ _ (by decide) (.inl h.symm)]

theorem State.rd_ctlStored_force (s : State) (force persist : Bool) : (s.ctlStored force persist).rd F.FOLIO_CTL_FORCE = b2n force := by
  rw [State.ctlStored, State.rd_wr_apart _ _ _ _ _ _ (by decide) (by decide), State.rd_wr_self _ _ _ _ _ (by decide)]
  exact b2n_mod_two force

theorem State.rd_ctlStored_persist (s : State) (force persist : Bool) :
    (s.ctlStored force persist).rd F.FOLIO_CTL_PERSIST = b2n persist := by
  rw [State.ctlStored, State.rd_wr_self _ _ _ _ _ (by decide)]
  exact b2n_mod_two persist

/-- A LOAD during a load sets BUSY_HIT beside what the write of FOLIO_CTL stores (R54). -/
theorem State.folioLoad_of_busy (s : State) (force persist : Bool) (h : s.rd F.FOLIO_STAT_PHASE ≠ phIdle) :
    s.folioLoad force persist = (s.ctlStored force persist).wr F.FOLIO_STAT_BUSY_HIT 1 := by
  have hp := s.rd_ctlStored force persist F.FOLIO_STAT_PHASE (by decide) 0 0
  rw [State.ctlStored] at hp ⊢
  simp [State.folioLoad, hp, h]

/-- The load that a LOAD in IDLE begins: it keeps FORCE and PERSIST, and the clusters quarantined before it. -/
def State.loadBegun (s : State) (force persist : Bool) : State :=
  { s with fol := { s.fol with
    force := force, persist := persist, quarAt := (List.range 64).filter (fun n => s.on F.REC_CNT_QUAR n) } }

/-- A LOAD in IDLE enters VERIFY (R49). -/
theorem State.folioLoad_of_idle (s : State) (force persist : Bool) (h : s.rd F.FOLIO_STAT_PHASE = phIdle) :
    s.folioLoad force persist = ((s.ctlStored force persist).loadBegun force persist).wr F.FOLIO_STAT_PHASE phVerify := by
  have hp := s.rd_ctlStored force persist F.FOLIO_STAT_PHASE (by decide) 0 0
  rw [State.ctlStored] at hp ⊢
  simp [State.folioLoad, State.loadBegun, hp, h]

/-- What a LOAD in IDLE does (R49): the flags are stored and latched, and the folio in force and memory stay. -/
theorem State.folioLoad_begins (s : State) (force persist : Bool) (h : s.rd F.FOLIO_STAT_PHASE = phIdle) :
    let t := s.folioLoad force persist
    t.rd F.FOLIO_STAT_PHASE = phVerify ∧ t.fol.force = force ∧ t.fol.persist = persist ∧ t.rd F.FOLIO_CTL_FORCE = b2n force ∧
      t.rd F.FOLIO_CTL_PERSIST = b2n persist ∧ t.fol.cur = s.fol.cur ∧ SameMemory s t := by
  rw [s.folioLoad_of_idle force persist h]
  refine ⟨State.rd_wr_self _ _ _ _ _ (by decide), rfl, rfl, ?_, ?_, rfl, rfl, rfl, rfl⟩
  · rw [State.rd_wr_apart _ _ _ _ _ _ (by decide) (by decide)]
    exact s.rd_ctlStored_force force persist
  · rw [State.rd_wr_apart _ _ _ _ _ _ (by decide) (by decide)]
    exact s.rd_ctlStored_persist force persist

/-! ### VERIFY and DRAIN -/

theorem State.folioVerify_of_ok (s : State) (img : List Byte) (h : s.rd F.FOLIO_STAT_PHASE = phVerify)
    (hc : s.folioCheck s.staged = (feNone, img)) : s.folioVerify =
      ({ s with fol := { s.fol with img := img, next := some (folioIn img) } }).wr F.FOLIO_STAT_PHASE phDrain := by
  simp [State.folioVerify, h, hc]

theorem State.folioVerify_of_err (s : State) (e : Nat) (img : List Byte) (h : s.rd F.FOLIO_STAT_PHASE = phVerify)
    (hc : s.folioCheck s.staged = (e, img)) (he : e ≠ feNone) : s.folioVerify = s.loadFail e := by
  simp [State.folioVerify, h, hc, he]

theorem State.folioDrain_of_noForce (s : State) (f : Folio) (h : s.rd F.FOLIO_STAT_PHASE = phDrain) (hn : s.fol.next = some f)
    (hf : s.fol.force = false) :
    s.folioDrain = if s.affectedCtxs f = [] then s.wr F.FOLIO_STAT_PHASE phSwitch else s.loadFail feBusy := by
  simp [State.folioDrain, h, hn, hf]

/-! ### SWITCH -/

theorem State.SameWork.fol_eq {s t : State} (h : s.SameWork t) : t.fol = s.fol := by
  obtain ⟨-, -, -, hfol, -⟩ := h
  exact hfol

theorem State.SameWork.sameMemory {s t : State} (h : s.SameWork t) : SameMemory s t := by
  obtain ⟨hmem, hlines, hhost, -⟩ := h
  exact ⟨hmem, hlines, hhost⟩

theorem State.sameWork_adjDefaults (f : Folio) (s : State) (p : Nat) : s.SameWork (State.adjDefaults f s p) := by
  unfold State.adjDefaults
  refine State.SameWork.trans (State.SameWork.foldl _ (fun s c => ?_) _ _) (State.SameWork.foldl _ (fun s c => ?_) _ _)
  · exact ((State.sameWork_wr _ _ _ _ _).trans (State.sameWork_wr _ _ _ _ _)).trans (State.sameWork_wr _ _ _ _ _)
  · exact (State.sameWork_wr _ _ _ _ _).trans (State.sameWork_wr _ _ _ _ _)

/-- A folio put in force: it is the one in force, memory stays, and FOLIO_ID shows its identity. -/
theorem State.applyFolio_inForce (s : State) (f : Folio) (safe : Bool) :
    ({ s with fol := { s.fol with cur := f } } : State).SameWork (s.applyFolio f safe) ∧
      ∀ n < 4, (s.applyFolio f safe).rd F.FOLIO_ID_ID n = leAt f.ident (8 * n) 8 := by
  constructor
  · unfold State.applyFolio
    refine State.SameWork.trans (State.SameWork.trans (State.SameWork.foldl _ (State.sameWork_adjDefaults f) _ _)
      (State.SameWork.foldl _ (fun s n => State.sameWork_wr _ _ _ _ _) _ _)) (State.sameWork_wr _ _ _ _ _)
  · intro n hn
    have hlt : leAt f.ident (8 * n) 8 < 2 ^ 64 := by
      have hl : ((f.ident.drop (8 * n)).take 8).length ≤ 8 := List.length_take_le _ _
      calc leAt f.ident (8 * n) 8 < 256 ^ ((f.ident.drop (8 * n)).take 8).length := leNat_lt _
        _ ≤ 256 ^ 8 := Nat.pow_le_pow_right (by decide) hl
    unfold State.applyFolio
    rw [State.rd_wr_apart _ _ _ _ _ _ (by decide) (by decide)]
    exact (State.rd_foldl_wr F.FOLIO_ID_ID _ _ n _ (by decide) (List.mem_range.mpr hn)).trans (Nat.mod_eq_of_lt hlt)

theorem State.sameWork_capFrom (s old : State) : s.SameWork (s.capFrom old) := by
  unfold State.capFrom
  split <;> simp [State.SameWork]

theorem State.rd_capFrom (s old : State) (f : Fld) (i j : Nat) (h : f.reg ≠ .CAP) : (s.capFrom old).rd f i j = s.rd f i j := by
  unfold State.capFrom
  split
  · rfl
  · simp [State.rd, State.reg_setReg_ne _ _ _ _ _ _ _ _ (fun e => h (congrArg Prod.fst e).symm)]

/-- With the cluster map in force kept, no context affected, no cluster quarantined before the load and no new minimum SVN, a
switch that is to persist puts the folio in force and does nothing more. -/
theorem State.folioSwitch_of_persist (s : State) (f : Folio) (h : s.rd F.FOLIO_STAT_PHASE = phSwitch) (hn : s.fol.next = some f)
    (hp : s.fol.persist = true) (ha : s.affectedCtxs f = []) (hc : f.clusters = s.fol.cur.clusters) (hq : s.fol.quarAt = [])
    (hr : f.raise = false) :
    s.folioSwitch = (((s.applyFolio f false).wr F.FOLIO_STAT_ERR feNone).capFrom s).wr F.FOLIO_STAT_PHASE phPersist := by
  have hpersist : (((s.applyFolio f false).wr F.FOLIO_STAT_ERR feNone).capFrom s).fol.persist = true := by
    rw [(State.sameWork_capFrom _ _).fol_eq, State.wr_fol, (s.applyFolio_inForce f false).1.fol_eq]
    exact hp
  unfold State.folioSwitch
  simp -zeta only [h, hn, beq_self_eq_true]
  extract_lets old hit off on_ back unassigned applied retargeted woken rcv tested fol raised capped
  have hoff : off = [] := by simp [off, hc, State.clusterPart]
  have hon : on_ = [] := by simp +contextual [on_, hc, State.clusterPart]
  have hback : back = [] := by simp only [back, hq, List.filter_nil]
  have hwoken : woken = (s.applyFolio f false).wr F.FOLIO_STAT_ERR feNone := by
    simp only [woken, retargeted, applied, unassigned, hit, hoff, hon, ha, List.foldl_nil]
  have htested : tested = woken := by
    have htesting : woken.rcv.testing ++ back.filter (fun n => !woken.rcv.testing.contains n) = woken.rcv.testing := by
      rw [hback, List.filter_nil, List.append_nil]
    simp only [tested, rcv, htesting]
  have hcapped : capped = ((s.applyFolio f false).wr F.FOLIO_STAT_ERR feNone).capFrom s := by
    simp only [capped, raised, old, hr, htested, hwoken, Bool.false_eq_true, if_false]
  rw [hcapped, if_pos hpersist]

/-- What such a switch leaves: the folio in force, PERSIST, the identity in FOLIO_ID, and memory as it was. -/
theorem State.folioSwitch_puts (s : State) (f : Folio) (h : s.rd F.FOLIO_STAT_PHASE = phSwitch) (hn : s.fol.next = some f)
    (hp : s.fol.persist = true) (ha : s.affectedCtxs f = []) (hc : f.clusters = s.fol.cur.clusters) (hq : s.fol.quarAt = [])
    (hr : f.raise = false) :
    s.folioSwitch.fol.cur = f ∧ s.folioSwitch.rd F.FOLIO_STAT_PHASE = phPersist ∧
      (∀ n < 4, s.folioSwitch.rd F.FOLIO_ID_ID n = leAt f.ident (8 * n) 8) ∧ SameMemory s s.folioSwitch := by
  rw [s.folioSwitch_of_persist f h hn hp ha hc hq hr]
  obtain ⟨hwork, hid⟩ := s.applyFolio_inForce f false
  have hall : ({ s with fol := { s.fol with cur := f } } : State).SameWork
      ((((s.applyFolio f false).wr F.FOLIO_STAT_ERR feNone).capFrom s).wr F.FOLIO_STAT_PHASE phPersist) :=
    ((hwork.trans (State.sameWork_wr _ _ _ _ _)).trans (State.sameWork_capFrom _ _)).trans (State.sameWork_wr _ _ _ _ _)
  refine ⟨congrArg FolioSt.cur hall.fol_eq, State.rd_wr_self _ _ _ _ _ (by decide), fun n hn => ?_, hall.sameMemory⟩
  rw [State.rd_wr_apart _ _ _ _ _ _ (by decide) (by decide), State.rd_capFrom _ _ _ _ _ (by decide),
    State.rd_wr_apart _ _ _ _ _ _ (by decide) (by decide), hid n hn]

/-! ### PERSIST -/

/-- With slot 0 booting and no firmware image being written, PERSIST fills slot 1, boots it, and ends the load (R52). -/
theorem State.folioPersist_of_slot0 (s : State) (h : s.rd F.FOLIO_STAT_PHASE = phPersist) (hw : s.sec.writing = 0)
    (hb : s.fol.boot = some false) :
    s.folioPersist = ({ s with fol := { s.fol with slot1 := s.fol.img, boot := some true } } : State).loadEnd := by
  have hgo : ¬ (s.rd F.FOLIO_STAT_PHASE ≠ phPersist ∨ s.sec.writing = 2) := by simp [h, hw]
  have hwriting : (if s.sec.writing = 1 then 2 else s.sec.writing) = s.sec.writing := by simp [hw]
  simp only [State.folioPersist, Bool.or_eq_true, bne_iff_ne, beq_iff_eq, if_neg hgo, if_pos hb, hwriting]

theorem State.folioPersist_ends (s : State) (h : s.rd F.FOLIO_STAT_PHASE = phPersist) (hw : s.sec.writing = 0)
    (hb : s.fol.boot = some false) :
    s.folioPersist.fol.slot1 = s.fol.img ∧ s.folioPersist.fol.slot0 = s.fol.slot0 ∧ s.folioPersist.fol.boot = some true ∧
      s.folioPersist.rd F.FOLIO_STAT_PHASE = phIdle ∧ s.folioPersist.rd F.FOLIO_STAT_DONE = 1 ∧
      s.folioPersist.fol.cur = s.fol.cur := by
  rw [s.folioPersist_of_slot0 h hw hb, State.loadEnd_fol]
  exact ⟨rfl, rfl, rfl, State.rd_loadEnd_phase _, State.rd_loadEnd_done _, rfl⟩

/-- Settles O12: one lemma for each step of the load. -/
theorem folioLoad : Obligations.FolioLoad := by
  unfold Obligations.FolioLoad
  refine ⟨?load, ?begin, ?verify, ?reject, ?drain, ?switch, ?persist⟩
  case load => exact fun s f p h => congrArg Host.Outcome.next (s.folioLoad_of_busy f p h)
  case begin => exact fun s f p h => ⟨_, rfl, s.folioLoad_begins f p h⟩
  case verify => exact fun s img h hc => congrArg Host.Outcome.next (s.folioVerify_of_ok img h hc)
  case reject =>
    intro s e img h hc he hlt
    refine ⟨s.loadFail e, congrArg Host.Outcome.next (s.folioVerify_of_err e img h hc he), ?_⟩
    exact s.loadFail_rejects e hlt
  case drain =>
    intro s f h hn hf
    have hd := s.folioDrain_of_noForce f h hn hf
    constructor
    · intro ha
      rw [if_pos ha] at hd
      exact congrArg Host.Outcome.next hd
    · intro ha
      rw [if_neg ha] at hd
      obtain ⟨herr, hphase, -, hcur, -⟩ := s.loadFail_rejects feBusy (by decide)
      exact ⟨_, congrArg Host.Outcome.next hd, herr, hphase, hcur⟩
  case switch => exact fun s f h hn hp ha hc hq hr => ⟨_, rfl, s.folioSwitch_puts f h hn hp ha hc hq hr⟩
  case persist => exact fun s h hw hb => ⟨_, rfl, s.folioPersist_ends h hw hb⟩

/-! ### Runtime adjustment (R57) -/

/-- QOS_ADJ of a partition that exists. -/
theorem State.qosAdj_of_exists (s : State) (c p v : Nat) (hc : c < 3) (hp : (s.partDef p).isSome = true) :
    s.qosAdj c p v = if s.rd F.FOLIO_STAT_PHASE = phSwitch then s.wr F.FOLIO_STAT_ADJ_DROP 1
      else if v < s.rd F.QOS_ADJ_MIN c p ∨ s.rd F.QOS_ADJ_MAX c p < v ∨
        256 < ((s.fol.cur.defs.filter (fun e => e.1 != p)).map (fun e => s.rd F.QOS_ADJ_SHARE c e.1)).sum + v then
        s.wr F.FOLIO_STAT_ADJ_REJ 1
      else s.wr F.QOS_ADJ_SHARE v c p := by
  have hguard : ¬ (3 ≤ c ∨ (s.partDef p).isNone = true) := by
    rw [Option.isSome_iff_ne_none] at hp
    simpa [hp] using hc
  simp only [State.qosAdj, Bool.or_eq_true, decide_eq_true_eq, if_neg hguard, beq_iff_eq, or_assoc]

/-- WAY_ADJ of a partition that exists. -/
theorem State.wayAdj_of_exists (s : State) (p c : Nat) (m : BitVec 16) (hc : c < 8) (hp : (s.partDef p).isSome = true) :
    s.wayAdj p c m = if s.rd F.FOLIO_STAT_PHASE = phSwitch then s.wr F.FOLIO_STAT_ADJ_DROP 1
      else if m = 0 ∨ m &&& ~~~ BitVec.ofNat 16 (s.rd F.WAY_ADJ_PERMIT p c) ≠ 0 then s.wr F.FOLIO_STAT_ADJ_REJ 1
      else s.wr F.WAY_ADJ_MASK m.toNat p c := by
  have hguard : ¬ (8 ≤ c ∨ (s.partDef p).isNone = true) := by
    rw [Option.isSome_iff_ne_none] at hp
    simpa [hp] using hc
  simp only [State.wayAdj, Bool.or_eq_true, decide_eq_true_eq, if_neg hguard, beq_iff_eq, bne_iff_ne]

/-- Settles O13: both writes are a choice between three updates, and each clause names one branch. -/
theorem runtimeAdjustment : Obligations.RuntimeAdjustment := by
  unfold Obligations.RuntimeAdjustment
  constructor
  · intro s c p v hc hp
    have hw := s.qosAdj_of_exists c p v.toNat hc hp
    refine ⟨fun h => ?drop, fun h hmin hmax hsum => ?taken, fun h hbad => ?rejected⟩
    case drop => exact congrArg Host.Outcome.next (by rw [hw, if_pos h])
    case taken => exact congrArg Host.Outcome.next (by rw [hw, if_neg h, if_neg (by omega)])
    case rejected => exact congrArg Host.Outcome.next (by rw [hw, if_neg h, if_pos hbad])
  · intro s c p m hc hp
    have hw := s.wayAdj_of_exists p c m hc hp
    refine ⟨fun h => ?drop, fun h hm hin => ?taken, fun h hbad => ?rejected⟩
    case drop => exact congrArg Host.Outcome.next (by rw [hw, if_pos h])
    case taken => exact congrArg Host.Outcome.next (by rw [hw, if_neg h, if_neg (not_or.mpr ⟨hm, not_not.mpr hin⟩)])
    case rejected => exact congrArg Host.Outcome.next (by rw [hw, if_neg h, if_pos hbad])

end Sys2Proof.Machine
end

section
/-! SUPPORT. Registers that an abort of a context can write (12_shared_objects.md R256, R267), and the load of a folio that goes on
beside a second LOAD (02_folio.md R54). -/

namespace Sys2Proof.Machine

/-- Every register outside a list is as it was. -/
def State.RegsBut (l : List Reg) (s t : State) : Prop := ∀ r, r ∉ l → ∀ i j, t.reg r i j = s.reg r i j

theorem State.RegsBut.refl (l : List Reg) (s : State) : s.RegsBut l s := fun _ _ _ _ => rfl

theorem State.RegsBut.trans {l : List Reg} {s t u : State} (h : s.RegsBut l t) (k : t.RegsBut l u) : s.RegsBut l u :=
  fun r hr i j => (k r hr i j).trans (h r hr i j)

theorem State.RegsBut.rd {l : List Reg} {s t : State} (h : s.RegsBut l t) (f : Fld) (hf : f.reg ∉ l) (i j : Nat) :
    t.rd f i j = s.rd f i j := by rw [State.rd, h _ hf, State.rd]

/-- An update that leaves the aperture. -/
theorem State.RegsBut.keep {l : List Reg} {s t u : State} (h : s.RegsBut l t) (e : u.regs = t.regs) : s.RegsBut l u :=
  h.trans (fun _ _ _ _ => by rw [State.reg, e, State.reg])

theorem State.RegsBut.wr {l : List Reg} {s t : State} (h : s.RegsBut l t) (f : Fld) (v i j : Nat) (hf : f.reg ∈ l) :
    s.RegsBut l (t.wr f v i j) :=
  h.trans (fun _ hr _ _ => t.reg_wr_ne _ _ _ _ _ _ (fun e => hr (e ▸ hf)))

theorem State.RegsBut.ite {l : List Reg} {s a b : State} {c : Prop} [Decidable c] (h : s.RegsBut l a) (k : s.RegsBut l b) :
    s.RegsBut l (if c then a else b) := by split <;> assumption

theorem State.RegsBut.foldl {α : Type} {l : List Reg} {s t : State} (h : s.RegsBut l t) (f : State → α → State)
    (hf : ∀ (s : State) (a : α), s.RegsBut l (f s a)) (as : List α) : s.RegsBut l (as.foldl f t) := by
  induction as generalizing t with
  | nil => exact h
  | cons a as ih => exact ih (h.trans (hf t a))

/-- A field as wide as a register reads the whole of it. -/
theorem State.toNat_reg (s : State) (r : Reg) (i j : Nat) : (s.reg r i j).toNat = s.rd ⟨r, 0, 64⟩ i j := by
  simp only [State.rd, bitsOf, Nat.shiftRight_zero]
  exact (Nat.mod_eq_of_lt (s.reg r i j).isLt).symm

theorem State.RegsBut.raise {l : List Reg} {s t : State} (h : s.RegsBut l t) (n : Nat) (hc : .INT_SRC_CTL ∈ l) (hi : .INT_ISL ∈ l) :
    s.RegsBut l (t.raise n) := by
  refine h.trans (fun r hr i j => BitVec.eq_of_toNat_eq ?_)
  rw [State.toNat_reg, State.toNat_reg]
  exact t.rd_raise n _ i j (fun (e : r = _) => hr (e ▸ hc)) (fun (e : r = _) => hr (e ▸ hi))

/-! ### Memory and commands leave the aperture -/

theorem State.wrLines_regs (k n : Nat) (s : State) (pa : Nat) (bs : List Byte) : (State.wrLines k n s pa bs).regs = s.regs := by
  induction n generalizing s pa bs with
  | zero => rfl
  | succ n ih =>
    have hline : (s.wrLine k (pa / 128) (pa % 128) (bs.take (128 - pa % 128))).regs = s.regs := by
      unfold State.wrLine
      split <;> rfl
    unfold State.wrLines
    split
    · rfl
    · rw [ih, hline]

@[simp] theorem State.wrNat_regs (s : State) (k pa n v : Nat) : (s.wrNat k pa n v).regs = s.regs :=
  State.wrLines_regs _ _ _ _ _

@[simp] theorem State.setCmd_regs (s : State) (id : CmdId) (c : Cmd) : (s.setCmd id c).regs = s.regs := rfl
@[simp] theorem State.pushSync_regs (s : State) (i : Nat) (o : SyncOp) : (s.pushSync i o).regs = s.regs := rfl
@[simp] theorem State.setLed_regs (s : State) (d : Nat) (l : Led) : (s.setLed d l).regs = s.regs := rfl
@[simp] theorem State.emit_regs (s : State) (die dst part : Nat) (t : FabTyp) (x q : Nat) (p : List Byte) :
    (s.emit die dst part t x q p).regs = s.regs := rfl
@[simp] theorem State.dropOps_regs (s : State) (id : CmdId) : (s.dropOps id).regs = s.regs := rfl
@[simp] theorem State.dropRecvUpd_regs (s : State) (c : Nat) : (s.dropRecvUpd c).regs = s.regs := rfl
@[simp] theorem State.setBlot_regs (s : State) (c : Nat) (b : Blot) : (s.setBlot c b).regs = s.regs := rfl
@[simp] theorem State.dropXlt_regs (s : State) (c : Nat) : (s.dropXlt c).regs = s.regs := rfl

@[simp] theorem State.dropElig_regs (s : State) (q : Nat) : (s.dropElig q).regs = s.regs := by
  unfold State.dropElig
  split <;> rfl

@[simp] theorem State.endSend_regs (s : State) (x st : Nat) : (s.endSend x st).regs = s.regs := by
  unfold State.endSend
  split <;> rfl

@[simp] theorem State.dropRecv_regs (s : State) (k : Nat × Nat) : (s.dropRecv k).regs = s.regs := by
  unfold State.dropRecv
  split
  · rfl
  · dsimp only
    split
    · rfl
    · exact State.wrNat_regs _ _ _ _ _

@[simp] theorem State.endRecv_regs (s : State) (k : Nat × Nat) (st : Nat) : (s.endRecv k st).regs = s.regs := by
  unfold State.endRecv
  split
  · rfl
  · split
    · rfl
    · rw [State.emit_regs, State.dropRecv_regs]

@[simp] theorem State.endRecvs_regs (s : State) (st : Nat) (p : RecvX → Bool) : (s.endRecvs st p).regs = s.regs :=
  foldl_keeps _ (fun s : State => s.regs) (fun s k => s.endRecv_regs k st) _ _

theorem State.cutEnd_regs (s : State) (c : Nat) (x : Snap) : (s.cutEnd c x).regs = s.regs := by
  unfold State.cutEnd
  split
  · rfl
  · split <;> rfl

/-! ### What an abort of a context writes -/

/-- The registers that an abort of a context can write: its state, its snapshot, blotter and attachment, and the counters, ledgers
and interrupts of the work that ends. -/
def abortRegs : List Reg :=
  [.CTX_STAT, .SNAP_STAT, .XLT_BLOT_PTR, .DBG_ATTACH, .TAL_CNT, .TAL_CTL, .LED_CFG, .LED_PTR, .LED_STAT, .LED_TRIG, .INT_SRC_CTL,
    .INT_ISL]

theorem State.RegsBut.raise_abort {s t : State} (h : s.RegsBut abortRegs t) (n : Nat) : s.RegsBut abortRegs (t.raise n) :=
  h.raise n (by decide) (by decide)

theorem State.RegsBut.ledBusy {s t : State} (h : s.RegsBut abortRegs t) (d : Nat) : s.RegsBut abortRegs (t.ledBusy d) :=
  h.wr F.LED_PTR_BUSY _ d 0 (by decide)

theorem State.regsBut_ledFire (s : State) (d : Nat) : s.RegsBut abortRegs (s.ledFire d) := by
  unfold State.ledFire
  have hdisarmed : s.RegsBut abortRegs (s.bump.wr F.LED_TRIG_ARMED 0 d) :=
    ((State.RegsBut.refl _ s).keep s.bump_regs).wr F.LED_TRIG_ARMED _ d 0 (by decide)
  have htaken (l : Led) : s.RegsBut abortRegs (((s.bump.wr F.LED_TRIG_ARMED 0 d).setLed d l).ledBusy d) :=
    (hdisarmed.keep (State.setLed_regs _ d l)).ledBusy d
  refine State.RegsBut.ite (.refl _ s) (State.RegsBut.ite hdisarmed ?_)
  exact State.RegsBut.ite (((htaken _).wr F.LED_PTR_DONE _ d 0 (by decide)).raise_abort _) (htaken _)

theorem State.regsBut_counterWrap (s : State) (d i j : Nat) : s.RegsBut abortRegs (s.counterWrap d i j) := by
  unfold State.counterWrap
  extract_lets n counted tal noted raised
  have hcounted : s.RegsBut abortRegs counted :=
    ((State.RegsBut.refl _ s).wr F.TAL_CNT_WRAP _ n j (by decide)).wr F.TAL_CTL_OVF _ n 0 (by decide)
  have hnoted : s.RegsBut abortRegs noted := hcounted.keep rfl
  have hraised : s.RegsBut abortRegs raised := State.RegsBut.ite (hnoted.raise_abort _) hnoted
  exact State.RegsBut.ite (hraised.trans (raised.regsBut_ledFire d)) hraised

theorem State.regsBut_addCount (s : State) (d i j v : Nat) : s.RegsBut abortRegs (s.addCount d i j v) := by
  have hw := (State.RegsBut.refl abortRegs s).wr F.TAL_CNT_VALUE (s.rd F.TAL_CNT_VALUE (talSet d i) j + v) (talSet d i) j (by decide)
  exact State.RegsBut.ite (hw.trans (State.regsBut_counterWrap _ _ _ _)) hw

theorem State.edgeCount_regs (s : State) (n j v : Nat) : (s.edgeCount n j v).1.regs = s.regs := by
  unfold State.edgeCount
  split
  · rfl
  · split <;> rfl

theorem State.regsBut_tally (s : State) (d i code v : Nat) (e : Ev) : s.RegsBut abortRegs (s.tally d i code v e) := by
  unfold State.tally
  extract_lets n tal noted
  have hnoted : s.RegsBut abortRegs noted := State.RegsBut.ite ((State.RegsBut.refl _ s).keep rfl) (.refl _ s)
  refine State.RegsBut.ite (.refl _ s) (hnoted.foldl _ (fun s j => ?_) _)
  exact ((State.RegsBut.refl _ s).keep (s.edgeCount_regs n j v)).trans (State.regsBut_addCount _ _ _ _ _)

theorem State.regsBut_loseWork (s : State) (p : Block → Bool) : s.RegsBut abortRegs (s.loseWork p) :=
  ((State.RegsBut.refl _ s).foldl _ (fun _ _ => State.regsBut_tally _ _ _ _ _ _) _).keep rfl

theorem State.regsBut_abortOne (s : State) (st : Nat) (id : CmdId) : s.RegsBut abortRegs (s.abortOne st id) := by
  have h0 := State.RegsBut.refl abortRegs s
  unfold State.abortOne
  split
  · exact h0
  rename_i c _
  split
  case h_1 => exact h0
  case h_2 => exact h0.keep (by simp)
  case h_3 => exact h0.keep (by simp)
  case h_4 =>
    split
    case h_7 =>
      refine State.RegsBut.ite h0 ?_
      extract_lets sent dbg disarmed
      have hsent : s.RegsBut abortRegs sent := by
        simp only [sent]
        split
        · exact h0.keep (State.endSend_regs _ _ _)
        · exact h0
      have hlost := (hsent.keep (u := disarmed) rfl).trans (disarmed.regsBut_loseWork (fun b => b.cmd == id))
      exact hlost.keep (by simp)
    all_goals exact h0.keep (by simp)

theorem State.regsBut_abortCmd (s : State) (st : Nat) (id : CmdId) : s.RegsBut abortRegs (s.abortCmd st id) :=
  ((State.RegsBut.refl _ s).foldl _ (fun s k => s.regsBut_abortOne st k) _).trans (State.regsBut_abortOne _ st id)

theorem State.regsBut_abortCmds (s : State) (st : Nat) (p : CmdId → Cmd → Bool) : s.RegsBut abortRegs (s.abortCmds st p) :=
  (State.RegsBut.refl _ s).foldl _ (fun s id => s.regsBut_abortCmd st id) _

theorem State.regsBut_closeQuire (s : State) (c : Nat) (irq : Bool) : s.RegsBut abortRegs (s.closeQuire c irq) := by
  unfold State.closeQuire
  split
  · exact .refl _ s
  · extract_lets b marked closed headed filled
    have hmarked : s.RegsBut abortRegs marked := (State.RegsBut.refl _ s).keep (State.wrNat_regs _ _ _ _ _)
    have hclosed : s.RegsBut abortRegs closed := hmarked.keep (State.setBlot_regs _ _ _)
    have hheaded : s.RegsBut abortRegs headed := hclosed.wr F.XLT_BLOT_PTR_HEAD _ c 0 (by decide)
    have hfilled : s.RegsBut abortRegs filled := hheaded.wr F.XLT_BLOT_PTR_FULL _ c 0 (by decide)
    exact State.RegsBut.ite (hfilled.raise_abort _) hfilled

theorem State.regsBut_dropQuires (s : State) (c : Nat) : s.RegsBut abortRegs (s.dropQuires c) :=
  (s.regsBut_closeQuire c false).keep (State.setBlot_regs _ c _)

theorem State.regsBut_snapStop (s : State) (c err : Nat) : s.RegsBut abortRegs (s.snapStop c err) := by
  have hoff : s.RegsBut abortRegs (s.snapOff c 4) := by
    unfold State.snapOff
    split
    · exact .refl _ s
    · extract_lets rcv dropped ended
      have hended : s.RegsBut abortRegs ended :=
        ((State.RegsBut.refl _ s).keep (u := dropped) rfl).foldl _ (fun s k => (State.RegsBut.refl _ s).keep (s.endSend_regs k _)) _
      exact (hended.keep (State.cutEnd_regs _ _ _)).wr F.SNAP_STAT_PHASE _ c 0 (by decide)
  exact State.RegsBut.ite (.refl _ s) ((hoff.wr F.SNAP_STAT_ERR _ c 0 (by decide)).raise_abort _)

theorem State.regsBut_detach (s : State) (c : Nat) : s.RegsBut abortRegs (s.detach c) :=
  ((((State.RegsBut.refl _ s).wr F.DBG_ATTACH_EN 0 c 0 (by decide)).wr F.DBG_ATTACH_BP_EN 0 c 0 (by decide)).wr
    F.DBG_ATTACH_WP_EN 0 c 0 (by decide)).keep rfl

theorem State.regsBut_ledDisable (s : State) (d : Nat) : s.RegsBut abortRegs (s.ledDisable d) := by
  have hclosing (l : Led) : s.RegsBut abortRegs ((s.wr F.LED_CFG_EN 0 d).setLed d l) :=
    ((State.RegsBut.refl _ s).wr F.LED_CFG_EN 0 d 0 (by decide)).keep (State.setLed_regs _ d l)
  exact State.RegsBut.ite ((hclosing _).ledBusy d) (.refl _ s)

theorem State.regsBut_leavesLive (s : State) (c : Nat) : s.RegsBut abortRegs (s.leavesLive c) :=
  (State.RegsBut.ite (s.regsBut_detach c) (.refl _ s)).foldl _
    (fun s d => (s.regsBut_ledDisable d).wr F.LED_STAT_ERR 1 d 0 (by decide)) _

theorem State.regsBut_abortCtx (s : State) (c st : Nat) : s.RegsBut abortRegs (s.abortCtx c st) := by
  unfold State.abortCtx
  extract_lets marked reported stamped obj syn emptied ended
  have hmarked : s.RegsBut abortRegs marked :=
    ((State.RegsBut.refl _ s).wr F.CTX_STAT_STATE _ c 0 (by decide)).wr F.CTX_STAT_ABORT_STATUS _ c 0 (by decide)
  have hemptied : s.RegsBut abortRegs emptied := hmarked.keep (by simp [emptied, stamped, reported])
  have haborted := hemptied.trans (emptied.regsBut_abortCmds stAborted (fun id _ => id.ctx == c))
  have hended : s.RegsBut abortRegs ended := haborted.keep (by simp [ended])
  have hquires := (hended.trans (ended.regsBut_dropQuires c)).keep (State.dropXlt_regs _ c)
  exact State.RegsBut.ite (.refl _ s) ((hquires.trans (State.regsBut_snapStop _ c 6)).trans (State.regsBut_leavesLive _ c))

/-! ### A LOAD during a load (R54) -/

/-- The end of VERIFY leaves BUSY_HIT. -/
theorem State.rd_folioVerify_busyHit (s : State) : s.folioVerify.rd F.FOLIO_STAT_BUSY_HIT = s.rd F.FOLIO_STAT_BUSY_HIT := by
  unfold State.folioVerify
  split
  · rfl
  · dsimp only
    split
    · rw [State.rd_wr_apart _ _ _ _ _ _ (by decide) (by decide)]
      rfl
    · exact State.rd_loadFail_busyHit _ _

/-- The end of DRAIN leaves BUSY_HIT, whatever contexts it aborts. -/
theorem State.rd_folioDrain_busyHit (s : State) : s.folioDrain.rd F.FOLIO_STAT_BUSY_HIT = s.rd F.FOLIO_STAT_BUSY_HIT := by
  have hswitch (t : State) : (t.wr F.FOLIO_STAT_PHASE phSwitch).rd F.FOLIO_STAT_BUSY_HIT = t.rd F.FOLIO_STAT_BUSY_HIT :=
    t.rd_wr_apart _ _ _ _ _ (by decide) (by decide)
  unfold State.folioDrain
  split
  · rename_i f _ _
    extract_lets cs aborted
    have haborted : aborted.rd F.FOLIO_STAT_BUSY_HIT = s.rd F.FOLIO_STAT_BUSY_HIT :=
      ((State.RegsBut.refl abortRegs s).foldl _ (fun s c => s.regsBut_abortCtx c stAborted) cs).rd _ (by decide) 0 0
    split
    · split
      · exact hswitch s
      · exact s.rd_loadFail_busyHit feBusy
    · split
      · exact haborted
      · exact (hswitch _).trans haborted
  · rfl

/-- Settles O45: FOLIO_CTL and BUSY_HIT are all that the write reaches, and no step of the load clears BUSY_HIT. -/
theorem loadDuringALoad : Obligations.LoadDuringALoad := by
  unfold Obligations.LoadDuringALoad
  intro s force persist h
  have hload := s.folioLoad_of_busy force persist h
  have hfield (g : Fld) (hg : g.reg = .FOLIO_STAT) (hb : g.lo + g.wid ≤ 16) :
      (s.folioLoad force persist).rd g = s.rd g := by
    have hb' : g.lo + g.wid ≤ F.FOLIO_STAT_BUSY_HIT.lo := hb
    rw [hload, State.rd_wr_apart _ _ _ _ _ _ (by decide) (.inr (.inl hb')), s.rd_ctlStored force persist g (by simp [hg])]
  have hhit (t : State) (ht : t.rd F.FOLIO_STAT_PHASE ≠ phIdle) : (t.folioLoad force persist).rd F.FOLIO_STAT_BUSY_HIT = 1 := by
    rw [t.folioLoad_of_busy force persist ht]
    exact State.rd_wr_self _ _ _ _ _ (by decide)
  have hphase := hfield F.FOLIO_STAT_PHASE rfl (by decide)
  refine ⟨_, rfl, beq_iff_eq.mpr (hhit s h), hphase, hfield F.FOLIO_STAT_ERR rfl (by decide), ?_, ?_, ?_, ?_, ?_, ?_⟩
  · rw [hload]; rfl
  · intro r i j hstat hctl
    rw [hload, State.reg_wr_ne _ _ _ _ _ _ _ hstat.symm, State.ctlStored, State.reg_wr_ne _ _ _ _ _ _ _ hctl.symm,
      State.reg_wr_ne _ _ _ _ _ _ _ hctl.symm]
  · rw [hload, State.rd_wr_apart _ _ _ _ _ _ (by decide) (by decide), s.rd_ctlStored_force force persist]
  · rw [hload, State.rd_wr_apart _ _ _ _ _ _ (by decide) (by decide), s.rd_ctlStored_persist force persist]
  · rw [hload]; rfl
  · rintro i (rfl | rfl | rfl)
    · exact ⟨_, rfl, beq_iff_eq.mpr ((State.rd_folioVerify_busyHit _).trans (hhit s h))⟩
    · exact ⟨_, rfl, beq_iff_eq.mpr ((State.rd_folioDrain_busyHit _).trans (hhit s h))⟩
    · exact ⟨_, rfl, beq_iff_eq.mpr (hhit _ (hphase ▸ h))⟩

end Sys2Proof.Machine
end

section
/-! SUPPORT. The issue of a thread instruction (03_thread_execution.md R59, R63; 21_debug.md R424): what it counts and keeps apart from the
threads, the group it leaves, and the traps that stop it. -/

namespace Sys2Proof.Machine

open Sys2Proof

/-! ### Lookups -/

theorem aget_amod_self {κ α : Type} [DecidableEq κ] (m : List (κ × α)) (k : κ) (f : α → α) : aget (amod m k f) k = (aget m k).map f := by
  cases h : aget m k <;> simp [amod, h, aget_aput_self]

theorem aget_amod_ne {κ α : Type} [DecidableEq κ] (m : List (κ × α)) {k j : κ} (f : α → α) (h : k ≠ j) :
    aget (amod m k f) j = aget m j := by
  cases hk : aget m k <;> simp [amod, hk, aget_aput_ne _ _ h]

theorem amod_of_aget {κ α : Type} [DecidableEq κ] {m : List (κ × α)} {k : κ} {v : α} (f : α → α) (h : aget m k = some v) :
    amod m k f = aput m k (f v) := by simp [amod, h]

theorem aput_aput_self {κ α : Type} [DecidableEq κ] (m : List (κ × α)) (k : κ) (v w : α) : aput (aput m k v) k w = aput m k w := by
  induction m with
  | nil => simp [aput]
  | cons e r ih =>
    obtain ⟨a, u⟩ := e
    by_cases h : a = k <;> simp [aput, h, ih]

theorem aget_adel_self {κ α : Type} [DecidableEq κ] (m : List (κ × α)) (k : κ) : aget (adel m k) k = none := by
  induction m with
  | nil => rfl
  | cons e r ih =>
    obtain ⟨a, u⟩ := e
    by_cases h : a = k
    · simpa [adel, h] using ih
    · simpa [adel, aget, h] using ih

@[simp] theorem State.group_setGroup_self (s : State) (g : Gid) (x : Group) : (s.setGroup g x).group g = some x := aget_aput_self _ _ _

theorem State.group_setGroup_ne (s : State) {g h : Gid} (x : Group) (k : h ≠ g) : (s.setGroup g x).group h = s.group h :=
  aget_aput_ne _ _ k.symm

@[simp] theorem State.group_modGroup_self (s : State) (g : Gid) (f : Group → Group) : (s.modGroup g f).group g = (s.group g).map f :=
  aget_amod_self _ _ _

theorem State.group_modGroup_ne (s : State) {g h : Gid} (f : Group → Group) (k : h ≠ g) : (s.modGroup g f).group h = s.group h :=
  aget_amod_ne _ _ k.symm

theorem State.modGroup_of_group {s : State} {g : Gid} {x : Group} (f : Group → Group) (h : s.group g = some x) :
    s.modGroup g f = s.setGroup g (f x) := by
  simp only [State.modGroup, State.setGroup, amod_of_aget f h]

/-! ### Counts leave the caches as they were -/

theorem State.coh_ite {s a b : State} (c : Prop) [Decidable c] (h : a.coh = s.coh) (k : b.coh = s.coh) :
    (if c then a else b).coh = s.coh := by split <;> assumption

theorem State.ledFire_coh (s : State) (d : Nat) : (s.ledFire d).coh = s.coh := by
  unfold State.ledFire
  simp only
  exact State.coh_ite _ rfl (State.coh_ite (s := s) _ rfl (State.coh_ite (s := s) _ (State.raise_coh _ _) rfl))

theorem State.counterWrap_coh (s : State) (d i j : Nat) : (s.counterWrap d i j).coh = s.coh := by
  unfold State.counterWrap
  extract_lets n s1 l s2 s3
  have h3 : s3.coh = s.coh := by simp only [s3]; split <;> simp [s2, s1]
  split
  · exact (s3.ledFire_coh d).trans h3
  · exact h3

theorem State.addCount_coh (s : State) (d i j v : Nat) : (s.addCount d i j v).coh = s.coh := by
  unfold State.addCount
  simp only
  split
  · exact State.counterWrap_coh _ d i j
  · rfl

theorem State.edgeCount_coh (s : State) (n j v : Nat) : (s.edgeCount n j v).1.coh = s.coh := by
  unfold State.edgeCount
  split
  · rfl
  · split <;> rfl

theorem State.tally_coh (s : State) (d i code v : Nat) (e : Ev) : (s.tally d i code v e).coh = s.coh := by
  unfold State.tally
  simp only
  split
  · rfl
  · rw [foldl_keeps _ (fun s : State => s.coh) (fun s j => (State.addCount_coh _ _ _ _ _).trans (s.edgeCount_coh _ _ _))]
    split <;> rfl

/-- Counters that are off count nothing (20_tally_and_ledger.md R400). -/
theorem State.tally_of_off (s : State) (d i code v : Nat) (e : Ev) (h : s.on F.TAL_CTL_EN (talSet d i) = false) :
    s.tally d i code v e = s := by
  simp [State.tally, State.counts, h]

/-! ### Bookkeeping of a core -/

/-- `t` is `s` after bookkeeping of a core: counters, samples, pointers and clocks may have gone on, and what a wrap fires; with the
counters off no register has changed. -/
structure State.Bookkept (core : Nat) (s t : State) : Prop where
  thr : t.thr = { s.thr with ptrs := t.thr.ptrs }
  mem : SameMemory s t
  cmd : t.cmd = s.cmd
  mx : t.mx = s.mx
  coh : t.coh = s.coh
  xlt : t.xlt = s.xlt
  finds : t.finds = s.finds
  regs : s.on F.TAL_CTL_EN (coreSet core) = false → t.regs = s.regs

theorem State.on_of_regs {s t : State} (h : t.regs = s.regs) (f : Fld) (i j : Nat) : t.on f i j = s.on f i j := by
  simp [State.on, State.rd, State.reg, h]

theorem State.Bookkept.refl (core : Nat) (s : State) : s.Bookkept core s :=
  ⟨rfl, ⟨rfl, rfl, rfl⟩, rfl, rfl, rfl, rfl, rfl, fun _ => rfl⟩

theorem State.Bookkept.trans {core : Nat} {s t u : State} (h : s.Bookkept core t) (k : t.Bookkept core u) : s.Bookkept core u where
  thr := by rw [k.thr, h.thr]
  mem := ⟨k.mem.1.trans h.mem.1, k.mem.2.1.trans h.mem.2.1, k.mem.2.2.trans h.mem.2.2⟩
  cmd := k.cmd.trans h.cmd
  mx := k.mx.trans h.mx
  coh := k.coh.trans h.coh
  xlt := k.xlt.trans h.xlt
  finds := k.finds.trans h.finds
  regs hoff := (k.regs ((State.on_of_regs (h.regs hoff) _ _ _).trans hoff)).trans (h.regs hoff)

theorem State.Bookkept.ite {core : Nat} {s a b : State} {c : Prop} [Decidable c] (h : s.Bookkept core a) (k : s.Bookkept core b) :
    s.Bookkept core (if c then a else b) := by split <;> assumption

theorem State.bookkept_tally (s : State) (core code v : Nat) (e : Ev) :
    s.Bookkept core (s.tally (core / 128) (core % 128) code v e) := by
  obtain ⟨hm, hl, hh, -, -, hc, -, ht, hx, -, hw, -, hf⟩ := s.sameWork_tally (core / 128) (core % 128) code v e
  exact ⟨by rw [ht], ⟨hm, hl, hh⟩, hc, hx, s.tally_coh _ _ _ _ _, hw, hf, fun h => by rw [s.tally_of_off _ _ _ _ _ h]⟩

theorem State.bookkept_tallyG (s : State) (g : Gid) (code v : Nat) : s.Bookkept g.core (s.tallyG g code v) :=
  s.bookkept_tally _ _ _ _

theorem State.bookkept_tallyCtx (s : State) (core c code v : Nat) : s.Bookkept core (s.tallyCtx core c code v) :=
  s.bookkept_tally _ _ _ _

theorem State.bookkept_wasted (s : State) (g : Gid) : s.Bookkept g.core (s.wasted g) := s.bookkept_tallyG g _ _

theorem State.bookkept_tal (s : State) (core : Nat) (a : TalSt) : s.Bookkept core { s with tal := a } :=
  ⟨rfl, ⟨rfl, rfl, rfl⟩, rfl, rfl, rfl, rfl, rfl, fun _ => rfl⟩

theorem State.bookkept_bump (s : State) (core : Nat) : s.Bookkept core s.bump :=
  ⟨rfl, ⟨rfl, rfl, rfl⟩, rfl, rfl, rfl, rfl, rfl, fun _ => rfl⟩

theorem State.bookkept_setPtr (s : State) (core k : Nat) (p : CorePtr) : s.Bookkept core (s.setPtr k p) :=
  ⟨rfl, ⟨rfl, rfl, rfl⟩, rfl, rfl, rfl, rfl, rfl, fun _ => rfl⟩

theorem State.bookkept_clockCore (s : State) (core k : Nat) : s.Bookkept core (s.clockCore k) :=
  ⟨rfl, ⟨rfl, rfl, rfl⟩, rfl, rfl, rfl, rfl, rfl, fun _ => rfl⟩

theorem State.bookkept_smpCount (s : State) (core : Nat) : s.Bookkept core (s.smpCount core) :=
  .ite (.refl _ _) ((State.Bookkept.ite ((s.bookkept_tal core _).trans (State.bookkept_bump _ core)) (.refl _ _)).trans
    (State.bookkept_tal _ core _))

theorem State.bookkept_portTurn (s : State) (g : Gid) (lsu : Bool) : s.Bookkept g.core (s.portTurn g lsu) := by
  unfold State.portTurn
  extract_lets a t p q r u v
  have ht : s.Bookkept g.core t := by
    simp only [t]
    split
    · exact s.bookkept_tal _ _
    · exact .refl _ _
  have hv : s.Bookkept g.core v :=
    ((ht.trans (t.bookkept_setPtr _ _ _)).trans (State.bookkept_smpCount _ _)).trans (State.bookkept_tallyG _ _ _ _)
  exact .ite (hv.trans (v.bookkept_tallyG _ _ _)) hv

/-- The record of a group whose instruction issues. -/
def Group.issuing (x : Group) : Group :=
  { x with bpSkip := none, pfails := 0, stepping := if x.stepping = 1 then 2 else x.stepping }

/-- `t` is `s` as an issue of group `g`, whose record is `x`, leaves it. -/
def State.AtIssue (s : State) (g : Gid) (x : Group) (t : State) : Prop := (s.setGroup g x.issuing).Bookkept g.core t

theorem State.atIssue_issued {s : State} {g : Gid} {x : Group} (h : s.group g = some x) (port lsu : Bool) :
    s.AtIssue g x (s.issued g port lsu) := by
  unfold State.issued State.AtIssue
  rw [State.modGroup_of_group _ h]
  exact (State.bookkept_clockCore _ _ _).trans (.ite (State.bookkept_portTurn _ g lsu) (.refl _ _))

theorem State.AtIssue.trans {s t u : State} {g : Gid} {x : Group} (h : s.AtIssue g x t) (k : t.Bookkept g.core u) : s.AtIssue g x u :=
  State.Bookkept.trans h k

/-! #### What bookkeeping leaves -/

section
variable {s t : State} {core : Nat} (h : s.Bookkept core t)
include h

theorem State.Bookkept.groups : t.thr.groups = s.thr.groups := by rw [h.thr]
theorem State.Bookkept.blocks : t.thr.blocks = s.thr.blocks := by rw [h.thr]
theorem State.Bookkept.rf : t.thr.rf = s.thr.rf := by rw [h.thr]
theorem State.Bookkept.scr : t.thr.scr = s.thr.scr := by rw [h.thr]
theorem State.Bookkept.ops : t.thr.ops = s.thr.ops := by rw [h.thr]
theorem State.Bookkept.serial : t.thr.serial = s.thr.serial := by rw [h.thr]
theorem State.Bookkept.group (g : Gid) : t.group g = s.group g := by simp only [State.group, h.groups]
theorem State.Bookkept.block (n : Nat) : t.block n = s.block n := by simp only [State.block, h.blocks]
theorem State.Bookkept.cmdOf (id : CmdId) : t.cmdOf id = s.cmdOf id := by simp only [State.cmdOf, h.cmd]
theorem State.Bookkept.remaining (n : Nat) : t.remaining n = s.remaining n := by simp only [State.remaining, h.groups]

theorem State.Bookkept.onlyThreads (g : Gid) (hg : g.core = core) : OnlyThreads s t g :=
  ⟨h.mem, h.scr, h.ops, h.blocks, h.coh, h.xlt, h.cmd, h.mx, fun hoff => h.regs (hg ▸ hoff)⟩

end

theorem OnlyThreads.trans {s t u : State} {g : Gid} (h : OnlyThreads s t g) (k : OnlyThreads t u g) : OnlyThreads s u g := by
  obtain ⟨⟨h1, h2, h3⟩, h4, h5, h6, h7, h8, h9, h10, h11⟩ := h
  obtain ⟨⟨k1, k2, k3⟩, k4, k5, k6, k7, k8, k9, k10, k11⟩ := k
  exact ⟨⟨k1.trans h1, k2.trans h2, k3.trans h3⟩, k4.trans h4, k5.trans h5, k6.trans h6, k7.trans h7, k8.trans h8, k9.trans h9,
    k10.trans h10, fun hoff => (k11 ((State.on_of_regs (h11 hoff) _ _ _).trans hoff)).trans (h11 hoff)⟩

theorem OnlyThreads.refl (s : State) (g : Gid) : OnlyThreads s s g :=
  ⟨⟨rfl, rfl, rfl⟩, rfl, rfl, rfl, rfl, rfl, rfl, rfl, fun _ => rfl⟩

theorem OnlyThreads.foldl {α : Type} {g : Gid} (f : State → α → State) (h : ∀ s a, OnlyThreads s (f s a) g) (l : List α) (s : State) :
    OnlyThreads s (l.foldl f s) g := by
  induction l generalizing s with
  | nil => exact .refl s g
  | cons a l ih => exact (h s a).trans (ih _)

theorem State.onlyThreads_setGroup (s : State) (g k : Gid) (x : Group) : OnlyThreads s (s.setGroup k x) g :=
  ⟨⟨rfl, rfl, rfl⟩, rfl, rfl, rfl, rfl, rfl, rfl, rfl, fun _ => rfl⟩

theorem State.onlyThreads_modGroup (s : State) (g k : Gid) (f : Group → Group) : OnlyThreads s (s.modGroup k f) g :=
  ⟨⟨rfl, rfl, rfl⟩, rfl, rfl, rfl, rfl, rfl, rfl, rfl, fun _ => rfl⟩

theorem State.onlyThreads_bump (s : State) (g : Gid) : OnlyThreads s s.bump g :=
  ⟨⟨rfl, rfl, rfl⟩, rfl, rfl, rfl, rfl, rfl, rfl, rfl, fun _ => rfl⟩

section
variable {s t : State} {g : Gid} {x : Group} (h : s.AtIssue g x t)
include h

theorem State.AtIssue.group_self : t.group g = some x.issuing :=
  (State.Bookkept.group h g).trans (s.group_setGroup_self g x.issuing)
theorem State.AtIssue.group_ne {k : Gid} (hk : k ≠ g) : t.group k = s.group k :=
  (State.Bookkept.group h k).trans (s.group_setGroup_ne x.issuing hk)
theorem State.AtIssue.block (n : Nat) : t.block n = s.block n := State.Bookkept.block h n
theorem State.AtIssue.cmdOf (id : CmdId) : t.cmdOf id = s.cmdOf id := State.Bookkept.cmdOf h id
theorem State.AtIssue.rf : t.thr.rf = s.thr.rf := State.Bookkept.rf (s := s.setGroup g x.issuing) h
theorem State.AtIssue.ops : t.thr.ops = s.thr.ops := State.Bookkept.ops (s := s.setGroup g x.issuing) h
theorem State.AtIssue.scr : t.thr.scr = s.thr.scr := State.Bookkept.scr (s := s.setGroup g x.issuing) h
theorem State.AtIssue.mx : t.mx = s.mx := State.Bookkept.mx (s := s.setGroup g x.issuing) h
theorem State.AtIssue.serial : t.thr.serial = s.thr.serial := State.Bookkept.serial (s := s.setGroup g x.issuing) h
theorem State.AtIssue.sameMemory : SameMemory s t := State.Bookkept.mem (s := s.setGroup g x.issuing) h

theorem State.AtIssue.onlyThreads : OnlyThreads s t g :=
  (s.onlyThreads_setGroup g g x.issuing).trans (State.Bookkept.onlyThreads h g rfl)

end

/-! ### An instruction reaches issue -/

section
variable {s : State} {g : Gid} {x : Group} {b : Block} {c : Cmd} {regs : List Nat}

/-- What a group that may issue is: ready, running, with a live lane, of a block that no trap halts. -/
theorem State.Issues.can (h : s.Issues g x b c regs) :
    x.wait = .ready ∧ x.halt = 0 ∧ x.live ≠ 0 ∧ x.gone = false ∧ b.trapped = false := by
  obtain ⟨-, -, -, hcan, -⟩ := h
  simp only [State.canIssue, Bool.and_eq_true, Bool.not_eq_true', bne_iff_ne, beq_iff_eq] at hcan
  obtain ⟨⟨⟨⟨⟨⟨⟨⟨⟨hgone, hlive⟩, hhalt⟩, -⟩, hwait⟩, -⟩, htrap⟩, -⟩, -⟩, -⟩ := hcan
  exact ⟨hwait, hhalt, hlive, hgone, htrap⟩

theorem State.Issues.wait (h : s.Issues g x b c regs) : x.wait = .ready := h.can.1
theorem State.Issues.halt (h : s.Issues g x b c regs) : x.halt = 0 := h.can.2.1
theorem State.Issues.live (h : s.Issues g x b c regs) : x.live ≠ 0 := h.can.2.2.1
theorem State.Issues.gone (h : s.Issues g x b c regs) : x.gone = false := h.can.2.2.2.1
theorem State.Issues.untrapped (h : s.Issues g x b c regs) : b.trapped = false := h.can.2.2.2.2
theorem State.Issues.group (h : s.Issues g x b c regs) : s.group g = some x := h.1
theorem State.Issues.block (h : s.Issues g x b c regs) : s.block x.bid = some b := h.2.1
theorem State.Issues.cmdOf (h : s.Issues g x b c regs) : s.cmdOf b.cmd = some c := h.2.2.1

theorem State.Issues.mono (h : s.Issues g x b c regs) {l : List Nat} (hl : ∀ r ∈ l, r ∈ regs) : s.Issues g x b c l := by
  obtain ⟨hg, hb, hc, hcan, hbr, hreg, hbusy, hf⟩ := h
  refine ⟨hg, hb, hc, hcan, hbr, fun r hr => hreg r (hl r hr), ?_, hf⟩
  rw [List.any_eq_false] at hbusy ⊢
  exact fun r hr => hbusy r (hl r hr)

/-- An instruction whose registers are available executes. -/
theorem State.Issues.issueVia (h : s.Issues g x b c regs) (port : Bool) (body : State → Group → Block → Cmd → State) :
    s.issueVia g port false regs body = body s x b c := by
  obtain ⟨hg, hb, hc, hcan, hbr, hreg, hbusy, hf⟩ := h
  have hout : regs.find? (fun r => decide (8 * x.pages.length ≤ r)) = none :=
    List.find?_eq_none.mpr fun r hr => by simpa using hreg r hr
  simp [State.issueVia, hg, hb, hc, hcan, hbr, hout, hbusy, s.takeFind_nil _ hf]

theorem State.Issues.issue (h : s.Issues g x b c regs) (body : State → Group → Block → Cmd → State) :
    s.issue g false regs body = body s x b c := h.issueVia true body

/-- An undefined encoding traps, whatever its registers. -/
theorem State.Issues.issue_bad (h : s.Issues g x b c regs) (l : List Nat) (body : State → Group → Block → Cmd → State) :
    s.issue g true l body = s.trapNow g true tIllegal 0 := by
  obtain ⟨hg, hb, hc, hcan, hbr, -, -, hf⟩ := h
  simp [State.issue, State.issueVia, hg, hb, hc, hcan, hbr, s.takeFind_nil _ hf]

/-- A register beyond the allocation traps (R59). -/
theorem State.Issues.issue_outside (h : s.Issues g x b c regs) {l : List Nat} {r : Nat}
    (hr : l.find? (fun r => decide (8 * x.pages.length ≤ r)) = some r) (body : State → Group → Block → Cmd → State) :
    s.issue g false l body = s.trapNow g true tRegRange (r % 256) := by
  obtain ⟨hg, hb, hc, hcan, hbr, -, -, hf⟩ := h
  simp [State.issue, State.issueVia, hg, hb, hc, hcan, hbr, hr, s.takeFind_nil _ hf]

/-- A vector-engine instruction executes in a state as its issue leaves it. -/
theorem State.Issues.vec (h : s.Issues g x b c regs) (body : State → Group → Block → Cmd → State) :
    ∃ t, s.AtIssue g x t ∧ s.vec g false regs body = body t x b c :=
  ⟨_, (State.atIssue_issued h.group true false).trans (State.bookkept_tallyG _ g 0x020 (lanesOf x.active).length), h.issue _⟩

theorem State.Issues.vec_bad (h : s.Issues g x b c regs) (l : List Nat) (body : State → Group → Block → Cmd → State) :
    s.vec g true l body = s.trapNow g true tIllegal 0 := h.issue_bad l _

theorem State.Issues.vec_outside (h : s.Issues g x b c regs) {l : List Nat} {r : Nat}
    (hr : l.find? (fun r => decide (8 * x.pages.length ≤ r)) = some r) (body : State → Group → Block → Cmd → State) :
    s.vec g false l body = s.trapNow g true tRegRange (r % 256) := h.issue_outside hr _

/-- One that leaves its masks goes on after it. -/
theorem State.Issues.plain (h : s.Issues g x b c regs) (body : State → Group → Block → State) :
    ∃ t, s.AtIssue g x t ∧ s.plain g false regs body = (body t x b).goOn g := h.vec _

/-! ### Traps (R84) -/

/-- A trap of a group of this block: the block halts, its launch is marked and places no further block, and registers and
engines stay. -/
structure State.Traps (s t : State) (x : Group) (b : Block) : Prop where
  block : t.block x.bid = some { b with trapped := true }
  rf : t.thr.rf = s.thr.rf
  mx : t.mx = s.mx
  launch : ∃ c, t.cmdOf b.cmd = some c ∧ c.trapped = true ∧ c.noMore = true

end

theorem State.wrLines_frame (k n : Nat) (s : State) (pa : Nat) (bs : List Byte) :
    ∃ m l, State.wrLines k n s pa bs = { s with mem := m, lines := l } := by
  induction n generalizing s pa bs with
  | zero => exact ⟨_, _, rfl⟩
  | succ n ih =>
    have hline : ∃ m l, s.wrLine k (pa / 128) (pa % 128) (bs.take (128 - pa % 128)) = { s with mem := m, lines := l } := by
      unfold State.wrLine; split <;> exact ⟨_, _, rfl⟩
    obtain ⟨m, l, hl⟩ := hline
    simp only [State.wrLines]
    split
    · exact ⟨_, _, rfl⟩
    · rw [hl]
      obtain ⟨m', l', h'⟩ := ih { s with mem := m, lines := l } (128 * (pa / 128 + 1)) (bs.drop (128 - pa % 128))
      exact ⟨m', l', h'⟩

/-- A write of bytes changes memory and the lines' attributes alone. -/
theorem State.wrBytes_frame (s : State) (k pa : Nat) (bs : List Byte) : ∃ m l, s.wrBytes k pa bs = { s with mem := m, lines := l } :=
  State.wrLines_frame _ _ _ _ _

theorem State.faultRecord_frame (s : State) (c : Nat) (bs : List Byte) : ∃ m l, s.faultRecord c bs = { s with mem := m, lines := l } := by
  unfold State.faultRecord State.wrNat
  extract_lets n t
  obtain ⟨m, l, ht⟩ := s.wrBytes_frame devKey (s.statusPage c + 0x100 + 32 * (n % 32)) bs
  obtain ⟨m', l', h'⟩ := t.wrBytes_frame devKey (s.statusPage c) (leBytes 4 (n + 1))
  refine ⟨m', l', ?_⟩
  rw [show t.statusPage c = s.statusPage c by simp only [t, ht]; rfl, h', show t = { s with mem := m, lines := l } from ht]

theorem State.faultLater_frame (s : State) (c : Nat) : ∃ m l, s.faultLater c = { s with mem := m, lines := l } :=
  s.wrBytes_frame devKey (s.statusPage c + 4) (leBytes 4 (satTo 0xFFFFFFFF (s.rdNat devKey (s.statusPage c + 4) 4 + 1)))

@[simp] theorem State.dbgEvent_thr (s : State) (c : Nat) (e : DbgEvt) : (s.dbgEvent c e).thr = s.thr := by
  unfold State.dbgEvent; simp only; split <;> simp
@[simp] theorem State.dbgEvent_cmd (s : State) (c : Nat) (e : DbgEvt) : (s.dbgEvent c e).cmd = s.cmd := by
  unfold State.dbgEvent; simp only; split <;> simp
@[simp] theorem State.dbgEvent_mx (s : State) (c : Nat) (e : DbgEvt) : (s.dbgEvent c e).mx = s.mx := by
  unfold State.dbgEvent; simp only; split <;> simp

theorem State.traps_trap {s : State} {g : Gid} {x : Group} {b : Block} {c : Cmd} (hg : s.group g = some x) (hb : s.block x.bid = some b)
    (hc : s.cmdOf b.cmd = some c) (cause aux : Nat) : s.Traps (s.trap g cause aux) x b := by
  unfold State.trap
  simp -zeta only [hg, hb, hc]
  extract_lets o u c' c'' v
  have hu : u.thr = s.thr ∧ u.mx = s.mx := by
    simp only [u]
    split
    · obtain ⟨m, l, h⟩ := s.faultLater_frame b.cmd.ctx
      rw [h]; exact ⟨rfl, rfl⟩
    · obtain ⟨m, l, h⟩ := s.faultRecord_frame b.cmd.ctx (trapRecord cause aux ((c.note (trapStatus cause)).fail.getD 0) g.core g.slot o x b.cmd.seq)
      rw [h]; exact ⟨rfl, rfl⟩
  obtain ⟨hthr, hmx⟩ := hu
  have hv : v.block x.bid = some { b with trapped := true } := aget_aput_self _ _ _
  have hrf : v.thr.rf = s.thr.rf := show u.thr.rf = s.thr.rf by rw [hthr]
  have hl : v.cmdOf b.cmd = some { c'.stopPlacing with trapped := true } := aget_aput_self _ _ _
  split
  · refine ⟨?_, ?_, ?_, { c'.stopPlacing with trapped := true }, ?_, rfl, rfl⟩
    · rw [State.block, State.dbgEvent_thr]; exact hv
    · rw [State.dbgEvent_thr]; exact hrf
    · rw [State.dbgEvent_mx]; exact hmx
    · rw [State.cmdOf, State.dbgEvent_cmd]; exact hl
  · exact ⟨hv, hrf, hmx, _, hl, rfl, rfl⟩

theorem State.Traps.of_atIssue {s t u : State} {g : Gid} {x : Group} {b : Block} (h : s.AtIssue g x t) (k : t.Traps u x.issuing b) :
    s.Traps u x b :=
  ⟨k.block, k.rf.trans h.rf, k.mx.trans h.mx, k.launch⟩

section
variable {s : State} {g : Gid} {x : Group} {b : Block} {c : Cmd} {regs : List Nat}

theorem State.Issues.trap (h : s.Issues g x b c regs) (cause aux : Nat) : s.Traps (s.trap g cause aux) x b :=
  State.traps_trap h.group h.block h.cmdOf cause aux

/-- A trap of an instruction that its port has issued. -/
theorem State.Issues.trapAfter (h : s.Issues g x b c regs) {t : State} (ht : s.AtIssue g x t) (cause aux : Nat) :
    s.Traps (t.trapAfter g cause aux) x b := by
  have hw := ht.trans (t.bookkept_wasted g)
  exact .of_atIssue hw (State.traps_trap hw.group_self ((hw.block _).trans h.block) ((hw.cmdOf _).trans h.cmdOf) cause aux)

theorem State.Issues.trapNow (h : s.Issues g x b c regs) (cause aux : Nat) : s.Traps (s.trapNow g true cause aux) x b :=
  h.trapAfter (State.atIssue_issued h.group true false) cause aux

end

end Sys2Proof.Machine
end

section
/-! SUPPORT. Registers and predicates of the lanes of a group (03_thread_execution.md R59, R70, R71, R80): what a read gives after writes
of every active lane, and what they leave. -/

namespace Sys2Proof.Machine

open Sys2Proof

/-! ### Lanes -/

theorem mem_lanesOf {m : Mask} {l : Nat} : l ∈ lanesOf m ↔ l < 32 ∧ m.getLsbD l = true := by
  simp [lanesOf]

theorem nodup_lanesOf (m : Mask) : (lanesOf m).Nodup := List.nodup_range.filter _

/-! ### Parts of the group records that an update keeps -/

/-- A part `p` of every group record is as it was. -/
def State.Keeps {α : Type} (p : Group → α) (s t : State) : Prop := ∀ k, (t.group k).map p = (s.group k).map p

theorem State.Keeps.refl {α : Type} (p : Group → α) (s : State) : s.Keeps p s := fun _ => rfl

theorem State.Keeps.trans {α : Type} {p : Group → α} {s t u : State} (h : s.Keeps p t) (k : t.Keeps p u) : s.Keeps p u :=
  fun i => (k i).trans (h i)

theorem State.Keeps.foldl {α β : Type} {p : Group → α} (f : State → β → State) (h : ∀ (s : State) a, s.Keeps p (f s a)) (l : List β) (s : State) :
    s.Keeps p (l.foldl f s) := by
  induction l generalizing s with
  | nil => exact .refl p s
  | cons a l ih => exact (h s a).trans (ih _)

theorem State.keeps_modGroup {α : Type} (p : Group → α) (s : State) (g : Gid) (f : Group → Group) (hf : ∀ y, p (f y) = p y) :
    s.Keeps p (s.modGroup g f) := by
  intro k
  by_cases hk : k = g
  · subst hk
    rw [s.group_modGroup_self, Option.map_map]
    exact congrArg (Option.map · _) (funext hf)
  · rw [s.group_modGroup_ne f hk]

theorem State.AtIssue.keeps {s t : State} {g : Gid} {x : Group} (ht : s.AtIssue g x t) (hg : s.group g = some x) {α : Type}
    (p : Group → α) (hp : p x.issuing = p x) : s.Keeps p t := by
  intro k
  by_cases hk : k = g
  · subst hk
    rw [ht.group_self, hg, Option.map_some, Option.map_some, hp]
  · rw [ht.group_ne hk]

/-! #### What the accessors of a lane read -/

section
variable {s t : State}

theorem State.Keeps.rfKey (h : s.Keeps Group.pages t) (core home r l : Nat) : t.rfKey core home r l = s.rfKey core home r l := by
  have hk := h ⟨core, home⟩
  unfold State.rfKey
  cases ht : t.group ⟨core, home⟩ <;> cases hs : s.group ⟨core, home⟩ <;> simp_all

theorem State.Keeps.getReg (h : s.Keeps Group.pages t) (hrf : t.thr.rf = s.thr.rf) (g : Gid) (x : Group) (r l : Nat) :
    t.getReg g x r l = s.getReg g x r l := by
  simp only [State.getReg, h.rfKey, hrf]

theorem State.Keeps.getPred (h : s.Keeps Group.preds t) (g : Gid) (x : Group) (p l : Nat) : t.getPred g x p l = s.getPred g x p l := by
  have hk := h ⟨g.core, x.homeSlot g l⟩
  unfold State.getPred
  cases ht : t.group ⟨g.core, x.homeSlot g l⟩ <;> cases hs : s.group ⟨g.core, x.homeSlot g l⟩ <;> simp_all

theorem State.Keeps.ogrpOf (h : s.Keeps Group.ogrp t) (g : Gid) (x : Group) (l : Nat) : t.ogrpOf g x l = s.ogrpOf g x l := by
  have hk := h ⟨g.core, x.homeSlot g l⟩
  unfold State.ogrpOf
  cases ht : t.group ⟨g.core, x.homeSlot g l⟩ <;> cases hs : s.group ⟨g.core, x.homeSlot g l⟩ <;> simp_all

theorem State.Keeps.rgOf (h : s.Keeps Group.rg t) (g : Gid) (x : Group) (l : Nat) : t.rgOf g x l = s.rgOf g x l := by
  have hk := h ⟨g.core, x.homeSlot g l⟩
  unfold State.rgOf
  cases ht : t.group ⟨g.core, x.homeSlot g l⟩ <;> cases hs : s.group ⟨g.core, x.homeSlot g l⟩ <;> simp_all

variable {g : Gid} {x : Group} (ht : s.AtIssue g x t) (hg : s.group g = some x)
include ht hg

theorem State.AtIssue.pages : s.Keeps Group.pages t := ht.keeps hg _ rfl

theorem State.AtIssue.getReg (r l : Nat) : t.getReg g x r l = s.getReg g x r l := (ht.pages hg).getReg ht.rf g x r l

theorem State.AtIssue.getRegs (r n l : Nat) : t.getRegs g x r n l = s.getRegs g x r n l := by
  simp only [State.getRegs, ht.getReg hg]

theorem State.AtIssue.getPred (p l : Nat) : t.getPred g x p l = s.getPred g x p l := (ht.keeps hg Group.preds rfl).getPred g x p l

theorem State.AtIssue.trueLanes (p : Nat) : t.trueLanes g x p = s.trueLanes g x p := by
  simp only [State.trueLanes, funext (ht.getPred hg p)]

theorem State.AtIssue.svalOf (b : Block) (l : Nat) (n : SvalName) : t.svalOf g x b l n = s.svalOf g x b l n := by
  cases n <;> simp only [State.svalOf, (ht.keeps hg Group.ogrp rfl).ogrpOf, (ht.keeps hg Group.rg rfl).rgOf]

end

/-! ### Registers written -/

theorem State.aget_setHomeReg (s : State) (core home r l : Nat) (v : W32) (k : RfKey) :
    aget (s.setHomeReg core home r l v).thr.rf k = if k = s.rfKey core home r l then some v else aget s.thr.rf k := by
  split
  · rename_i h
    rw [h]; exact aget_aput_self _ _ _
  · rename_i h
    exact aget_aput_ne _ _ (Ne.symm h)

theorem State.aget_putReg (s : State) (g : Gid) (x : Group) (r l : Nat) (v : W32) (k : RfKey) :
    aget (s.putReg g x r l v).thr.rf k = if k = s.rfKey g.core (x.homeSlot g l) r l then some v else aget s.thr.rf k :=
  s.aget_setHomeReg _ _ _ _ _ _

theorem State.keeps_putReg {α : Type} (p : Group → α) (s : State) (g : Gid) (x : Group) (r l : Nat) (v : W32) :
    s.Keeps p (s.putReg g x r l v) := fun _ => rfl

theorem State.onlyThreads_putReg (s : State) (g : Gid) (x : Group) (r l : Nat) (v : W32) : OnlyThreads s (s.putReg g x r l v) g :=
  ⟨⟨rfl, rfl, rfl⟩, rfl, rfl, rfl, rfl, rfl, rfl, rfl, fun _ => rfl⟩

@[simp] theorem State.rfKey_lane (s : State) (core home r l : Nat) : (s.rfKey core home r l).lane = l := rfl

theorem State.ne_rfKey_of_lane (s : State) {k : RfKey} {l : Nat} (h : k.lane ≠ l) (core home r : Nat) : k ≠ s.rfKey core home r l :=
  fun e => h (by rw [e, State.rfKey_lane])

/-- Lane after lane, each writing its own registers: `W` is what a register gets from its lane. -/
theorem aget_rf_foldl_lanes {s : State} {step : State → Nat → State} {W : RfKey → Option W32}
    (hpages : ∀ (t : State) l, t.Keeps Group.pages (step t l))
    (hrf : ∀ (t : State) l k, s.Keeps Group.pages t → aget (step t l).thr.rf k = if k.lane = l then (W k).or (aget t.thr.rf k) else aget t.thr.rf k)
    (L : List Nat) (k : RfKey) :
    aget (L.foldl step s).thr.rf k = if k.lane ∈ L then (W k).or (aget s.thr.rf k) else aget s.thr.rf k := by
  have H : ∀ (L : List Nat) (t : State), s.Keeps Group.pages t →
      aget (L.foldl step t).thr.rf k = if k.lane ∈ L then (W k).or (aget t.thr.rf k) else aget t.thr.rf k := by
    intro L
    induction L with
    | nil => intro t _; simp
    | cons l L ih =>
      intro t ht
      rw [List.foldl_cons, ih _ (ht.trans (hpages t l)), hrf t l k ht]
      by_cases hl : k.lane = l <;> by_cases hL : k.lane ∈ L <;> cases hW : W k <;> simp [hl, hL]
  exact H L s (.refl _ s)

/-- A register of every active lane written lane after lane. -/
theorem wroteReg_foldl {s : State} {g : Gid} {x : Group} {rd : Nat} {v : Nat → W32} {step : State → Nat → State}
    (hpages : ∀ (t : State) l, t.Keeps Group.pages (step t l))
    (hrf : ∀ (t : State) l k, aget (step t l).thr.rf k = if k = t.rfKey g.core (x.homeSlot g l) rd l then some (v l) else aget t.thr.rf k) :
    WroteReg s ((lanesOf x.active).foldl step s) g x rd v := by
  intro k
  rw [aget_rf_foldl_lanes (W := fun k => if k = s.rfKey g.core (x.homeSlot g k.lane) rd k.lane then some (v k.lane) else none) hpages]
  · simp only [mem_lanesOf]
    by_cases hm : k.lane < 32 ∧ x.active.getLsbD k.lane = true
    · by_cases hk : k = s.rfKey g.core (x.homeSlot g k.lane) rd k.lane
      · rw [if_pos hm, if_pos hk, if_pos ⟨hm.1, hm.2, hk⟩, Option.some_or]
      · rw [if_pos hm, if_neg hk, if_neg (fun h => hk h.2.2), Option.none_or]
    · rw [if_neg hm, if_neg (fun h => hm ⟨h.1, h.2.1⟩)]
  · intro t l k ht
    rw [hrf, ht.rfKey]
    by_cases hl : k.lane = l
    · subst hl
      rw [if_pos rfl]
      split <;> simp
    · rw [if_neg hl, if_neg (s.ne_rfKey_of_lane hl _ _ _)]

theorem State.wroteReg_putAll (s : State) (g : Gid) (x : Group) (r : Nat) (f : Nat → W32) : WroteReg s (s.putAll g x r f) g x r f :=
  wroteReg_foldl (fun t l => t.keeps_putReg _ g x r l (f l)) (fun t l k => t.aget_putReg g x r l (f l) k)

theorem State.onlyThreads_putAll (s : State) (g : Gid) (x : Group) (r : Nat) (f : Nat → W32) : OnlyThreads s (s.putAll g x r f) g :=
  .foldl _ (fun t l => t.onlyThreads_putReg g x r l (f l)) _ _

theorem State.group_putAll (s : State) (g : Gid) (x : Group) (r : Nat) (f : Nat → W32) (k : Gid) :
    (s.putAll g x r f).group k = s.group k :=
  foldl_keeps (fun (t : State) l => t.putReg g x r l (f l)) (fun t : State => t.group k) (fun _ _ => rfl) _ _

/-- A write counts from the state before the issue. -/
theorem State.AtIssue.wroteReg {s t u : State} {g : Gid} {x : Group} (ht : s.AtIssue g x t) (hg : s.group g = some x) {rd : Nat}
    {v : Nat → W32} (h : WroteReg t u g x rd v) : WroteReg s u g x rd v := by
  intro k
  rw [h k, (ht.pages hg).rfKey, ht.rf]

/-! ### The group goes on -/

theorem State.onlyThreads_goOn (s : State) (g : Gid) : OnlyThreads s (s.goOn g) g := s.onlyThreads_modGroup g g _

theorem State.rf_goOn (s : State) (g : Gid) : (s.goOn g).thr.rf = s.thr.rf := rfl

theorem State.group_goOn_self {s : State} {g : Gid} {y : Group} (h : s.group g = some y) :
    (s.goOn g).group g = some { y with pc := Config.nextPc y.pc } := by
  rw [State.goOn, s.group_modGroup_self, h, Option.map_some]

theorem State.group_goOn_ne (s : State) {g h : Gid} (k : h ≠ g) : (s.goOn g).group h = s.group h := s.group_modGroup_ne _ k

/-- A group that its instruction leaves as at issue goes on with its masks. -/
theorem WentOn.of_goOn {t : State} {g : Gid} {x y : Group} (h : t.group g = some y) (hy : y.pc = x.pc ∧ y.live = x.live ∧
    y.active = x.active ∧ y.stack = x.stack ∧ y.wait = x.wait) : WentOn (t.goOn g) g x := by
  obtain ⟨hpc, hlive, hactive, hstack, hwait⟩ := hy
  exact ⟨_, State.group_goOn_self h, by rw [hpc], hlive, hactive, hstack, hwait⟩

theorem State.AtIssue.wentOn {s t : State} {g : Gid} {x : Group} (h : s.AtIssue g x t) : WentOn (t.goOn g) g x :=
  .of_goOn h.group_self ⟨rfl, rfl, rfl, rfl, rfl⟩

theorem State.AtIssue.othersStay {s t : State} {g : Gid} {x : Group} (h : s.AtIssue g x t) : OthersStay s (t.goOn g) g :=
  fun _ hk => (t.group_goOn_ne hk).trans (h.group_ne hk)

/-- What an instruction that writes registers of its group alone leaves, going on after it. -/
theorem State.AtIssue.wentOn_onlyThreads {s t u : State} {g : Gid} {x : Group} (h : s.AtIssue g x t) (hu : ∀ k, u.group k = t.group k)
    (ho : OnlyThreads t u g) : WentOn (u.goOn g) g x ∧ OthersStay s (u.goOn g) g ∧ OnlyThreads s (u.goOn g) g :=
  ⟨.of_goOn ((hu g).trans h.group_self) ⟨rfl, rfl, rfl, rfl, rfl⟩,
    fun _ hk => (u.group_goOn_ne hk).trans ((hu _).trans (h.group_ne hk)),
    (h.onlyThreads.trans ho).trans (u.onlyThreads_goOn g)⟩

/-- An instruction that writes one register of every active lane and goes on. -/
theorem State.AtIssue.putAll_goOn {s t : State} {g : Gid} {x : Group} (h : s.AtIssue g x t) (hg : s.group g = some x) (rd : Nat)
    {f v : Nat → W32} (hv : f = v) : WroteReg s ((t.putAll g x rd f).goOn g) g x rd v ∧ WentOn ((t.putAll g x rd f).goOn g) g x ∧
      OthersStay s ((t.putAll g x rd f).goOn g) g ∧ OnlyThreads s ((t.putAll g x rd f).goOn g) g := by
  subst hv
  exact ⟨h.wroteReg hg (t.wroteReg_putAll g x rd f), h.wentOn_onlyThreads (t.group_putAll g x rd f) (t.onlyThreads_putAll g x rd f)⟩

/-! ### Lane results -/

/-- A 32-bit word whose low bits hold a code, free bits above it. -/
theorem toNat_ofNat_low (v f n : Nat) (h : n ≤ 32) : (BitVec.ofNat 32 (v + f * 2 ^ n)).toNat % 2 ^ n = v % 2 ^ n := by
  rw [BitVec.toNat_ofNat, Nat.mod_mod_of_dvd _ (Nat.pow_dvd_pow 2 h), Nat.add_mul_mod_self_right]

theorem fmtBits_le (f : Fmt) : fmtBits f ≤ 32 := by cases f <;> decide

theorem State.AtIssue.vecResult {s t : State} {g : Gid} {x : Group} (h : s.AtIssue g x t) (hg : s.group g = some x) (md : ArMode)
    {op : VecOp} (ra rb rc : Nat) (hop : op = .fadd ∨ op = .fmul ∨ op = .ffma ∨ op = .fmax ∨ op = .fmin ∨ ∃ k, op = .corpin k) :
    t.vecResult g x md op ra rb rc = s.vecResult g x md op ra rb rc := by
  funext l
  rcases hop with rfl | rfl | rfl | rfl | rfl | ⟨k, rfl⟩ <;> simp only [State.vecResult, h.getReg hg]

/-- The operations that write one 32-bit register. -/
def oneReg : VecOp → Bool
  | .jump _ => false
  | .dfma => false
  | .double _ => false
  | _ => true

section
variable {s : State} {g : Gid} {x : Group} {b : Block} {c : Cmd}

/-- The state in which a vector operation that no check stops does its work. -/
theorem State.Issues.vecOp_one {op : VecOp} {rd ra rb rc : Nat} (h : s.Issues g x b c (vecRegs op rd ra rb rc)) (hop : oneReg op = true) :
    ∃ t, s.AtIssue g x t ∧ s.vecOp g op rd ra rb rc .none = ((t.putAll g x rd (t.vecResult g x c.mode op ra rb rc)).bump).goOn g := by
  refine ⟨_, (State.atIssue_issued h.group true false).trans (State.bookkept_tallyG _ g 0x020 (lanesOf x.active).length), ?_⟩
  rw [State.vecOp, h.issue]
  cases op
  case jump => cases hop
  case dfma => cases hop
  case double => cases hop
  all_goals rfl

theorem State.Issues.vecOp_dfma {rd ra rb rc : Nat} (h : s.Issues g x b c (vecRegs .dfma rd ra rb rc)) :
    ∃ t, s.AtIssue g x t ∧ s.vecOp g .dfma rd ra rb rc .none = (t.putDoubles g x rd ra rb rc dfma).goOn g :=
  ⟨_, ((State.atIssue_issued h.group true false).trans (State.bookkept_tallyG _ g 0x020 (lanesOf x.active).length)).trans
    (State.bookkept_tallyG _ g 0x010 1), by rw [State.vecOp, h.issue]; rfl⟩

theorem State.Issues.vecOp_double {o : FOp} {rd ra rb rc : Nat} (h : s.Issues g x b c (vecRegs (.double o) rd ra rb rc)) :
    ∃ t, s.AtIssue g x t ∧ s.vecOp g (.double o) rd ra rb rc .none = (t.putDoubles g x rd ra rb rc (doubleOp o)).goOn g :=
  ⟨_, ((State.atIssue_issued h.group true false).trans (State.bookkept_tallyG _ g 0x020 (lanesOf x.active).length)).trans
    (.ite (State.bookkept_tallyG _ g 0x010 1) (.refl _ _)), by rw [State.vecOp, h.issue]; rfl⟩

theorem State.Issues.vecOp_jump {p : Pc} {rd ra rb rc : Nat} (h : s.Issues g x b c []) :
    ∃ t, s.AtIssue g x t ∧ s.vecOp g (.jump p) rd ra rb rc .none = t.modGroup g (fun y => { y with pc := p }) :=
  ⟨_, (State.atIssue_issued h.group true false).trans (State.bookkept_tallyG _ g 0x020 (lanesOf x.active).length), by
    rw [State.vecOp, State.Issues.issue (regs := vecRegs (.jump p) rd ra rb rc) h]; rfl⟩

/-- A vector operation writes one register of every active lane. -/
theorem State.Issues.vecOp_writes {op : VecOp} {rd ra rb rc : Nat} (h : s.Issues g x b c (vecRegs op rd ra rb rc)) (hop : oneReg op = true) :
    ∃ t, s.AtIssue g x t ∧ WroteReg s (s.vecOp g op rd ra rb rc .none) g x rd (t.vecResult g x c.mode op ra rb rc) ∧
      WentOn (s.vecOp g op rd ra rb rc .none) g x ∧ OthersStay s (s.vecOp g op rd ra rb rc .none) g ∧
      OnlyThreads s (s.vecOp g op rd ra rb rc .none) g := by
  obtain ⟨t, ht, heq⟩ := h.vecOp_one hop
  refine ⟨t, ht, ?_⟩
  rw [heq]
  exact ⟨ht.wroteReg h.group (t.wroteReg_putAll g x rd _), ht.wentOn_onlyThreads (t.group_putAll g x rd _)
    ((t.onlyThreads_putAll g x rd _).trans (State.onlyThreads_bump _ g))⟩

end

/-! ### Register pairs -/

/-- A lane's part of a binary64 result. -/
def State.putDouble (s : State) (g : Gid) (x : Group) (rd l : Nat) (v : W64) : State :=
  (s.putReg g x rd l (v.extractLsb' 0 32)).putReg g x (rd + 1) l (v.extractLsb' 32 32)

/-- A pair of registers lies in two places. -/
theorem State.rfKey_succ_ne (s : State) (core home r l : Nat) : s.rfKey core home r l ≠ s.rfKey core home (r + 1) l := by
  intro h
  have : r % 8 = (r + 1) % 8 := congrArg RfKey.reg h
  omega

theorem State.aget_putDouble (s : State) (g : Gid) (x : Group) (rd l : Nat) (v : W64) (k : RfKey) :
    aget (s.putDouble g x rd l v).thr.rf k =
      if k = s.rfKey g.core (x.homeSlot g l) rd l then some (v.extractLsb' 0 32)
      else if k = s.rfKey g.core (x.homeSlot g l) (rd + 1) l then some (v.extractLsb' 32 32) else aget s.thr.rf k := by
  rw [State.putDouble, State.aget_putReg, s.aget_putReg, (s.keeps_putReg Group.pages g x rd l _).rfKey]
  by_cases h : k = s.rfKey g.core (x.homeSlot g l) rd l
  · rw [if_pos h, if_neg (h ▸ s.rfKey_succ_ne _ _ _ _), if_pos h]
  · rw [if_neg h, if_neg h]

theorem State.keeps_putDouble {α : Type} (p : Group → α) (s : State) (g : Gid) (x : Group) (rd l : Nat) (v : W64) :
    s.Keeps p (s.putDouble g x rd l v) := fun _ => rfl

/-- What a register of a lane gets from a binary64 result. -/
def State.doubleAt (s : State) (g : Gid) (x : Group) (rd : Nat) (v : Nat → W64) (k : RfKey) : Option W32 :=
  if k = s.rfKey g.core (x.homeSlot g k.lane) rd k.lane then some ((v k.lane).extractLsb' 0 32)
  else if k = s.rfKey g.core (x.homeSlot g k.lane) (rd + 1) k.lane then some ((v k.lane).extractLsb' 32 32) else none

/-- The binary64 result of a lane. -/
def State.doubleOf (s : State) (g : Gid) (x : Group) (ra rb rc : Nat) (f : W64 → W64 → W64 → W64) (l : Nat) : W64 :=
  f (BitVec.ofNat 64 (s.getRegs g x ra 2 l)) (BitVec.ofNat 64 (s.getRegs g x rb 2 l)) (BitVec.ofNat 64 (s.getRegs g x rc 2 l))

theorem State.putDoubles_eq (s : State) (g : Gid) (x : Group) (rd ra rb rc : Nat) (f : W64 → W64 → W64 → W64) :
    s.putDoubles g x rd ra rb rc f = (lanesOf x.active).foldl (fun t l => t.putDouble g x rd l (s.doubleOf g x ra rb rc f l)) s := rfl

theorem State.aget_putDoubles (s : State) (g : Gid) (x : Group) (rd ra rb rc : Nat) (f : W64 → W64 → W64 → W64) (k : RfKey) :
    aget (s.putDoubles g x rd ra rb rc f).thr.rf k =
      if k.lane ∈ lanesOf x.active then (s.doubleAt g x rd (s.doubleOf g x ra rb rc f) k).or (aget s.thr.rf k) else aget s.thr.rf k := by
  rw [State.putDoubles_eq]
  refine aget_rf_foldl_lanes (fun t l => t.keeps_putDouble _ g x rd l _) (fun t l k ht => ?_) _ k
  rw [t.aget_putDouble, ht.rfKey, ht.rfKey]
  by_cases hl : k.lane = l
  · subst hl
    rw [if_pos rfl, State.doubleAt]
    split
    · rfl
    · split <;> rfl
  · rw [if_neg hl, if_neg (s.ne_rfKey_of_lane hl _ _ _), if_neg (s.ne_rfKey_of_lane hl _ _ _)]

theorem State.onlyThreads_putDoubles (s : State) (g : Gid) (x : Group) (rd ra rb rc : Nat) (f : W64 → W64 → W64 → W64) :
    OnlyThreads s (s.putDoubles g x rd ra rb rc f) g :=
  .foldl _ (fun t l => (t.onlyThreads_putReg g x rd l _).trans (State.onlyThreads_putReg _ g x (rd + 1) l _)) _ _

theorem State.group_putDoubles (s : State) (g : Gid) (x : Group) (rd ra rb rc : Nat) (f : W64 → W64 → W64 → W64) (k : Gid) :
    (s.putDoubles g x rd ra rb rc f).group k = s.group k :=
  foldl_keeps (fun (t : State) l => t.putDouble g x rd l (s.doubleOf g x ra rb rc f l)) (fun t : State => t.group k) (fun _ _ => rfl) _ _

/-- A binary64 instruction writes its pair in every active lane and goes on. -/
theorem State.AtIssue.putDoubles_goOn {s t : State} {g : Gid} {x : Group} (ht : s.AtIssue g x t) (hg : s.group g = some x)
    (rd ra rb rc : Nat) (f : W64 → W64 → W64 → W64) :
    (∀ (k : RfKey) (v : W64), v = s.doubleOf g x ra rb rc f k.lane → aget ((t.putDoubles g x rd ra rb rc f).goOn g).thr.rf k =
      if k.lane < 32 ∧ x.active.getLsbD k.lane = true ∧ k = s.rfKey g.core (x.homeSlot g k.lane) rd k.lane then some (v.extractLsb' 0 32)
      else if k.lane < 32 ∧ x.active.getLsbD k.lane = true ∧ k = s.rfKey g.core (x.homeSlot g k.lane) (rd + 1) k.lane
        then some (v.extractLsb' 32 32)
      else aget s.thr.rf k) ∧
    WentOn ((t.putDoubles g x rd ra rb rc f).goOn g) g x ∧ OthersStay s ((t.putDoubles g x rd ra rb rc f).goOn g) g ∧
      OnlyThreads s ((t.putDoubles g x rd ra rb rc f).goOn g) g := by
  refine ⟨?_, ht.wentOn_onlyThreads (t.group_putDoubles g x rd ra rb rc f) (t.onlyThreads_putDoubles g x rd ra rb rc f)⟩
  rintro k v rfl
  have hv : t.doubleOf g x ra rb rc f k.lane = s.doubleOf g x ra rb rc f k.lane := by simp only [State.doubleOf, ht.getRegs hg]
  rw [State.rf_goOn, t.aget_putDoubles, State.doubleAt, hv, ht.rf, (ht.pages hg).rfKey, (ht.pages hg).rfKey]
  simp only [mem_lanesOf, ← and_assoc]
  by_cases hm : k.lane < 32 ∧ x.active.getLsbD k.lane = true
  · simp only [hm, and_self, true_and, if_true]
    split
    · rfl
    · split <;> rfl
  · simp only [hm, false_and, if_false]

/-- Settles O19: a vector instruction acts on what its issue leaves; each lane writes its own register, and reads what it had before. -/
theorem laneResults : Obligations.LaneResults := by
  refine ⟨?sval, ?masks, ?lpeer, ?vec, ?narrow, ?double, ?jump, ?outside⟩
  case sval =>
    intro s g x b c rd n h
    obtain ⟨t, ht, heq⟩ := h.plain (fun s x b => s.putAll g x rd (fun l => BitVec.ofNat 32 (s.svalOf g x b l n)))
    exact ⟨_, congrArg Host.Outcome.next heq, ht.putAll_goOn h.group rd (by simp only [ht.svalOf h.group])⟩
  case masks =>
    intro s g x b c rd ps h
    constructor
    · obtain ⟨t, ht, heq⟩ := h.plain (fun s x _ => s.putAll g x rd (fun _ => BitVec.ofNat 32 ((s.trueLanes g x ps).map (2 ^ ·)).sum))
      exact ⟨_, congrArg Host.Outcome.next heq, ht.putAll_goOn h.group rd (by rw [ht.trueLanes h.group])⟩
    · obtain ⟨t, ht, heq⟩ := h.plain (fun s x _ => s.putAll g x rd (fun _ => BitVec.ofNat 32 (s.trueLanes g x ps).length))
      exact ⟨_, congrArg Host.Outcome.next heq, ht.putAll_goOn h.group rd (by rw [ht.trueLanes h.group])⟩
  case lpeer =>
    intro s g x b c rd rs h
    obtain ⟨t, ht, heq⟩ := h.plain (fun s x _ => s.putAll g x rd (fun l =>
      BitVec.ofNat 32 (((lanesOf x.active).filter (fun j => s.getReg g x rs j == s.getReg g x rs l)).map (2 ^ ·)).sum))
    exact ⟨_, congrArg Host.Outcome.next heq, ht.putAll_goOn h.group rd (by simp only [ht.getReg h.group])⟩
  case vec =>
    intro s g x b c op rd ra rb rc h hop
    have hone : oneReg op = true := by rcases hop with rfl | rfl | rfl | rfl | rfl | ⟨k, rfl⟩ <;> rfl
    obtain ⟨t, ht, hw, hrest⟩ := h.vecOp_writes hone
    rw [ht.vecResult h.group c.mode ra rb rc hop] at hw
    exact ⟨_, rfl, hw, hrest⟩
  case narrow =>
    intro s g x b c op rd ra rb rc n f h hop
    have hone : oneReg op = true := by rcases hop with ⟨o, ty, rfl, -⟩ | ⟨src, dst, rfl, -⟩ <;> rfl
    obtain ⟨t, ht, hw, hrest⟩ := h.vecOp_writes hone
    refine ⟨_, rfl, _, hw, fun l => ?_, hrest⟩
    rcases hop with ⟨o, ty, rfl, rfl, rfl⟩ | ⟨src, dst, rfl, rfl, rfl⟩
    · simp only [State.vecResult, ht.getReg h.group]
      exact toNat_ofNat_low _ _ _ (fmtBits_le _)
    · simp only [State.vecResult, ht.getReg h.group]
      exact toNat_ofNat_low _ _ _ (fmtBits_le _)
  case double =>
    intro s g x b c op rd ra rb rc f h hop
    rcases hop with ⟨rfl, rfl⟩ | ⟨o, rfl, rfl⟩
    · obtain ⟨t, ht, heq⟩ := h.vecOp_dfma
      exact ⟨_, congrArg Host.Outcome.next heq, ht.putDoubles_goOn h.group rd ra rb rc dfma⟩
    · obtain ⟨t, ht, heq⟩ := h.vecOp_double
      exact ⟨_, congrArg Host.Outcome.next heq, ht.putDoubles_goOn h.group rd ra rb rc (doubleOp o)⟩
  case jump =>
    intro s g x b c p rd ra rb rc h
    obtain ⟨t, ht, heq⟩ := h.vecOp_jump (p := p) (rd := rd) (ra := ra) (rb := rb) (rc := rc)
    refine ⟨_, congrArg Host.Outcome.next heq, { x.issuing with pc := p }, ?_, rfl, rfl, rfl, rfl, ht.rf,
      fun k hk => (t.group_modGroup_ne _ hk).trans (ht.group_ne hk), ht.onlyThreads.trans (t.onlyThreads_modGroup g g _)⟩
    rw [t.group_modGroup_self, ht.group_self, Option.map_some]
  case outside =>
    intro s g x b c rd n h hrd
    have hout : [rd].find? (fun r => decide (8 * x.pages.length ≤ r)) = some rd := by simp [hrd]
    have heq : s.sval g rd n = s.trapNow g true tRegRange (rd % 256) := by rw [State.sval, State.plain, h.vec_outside hout]
    have ht := h.trapNow tRegRange (rd % 256)
    exact ⟨_, congrArg Host.Outcome.next heq, ht.block, ht.rf⟩

end Sys2Proof.Machine
end

section
/-! SUPPORT. Votes and exchanges (03_thread_execution.md R71, Table 3.6): predicates of the lanes written, and registers and predicates
of the lanes of a segment. -/

namespace Sys2Proof.Machine

open Sys2Proof

/-! ### Predicates written -/

/-- A thread's predicates with one of them written. -/
def predsWith (a : BitVec 16) (p : Nat) (v : Bool) : BitVec 16 := (a &&& ~~~(1#16 <<< p)) ||| (if v then 1#16 <<< p else 0)

theorem getLsbD_predsWith (a : BitVec 16) (v : Bool) {p q : Nat} (hp : p < 16) (hq : q < 16) :
    (predsWith a p v).getLsbD q = if q = p then v else a.getLsbD q := by
  have hbit : (1#16 <<< p).getLsbD q = decide (q = p) := by
    rw [BitVec.getLsbD_shiftLeft, BitVec.getLsbD_one]
    by_cases h : q = p
    · simp [h, hp]
    · simp [h]; omega
  have hset : (if v then 1#16 <<< p else 0).getLsbD q = (v && decide (q = p)) := by cases v <;> simp [hbit]
  rw [predsWith, BitVec.getLsbD_or, BitVec.getLsbD_and, BitVec.getLsbD_not, hbit, hset]
  by_cases h : q = p <;> simp [h, hp, hq]

theorem State.putPred_eq (s : State) (g : Gid) (x : Group) (p l : Nat) (v : Bool) :
    s.putPred g x p l v = s.modGroup ⟨g.core, x.homeSlot g l⟩ (fun h => { h with preds := h.preds.set l (predsWith (h.preds.getD l 0) p v) }) :=
  rfl

theorem State.getPred_putPred_self {s : State} {g : Gid} {x h : Group} {p l : Nat} (v : Bool)
    (hh : s.group ⟨g.core, x.homeSlot g l⟩ = some h) (hl : l < h.preds.length) (hp : p < 16) : (s.putPred g x p l v).getPred g x p l = v := by
  rw [State.putPred_eq, State.getPred, s.group_modGroup_self, hh]
  simp [List.getD_eq_getElem?_getD, hl, getLsbD_predsWith _ v hp hp]

theorem State.getPred_putPred_ne (s : State) (g : Gid) (x : Group) {p q l k : Nat} (v : Bool) (hp : p < 16) (hq : q < 16)
    (h : k ≠ l ∨ q ≠ p) : (s.putPred g x p l v).getPred g x q k = s.getPred g x q k := by
  rw [State.putPred_eq, State.getPred, State.getPred]
  by_cases hk : x.homeSlot g k = x.homeSlot g l
  · rw [hk, s.group_modGroup_self]
    cases s.group ⟨g.core, x.homeSlot g l⟩ with
    | none => rfl
    | some y =>
      by_cases hkl : k = l
      · have hqp : q ≠ p := h.resolve_left (fun hne => hne hkl)
        subst hkl
        by_cases hlen : k < y.preds.length
        · simp [List.getD_eq_getElem?_getD, hlen, getLsbD_predsWith _ v hp hq, hqp]
        · simp [List.getD_eq_getElem?_getD, hlen]
      · simp [List.getD_eq_getElem?_getD, List.getElem?_set_ne (Ne.symm hkl)]
  · rw [s.group_modGroup_ne _ (fun e => hk (congrArg Gid.slot e))]

theorem State.keeps_putPred {α : Type} (f : Group → α) (hf : ∀ y l, f { y with preds := l } = f y) (s : State) (g : Gid) (x : Group)
    (p l : Nat) (v : Bool) : s.Keeps f (s.putPred g x p l v) :=
  s.keeps_modGroup f _ _ (fun y => hf y _)

theorem State.keeps_predsLength (s : State) (g : Gid) (x : Group) (p l : Nat) (v : Bool) :
    s.Keeps (fun y => y.preds.length) (s.putPred g x p l v) :=
  s.keeps_modGroup _ _ _ (fun y => by simp [lset])

theorem State.onlyThreads_putPred (s : State) (g : Gid) (x : Group) (p l : Nat) (v : Bool) : OnlyThreads s (s.putPred g x p l v) g :=
  s.onlyThreads_modGroup g _ _

theorem State.rf_putPred (s : State) (g : Gid) (x : Group) (p l : Nat) (v : Bool) : (s.putPred g x p l v).thr.rf = s.thr.rf := rfl

/-! #### In every lane of a list -/

/-- The threads of these lanes hold predicates. -/
def State.HasPreds (s : State) (g : Gid) (x : Group) (L : List Nat) : Prop :=
  ∀ l ∈ L, ∃ h, s.group ⟨g.core, x.homeSlot g l⟩ = some h ∧ l < h.preds.length

theorem State.HasPreds.of_keeps {s t : State} {g : Gid} {x : Group} {L : List Nat} (h : s.HasPreds g x L)
    (k : s.Keeps (fun y => y.preds.length) t) : t.HasPreds g x L := by
  intro l hl
  obtain ⟨y, hy, hlen⟩ := h l hl
  have hk := k ⟨g.core, x.homeSlot g l⟩
  rw [hy, Option.map_some, Option.map_eq_some_iff] at hk
  obtain ⟨z, hz, he⟩ := hk
  exact ⟨z, hz, he ▸ hlen⟩

theorem State.getPred_foldl_putPred_ne (g : Gid) (x : Group) {p q k : Nat} (v : Bool) (hp : p < 16) (hq : q < 16) (L : List Nat) (s : State)
    (h : k ∉ L ∨ q ≠ p) : (L.foldl (fun s l => s.putPred g x p l v) s).getPred g x q k = s.getPred g x q k := by
  induction L generalizing s with
  | nil => rfl
  | cons l L ih =>
    rw [List.mem_cons, not_or] at h
    rw [List.foldl_cons, ih _ (h.imp And.right id), s.getPred_putPred_ne g x v hp hq (h.imp And.left id)]

theorem State.getPred_foldl_putPred_mem (g : Gid) (x : Group) {p k : Nat} (v : Bool) (hp : p < 16) (L : List Nat) (s : State)
    (hs : s.HasPreds g x L) (hk : k ∈ L) : (L.foldl (fun s l => s.putPred g x p l v) s).getPred g x p k = v := by
  induction L generalizing s with
  | nil => cases hk
  | cons l L ih =>
    by_cases hL : k ∈ L
    · have hs' : s.HasPreds g x L := fun j hj => hs j (List.mem_cons_of_mem l hj)
      exact ih _ (hs'.of_keeps (s.keeps_predsLength g x p l v)) hL
    · obtain rfl : k = l := (List.mem_cons.mp hk).resolve_right hL
      obtain ⟨h, hh, hlen⟩ := hs k hk
      rw [List.foldl_cons, State.getPred_foldl_putPred_ne g x v hp hp L _ (.inl hL), State.getPred_putPred_self v hh hlen hp]

/-! ### A group whose record keeps its flow goes on -/

/-- Where a group stands: program counter, masks, stack and wait. -/
def Group.flow (x : Group) : Pc × Mask × Mask × List SEntry × GWait := (x.pc, x.live, x.active, x.stack, x.wait)

theorem State.AtIssue.wentOn_of_keeps {s t u : State} {g : Gid} {x : Group} (ht : s.AtIssue g x t) (hu : t.Keeps Group.flow u) :
    WentOn (u.goOn g) g x := by
  have hk := hu g
  rw [ht.group_self, Option.map_some, Option.map_eq_some_iff] at hk
  obtain ⟨y, hy, he⟩ := hk
  simp only [Group.flow, Prod.mk.injEq] at he
  exact .of_goOn hy he

theorem State.getPred_goOn (s : State) (g k : Gid) (x : Group) (p l : Nat) : (s.goOn g).getPred k x p l = s.getPred k x p l :=
  (s.keeps_modGroup Group.preds g (fun y => { y with pc := Config.nextPc y.pc }) (fun _ => rfl)).getPred k x p l

/-! ### Votes -/

section
variable {s : State} {g : Gid} {x : Group} {b : Block} {c : Cmd}

/-- A vote's answer is written to a predicate of every active lane, and nothing else of a thread changes. -/
theorem State.Issues.vote (h : s.Issues g x b c []) {pd : Nat} (ps : Nat) (hpd : pd < 16) (hs : s.HasPreds g x (lanesOf x.active))
    (f : List Bool → Bool) {v : Bool} (hv : v = f ((lanesOf x.active).map (s.getPred g x ps))) :
    (∀ l ∈ lanesOf x.active, (s.vote g pd ps f).getPred g x pd l = v) ∧
    (∀ l p, (l ∉ lanesOf x.active ∨ p ≠ pd) → p < 16 → (s.vote g pd ps f).getPred g x p l = s.getPred g x p l) ∧
    (s.vote g pd ps f).thr.rf = s.thr.rf ∧ WentOn (s.vote g pd ps f) g x ∧ OnlyThreads s (s.vote g pd ps f) g := by
  obtain ⟨t, ht, heq⟩ := h.plain (fun s x _ => (lanesOf x.active).foldl
    (fun u l => u.putPred g x pd l (f ((lanesOf x.active).map (s.getPred g x ps)))) s)
  rw [show t.getPred g x ps = s.getPred g x ps from funext (ht.getPred h.group ps), ← hv] at heq
  rw [show s.vote g pd ps f = _ from heq]
  have ht' := hs.of_keeps (ht.keeps h.group (fun y => y.preds.length) rfl)
  refine ⟨fun l hl => ?_, fun l p hlp hp => ?_, ?_, ht.wentOn_of_keeps ?_, (ht.onlyThreads.trans ?_).trans (State.onlyThreads_goOn _ g)⟩
  · rw [State.getPred_goOn, State.getPred_foldl_putPred_mem g x v hpd _ t ht' hl]
  · rw [State.getPred_goOn, State.getPred_foldl_putPred_ne g x v hpd hp _ t hlp, ht.getPred h.group]
  · exact (foldl_keeps _ (fun u : State => u.thr.rf) (fun u l => u.rf_putPred g x pd l v) _ t).trans ht.rf
  · exact .foldl _ (fun u l => u.keeps_putPred Group.flow (fun _ _ => rfl) g x pd l v) _ t
  · exact .foldl _ (fun u l => u.onlyThreads_putPred g x pd l v) _ t

end

/-- Settles O20: the lanes' predicates are read before the first is written, and every active lane has a thread to write. -/
theorem votes : Obligations.Votes := by
  intro s g x b c pd ps h hpd hhome i v hi
  have hs : s.HasPreds g x (lanesOf x.active) := fun l hl => by
    obtain ⟨y, hy, hlen⟩ := hhome l hl
    exact ⟨y, hy, hlen ▸ (mem_lanesOf.mp hl).1⟩
  rcases hi with ⟨rfl, rfl⟩ | ⟨rfl, rfl⟩ | ⟨rfl, rfl⟩ | ⟨rfl, rfl⟩
  · exact ⟨_, rfl, h.vote ps hpd hs (·.all id) (by rw [Bool.eq_iff_iff]; simp)⟩
  · exact ⟨_, rfl, h.vote ps hpd hs (·.any id) (by rw [Bool.eq_iff_iff]; simp)⟩
  · exact ⟨_, rfl, h.vote ps hpd hs (·.all (!·)) (by rw [Bool.eq_iff_iff]; simp)⟩
  · exact ⟨_, rfl, h.vote ps hpd hs (fun l => l.all id || l.all (!·)) (by rw [Bool.eq_iff_iff]; simp)⟩

/-! ### Exchanges -/

/-- What a lane gets in an exchange with the sources `src`: an active source's value, else its own. -/
def State.exchanged (s : State) (g : Gid) (x : Group) (rs : Nat) (src : Nat → Option Nat) (l : Nat) : W32 :=
  match src l with
  | some j => if x.active.getLsbD j then s.getReg g x rs j else s.getReg g x rs l
  | none => s.getReg g x rs l

/-- A lane has an active source. -/
def Group.hasSource (x : Group) (src : Nat → Option Nat) (l : Nat) : Bool := (src l).any (fun j => x.active.getLsbD j)

/-- An exchange lane after lane: each writes what it gets, and whether it came from another lane. -/
theorem State.exchange_eq (s : State) (g : Gid) (bad : Bool) (rd pd rs : Nat) (more : List Nat) (src : State → Group → Nat → Option Nat) :
    s.exchange g bad rd pd rs more src = s.plain g bad (rd :: rs :: more) (fun s x _ => (lanesOf x.active).foldl
      (fun t l => (t.putReg g x rd l (s.exchanged g x rs (src s x) l)).putPred g x pd l (x.hasSource (src s x) l)) s) := by
  have hstep : ∀ (s : State) (x : Group) (t : State) (l : Nat), (match src s x l with
      | some j => if x.active.getLsbD j then (t.putReg g x rd l (s.getReg g x rs j)).putPred g x pd l true
          else (t.putReg g x rd l (s.getReg g x rs l)).putPred g x pd l false
      | none => (t.putReg g x rd l (s.getReg g x rs l)).putPred g x pd l false) =
        (t.putReg g x rd l (s.exchanged g x rs (src s x) l)).putPred g x pd l (x.hasSource (src s x) l) := by
    intro s x t l
    cases h : src s x l with
    | none => simp [State.exchanged, Group.hasSource, h]
    | some j => by_cases hj : x.active.getLsbD j <;> simp [State.exchanged, Group.hasSource, h, hj]
  unfold State.exchange
  congr 1
  funext s x _
  congr 1
  funext t l
  exact hstep s x t l

section
variable {s : State} {g : Gid} {x : Group} {b : Block} {c : Cmd}

/-- Every active lane gets its value, and the group goes on. -/
theorem State.Issues.exchange {rd rs : Nat} {more : List Nat} (h : s.Issues g x b c (rd :: rs :: more)) (pd : Nat)
    {f : State → Group → Nat → Option Nat} {src : Nat → Option Nat} (hsrc : ∀ t, s.AtIssue g x t → f t x = src) :
    WroteReg s (s.exchange g false rd pd rs more f) g x rd (s.exchanged g x rs src) ∧ WentOn (s.exchange g false rd pd rs more f) g x ∧
      OnlyThreads s (s.exchange g false rd pd rs more f) g := by
  obtain ⟨t, ht, heq⟩ := h.plain (fun s x _ => (lanesOf x.active).foldl
    (fun t l => (t.putReg g x rd l (s.exchanged g x rs (f s x) l)).putPred g x pd l (x.hasSource (f s x) l)) s)
  have hval : t.exchanged g x rs (f t x) = s.exchanged g x rs src := by
    funext l
    simp only [State.exchanged, hsrc t ht, ht.getReg h.group]
  rw [hval, hsrc t ht] at heq
  rw [s.exchange_eq, heq]
  refine ⟨ht.wroteReg h.group (wroteReg_foldl (fun u l => ?_) (fun u l k => ?_)), ht.wentOn_of_keeps (.foldl _ (fun u l => ?_) _ t),
    (ht.onlyThreads.trans (.foldl _ (fun u l => ?_) _ t)).trans (State.onlyThreads_goOn _ g)⟩
  · exact (u.keeps_putReg _ g x rd l _).trans (State.keeps_putPred Group.pages (fun _ _ => rfl) _ g x pd l _)
  · rw [State.rf_putPred]
    exact u.aget_putReg g x rd l (s.exchanged g x rs src l) k
  · exact (u.keeps_putReg _ g x rd l _).trans (State.keeps_putPred Group.flow (fun _ _ => rfl) _ g x pd l _)
  · exact (u.onlyThreads_putReg g x rd l _).trans (State.onlyThreads_putPred _ g x pd l _)

/-- The exchanges by an immediate. -/
theorem State.Issues.exchangeImm {rd rs : Nat} (h : s.Issues g x b c [rd, rs]) (pd : Nat) {n z : Nat} (hz : segOk z = true) (hn : n < z)
    {f : Nat → Nat → Option Nat} {src : Nat → Option Nat} (hsrc : ∀ l, f l (z * (l / z)) = src l) :
    WroteReg s (s.exchangeImm g rd pd rs n z f) g x rd (s.exchanged g x rs src) ∧ WentOn (s.exchangeImm g rd pd rs n z f) g x ∧
      OnlyThreads s (s.exchangeImm g rd pd rs n z f) g := by
  have hbad : (!segOk z || decide (z ≤ n)) = false := by simp [hz, hn]
  rw [State.exchangeImm, hbad]
  exact h.exchange pd (fun _ _ => funext hsrc)

end

theorem pos_of_segOk {z : Nat} (h : segOk z = true) : 0 < z := by
  rcases Nat.eq_zero_or_pos z with rfl | hz
  · cases h
  · exact hz

/-- Settles O21: the lanes' registers are read before the first is written, and a wrong segment or immediate makes the encoding
undefined. -/
theorem exchanges : Obligations.Exchanges := by
  refine ⟨?values, ?trap⟩
  case values =>
    intro s g x b c rd pd rs ri n z h hz hn i src hi
    have himm : s.Issues g x b c [rd, rs] := h.mono (by simp)
    rcases hi with ⟨rfl, rfl⟩ | ⟨rfl, rfl⟩ | ⟨rfl, rfl⟩ | ⟨rfl, rfl⟩ | ⟨rfl, rfl⟩ | ⟨rfl, rfl⟩
    · refine ⟨_, rfl, ?_⟩
      rw [hz]
      exact h.exchange pd (f := fun s x l => some (z * (l / z) + (s.getReg g x ri l).toNat % z))
        (fun t ht => funext fun l => by rw [ht.getReg h.group])
    · exact ⟨_, rfl, himm.exchangeImm pd hz hn (fun _ => rfl)⟩
    · exact ⟨_, rfl, himm.exchangeImm pd hz hn (fun _ => rfl)⟩
    · exact ⟨_, rfl, himm.exchangeImm pd hz hn (fun _ => rfl)⟩
    · have hpos := pos_of_segOk hz
      exact ⟨_, rfl, himm.exchangeImm pd hz hn (fun l => if_congr (by omega) rfl rfl)⟩
    · exact ⟨_, rfl, himm.exchangeImm pd hz hn (fun _ => rfl)⟩
  case trap =>
    intro s g x b c rd pd rs n z h hbad
    have hundef : (!segOk z || decide (z ≤ n)) = true := by simpa using hbad
    have ht := h.trapNow tIllegal 0
    refine ⟨_, congrArg Host.Outcome.next ?_, ht.block, ht.rf⟩
    rw [State.exchangeImm, State.exchange, hundef, State.plain, h.vec_bad]

end Sys2Proof.Machine
end

section
/-! SUPPORT. What an arrival, the end of a group or a performed access may complete in a block (03_thread_execution.md R72, R73, R81, R82),
and the fences that arrivals wait for (04_memory_model.md R94). -/

namespace Sys2Proof.Machine

open Sys2Proof

/-! ### Lists -/

theorem length_insertBy {α : Type} (le : α → α → Bool) (x : α) (l : List α) : (insertBy le x l).length = l.length + 1 := by
  induction l with
  | nil => rfl
  | cons y r ih => unfold insertBy; split <;> simp [ih]

theorem length_isort {α : Type} (le : α → α → Bool) (l : List α) : (isort le l).length = l.length := by
  have h (l r : List α) : (l.foldl (fun r x => insertBy le x r) r).length = l.length + r.length := by
    induction l generalizing r with
    | nil => simp
    | cons a l ih => rw [List.foldl_cons, ih, length_insertBy, List.length_cons]; omega
  exact (h l []).trans (Nat.add_zero _)

/-- Steps of which one alone has an effect, once. -/
theorem foldl_once {α σ : Type} {f : σ → α → σ} {s t : σ} {i : α} {l : List α} (hi : i ∈ l) (hs : f s i = t)
    (hne : ∀ a, a ≠ i → f s a = s) (hfix : ∀ a, f t a = t) : l.foldl f s = t := by
  induction l with
  | nil => cases hi
  | cons a l ih =>
    by_cases ha : a = i
    · rw [List.foldl_cons, ha, hs, List.foldl_fixed' hfix]
    · rw [List.foldl_cons, hne a ha]
      exact ih ((List.mem_cons.mp hi).resolve_left (Ne.symm ha))

theorem filter_aput {κ α : Type} [DecidableEq κ] (p : κ × α → Bool) (m : List (κ × α)) {k : κ} {v w : α} (h : aget m k = some v)
    (hv : p (k, v) = true) (hw : p (k, w) = true) : (aput m k w).filter p = aput (m.filter p) k w := by
  induction m with
  | nil => cases h
  | cons e r ih =>
    obtain ⟨a, u⟩ := e
    by_cases ha : a = k
    · subst ha
      obtain rfl : u = v := by simpa [aget] using h
      simp [aput, hv, hw]
    · have hr := ih (by simpa [aget, ha] using h)
      by_cases hp : p (a, u) = true
      · simp [aput, ha, hp, hr]
      · simp [aput, ha, hp, hr]

/-! ### The groups that remain of a block -/

/-- A group of a block has neither ended nor been emptied. -/
def Group.remains (x : Group) (bid : Nat) : Bool := x.bid == bid && !x.gone && x.live != 0

theorem State.remaining_eq (s : State) (bid : Nat) : s.remaining bid = s.thr.groups.filter (fun e => e.2.remains bid) := rfl

theorem State.remains_of_mem {s : State} {bid : Nat} {e : Gid × Group} (h : e ∈ s.remaining bid) : e.2.remains bid = true :=
  (List.mem_filter.mp h).2

theorem State.remaining_setGroup {s : State} {g : Gid} {x y : Group} {bid : Nat} (hg : s.group g = some x) (hx : x.remains bid = true)
    (hy : y.remains bid = true) : (s.setGroup g y).remaining bid = aput (s.remaining bid) g y :=
  filter_aput _ _ hg hx hy

theorem State.remaining_setGroup_head {s : State} {g : Gid} {x y : Group} {bid : Nat} {r : List (Gid × Group)} (hg : s.group g = some x)
    (h : s.remaining bid = (g, x) :: r) (hy : y.remains bid = true) : (s.setGroup g y).remaining bid = (g, y) :: r := by
  have hx : x.remains bid = true := State.remains_of_mem (e := (g, x)) (h ▸ List.mem_cons_self)
  rw [State.remaining_setGroup hg hx hy, h]
  simp [aput]

theorem State.remaining_setGroup_second {s : State} {g h : Gid} {x y z : Group} {bid : Nat} {r : List (Gid × Group)}
    (hh : s.group h = some y) (hr : s.remaining bid = (g, x) :: (h, y) :: r) (hgh : g ≠ h) (hz : z.remains bid = true) :
    (s.setGroup h z).remaining bid = (g, x) :: (h, z) :: r := by
  have hy : y.remains bid = true := State.remains_of_mem (e := (h, y)) (hr ▸ List.mem_cons_of_mem _ List.mem_cons_self)
  rw [State.remaining_setGroup hh hy hz, hr]
  simp [aput, hgh]

theorem State.AtIssue.remaining {s t : State} {g : Gid} {x : Group} (ht : s.AtIssue g x t) (hg : s.group g = some x) {bid : Nat}
    {r : List (Gid × Group)} (h : s.remaining bid = (g, x) :: r) : t.remaining bid = (g, x.issuing) :: r := by
  have hx : x.remains bid = true := State.remains_of_mem (e := (g, x)) (h ▸ List.mem_cons_self)
  exact (State.Bookkept.remaining ht bid).trans (State.remaining_setGroup_head hg h hx)

/-! ### Nothing completes -/

/-- A remaining group of a block that no regroup point and no barrier can count as arrived. -/
structure State.HoldsUp (s : State) (bid : Nat) (e : Gid × Group) : Prop where
  mem : e ∈ s.remaining bid
  point : ∀ p n w, e.2.wait ≠ .regroup p n w
  bar : ∀ id, s.arrived (.bar id) e = false
  cbar : ∀ id, e.2.wait ≠ .cbar id

theorem State.arrived_of_wait_ne (s : State) {w : GWait} {e : Gid × Group} (h : e.2.wait ≠ w) : s.arrived w e = false := by
  simp [State.arrived, h]

theorem State.HoldsUp.of_ready {s : State} {bid : Nat} {e : Gid × Group} (h : e ∈ s.remaining bid) (hw : e.2.wait = .ready) :
    s.HoldsUp bid e :=
  ⟨h, by simp [hw], fun _ => s.arrived_of_wait_ne (by simp [hw]), by simp [hw]⟩

theorem State.length_atPoint_lt {s : State} {bid : Nat} {e : Gid × Group} (h : e ∈ s.remaining bid)
    (hp : ∀ p n w, e.2.wait ≠ .regroup p n w) (pc : Pc) : (s.atPoint bid pc).length < (s.remaining bid).length := by
  unfold State.atPoint
  rw [length_isort]
  refine List.length_filter_lt_length_iff_exists.mpr ⟨e, h, ?_⟩
  cases hw : e.2.wait
  case regroup p n w => exact absurd hw (hp p n w)
  all_goals simp

section
variable {s : State} {bid : Nat} {e : Gid × Group}

theorem State.HoldsUp.evalPoints (h : s.HoldsUp bid e) (hlen : (s.remaining bid).length ≤ 8) : s.evalPoints bid = s := by
  refine List.foldl_fixed' (fun pc => ?_) _
  have hlt := State.length_atPoint_lt h.mem h.point pc
  have hfull : s.pointFull bid pc = false := by
    simp only [State.pointFull, Bool.and_eq_false_imp, Bool.or_eq_false_iff, beq_eq_false_iff_ne, decide_eq_false_iff_not]
    intro _
    omega
  simp [hfull]

theorem State.HoldsUp.evalBlockBars (h : s.HoldsUp bid e) : s.evalBlockBars bid = s := by
  refine List.foldl_fixed' (fun id => ?_) _
  have hall : (s.remaining bid).all (s.arrived (.bar id)) = false := List.all_eq_false.mpr ⟨e, h.mem, by simp [h.bar id]⟩
  simp [hall]

theorem State.HoldsUp.evalSolo (h : s.HoldsUp bid e) : s.evalSolo bid = s := by
  refine List.foldl_fixed' (fun id => ?_) _
  have hall : (s.remaining bid).all (fun e => e.2.wait == .cbar id) = false := List.all_eq_false.mpr ⟨e, h.mem, by simp [h.cbar id]⟩
  simp [hall]

end

theorem State.evalRepacked_of_none {s : State} {bid : Nat} (h : ∀ e ∈ s.remaining bid, s.arrived .repack e = false) :
    s.evalRepacked bid = s := by
  rw [State.evalRepacked, List.filter_eq_nil_iff.mpr (fun e he => by simp [h e he])]
  rfl

/-- A block without a cohort. -/
theorem State.evalBlock_solo {s : State} {bid : Nat} {b : Block} (hb : s.block bid = some b) (hc : b.cohort = none) :
    s.evalBlock bid = (((s.evalPoints bid).evalRepacked bid).evalBlockBars bid).evalSolo bid := by
  simp only [State.evalBlock, hb, hc]

/-- Nothing completes in a block that one of its groups holds up. -/
theorem State.HoldsUp.evalBlock {s : State} {bid : Nat} {e : Gid × Group} {b : Block} (h : s.HoldsUp bid e) (hb : s.block bid = some b)
    (hc : b.cohort = none) (hlen : (s.remaining bid).length ≤ 8) (hrep : ∀ e ∈ s.remaining bid, s.arrived .repack e = false) :
    s.evalBlock bid = s := by
  rw [State.evalBlock_solo hb hc, h.evalPoints hlen, State.evalRepacked_of_none hrep, h.evalBlockBars, h.evalSolo]

theorem State.retryOps_of_none {s : State} (h : s.thr.ops = []) (core : Nat) : s.retryOps core = s := by
  simp [State.retryOps, State.coreOps, h]

/-! ### One access in flight -/

/-- A state with these accesses in flight. -/
def State.withOps (s : State) (l : List MemOp) : State := { s with thr := { s.thr with ops := l } }

/-- An access with these lanes. -/
def MemOp.withLanes (o : MemOp) (l : List LaneAcc) : MemOp := { o with lanes := l }

/-- A lane's access with its value. -/
def LaneAcc.got (l : LaneAcc) (v : Nat) : LaneAcc := { l with ph := .done v }

theorem State.withOps_self {s : State} {l : List MemOp} (h : s.thr.ops = l) : s.withOps l = s := by
  subst h; rfl

theorem State.pushOp_of_none {s : State} (h : s.thr.ops = []) (o : Nat → MemOp) :
    s.pushOp o = { s with thr := { s.thr with ops := [o s.thr.serial], serial := s.thr.serial + 1 } } := by
  simp [State.pushOp, h]

theorem LaneAcc.find_key {D T : List LaneAcc} {l : LaneAcc} (h : ((D ++ l :: T).map LaneAcc.key).Nodup) :
    (D ++ l :: T).find? (fun m => m.key == l.key) = some l := by
  have hD : D.find? (fun m => m.key == l.key) = none := by
    rw [List.map_append, List.nodup_append] at h
    refine List.find?_eq_none.mpr (fun m hm he => ?_)
    exact h.2.2 m.key (List.mem_map_of_mem hm) l.key (by simp) (by simpa using he)
  rw [List.find?_append, hD]
  simp

/-- A lane's value is set in an access whose lanes are told apart by their keys. -/
theorem State.setLane_withOps (s : State) {o : MemOp} {D T : List LaneAcc} {l : LaneAcc}
    (h : ((D ++ l :: T).map LaneAcc.key).Nodup) (v : Nat) :
    (s.withOps [o.withLanes (D ++ l :: T)]).setLane o.ser l.key (.done v) = s.withOps [o.withLanes (D ++ l.got v :: T)] := by
  have hne : ∀ m ∈ D ++ T, (m.key == l.key) = false := by
    rw [List.map_append, List.map_cons, List.nodup_middle, List.nodup_cons, ← List.map_append] at h
    exact fun m hm => beq_eq_false_iff_ne.mpr (fun he => h.1 (he ▸ List.mem_map_of_mem hm))
  have hmap : ∀ L : List LaneAcc, (∀ m ∈ L, (m.key == l.key) = false) →
      L.map (fun m => if m.key == l.key then { m with ph := .done v } else m) = L := fun L hL =>
    (List.map_congr_left (fun m hm => by simp [hL m hm])).trans (List.map_id L)
  simp only [State.setLane, State.withOps, MemOp.withLanes, List.map_cons, List.map_nil, beq_self_eq_true, if_true, List.map_append,
    hmap D (fun m hm => hne m (List.mem_append_left T hm)), hmap T (fun m hm => hne m (List.mem_append_right D hm)), LaneAcc.got]

/-- The access alone in flight waits for no other. -/
theorem State.mayPerform_alone (s : State) (o : MemOp) (l : LaneAcc) : (s.withOps [o]).mayPerform o l = true := by
  simp [State.mayPerform, State.withOps]

section
variable {s : State} {o : MemOp} {c : Cmd}

/-- A lane of a fence that applies no invalidation is over at once. -/
theorem State.tryLane_fence (hop : o.op = .fence) (hacq : o.acqDev = false) (hc : s.cmdOf o.cmd = some c) {D T : List LaneAcc}
    {l : LaneAcc} (hkeys : ((D ++ l :: T).map LaneAcc.key).Nodup) (hl : l.ph = .need) :
    (s.withOps [o.withLanes (D ++ l :: T)]).tryLane o.ser l.key = s.withOps [o.withLanes (D ++ l.got 0 :: T)] := by
  have hfind : (s.withOps [o.withLanes (D ++ l :: T)]).thr.ops.find? (fun p => p.ser == o.ser) = some (o.withLanes (D ++ l :: T)) := by
    simp [State.withOps, MemOp.withLanes]
  have hcmd : (s.withOps [o.withLanes (D ++ l :: T)]).cmdOf (o.withLanes (D ++ l :: T)).cmd = some c := hc
  have hop' : (o.withLanes (D ++ l :: T)).op = .fence := hop
  have hacq' : (o.withLanes (D ++ l :: T)).acqDev = false := hacq
  have hturn : (o.withLanes (D ++ l :: T)).turn l = true := by simp [MemOp.turn, hop']
  have hlane : (o.withLanes (D ++ l :: T)).lanes.find? (fun m => m.key == l.key) = some l := LaneAcc.find_key hkeys
  have hser : (o.withLanes (D ++ l :: T)).ser = o.ser := rfl
  simp only [State.tryLane, hfind, hlane, hcmd, hl, hturn, hop', hacq', State.mayPerform_alone, State.settle, hser]
  simpa using s.setLane_withOps hkeys 0

theorem State.foldl_tryLane_fence (hop : o.op = .fence) (hacq : o.acqDev = false) (hc : s.cmdOf o.cmd = some c) (T D : List LaneAcc)
    (hkeys : ((D ++ T).map LaneAcc.key).Nodup) (hT : ∀ l ∈ T, l.ph = .need) :
    (T.map LaneAcc.key).foldl (fun s k => s.tryLane o.ser k) (s.withOps [o.withLanes (D ++ T)]) =
      s.withOps [o.withLanes (D ++ T.map (LaneAcc.got · 0))] := by
  induction T generalizing D with
  | nil => rfl
  | cons l T ih =>
    rw [List.map_cons, List.foldl_cons, State.tryLane_fence hop hacq hc hkeys (hT l List.mem_cons_self)]
    have hstep := ih (D ++ [l.got 0]) (by simpa [LaneAcc.got, LaneAcc.key] using hkeys) (fun m hm => hT m (List.mem_cons_of_mem l hm))
    simpa using hstep

/-- A fence alone in flight that applies no invalidation ends, and its block is looked at again. -/
theorem State.retryOps_fence (hops : s.thr.ops = [o]) (hop : o.op = .fence) (hacq : o.acqDev = false) (hrd : o.rd = 256)
    (hbad : o.bad = .none) (hkeys : (o.lanes.map LaneAcc.key).Nodup) (hneed : ∀ l ∈ o.lanes, l.ph = .need) (hc : s.cmdOf o.cmd = some c) :
    s.retryOps o.g.core = (s.withOps []).evalBlock o.bid := by
  have hcore : s.coreOps o.g.core = [o] := by simp [State.coreOps, hops]
  have hdone : (o.lanes.map (LaneAcc.got · 0)).all (fun l => l.ph.isDone) = true := by simp [LaneAcc.got, LanePh.isDone]
  have hlanes := State.foldl_tryLane_fence (s := s) hop hacq hc o.lanes [] (by simpa using hkeys) hneed
  rw [List.nil_append, List.nil_append, show s.withOps [o.withLanes o.lanes] = s from s.withOps_self hops] at hlanes
  rw [State.retryOps, hcore, List.foldl_cons, List.foldl_nil, hlanes, State.retire]
  have hfind : (s.withOps [o.withLanes (o.lanes.map (LaneAcc.got · 0))]).thr.ops.find? (fun p => p.ser == o.ser) =
      some (o.withLanes (o.lanes.map (LaneAcc.got · 0))) := by simp [State.withOps, MemOp.withLanes]
  simp only [hfind]
  simp [State.delOp, State.withOps, MemOp.withLanes, hdone, hrd, hbad, Poison.status, State.failCmd]

end

/-! ### Fences of groups -/

theorem exists_mem_lanesOf {m : Mask} (h : m ≠ 0) : ∃ l, l ∈ lanesOf m := by
  by_contra hno
  refine h (BitVec.eq_of_getLsbD_eq (fun i hi => ?_))
  simpa using fun hb => hno ⟨i, mem_lanesOf.mpr ⟨hi, hb⟩⟩

theorem fenceOf_keys (n : Nat) (g : Gid) (x : Group) (cmd : CmdId) (sc : Scope) (m : Mask) :
    ((fenceOf n g x cmd sc m).lanes.map LaneAcc.key).Nodup := by
  have h : (fenceOf n g x cmd sc m).lanes.map LaneAcc.key = lanesOf m := by
    simp [fenceOf, LaneAcc.key, Function.comp_def]
  exact h ▸ nodup_lanesOf m

/-- A group holds the fence of its own lanes. -/
theorem inOp_fenceOf (n : Nat) (g : Gid) {x y : Group} (cmd : CmdId) (sc : Scope) {m : Mask} (hm : m ≠ 0) (hbid : y.bid = x.bid)
    (hlive : y.live = m) (hhome : ∀ l ∈ lanesOf m, y.homeSlot g l = x.homeSlot g l) : y.inOp g (fenceOf n g x cmd sc m) = true := by
  obtain ⟨l, hl⟩ := exists_mem_lanesOf hm
  simp only [Group.inOp, fenceOf, hbid, beq_self_eq_true, Bool.true_and, List.any_map, List.any_eq_true]
  exact ⟨l, hl, by simp [hlive, (mem_lanesOf.mp hl).2, hhome l hl]⟩

/-- A block fence alone in flight ends. -/
theorem State.retryOps_fenceOf {s : State} {n : Nat} {g : Gid} {x : Group} {cmd : CmdId} {m : Mask} {c : Cmd}
    (hops : s.thr.ops = [fenceOf n g x cmd .blk m]) (hc : s.cmdOf cmd = some c) :
    s.retryOps g.core = (s.withOps []).evalBlock x.bid :=
  State.retryOps_fence (o := fenceOf n g x cmd .blk m) hops rfl rfl rfl rfl (fenceOf_keys n g x cmd .blk m) (by simp [fenceOf]) hc

/-! ### Two groups at a barrier -/

/-- A group whose wait is over. -/
def Group.woken (x : Group) : Group := { x with wait := .ready }

theorem State.release_pair {s : State} {g h : Gid} {y z : Group} (hg : s.group g = some y) (hh : s.group h = some z) (hgh : g ≠ h) :
    s.release [(g, y), (h, z)] = (s.setGroup g y.woken).setGroup h z.woken := by
  have hz : (s.setGroup g y.woken).group h = some z := (s.group_setGroup_ne _ hgh.symm).trans hh
  simp only [State.release, List.foldl_cons, List.foldl_nil]
  rw [State.modGroup_of_group _ hg]
  exact State.modGroup_of_group _ hz

section
variable {s : State} {g h : Gid} {y z : Group} {bid : Nat} {b : Block} (hg : s.group g = some y) (hh : s.group h = some z) (hgh : g ≠ h)
  (hr : s.remaining bid = [(g, y), (h, z)])
include hg hh hgh hr

theorem State.remaining_released :
    ((s.setGroup g y.woken).setGroup h z.woken).remaining bid = [(g, y.woken), (h, z.woken)] := by
  have hy : y.remains bid = true := State.remains_of_mem (s := s) (e := (g, y)) (by simp [hr])
  have hz : z.remains bid = true := State.remains_of_mem (s := s) (e := (h, z)) (by simp [hr])
  exact State.remaining_setGroup_second ((s.group_setGroup_ne _ hgh.symm).trans hh) (State.remaining_setGroup_head hg hr hy) hgh hz

theorem State.holdsUp_released : ((s.setGroup g y.woken).setGroup h z.woken).HoldsUp bid (g, y.woken) :=
  .of_ready (by simp [State.remaining_released hg hh hgh hr]) rfl

/-- The last two groups of a block at a barrier of the block, their fences over, go on. -/
theorem State.evalBlock_bar (hb : s.block bid = some b) (hc : b.cohort = none) (hops : s.thr.ops = []) {id : Nat} (hid : id < 16)
    (hy : y.wait = .bar id) (hz : z.wait = .bar id) : s.evalBlock bid = (s.setGroup g y.woken).setGroup h z.woken := by
  have hpts : s.evalPoints bid = s := by simp [State.evalPoints, hr, hy, hz]
  have hrep : s.evalRepacked bid = s := State.evalRepacked_of_none (by
    simpa [hr] using ⟨s.arrived_of_wait_ne (by simp [hy]), s.arrived_of_wait_ne (by simp [hz])⟩)
  have hup := State.holdsUp_released hg hh hgh hr
  have hbars : s.evalBlockBars bid = (s.setGroup g y.woken).setGroup h z.woken := by
    refine foldl_once (List.mem_range.mpr hid) ?_ (fun id' hne => ?_) (fun id' => ?_)
    · simp [hr, State.arrived, hops, hy, hz, State.release_pair hg hh hgh]
    · simp [hr, State.arrived, hy, Ne.symm hne]
    · have hall : (((s.setGroup g y.woken).setGroup h z.woken).remaining bid).all
          (((s.setGroup g y.woken).setGroup h z.woken).arrived (.bar id')) = false :=
        List.all_eq_false.mpr ⟨_, hup.mem, by simp [hup.bar id']⟩
      simp [hall]
  rw [State.evalBlock_solo hb hc, hpts, hrep, hbars, hup.evalSolo]

/-- The last two groups of a block without a cohort at a cluster barrier go on. -/
theorem State.evalBlock_cbar (hb : s.block bid = some b) (hc : b.cohort = none) {id : Nat} (hid : id < 4)
    (hy : y.wait = .cbar id) (hz : z.wait = .cbar id) : s.evalBlock bid = (s.setGroup g y.woken).setGroup h z.woken := by
  have hpts : s.evalPoints bid = s := by simp [State.evalPoints, hr, hy, hz]
  have hrep : s.evalRepacked bid = s := State.evalRepacked_of_none (by
    simpa [hr] using ⟨s.arrived_of_wait_ne (by simp [hy]), s.arrived_of_wait_ne (by simp [hz])⟩)
  have hbars : s.evalBlockBars bid = s := List.foldl_fixed' (fun id' => by simp [hr, State.arrived, hy]) _
  have hup := State.holdsUp_released hg hh hgh hr
  have hsolo : s.evalSolo bid = (s.setGroup g y.woken).setGroup h z.woken := by
    refine foldl_once (List.mem_range.mpr hid) ?_ (fun id' hne => ?_) (fun id' => ?_)
    · simp [hr, hy, hz, State.release_pair hg hh hgh]
    · simp [hr, hy, Ne.symm hne]
    · have hall : (((s.setGroup g y.woken).setGroup h z.woken).remaining bid).all (fun e => e.2.wait == .cbar id') = false :=
        List.all_eq_false.mpr ⟨_, hup.mem, by simp [hup.cbar id']⟩
      simp [hall]
  rw [State.evalBlock_solo hb hc, hpts, hrep, hbars, hsolo]

end

end Sys2Proof.Machine
end

section
/-! SUPPORT. The mask stack, barriers and regroup points (03_thread_execution.md R67-R69, R72-R74, R81, R82). -/

namespace Sys2Proof.Machine

open Sys2Proof

/-! ### Masks built lane by lane -/

theorem getLsbD_laneBit (l k : Nat) : (laneBit l).getLsbD k = (decide (k < 32) && decide (k = l)) := by
  rw [laneBit, BitVec.getLsbD_shiftLeft, BitVec.getLsbD_one]
  by_cases h : k = l
  · simp [h]
  · simp [h]; omega

theorem getLsbD_foldl_laneBit (p : Nat → Bool) (L : List Nat) (m : Mask) {k : Nat} (hk : k < 32) :
    (L.foldl (fun m l => if p l then m ||| laneBit l else m) m).getLsbD k = (m.getLsbD k || (decide (k ∈ L) && p k)) := by
  induction L generalizing m with
  | nil => simp
  | cons l L ih =>
    rw [List.foldl_cons, ih]
    by_cases hkl : k = l
    · subst hkl
      by_cases hp : p k <;> simp [hp, getLsbD_laneBit, hk]
    · have hbit : (laneBit l).getLsbD k = false := by simp only [getLsbD_laneBit, hkl, decide_false, Bool.and_false]
      by_cases hp : p l = true
      · rw [if_pos hp, BitVec.getLsbD_or, hbit]; simp [hkl]
      · rw [if_neg hp]; simp [hkl]

/-- The lanes of a mask in which a condition holds, as a mask. -/
theorem foldl_laneBit_eq (p : Nat → Bool) (a m : Mask) (h : ∀ l < 32, m.getLsbD l = (a.getLsbD l && p l)) :
    (lanesOf a).foldl (fun m l => if p l then m ||| laneBit l else m) 0 = m := by
  refine BitVec.eq_of_getLsbD_eq (fun k hk => ?_)
  rw [getLsbD_foldl_laneBit p _ _ hk, h k hk]
  by_cases ha : a.getLsbD k = true
  · simp [mem_lanesOf, hk, ha]
  · simp [mem_lanesOf, ha]

theorem lanesOf_laneBit {l : Nat} (h : l < 32) : lanesOf (laneBit l) = [l] := by
  have hfilter : lanesOf (laneBit l) = (List.range 32).filter (fun k => k == l) :=
    List.filter_congr (fun k hk => by rw [getLsbD_laneBit]; simp [List.mem_range.mp hk]; rfl)
  rw [hfilter, List.filter_beq, List.count_eq_one_of_mem List.nodup_range (List.mem_range.mpr h)]
  rfl

/-! ### An instruction that changes its group's record -/

section
variable {s t : State} {g : Gid} {x : Group} (ht : s.AtIssue g x t) (f : Group → Group)
include ht

theorem State.AtIssue.group_modGroup : (t.modGroup g f).group g = some (f x.issuing) := by
  rw [t.group_modGroup_self, ht.group_self, Option.map_some]

theorem State.AtIssue.group_modGroup_ne {k : Gid} (hk : k ≠ g) : (t.modGroup g f).group k = s.group k :=
  (t.group_modGroup_ne f hk).trans (ht.group_ne hk)

theorem State.AtIssue.modGroup_frame : OthersStay s (t.modGroup g f) g ∧ OnlyThreads s (t.modGroup g f) g :=
  ⟨fun _ hk => ht.group_modGroup_ne f hk, ht.onlyThreads.trans (t.onlyThreads_modGroup g g f)⟩

/-- The groups that remain after a change of the record of the first, which remains. -/
theorem State.AtIssue.remaining_modGroup (hg : s.group g = some x) {bid : Nat} {r : List (Gid × Group)} (h : s.remaining bid = (g, x) :: r)
    (hf : (f x.issuing).remains bid = true) : (t.modGroup g f).remaining bid = (g, f x.issuing) :: r := by
  rw [State.modGroup_of_group f ht.group_self]
  exact State.remaining_setGroup_head ht.group_self (ht.remaining hg h) hf

end

/-! ### Mask-stack instructions -/

section
variable {s : State} {g : Gid} {x : Group} {b : Block} {c : Cmd}

/-- The mask that a divergent branch takes. -/
def State.takenOf (s : State) (g : Gid) (x : Group) (pd : Nat) : Mask :=
  (lanesOf x.active).foldl (fun m l => if s.getPred g x pd l then m ||| laneBit l else m) 0

/-- BRA.DIV goes by the lanes that take it. -/
theorem State.Issues.braDiv (h : s.Issues g x b c []) (pd : Nat) (p : Pc) (m : Mask)
    (hm : ∀ l < 32, m.getLsbD l = (x.active.getLsbD l && s.getPred g x pd l)) :
    ∃ t, s.AtIssue g x t ∧ s.braDiv g pd p =
      if m == 0 then t.goOn g
      else if m == x.active then t.modGroup g (fun y => { y with pc := p })
      else if 32 ≤ x.stack.length then t.trapAfter g tDepth 0
      else t.modGroup g (fun y =>
        { y with stack := ⟨.pend, x.active &&& ~~~m, Config.nextPc x.pc, 0, .grp⟩ :: y.stack, active := m, pc := p }) := by
  obtain ⟨t, ht, heq⟩ := h.vec (fun s x _ _ =>
    if s.takenOf g x pd == 0 then s.goOn g
    else if s.takenOf g x pd == x.active then s.modGroup g (fun y => { y with pc := p })
    else if 32 ≤ x.stack.length then s.trapAfter g tDepth 0
    else s.modGroup g (fun y => { y with
      stack := ⟨.pend, x.active &&& ~~~s.takenOf g x pd, Config.nextPc x.pc, 0, .grp⟩ :: y.stack, active := s.takenOf g x pd, pc := p }))
  have hmask : t.takenOf g x pd = m := foldl_laneBit_eq _ _ _ (fun l hl => by rw [hm l hl, ht.getPred h.group])
  rw [hmask] at heq
  exact ⟨t, ht, heq⟩

end

/-- The top entry popped: a PEND entry's lanes, or the live ones of another's (R68). -/
theorem Group.rsync_cons {x : Group} {e : SEntry} {r : List SEntry} (h : x.stack = e :: r) :
    x.rsync = { x with stack := r, active := if e.kind = .pend then e.mask else e.mask &&& x.live, pc := e.pc } := by
  by_cases he : e.kind = .pend <;> simp [Group.rsync, h, he]

theorem Group.inLock_cons {x : Group} {e : SEntry} {r : List SEntry} (h : x.stack = e :: r) : x.inLock = (e.kind == SKind.lock) := by
  simp [Group.inLock, h]

/-- Settles O22: one lemma for the lanes that a branch takes, and one for what an EXIT with live lanes left can complete: nothing. -/
theorem maskStack : Obligations.MaskStack := by
  refine ⟨?rpush, ?braDiv, ?rsync, ?exit, ?trap⟩
  case rpush =>
    intro s g x b c p h
    obtain ⟨t, ht, heq⟩ := h.vec (fun s x _ _ =>
      if 32 ≤ x.stack.length then s.trapAfter g tDepth 0
      else (s.modGroup g (fun y => { y with stack := ⟨.sync, x.active, p, 0, .grp⟩ :: y.stack })).goOn g)
    constructor
    · intro hlen
      rw [if_neg (Nat.not_le.mpr hlen)] at heq
      have hy := ht.group_modGroup (fun y => { y with stack := ⟨.sync, x.active, p, 0, .grp⟩ :: y.stack })
      obtain ⟨hothers, honly⟩ := ht.modGroup_frame (fun y => { y with stack := ⟨.sync, x.active, p, 0, .grp⟩ :: y.stack })
      exact ⟨_, congrArg Host.Outcome.next heq, ⟨_, State.group_goOn_self hy, rfl, rfl, rfl, rfl⟩,
        fun k hk => (State.group_goOn_ne _ hk).trans (hothers k hk), honly.trans (State.onlyThreads_goOn _ g)⟩
    · intro hlen
      rw [if_pos hlen] at heq
      exact ⟨_, congrArg Host.Outcome.next heq, (h.trapAfter ht tDepth 0).block⟩
  case braDiv =>
    intro s g x b c pd p h
    refine ⟨fun hnone => ?_, fun hactive hall => ?_, fun m h0 hpart hm hlen => ?_⟩
    · obtain ⟨t, ht, heq⟩ := h.braDiv pd p 0 (fun l hl => by
        by_cases ha : x.active.getLsbD l = true
        · simp [ha, hnone l (mem_lanesOf.mpr ⟨hl, ha⟩)]
        · simp [ha])
      exact ⟨_, congrArg Host.Outcome.next heq, ht.wentOn, ht.othersStay, ht.onlyThreads.trans (t.onlyThreads_goOn g)⟩
    · obtain ⟨t, ht, heq⟩ := h.braDiv pd p x.active (fun l hl => by
        by_cases ha : x.active.getLsbD l = true
        · simp [ha, hall l (mem_lanesOf.mpr ⟨hl, ha⟩)]
        · simp [ha])
      rw [if_neg (by simpa using hactive), if_pos (beq_self_eq_true _)] at heq
      exact ⟨_, congrArg Host.Outcome.next heq, _, ht.group_modGroup _, rfl, rfl, rfl⟩
    · obtain ⟨t, ht, heq⟩ := h.braDiv pd p m hm
      rw [if_neg (by simpa using h0), if_neg (by simpa using hpart), if_neg (Nat.not_le.mpr hlen)] at heq
      exact ⟨_, congrArg Host.Outcome.next heq, _, ht.group_modGroup _, rfl, rfl, rfl⟩
  case rsync =>
    intro s g x b c h
    obtain ⟨t, ht, heq⟩ := h.vec (fun s x _ _ => if x.inLock then s.trapAfter g tIllegal 0 else s.modGroup g Group.rsync)
    constructor
    · intro hstack
      have hlock : x.inLock = false := by simp [Group.inLock, hstack]
      have hpop : x.issuing.rsync = { x.issuing with pc := Config.nextPc x.pc } := by simp [Group.rsync, Group.issuing, hstack]
      rw [hlock] at heq
      exact ⟨_, congrArg Host.Outcome.next heq, _, (ht.group_modGroup _).trans (congrArg some hpop), rfl, rfl, rfl, rfl, rfl⟩
    · intro e r hstack hkind
      have hlock : x.inLock = false := by simp [Group.inLock_cons hstack, hkind]
      have hpop := Group.rsync_cons (x := x.issuing) hstack
      rw [hlock] at heq
      exact ⟨_, congrArg Host.Outcome.next heq, ⟨_, (ht.group_modGroup _).trans (congrArg some hpop), rfl, rfl, rfl, rfl⟩,
        ht.modGroup_frame _⟩
  case exit =>
    intro s g x b c e r h hstack hkind hlive hrem hcohort hops
    obtain ⟨t, ht, heq⟩ := h.vec (fun s x _ _ =>
      if x.inLock then s.trapAfter g tIllegal 0
      else ((s.modGroup g (fun y => y.dropLanes.rsync)).evalBlock x.bid).retryOps g.core)
    have hlock : x.inLock = false := by simp [Group.inLock_cons hstack, hkind]
    rw [hlock] at heq
    have hpop : x.issuing.dropLanes.rsync = { x.issuing.dropLanes with
        stack := r.map (fun e => { e with mask := e.mask &&& ~~~x.active, pset := e.pset &&& ~~~x.active })
        active := e.mask &&& ~~~x.active, pc := e.pc } := by
      rw [Group.rsync_cons (x := x.issuing.dropLanes) (by simp [Group.dropLanes, Group.issuing, hstack]; exact ⟨rfl, rfl⟩)]
      simp [hkind]
    have hrem' := ht.remaining_modGroup (fun y => y.dropLanes.rsync) h.group hrem (by
      simp only [hpop]
      simp [Group.remains, Group.dropLanes, Group.issuing, h.gone]
      exact hlive)
    have hready : (x.issuing.dropLanes.rsync).wait = .ready := by rw [hpop]; exact h.wait
    have hup : (t.modGroup g (fun y => y.dropLanes.rsync)).HoldsUp x.bid (g, x.issuing.dropLanes.rsync) :=
      .of_ready (by simp [hrem']) hready
    have heval := hup.evalBlock ((ht.block x.bid).trans h.block) hcohort (by simp [hrem'])
      (by simp [hrem', State.arrived, hready])
    have hretry := State.retryOps_of_none (s := t.modGroup g (fun y => y.dropLanes.rsync)) (ht.ops.trans hops) g.core
    refine ⟨_, congrArg Host.Outcome.next heq, x.issuing.dropLanes.rsync, ?_, by rw [hpop]; rfl, by rw [hpop], by rw [hpop]⟩
    simp only [Bool.false_eq_true, if_false]
    rw [heval, hretry]
    exact ht.group_modGroup _
  case trap =>
    intro s g x b c n h
    have ht := h.trapNow tTrap n.toNat
    exact ⟨_, congrArg Host.Outcome.next (h.issue _), ht.block, ht.launch⟩

/-! ### Barriers -/

/-- A group that has arrived at a barrier. -/
def Group.at (w : GWait) (x : Group) : Group := { x with wait := w, pc := Config.nextPc x.pc }

/-- A group's arrival at a barrier of its block that orders its accesses, before the fence is over. -/
def State.atBar (t : State) (g : Gid) (x : Group) (b : Block) (id : Nat) : State :=
  (t.modGroup g (Group.at (.bar id))).pushOp (fun n => fenceOf n g x b.cmd .blk x.active)

section
variable {s : State} {g h : Gid} {x z : Group} {b : Block} {c : Cmd} {id : Nat}

theorem State.Issues.barBlk_traps (hi : s.Issues g x b c []) (hne : x.active ≠ x.live) (hid : id < 16) :
    s.Traps (s.barBlk g id) x b := by
  have hbad : decide (16 ≤ id) = false := by simpa using hid
  obtain ⟨t, ht, heq⟩ := hi.vec (fun s x b _ =>
    if x.active != x.live then s.trapAfter g tBarrier id else ((s.atBar g x b id).evalBlock x.bid).retryOps g.core)
  have hpart : (x.active != x.live) = true := by simpa using hne
  rw [hpart] at heq
  rw [State.barBlk, hbad]
  exact heq ▸ hi.trapAfter ht tBarrier id

theorem State.Issues.barClu_traps (hi : s.Issues g x b c []) (hne : x.active ≠ x.live) (hid : id < 4) :
    s.Traps (s.barClu g id) x b := by
  have hbad : decide (4 ≤ id) = false := by simpa using hid
  obtain ⟨t, ht, heq⟩ := hi.vec (fun s x _ _ =>
    if x.active != x.live then s.trapAfter g tBarrier (128 + id)
    else ((s.modGroup g (Group.at (.cbar id))).evalBlock x.bid).retryOps g.core)
  have hpart : (x.active != x.live) = true := by simpa using hne
  rw [hpart] at heq
  rw [State.barClu, hbad]
  exact heq ▸ hi.trapAfter ht tBarrier (128 + id)

/-- BAR.BLK with every live lane active: once the fence of the arrival is over, the block is looked at. -/
theorem State.Issues.barBlk (hi : s.Issues g x b c []) (hfull : x.active = x.live) (hr : s.remaining x.bid = [(g, x), (h, z)])
    (hops : s.thr.ops = []) (hc : b.cohort = none) (hid : id < 16) (hrep : z.wait ≠ .repack) :
    ∃ t, s.AtIssue g x t ∧ s.barBlk g id = ((t.atBar g x b id).withOps []).evalBlock x.bid := by
  have hbad : decide (16 ≤ id) = false := by simpa using hid
  obtain ⟨t, ht, heq⟩ := hi.vec (fun s x b _ =>
    if x.active != x.live then s.trapAfter g tBarrier id else ((s.atBar g x b id).evalBlock x.bid).retryOps g.core)
  have hpart : (x.active != x.live) = false := by simpa using hfull
  rw [hpart] at heq
  refine ⟨t, ht, ?_⟩
  rw [State.barBlk, hbad]
  refine Eq.trans heq ?_
  simp only [Bool.false_eq_true, if_false]
  have hx : x.remains x.bid = true := State.remains_of_mem (s := s) (e := (g, x)) (by simp [hr])
  have hr' : (t.atBar g x b id).remaining x.bid = [(g, x.issuing.at (.bar id)), (h, z)] :=
    ht.remaining_modGroup (Group.at (.bar id)) hi.group hr hx
  have hops' : (t.atBar g x b id).thr.ops = [fenceOf t.thr.serial g x b.cmd .blk x.active] := by
    rw [State.atBar, State.pushOp_of_none (show (t.modGroup g _).thr.ops = [] from ht.ops.trans hops)]
    rfl
  have hin : (x.issuing.at (.bar id)).inOp g (fenceOf t.thr.serial g x b.cmd .blk x.active) = true :=
    inOp_fenceOf _ g b.cmd .blk (hfull ▸ hi.live) rfl hfull.symm (fun _ _ => rfl)
  have hup : (t.atBar g x b id).HoldsUp x.bid (g, x.issuing.at (.bar id)) :=
    ⟨by simp [hr'], by simp [Group.at], fun id' => by simp [State.arrived, hops', hin, show (fenceOf t.thr.serial g x b.cmd .blk x.active).op = .fence from rfl],
      by simp [Group.at]⟩
  rw [hup.evalBlock ((ht.block x.bid).trans hi.block) hc (by simp [hr'])
    (by simp [hr', State.arrived, Group.at, hrep]), State.retryOps_fenceOf hops' ((ht.cmdOf b.cmd).trans hi.cmdOf)]

/-- The block after the fence of an arrival. -/
theorem State.Issues.atBar (hi : s.Issues g x b c []) (hr : s.remaining x.bid = [(g, x), (h, z)]) (hgh : g ≠ h)
    (hz : s.group h = some z) {t : State} (ht : s.AtIssue g x t) (id : Nat) :
    ((t.atBar g x b id).withOps []).remaining x.bid = [(g, x.issuing.at (.bar id)), (h, z)] ∧
    ((t.atBar g x b id).withOps []).group g = some (x.issuing.at (.bar id)) ∧ ((t.atBar g x b id).withOps []).group h = some z ∧
    ((t.atBar g x b id).withOps []).block x.bid = some b ∧ SameMemory s ((t.atBar g x b id).withOps []) :=
  ⟨ht.remaining_modGroup (Group.at (.bar id)) hi.group hr (State.remains_of_mem (s := s) (e := (g, x)) (by simp [hr])),
    ht.group_modGroup _, (ht.group_modGroup_ne _ hgh.symm).trans hz, (ht.block x.bid).trans hi.block, ht.sameMemory⟩

/-- BAR.CLU with every live lane active: the block is looked at. -/
theorem State.Issues.barClu (hi : s.Issues g x b c []) (hfull : x.active = x.live) (hid : id < 4) :
    ∃ t, s.AtIssue g x t ∧ s.barClu g id = ((t.modGroup g (Group.at (.cbar id))).evalBlock x.bid).retryOps g.core := by
  have hbad : decide (4 ≤ id) = false := by simpa using hid
  obtain ⟨t, ht, heq⟩ := hi.vec (fun s x _ _ =>
    if x.active != x.live then s.trapAfter g tBarrier (128 + id)
    else ((s.modGroup g (Group.at (.cbar id))).evalBlock x.bid).retryOps g.core)
  have hpart : (x.active != x.live) = false := by simpa using hfull
  rw [hpart] at heq
  rw [State.barClu, hbad]
  exact ⟨t, ht, heq⟩

end

end Sys2Proof.Machine
end

section
/-! SUPPORT. Two groups of a block at a barrier, and one at a regroup point (03_thread_execution.md R72-R74, R81, R82). -/

namespace Sys2Proof.Machine

open Sys2Proof

/-- Settles O23: with lanes off the arrival traps; else one of two groups that is not there holds the barrier up, and with both there,
the fence over, the block's first barrier that is full lets both go on. -/
theorem barriers : Obligations.Barriers := by
  refine ⟨?traps, ?waits⟩
  case traps =>
    intro s g x b c id hi hne
    exact ⟨fun hid => ⟨_, rfl, (hi.barBlk_traps hne hid).block⟩, fun hid => ⟨_, rfl, (hi.barClu_traps hne hid).block⟩⟩
  case waits =>
    intro s g h x z b c id hi hfull hr hgh hops hc hz
    refine ⟨fun hid hw => ?_, fun hid hw => ?_, fun hid hw => ?_, fun hid hw => ?_⟩
    · obtain ⟨t, ht, heq⟩ := hi.barBlk hfull hr hops hc hid (by simp [hw])
      obtain ⟨hr', hg', hh', hb', hmem⟩ := hi.atBar hr hgh hz ht id
      have hup : ((t.atBar g x b id).withOps []).HoldsUp x.bid (h, z) := .of_ready (by simp [hr']) hw
      rw [hup.evalBlock hb' hc (by simp [hr']) (by simp [hr', State.arrived, Group.at, hw])] at heq
      exact ⟨_, congrArg Host.Outcome.next heq, ⟨_, hg', rfl, rfl, rfl, rfl⟩, hh', hmem⟩
    · obtain ⟨t, ht, heq⟩ := hi.barBlk hfull hr hops hc hid (by simp [hw])
      obtain ⟨hr', hg', hh', hb', -⟩ := hi.atBar hr hgh hz ht id
      rw [State.evalBlock_bar hg' hh' hgh hr' hb' hc rfl hid rfl hw] at heq
      refine ⟨_, congrArg Host.Outcome.next heq, ⟨_, (State.group_setGroup_ne _ _ hgh).trans (State.group_setGroup_self _ _ _), rfl, rfl,
        rfl, rfl, hi.wait.symm⟩, State.group_setGroup_self _ _ _⟩
    · obtain ⟨t, ht, heq⟩ := hi.barClu hfull hid
      have hr' := ht.remaining_modGroup (Group.at (.cbar id)) hi.group hr (State.remains_of_mem (s := s) (e := (g, x)) (by simp [hr]))
      have hup : (t.modGroup g (Group.at (.cbar id))).HoldsUp x.bid (h, z) := .of_ready (by simp [hr']) hw
      rw [hup.evalBlock ((ht.block x.bid).trans hi.block) hc (by simp [hr']) (by simp [hr', State.arrived, Group.at, hw]),
        State.retryOps_of_none (show (t.modGroup g (Group.at (.cbar id))).thr.ops = [] from ht.ops.trans hops)] at heq
      exact ⟨_, congrArg Host.Outcome.next heq, ⟨_, ht.group_modGroup _, rfl, rfl, rfl, rfl⟩, (ht.group_modGroup_ne _ hgh.symm).trans hz,
        ht.sameMemory⟩
    · obtain ⟨t, ht, heq⟩ := hi.barClu hfull hid
      have hr' := ht.remaining_modGroup (Group.at (.cbar id)) hi.group hr (State.remains_of_mem (s := s) (e := (g, x)) (by simp [hr]))
      have hops' : (t.modGroup g (Group.at (.cbar id))).thr.ops = [] := ht.ops.trans hops
      rw [State.evalBlock_cbar (ht.group_modGroup _) ((ht.group_modGroup_ne _ hgh.symm).trans hz) hgh hr'
        ((ht.block x.bid).trans hi.block) hc hid rfl hw, State.retryOps_of_none (by exact hops')] at heq
      refine ⟨_, congrArg Host.Outcome.next heq, ⟨_, (State.group_setGroup_ne _ _ hgh).trans (State.group_setGroup_self _ _ _), rfl, rfl,
        rfl, rfl, hi.wait.symm⟩, State.group_setGroup_self _ _ _⟩

/-! ### Regroup points -/

/-- A group's arrival at the regroup point at its program counter (R81). -/
def State.atRegroup (t : State) (g : Gid) (x : Group) (w : Nat) : State :=
  let u := t.modGroup g (fun y => { y with wait := .regroup x.pc t.thr.serial w })
  { u with thr := { u.thr with serial := u.thr.serial + 1 } }

section
variable {s : State} {g : Gid} {x : Group} {b : Block} {c : Cmd} {w : Nat}

/-- REGROUP of a group that is not stepped: it goes on, or arrives. -/
theorem State.Issues.regroup (hi : s.Issues g x b c []) (hstep : x.stepping ≠ 1) :
    ∃ t, s.AtIssue g x t ∧ s.regroupOp g w =
      if !x.stack.isEmpty || x.live == BitVec.allOnes 32 then t.goOn g
      else (if w = 0 then ((t.atRegroup g x w).repack x.bid x.pc).evalBlock x.bid else (t.atRegroup g x w).evalBlock x.bid).retryOps
        b.core := by
  obtain ⟨t, ht, heq⟩ := hi.vec (fun s x b _ =>
    if x.stepping = 1 then (s.modGroup g (fun y => { y with stepping := 3 })).goOn g
    else if !x.stack.isEmpty || x.live == BitVec.allOnes 32 then s.goOn g
    else (if w = 0 then ((s.atRegroup g x w).repack x.bid x.pc).evalBlock x.bid else (s.atRegroup g x w).evalBlock x.bid).retryOps b.core)
  rw [if_neg hstep] at heq
  exact ⟨t, ht, heq⟩

end

/-! #### A repack of one group -/

theorem aput_of_aget {κ α : Type} [DecidableEq κ] {m : List (κ × α)} {k : κ} {v : α} (h : aget m k = some v) : aput m k v = m := by
  induction m with
  | nil => cases h
  | cons e r ih =>
    obtain ⟨a, u⟩ := e
    by_cases ha : a = k
    · simp_all [aget, aput]
    · simp_all [aget, aput]

theorem State.setGroup_of_group {s : State} {g : Gid} {x : Group} (h : s.group g = some x) : s.setGroup g x = s := by
  simp only [State.setGroup, aput_of_aget (show aget s.thr.groups g = some x from h)]

theorem State.setGroup_setGroup (s : State) (g : Gid) (x y : Group) : (s.setGroup g x).setGroup g y = s.setGroup g y := by
  simp only [State.setGroup, aput_aput_self]

/-- A group repacked alone: the threads it had, with the counts `r` of their repacks. -/
def Group.repacked (x : Group) (r : List Nat) : Group :=
  { x with rg := r, active := x.live, stack := [], wait := .repack, pc := Config.nextPc x.pc }

/-- The repacks of threads at one home slot are counted there. -/
theorem State.foldl_rg {s : State} {g : Gid} {x : Group} (hg : s.group g = some x) (f : Nat → Group → List Nat) (L : List Nat) :
    ∃ r, L.foldl (fun s l => s.modGroup g (fun h => { h with rg := f l h })) s = s.setGroup g { x with rg := r } := by
  induction L generalizing s x with
  | nil => exact ⟨x.rg, (State.setGroup_of_group hg).symm⟩
  | cons l L ih =>
    obtain ⟨r, hr⟩ := ih (s := s.setGroup g { x with rg := f l x }) (x := { x with rg := f l x }) (s.group_setGroup_self _ _)
    refine ⟨r, ?_⟩
    rw [List.foldl_cons, State.modGroup_of_group _ hg, hr, State.setGroup_setGroup]

/-- The state in which a group's fence is the one access in flight. -/
def State.fenced (s : State) (g : Gid) (x : Group) (cmd : CmdId) (m : Mask) : State :=
  { s with thr := { s.thr with ops := [fenceOf s.thr.serial g x cmd .blk m], serial := s.thr.serial + 1 } }

/-- The lanes of one group, each with its home, as a repack reads them. -/
theorem homes_single (g : Gid) (x : Group) (lane : Nat) :
    ([(g, x)].filter (fun e => e.2.live.getLsbD lane)).map (fun e => e.2.homeSlot e.1 lane) =
      if x.live.getLsbD lane then [x.homeSlot g lane] else [] := by
  by_cases h : x.live.getLsbD lane = true <;> simp [h]

/-- The homes of a group's live lanes, as a repack of it alone lists them. -/
def Group.homes (x : Group) (g : Gid) : List (List Nat) :=
  (List.range 32).map (fun lane => if x.live.getLsbD lane then [x.homeSlot g lane] else [])

theorem Group.getD_homes (x : Group) (g : Gid) {l : Nat} (h : l < 32) :
    (x.homes g).getD l [] = if x.live.getLsbD l then [x.homeSlot g l] else [] := by
  simp [Group.homes, List.getD_eq_getElem?_getD, h]

/-- Its lanes with a home are its live ones. -/
theorem Group.mask_homes (x : Group) (g : Gid) :
    (List.range 32).foldl (fun m lane => if 0 < ((x.homes g).getD lane []).length then m ||| laneBit lane else m) 0 = x.live := by
  have hstep : (List.range 32).foldl (fun m lane => if 0 < ((x.homes g).getD lane []).length then m ||| laneBit lane else m) 0 =
      (List.range 32).foldl (fun m lane => if x.live.getLsbD lane then m ||| laneBit lane else m) 0 :=
    List.foldl_ext _ _ _ (fun m l hl => by
      rw [x.getD_homes g (List.mem_range.mp hl)]
      by_cases hlive : x.live.getLsbD l = true <;> simp [hlive])
  refine hstep.trans (BitVec.eq_of_getLsbD_eq (fun k hk => ?_))
  rw [getLsbD_foldl_laneBit _ _ _ hk]
  simp [hk]

/-- Its row of the IRT stays, lanes without a home keeping their entries (log 83). -/
theorem Group.irt_homes (g : Gid) {x y : Group} (hlen : x.irt.length = 32) (hy : y.irt = x.irt) :
    (List.range 32).map (fun lane => (((x.homes g).getD lane [])[0]?).getD (y.homeSlot g lane)) = x.irt := by
  refine List.ext_getElem (by simp [hlen]) (fun i hi _ => ?_)
  have hi' : i < 32 := by simpa using hi
  have hhome : x.homeSlot g i = x.irt[i] := by simp [Group.homeSlot, List.getD_eq_getElem?_getD, hlen, hi']
  have hyhome : y.homeSlot g i = x.irt[i] := by simp [Group.homeSlot, List.getD_eq_getElem?_getD, hy, hlen, hi']
  rw [List.getElem_map, List.getElem_range, x.getD_homes g hi', hyhome, hhome]
  by_cases hlive : x.live.getLsbD i = true <;> simp [hlive]

/-- A group alone at its point keeps its threads, its lanes and its rows of the IRT (R81). -/
theorem State.repackGroups_single {s : State} {g : Gid} {x : Group} (hg : s.group g = some x) (hops : s.thr.ops = [])
    (hlive : x.live ≠ 0) (hirt : x.irt.length = 32) (hhome : ∀ l ∈ lanesOf x.live, x.homeSlot g l = g.slot) (cmd : CmdId) :
    ∃ r, s.repackGroups [(g, x)] cmd = (s.fenced g x cmd x.live).setGroup g (x.repacked r) := by
  have hfence : s.pushOp (fun n => fenceOf n g x cmd .blk x.live) = s.fenced g x cmd x.live := State.pushOp_of_none hops _
  have hcount : ∀ u : State, (lanesOf x.live).foldl (fun s lane => s.modGroup ⟨g.core, x.homeSlot g lane⟩
        (fun h => { h with rg := lset h.rg lane (satTo 0xFFFFFFFF (h.rg.getD lane 0 + 1)) })) u =
      (lanesOf x.live).foldl (fun s lane => s.modGroup g
        (fun h => { h with rg := lset h.rg lane (satTo 0xFFFFFFFF (h.rg.getD lane 0 + 1)) })) u := fun u =>
    List.foldl_ext _ _ _ (fun s l hl => by rw [hhome l hl])
  obtain ⟨r, hr⟩ := State.foldl_rg (s := s.fenced g x cmd x.live) hg (fun l h => lset h.rg l (satTo 0xFFFFFFFF (h.rg.getD l 0 + 1)))
    (lanesOf x.live)
  refine ⟨r, ?_⟩
  simp only [State.repackGroups, List.foldl_cons, List.foldl_nil, hfence, hcount, hr, homes_single, List.zipIdx_cons, List.zipIdx_nil]
  rw [State.modGroup_of_group _ (State.group_setGroup_self _ g _), State.setGroup_setGroup]
  have hmask := x.mask_homes g
  have hrow := Group.irt_homes g (y := { x with rg := r }) hirt rfl
  refine congrArg (State.setGroup _ g) ((if_neg (fun h0 => hlive (hmask.symm.trans (eq_of_beq h0)))).trans ?_)
  unfold Group.repacked
  congr 1

/-! #### A point with one of two groups -/

section
variable {s : State} {g h : Gid} {x y z : Group} {b : Block} {bid : Nat}

/-- A repacked group whose fence is over goes on, while another is ready. -/
theorem State.evalBlock_repacked (hg : s.group g = some y) (hr : s.remaining bid = [(g, y), (h, z)]) (hy : y.wait = .repack)
    (hz : z.wait = .ready) (hops : s.thr.ops = []) (hb : s.block bid = some b) (hc : b.cohort = none) :
    s.evalBlock bid = s.setGroup g y.woken := by
  have hup : s.HoldsUp bid (h, z) := .of_ready (by simp [hr]) hz
  have hrep : s.evalRepacked bid = s.setGroup g y.woken := by
    have hgo : (s.remaining bid).filter (s.arrived .repack) = [(g, y)] := by simp [hr, State.arrived, hops, hy, hz]
    rw [State.evalRepacked, hgo]
    exact State.modGroup_of_group _ hg
  have hr' := State.remaining_setGroup_head (y := y.woken) hg hr (State.remains_of_mem (s := s) (e := (g, y)) (by simp [hr]))
  have hup' : (s.setGroup g y.woken).HoldsUp bid (h, z) := .of_ready (by simp [hr']) hz
  rw [State.evalBlock_solo hb hc, hup.evalPoints (by simp [hr]), hrep, hup'.evalBlockBars, hup'.evalSolo]

/-- The groups at the point of the one that waits. -/
theorem State.atPoint_single {pc : Pc} {n w : Nat} (hr : s.remaining bid = [(g, x), (h, z)]) (hx : x.wait = .regroup pc n w)
    (hhalt : x.halt = 0) (hz : z.wait = .ready) (hb : s.block bid = some b) (htrap : b.trapped = false) : s.atPoint bid pc = [(g, x)] := by
  simp [State.atPoint, hr, hx, hz, hhalt, hb, htrap, isort, insertBy]

/-- A point where one group waits, expired: the group is repacked and its fence is in flight. -/
theorem State.repack_single {pc : Pc} {n w : Nat} (hg : s.group g = some x) (hr : s.remaining bid = [(g, x), (h, z)])
    (hx : x.wait = .regroup pc n w) (hhalt : x.halt = 0) (hz : z.wait = .ready) (hb : s.block bid = some b) (htrap : b.trapped = false)
    (hops : s.thr.ops = []) (hlive : x.live ≠ 0) (hirt : x.irt.length = 32) (hhome : ∀ l ∈ lanesOf x.live, x.homeSlot g l = g.slot) :
    ∃ r, ((s.fenced g x b.cmd x.live).setGroup g (x.repacked r)).Bookkept b.core (s.repack bid pc) := by
  obtain ⟨r, hrep⟩ := State.repackGroups_single hg hops hlive hirt hhome b.cmd
  refine ⟨r, ?_⟩
  have hlist : isort (fun a b => decide (a.1.slot ≤ b.1.slot)) ((s.atPoint bid pc).take 8) = [(g, x)] := by
    rw [State.atPoint_single hr hx hhalt hz hb htrap]
    rfl
  simp only [State.repack, hb, hlist, List.isEmpty_cons, Bool.false_eq_true, if_false, hrep]
  exact State.bookkept_tallyCtx _ _ _ _ _

end

/-- Settles O25: a group that is ready holds up its block's points, and one that its point lets go alone has its own fence to wait for. -/
theorem regroupPoints : Obligations.RegroupPoints := by
  refine ⟨?goesOn, ?waits, ?expires⟩
  case goesOn =>
    intro s g x b c w hi hstep hgo
    obtain ⟨t, ht, heq⟩ := hi.regroup (w := w) hstep
    rw [if_pos (by simpa using hgo)] at heq
    exact ⟨_, congrArg Host.Outcome.next heq, ht.wentOn, ht.othersStay, ht.onlyThreads.trans (t.onlyThreads_goOn g)⟩
  case waits =>
    intro s g h x z b c w hi hstep hstack hlive hw hr hgh hzw hz hops hc
    obtain ⟨t, ht, heq⟩ := hi.regroup (w := w) hstep
    have hpart : (!x.stack.isEmpty || x.live == BitVec.allOnes 32) = false := by
      rw [hstack, beq_eq_false_iff_ne.mpr hlive]
      rfl
    rw [hpart, if_neg Bool.false_ne_true, if_neg (Nat.pos_iff_ne_zero.mp hw)] at heq
    have hr' : (t.atRegroup g x w).remaining x.bid =
        [(g, { x.issuing with wait := .regroup x.pc t.thr.serial w }), (h, z)] :=
      ht.remaining_modGroup (fun y => { y with wait := .regroup x.pc t.thr.serial w }) hi.group hr
        (State.remains_of_mem (s := s) (e := (g, x)) (by simp [hr]))
    have hup : (t.atRegroup g x w).HoldsUp x.bid (h, z) := .of_ready (by simp [hr']) hzw
    rw [hup.evalBlock ((ht.block x.bid).trans hi.block) hc (by simp [hr']) (by simp [hr', State.arrived, hzw]),
      State.retryOps_of_none (show (t.atRegroup g x w).thr.ops = [] from ht.ops.trans hops)] at heq
    refine ⟨_, congrArg Host.Outcome.next heq, ⟨{ x.issuing with wait := .regroup x.pc s.thr.serial w }, ?_, rfl, rfl, rfl⟩,
      (ht.group_modGroup_ne _ hgh.symm).trans hz, ht.sameMemory⟩
    rw [← ht.serial]
    exact ht.group_modGroup (fun y => { y with wait := .regroup x.pc t.thr.serial w })
  case expires =>
    intro s g h x z b n w hg hb htrap hx hhalt hstack hlive hirt hr hgh hzw hz hops hc hcmd hhome hcore
    obtain ⟨c, hcmd⟩ := hcmd
    obtain ⟨r, hk⟩ := State.repack_single hg hr hx hhalt hzw hb htrap hops hlive hirt hhome
    have hremains : x.remains x.bid = true := State.remains_of_mem (s := s) (e := (g, x)) (by simp [hr])
    have hr' : (s.repack x.bid x.pc).remaining x.bid = [(g, x.repacked r), (h, z)] :=
      (hk.remaining _).trans (State.remaining_setGroup_head (s := s.fenced g x b.cmd x.live) hg hr hremains)
    have hg' : (s.repack x.bid x.pc).group g = some (x.repacked r) := (hk.group _).trans (State.group_setGroup_self _ _ _)
    have hb' : (s.repack x.bid x.pc).block x.bid = some b := (hk.block _).trans hb
    have hops' : (s.repack x.bid x.pc).thr.ops = [fenceOf s.thr.serial g x b.cmd .blk x.live] := hk.ops
    have hin : (x.repacked r).inOp g (fenceOf s.thr.serial g x b.cmd .blk x.live) = true :=
      inOp_fenceOf _ g b.cmd .blk hlive rfl rfl (fun _ _ => rfl)
    have hup : (s.repack x.bid x.pc).HoldsUp x.bid (h, z) := .of_ready (by simp [hr']) hzw
    have hfirst : (s.repack x.bid x.pc).evalBlock x.bid = s.repack x.bid x.pc := by
      refine hup.evalBlock hb' hc (by simp [hr']) ?_
      simp [hr', State.arrived, hops', hin, hzw, show (fenceOf s.thr.serial g x b.cmd .blk x.live).op = .fence from rfl]
    have hsecond := State.evalBlock_repacked (s := (s.repack x.bid x.pc).withOps []) hg' hr' rfl hzw rfl hb' hc
    have heq : s.regroupExpire x.bid x.pc = ((s.repack x.bid x.pc).withOps []).setGroup g (x.repacked r).woken := by
      rw [State.regroupExpire, hb]
      simp only [State.atPoint_single hr hx hhalt hzw hb htrap, List.isEmpty_cons, Bool.false_eq_true, if_false, hfirst, hcore]
      rw [State.retryOps_fenceOf hops' ((hk.cmdOf _).trans hcmd), hsecond]
    refine ⟨_, congrArg Host.Outcome.next heq, ⟨_, State.group_setGroup_self _ _ _, rfl, rfl, rfl, rfl, rfl⟩, ?_⟩
    exact (State.group_setGroup_ne _ _ hgh.symm).trans ((hk.group h).trans ((State.group_setGroup_ne _ _ hgh.symm).trans hz))

end Sys2Proof.Machine
end

section
/-! SUPPORT. The issue of a matrix instruction (05_matrix_engines.md R65, R106, R108, R112). -/

namespace Sys2Proof.Machine

open Sys2Proof

/-- The state with the instruction `ins` at the tail of the queue of the engine `e`, its group going on. -/
def State.mxAccept (s : State) (g : Gid) (mx : Nat) (e : Engine) (ins : MxIns) : State :=
  let s := { s with thr := { s.thr with serial := s.thr.serial + 1 } }
  let s := (s.setEngine ⟨g.core, mx⟩ { e with queue := e.queue ++ [ins] }).tallyG g 0x021 1
  let p := s.ptr g.core
  ((s.setPtr g.core { p with mx := lset p.mx mx ((g.slot + 1) % 64) }).issued g false false).goOn g

/-- What acceptance changes: the queue of its engine, and the group, which goes on. -/
theorem State.mxAccept_spec {s : State} {g : Gid} {x : Group} (hg : s.group g = some x) (mx : Nat) (e : Engine) (ins : MxIns) :
    (s.mxAccept g mx e ins).engine ⟨g.core, mx⟩ = some { e with queue := e.queue ++ [ins] } ∧ WentOn (s.mxAccept g mx e ins) g x ∧
      (∀ k, k ≠ ⟨g.core, mx⟩ → (s.mxAccept g mx e ins).engine k = s.engine k) ∧ (s.mxAccept g mx e ins).thr.rf = s.thr.rf ∧
      SameMemory s (s.mxAccept g mx e ins) := by
  unfold State.mxAccept
  extract_lets q t u p
  have hu : (t.setEngine ⟨g.core, mx⟩ { e with queue := e.queue ++ [ins] }).Bookkept g.core
      (u.setPtr g.core { p with mx := lset p.mx mx ((g.slot + 1) % 64) }) :=
    (State.bookkept_tallyG _ g _ _).trans (u.bookkept_setPtr _ _ _)
  have hi := State.atIssue_issued ((hu.group g).trans hg) false false
  have hmx := hi.mx.trans hu.mx
  refine ⟨?_, hi.wentOn, fun k hk => ?_, hi.rf.trans hu.rf, ?_⟩
  · rw [State.engine, State.goOn, State.modGroup, hmx]
    exact aget_aput_self _ _ _
  · rw [State.engine, State.goOn, State.modGroup, hmx]
    exact aget_aput_ne _ _ hk.symm
  · obtain ⟨hm, hl, hh⟩ := hi.sameMemory
    obtain ⟨km, kl, kh⟩ := hu.mem
    exact ⟨hm.trans km, hl.trans kl, hh.trans kh⟩

section
variable {s : State} {g : Gid} {x : Group} {b : Block} {c : Cmd} {regs : List Nat}

/-- The operation that the lowest active lane gives, at an engine its block holds: checked, then accepted where there is room. -/
theorem State.Issues.mxIssue (h : s.Issues g x b c regs) {l mx : Nat} {e : Engine} (hl : (lanesOf x.active).head? = some l)
    (he : s.engine ⟨g.core, mx⟩ = some e) (hb : e.bid = x.bid) {mk : State → Group → Nat → MxOp × Bool} {op : MxOp}
    (hmk : mk s x l = (op, false)) :
    s.mxIssue g mx regs mk = if e.illegal op then s.trap g tIllegal 0 else if 8 ≤ e.queue.length then s
      else s.mxAccept g mx e ⟨s.thr.serial, g, b.cmd, x.bid, op⟩ := by
  have hactive : x.active ≠ 0 := by
    intro h0
    have hnone : (lanesOf 0).head? = none := by decide
    rw [h0, hnone] at hl
    exact Option.some_ne_none l hl.symm
  have hlanes : (s.group g).any (fun x => x.active == 0) = false := by
    rw [h.group, Option.any_some, beq_eq_false_iff_ne]
    exact hactive
  have hbid : (e.bid != x.bid) = false := by rw [hb, bne_self_eq_false]
  rw [State.mxIssue, hlanes, if_neg Bool.false_ne_true, h.issueVia]
  simp -zeta only [hl, hmk]
  extract_lets k
  simp -zeta only [show s.engine k = some e from he, hbid, Bool.false_or]
  rfl

/-- What O30 says of a matrix instruction `i` that names `op` at an engine `e` of its block. -/
def State.Queues (s : State) (g : Gid) (x : Group) (b : Block) (mx : Nat) (e : Engine) (op : MxOp) (i : Instr) : Prop :=
  (e.illegal op = false → e.queue.length < 8 → Runs i s (fun t =>
    t.engine ⟨g.core, mx⟩ = some { e with queue := e.queue ++ [⟨s.thr.serial, g, b.cmd, x.bid, op⟩] } ∧ WentOn t g x ∧
    (∀ k, k ≠ ⟨g.core, mx⟩ → t.engine k = s.engine k) ∧ t.thr.rf = s.thr.rf ∧ SameMemory s t)) ∧
  (e.illegal op = false → 8 ≤ e.queue.length → exec i s = .next s) ∧
  (e.illegal op = true → Runs i s (fun t => t.block x.bid = some { b with trapped := true } ∧ t.mx = s.mx))

theorem State.Issues.queues (h : s.Issues g x b c regs) {mk : State → Group → Nat → MxOp × Bool} {i : Instr} {mx : Nat}
    (hi : exec i s = .next (s.mxIssue g mx regs mk)) {l : Nat} {e : Engine} {op : MxOp} (hl : (lanesOf x.active).head? = some l)
    (he : s.engine ⟨g.core, mx⟩ = some e) (hb : e.bid = x.bid) (hmk : mk s x l = (op, false)) : s.Queues g x b mx e op i := by
  rw [h.mxIssue hl he hb hmk] at hi
  refine ⟨fun hok hroom => ?_, fun hok hfull => ?_, fun hbad => ?_⟩
  · rw [hok, if_neg Bool.false_ne_true, if_neg (by omega)] at hi
    exact ⟨_, hi, State.mxAccept_spec h.group mx e _⟩
  · rw [hi, hok, if_neg Bool.false_ne_true, if_pos hfull]
  · rw [hbad, if_pos rfl] at hi
    exact ⟨_, hi, (h.trap _ _).block, (h.trap _ _).mx⟩

/-- An instruction with a tile descriptor. -/
theorem State.Issues.queues_mxDesc {ra : Nat} (h : s.Issues g x b c (regRun ra 8)) {f : TDesc → MxOp} {i : Instr} {mx : Nat}
    (hi : exec i s = .next (s.mxDesc g mx ra f)) {l : Nat} {e : Engine} (hl : (lanesOf x.active).head? = some l)
    (he : s.engine ⟨g.core, mx⟩ = some e) (hb : e.bid = x.bid) (hrsv : s.tdescRsv g x ra l = false) :
    s.Queues g x b mx e (f (s.tdesc g x ra l)) i :=
  h.queues hi hl he hb (Prod.ext rfl hrsv)

end

/-- Settles O30: every matrix instruction is `mxIssue` of the operation it names, over the registers of its descriptor or scalars. -/
theorem matrixIssue : Obligations.MatrixIssue := by
  intro s g x b c e i op mx t u n ra rs rb l ty hl he hb hi
  rcases hi with ⟨d, rfl, hrsv, h, hi⟩ | ⟨h, hi⟩
  · rcases hi with ⟨rfl, rfl⟩ | ⟨rfl, rfl⟩ | ⟨rfl, rfl⟩ | ⟨rfl, rfl⟩ | ⟨rfl, rfl⟩ | ⟨rfl, rfl⟩ | ⟨rfl, rfl⟩ | ⟨rfl, rfl⟩ | ⟨rfl, rfl⟩ |
      ⟨rfl, rfl⟩ <;> exact h.queues_mxDesc rfl hl he hb hrsv
  · have hnone : s.Issues g x b c [] := h.mono (by simp)
    have hone : s.Issues g x b c [rs] := h.mono (by simp)
    rcases hi with ⟨rfl, rfl⟩ | ⟨rfl, rfl⟩ | ⟨rfl, rfl⟩ | ⟨rfl, rfl⟩ | ⟨rfl, rfl⟩ | ⟨rfl, rfl⟩ | ⟨rfl, rfl⟩ | ⟨rfl, rfl⟩
    -- MEW.AXPB reads two registers, MEW.MAX and MEW.MIN one, every other MEW none.
    case inr.inr.inr.inr.inr.inl => exact h.queues rfl hl he hb rfl
    case inr.inr.inr.inr.inr.inr.inl | inr.inr.inr.inr.inr.inr.inr.inl => exact hone.queues rfl hl he hb rfl
    all_goals exact hnone.queues rfl hl he hb rfl

end Sys2Proof.Machine
end

section
/-! SUPPORT. Bytes of scratch (09_caches.md R186), and lock operations on them (03_thread_execution.md R77, R78). -/

namespace Sys2Proof.Machine

open Sys2Proof

/-! ### Bytes of scratch -/

theorem mget_mdel_self {α : Type} (m : List (Nat × α)) (a : Nat) : mget (mdel m a) a = none := by
  induction m with
  | nil => rfl
  | cons e r ih =>
    obtain ⟨k, v⟩ := e
    by_cases h : k = a
    · simpa [mdel, h] using ih
    · simpa [mdel, mget, h] using ih

theorem mget_mdel_ne {α : Type} (m : List (Nat × α)) {a c : Nat} (h : a ≠ c) : mget (mdel m a) c = mget m c := by
  induction m with
  | nil => rfl
  | cons e r ih =>
    obtain ⟨k, v⟩ := e
    by_cases hk : k = a
    · subst hk; simpa [mdel, mget, h] using ih
    · by_cases hc : k = c
      · subst hc; simp [mdel, mget, hk]
      · simpa [mdel, mget, hk, hc] using ih

/-- A byte of the local stores written: one that is zero is not listed. -/
def putScr (m : List (Nat × Byte)) (a : Nat) (v : Byte) : List (Nat × Byte) := if v == 0 then mdel m a else mput m a v

theorem mget_putScr_self (m : List (Nat × Byte)) (a : Nat) (v : Byte) : (mget (putScr m a v) a).getD 0 = v := by
  unfold putScr
  split
  next h => rw [mget_mdel_self]; exact (eq_of_beq h).symm
  next => rw [mget_mput_self]; rfl

theorem mget_putScr_ne (m : List (Nat × Byte)) {a c : Nat} (v : Byte) (h : a ≠ c) : mget (putScr m a v) c = mget m c := by
  unfold putScr
  split
  · exact mget_mdel_ne m h
  · exact mget_mput_ne m v h

/-- One byte of a block's scratch written: `e` is the byte and its place behind `off`. -/
def Block.putScr (b : Block) (off : Nat) (m : List (Nat × Byte)) (e : Byte × Nat) : List (Nat × Byte) :=
  match b.scrAddr (off + e.2) with
  | some a => Machine.putScr m a e.1
  | none => m

theorem Block.putScr_of_addr {b : Block} {off k a : Nat} {m : List (Nat × Byte)} {v : Byte} (h : b.scrAddr (off + k) = some a) :
    b.putScr off m (v, k) = Machine.putScr m a v := by
  simp only [Block.putScr, h]

theorem State.wrScr_eq (s : State) (b : Block) (off : Nat) (bs : List Byte) :
    s.wrScr b off bs = { s with thr := { s.thr with scr := bs.zipIdx.foldl (b.putScr off) s.thr.scr } } := rfl

theorem mget_foldl_putScr_below {b : Block} {off a : Nat} (bs : List Byte) (k : Nat) (m : List (Nat × Byte))
    (h : ∀ i < bs.length, b.scrAddr (off + (k + i)) = some (a + (k + i))) {c : Nat} (hc : c < a + k) :
    mget ((bs.zipIdx k).foldl (b.putScr off) m) c = mget m c := by
  induction bs generalizing k m with
  | nil => rfl
  | cons v bs ih =>
    have hput : b.putScr off m (v, k) = Machine.putScr m (a + k) v := Block.putScr_of_addr (h 0 (by simp))
    rw [List.zipIdx_cons, List.foldl_cons, hput,
      ih (k + 1) _ (fun i hi => by rw [Nat.add_assoc k, Nat.add_comm 1]; exact h (i + 1) (by simpa using hi)) (by omega)]
    exact mget_putScr_ne m v (by omega)

theorem mget_foldl_putScr {b : Block} {off a : Nat} (bs : List Byte) (k : Nat) (m : List (Nat × Byte))
    (h : ∀ i < bs.length, b.scrAddr (off + (k + i)) = some (a + (k + i))) {j : Nat} (hj : j < bs.length) :
    (mget ((bs.zipIdx k).foldl (b.putScr off) m) (a + (k + j))).getD 0 = bs[j] := by
  induction bs generalizing k m j with
  | nil => simp at hj
  | cons v bs ih =>
    have hput : b.putScr off m (v, k) = Machine.putScr m (a + k) v := Block.putScr_of_addr (h 0 (by simp))
    have hrest : ∀ i < bs.length, b.scrAddr (off + (k + 1 + i)) = some (a + (k + 1 + i)) := fun i hi => by
      rw [Nat.add_assoc k, Nat.add_comm 1]; exact h (i + 1) (by simpa using hi)
    rw [List.zipIdx_cons, List.foldl_cons, hput]
    cases j with
    | zero => rw [mget_foldl_putScr_below bs (k + 1) _ hrest (by omega), Nat.add_zero, mget_putScr_self]; rfl
    | succ j =>
      have hget := ih (k + 1) (Machine.putScr m (a + k) v) hrest (by simpa using hj)
      rwa [Nat.add_assoc k, Nat.add_comm 1] at hget

/-- Bytes written where they lie together are read back. -/
theorem State.rdScr_wrScr {s : State} {b : Block} {off a : Nat} {bs : List Byte}
    (h : ∀ i < bs.length, b.scrAddr (off + i) = some (a + i)) : (s.wrScr b off bs).rdScr b off bs.length = leNat bs := by
  rw [State.rdScr, s.wrScr_eq]
  refine congrArg leNat (List.ext_getElem (by simp) (fun j hj hj' => ?_))
  have hbyte := mget_foldl_putScr (b := b) (off := off) (a := a) bs 0 s.thr.scr (by simpa using h) hj'
  simpa [h j hj'] using hbyte

/-- The bytes of an aligned word lie together. -/
theorem Block.scrAddr_word {b : Block} {va : Nat} (hal : va % 4 = 0) (h : (b.scrAddr va).isSome = true) :
    ∃ a, ∀ i < 4, b.scrAddr (va + i) = some (a + i) := by
  unfold Block.scrAddr at h ⊢
  cases hk : b.gran[va / 1024]? with
  | none => simp [hk] at h
  | some k =>
    refine ⟨b.core * 2 ^ 20 + k * 1024 + va % 1024, fun i hi => ?_⟩
    have hdiv : (va + i) / 1024 = va / 1024 := by omega
    have hmod : (va + i) % 1024 = va % 1024 + i := by omega
    simp only [hdiv, hk, hmod, Nat.add_assoc]

/-- A word written to scratch is read back. -/
theorem State.rdScr_wrScr_word (s : State) {b : Block} {va w : Nat} (hal : va % 4 = 0) (h : (b.scrAddr va).isSome = true)
    (hw : w < 2 ^ 32) : (s.wrScr b va (leBytes 4 w)).rdScr b va 4 = w := by
  obtain ⟨a, ha⟩ := Block.scrAddr_word hal h
  have hlen := length_leBytes 4 w
  have hrd := State.rdScr_wrScr (s := s) (bs := leBytes 4 w) (hlen.symm ▸ ha)
  rw [hlen] at hrd
  rw [hrd, leNat_leBytes, Nat.mod_eq_of_lt (by omega)]

/-! ### A lane's access in scratch, of the access alone in flight -/

section
variable {s : State} {o : MemOp} {b : Block} {c : Cmd} {D T : List LaneAcc} {l : LaneAcc}

/-- What an operation on an allocated word of scratch does: its new value, if it has one, and what its lane then completes. -/
theorem State.doScr_allocated (hb : s.block o.bid = some b) (haddr : (b.scrAddr l.va).isSome = true) (hsize : o.size = 4) (md : ArMode) :
    s.doScr o l md = (match o.op.new md (s.rdScr b l.va 4) l.a l.b with
      | some v => s.wrScr b l.va (leBytes 4 v)
      | none => s).settle o l (s.rdScr b l.va 4) := by
  have hsome : (b.scrAddr l.va == none) = false := by
    cases h : b.scrAddr l.va with
    | none => simp [h] at haddr
    | some a => rfl
  simp only [State.doScr, hb, hsome, hsize]
  rfl

theorem State.tryLane_scr (hfence : o.op ≠ .fence) (hsp : o.sp = .scr) (hsize : o.size = 4) (hc : s.cmdOf o.cmd = some c)
    (hb : s.block o.bid = some b) (haddr : (b.scrAddr l.va).isSome = true) (hkeys : ((D ++ l :: T).map LaneAcc.key).Nodup)
    (hl : l.ph = .need) (hturn : (o.withLanes (D ++ l :: T)).turn l = true) :
    (s.withOps [o.withLanes (D ++ l :: T)]).tryLane o.ser l.key =
      ((match o.op.new c.mode (s.rdScr b l.va 4) l.a l.b with
        | some v => s.wrScr b l.va (leBytes 4 v)
        | none => s).withOps [o.withLanes (D ++ l :: T)]).settle (o.withLanes (D ++ l :: T)) l (s.rdScr b l.va 4) := by
  have hfind : (s.withOps [o.withLanes (D ++ l :: T)]).thr.ops.find? (fun p => p.ser == o.ser) = some (o.withLanes (D ++ l :: T)) := by
    simp [State.withOps, MemOp.withLanes]
  have hcmd : (s.withOps [o.withLanes (D ++ l :: T)]).cmdOf (o.withLanes (D ++ l :: T)).cmd = some c := hc
  have hlane : (o.withLanes (D ++ l :: T)).lanes.find? (fun m => m.key == l.key) = some l := LaneAcc.find_key hkeys
  have hop' : ((o.withLanes (D ++ l :: T)).op == .fence) = false := beq_eq_false_iff_ne.mpr hfence
  have hsp' : (o.withLanes (D ++ l :: T)).sp = .scr := hsp
  have hdo := State.doScr_allocated (s := s.withOps [o.withLanes (D ++ l :: T)]) (o := o.withLanes (D ++ l :: T)) hb haddr hsize c.mode
  simp only [State.tryLane, hfind, hlane, hcmd, hl, hturn, hop', hsp', State.mayPerform_alone]
  refine hdo.trans (congrArg (fun t : State => t.settle (o.withLanes (D ++ l :: T)) l (s.rdScr b l.va 4)) ?_)
  change (match o.op.new c.mode (s.rdScr b l.va 4) l.a l.b with
    | some v => (s.withOps [o.withLanes (D ++ l :: T)]).wrScr b l.va (leBytes 4 v)
    | none => s.withOps [o.withLanes (D ++ l :: T)]) = _
  cases o.op.new c.mode (s.rdScr b l.va 4) l.a l.b <;> rfl

theorem State.tryLane_of_none (h : s.thr.ops = []) (ser key : Nat) : s.tryLane ser key = s := by
  simp [State.tryLane, h]

theorem State.retire_of_none (h : s.thr.ops = []) (ser : Nat) : s.retire ser = s := by
  simp [State.retire, h]

end

/-! ### Lock operations on a word of scratch -/

/-- A group whose lane has the lock. -/
def Group.lockWon (x : Group) (lane : Nat) : Group :=
  { x with active := laneBit lane, wait := .ready, lastLen := 0, pc := Config.nextPc x.pc }

/-- A group none of whose lanes has the lock. -/
def Group.lockLost (x : Group) : Group :=
  let len := if x.lastLen = 0 then 64 else min 4096 (2 * x.lastLen)
  { x with wait := .backoff len, lastLen := len }

theorem State.lockWon_eq (s : State) (o : MemOp) (lane : Nat) : s.lockWon o lane = (s.delOp o.ser).modGroup o.g (Group.lockWon · lane) := rfl

theorem State.lockLost_eq (s : State) (o : MemOp) : s.lockLost o = (s.delOp o.ser).modGroup o.g Group.lockLost := rfl

section
variable {s : State} {o : MemOp} {b : Block} {c : Cmd} {l : LaneAcc} {T : List LaneAcc}

theorem State.delOp_withOps (s : State) (o : MemOp) (L : List LaneAcc) : (s.withOps [o.withLanes L]).delOp (o.withLanes L).ser = s.withOps [] := by
  simp [State.withOps, State.delOp, MemOp.withLanes]

theorem MemOp.turn_next {D : List LaneAcc} (hD : ∀ m ∈ D, m.ph.isDone = true) (hT : ∀ m ∈ T, l.lane < m.lane) :
    (o.withLanes (D ++ l :: T)).turn l = true := by
  have hall : (D ++ l :: T).all (fun m => l.lane ≤ m.lane || m.ph.isDone) = true := by
    simp only [List.all_append, List.all_cons, Bool.and_eq_true, List.all_eq_true, Bool.or_eq_true, decide_eq_true_eq]
    exact ⟨fun m hm => .inr (hD m hm), .inl (le_refl _), fun m hm => .inl (hT m hm).le⟩
  simp only [MemOp.turn, MemOp.withLanes, hall, Bool.or_true]

/-- Once no access is in flight, nothing more is tried. -/
theorem State.foldl_tryLane_of_none (h : s.thr.ops = []) (ser : Nat) (L : List Nat) : L.foldl (fun s k => s.tryLane ser k) s = s :=
  List.foldl_fixed' (fun k => s.tryLane_of_none h ser k) L

/-- The accesses of a core where one alone is in flight. -/
theorem State.retryOps_alone (hops : s.thr.ops = [o]) :
    s.retryOps o.g.core = ((o.lanes.map LaneAcc.key).foldl (fun s k => s.tryLane o.ser k) (s.withOps [o.withLanes o.lanes])).retire o.ser := by
  have hcore : s.coreOps o.g.core = [o] := by simp [State.coreOps, hops]
  rw [State.retryOps, hcore, show s.withOps [o.withLanes o.lanes] = s from s.withOps_self hops]
  rfl

theorem MemOp.acqDev_of_scr (hsp : o.sp = .scr) : o.acqDev = false := by simp [MemOp.acqDev, hsp]

variable (hsp : o.sp = .scr) (hsize : o.size = 4) (hc : s.cmdOf o.cmd = some c) (hb : s.block o.bid = some b)
include hsp hsize hc hb

/-- LKG.ENTER on a free word: its first lane takes it. -/
theorem State.retryOps_lockFree (hops : s.thr.ops = [o]) (hop : o.op = .lock) (hlanes : o.lanes = l :: T) (hl : l.ph = .need)
    (hkeys : ((l :: T).map LaneAcc.key).Nodup) (hT : ∀ m ∈ T, l.lane < m.lane) (haddr : (b.scrAddr l.va).isSome = true)
    (hfree : s.rdScr b l.va 4 = 0) :
    s.retryOps o.g.core = ((s.withOps []).wrScr b l.va (leBytes 4 l.a)).modGroup o.g (Group.lockWon · l.lane) := by
  have htry := State.tryLane_scr (D := []) (by simp [hop]) hsp hsize hc hb haddr hkeys hl (MemOp.turn_next (by simp) hT)
  have hop' : (o.withLanes ([] ++ l :: T)).op = .lock := hop
  have hacq : (o.withLanes ([] ++ l :: T)).acqDev = false := MemOp.acqDev_of_scr hsp
  simp only [hop, AccOp.new, hfree, if_true, State.settle, State.settleLock, hop', hacq, beq_self_eq_true, Bool.true_or,
    Bool.false_eq_true, if_false, State.lockWon_eq] at htry
  rw [State.retryOps_alone hops, hlanes, List.map_cons, List.foldl_cons, ← List.nil_append (l :: T), htry, State.delOp_withOps,
    State.foldl_tryLane_of_none rfl, State.retire_of_none rfl]
  rfl

/-- LKG.EXIT of one lane whose word holds its owner word. -/
theorem State.retryOps_unlock (hops : s.thr.ops = [o]) (hop : o.op = .unlock) (hlanes : o.lanes = [l]) (hl : l.ph = .need)
    (haddr : (b.scrAddr l.va).isSome = true) (howned : s.rdScr b l.va 4 = l.a) :
    s.retryOps o.g.core = ((s.withOps []).wrScr b l.va (leBytes 4 0)).modGroup o.g (Group.leaveLock · (laneBit l.lane)) := by
  have hturn : (o.withLanes ([] ++ [l])).turn l = true := by simp [MemOp.turn, MemOp.withLanes, hop]
  have htry := State.tryLane_scr (D := []) (T := []) (by simp [hop]) hsp hsize hc hb haddr (by simp) hl hturn
  have hop' : (o.withLanes ([] ++ [l])).op = .unlock := hop
  have hlock : (AccOp.unlock == AccOp.lock) = false := rfl
  simp only [hop, AccOp.new, howned, if_true, State.settle, State.settleLock, hop', hlock, beq_self_eq_true, Bool.or_true,
    Bool.false_eq_true, if_false] at htry
  rw [State.retryOps_alone hops, hlanes, List.map_cons, List.map_nil, List.foldl_cons, List.foldl_nil, ← List.nil_append [l], htry,
    State.delOp_withOps, State.retire_of_none rfl]
  rfl

section
variable (hop : o.op = .lock) {va w : Nat} (haddr : (b.scrAddr va).isSome = true) (hrd : s.rdScr b va 4 = w) (hw : w ≠ 0)
include hop haddr hrd hw

/-- A lane that finds the word of another thread gives the next lane its turn; the last one's group waits. -/
theorem State.tryLane_lockHeld {D : List LaneAcc} (hD : ∀ m ∈ D, m.ph.isDone = true) (hkeys : ((D ++ l :: T).map LaneAcc.key).Nodup)
    (hT : ∀ m ∈ T, l.lane < m.lane) (hl : l.ph = .need) (hva : l.va = va) (hother : w ≠ l.a) :
    (s.withOps [o.withLanes (D ++ l :: T)]).tryLane o.ser l.key =
      if (D ++ l :: T).all (fun m => m.lane == l.lane || m.ph.isDone) then (s.withOps []).modGroup o.g Group.lockLost
      else s.withOps [o.withLanes (D ++ l.got w :: T)] := by
  subst hva
  have htry := State.tryLane_scr (by simp [hop]) hsp hsize hc hb haddr hkeys hl (MemOp.turn_next hD hT)
  have hop' : (o.withLanes (D ++ l :: T)).op = .lock := hop
  simp only [hop, AccOp.new, hrd, hw, hother, if_false, State.settle, State.settleLock, hop', beq_self_eq_true, Bool.true_or, if_true,
    State.lockLost_eq, State.delOp_withOps] at htry
  rw [htry]
  exact congrArg (ite _ _) (s.setLane_withOps hkeys w)

/-- LKG.ENTER on a word that another thread holds: its lanes try one after the other, and none has it. -/
theorem State.foldl_tryLane_lockHeld (T D : List LaneAcc) (l : LaneAcc) (hD : ∀ m ∈ D, m.ph.isDone = true)
    (hkeys : ((D ++ l :: T).map LaneAcc.key).Nodup) (hasc : (l :: T).Pairwise (fun m n => m.lane < n.lane))
    (hL : ∀ m ∈ l :: T, m.ph = .need ∧ m.va = va ∧ w ≠ m.a) :
    ((l :: T).map LaneAcc.key).foldl (fun s k => s.tryLane o.ser k) (s.withOps [o.withLanes (D ++ l :: T)]) =
      (s.withOps []).modGroup o.g Group.lockLost := by
  obtain ⟨hT, hasc'⟩ := List.pairwise_cons.mp hasc
  obtain ⟨hl, hva, hother⟩ := hL l List.mem_cons_self
  rw [List.map_cons, List.foldl_cons, State.tryLane_lockHeld hsp hsize hc hb hop haddr hrd hw hD hkeys hT hl hva hother]
  induction T generalizing D l with
  | nil =>
    have hlast : (D ++ [l]).all (fun m => m.lane == l.lane || m.ph.isDone) = true := by
      simpa using fun m hm => Or.inr (hD m hm)
    rw [if_pos hlast]
    rfl
  | cons n T ih =>
    obtain ⟨hTn, hasc''⟩ := List.pairwise_cons.mp hasc'
    obtain ⟨hn, hvan, hothern⟩ := hL n (by simp)
    have hmore : (D ++ l :: n :: T).all (fun m => m.lane == l.lane || m.ph.isDone) = false :=
      List.all_eq_false.mpr ⟨n, by simp, by simp [hn, LanePh.isDone, (hT n List.mem_cons_self).ne']⟩
    have hD' : ∀ m ∈ D ++ [l.got w], m.ph.isDone = true := by
      simpa [or_imp, forall_and, LaneAcc.got, LanePh.isDone] using hD
    have hkeys' : ((D ++ [l.got w] ++ n :: T).map LaneAcc.key).Nodup := by simpa [LaneAcc.got, LaneAcc.key] using hkeys
    rw [if_neg (by simp [hmore]), List.append_cons, List.map_cons, List.foldl_cons,
      State.tryLane_lockHeld hsp hsize hc hb hop haddr hrd hw hD' hkeys' hTn hn hvan hothern]
    exact ih _ n hD' hkeys' hasc' (fun m hm => hL m (List.mem_cons_of_mem l hm)) hTn hasc'' hn hvan hothern

/-- None of the lanes has the lock, and the group waits. -/
theorem State.retryOps_lockHeld (hops : s.thr.ops = [o]) (hne : o.lanes ≠ []) (hkeys : (o.lanes.map LaneAcc.key).Nodup)
    (hasc : o.lanes.Pairwise (fun m n => m.lane < n.lane)) (hL : ∀ m ∈ o.lanes, m.ph = .need ∧ m.va = va ∧ w ≠ m.a) :
    s.retryOps o.g.core = (s.withOps []).modGroup o.g Group.lockLost := by
  rw [State.retryOps_alone hops]
  cases hlanes : o.lanes with
  | nil => exact absurd hlanes hne
  | cons l T =>
    rw [hlanes] at hkeys hasc hL
    have hfold := State.foldl_tryLane_lockHeld hsp hsize hc hb hop haddr hrd hw T [] l (by simp) hkeys hasc hL
    rw [List.nil_append] at hfold
    rw [hfold, State.retire_of_none rfl]

end

end

/-! ### LKG in scratch -/

theorem State.group_modGroup_of {s : State} {g : Gid} {x : Group} (f : Group → Group) (h : s.group g = some x) :
    (s.modGroup g f).group g = some (f x) := by
  rw [s.group_modGroup_self, h, Option.map_some]

theorem State.rdScr_of_scr {s t : State} (h : t.thr.scr = s.thr.scr) (b : Block) (off n : Nat) : t.rdScr b off n = s.rdScr b off n := by
  simp only [State.rdScr, h]

theorem ownerWord_lt {g : Gid} {l : Nat} (hcore : g.core < 512) (hslot : g.slot < 64) (hl : l < 32) : ownerWord g l < 2 ^ 32 := by
  unfold ownerWord; omega

/-- The accesses of a lock operation of these lanes of a group. -/
def State.lockLanes (s : State) (g : Gid) (x : Group) (ra : Nat) (L : List Nat) : List LaneAcc :=
  L.map (fun l => ⟨l, x.homeSlot g l, 0, s.laneAddr g x .scr ra l, ownerWord g l, 0, .need⟩)

/-- A lane's lock operation on the word at `va`. -/
def Group.lockLane (x : Group) (g : Gid) (va l : Nat) : LaneAcc := ⟨l, x.homeSlot g l, 0, va, ownerWord g l, 0, .need⟩

theorem State.lockLanes_of_va {s : State} {g : Gid} {x : Group} {ra va : Nat} {L : List Nat}
    (h : ∀ l ∈ L, s.laneAddr g x .scr ra l = va) : s.lockLanes g x ra L = L.map (x.lockLane g va) :=
  List.map_congr_left (fun l hl => by rw [h l hl]; rfl)

theorem Group.lockLane_keys (x : Group) (g : Gid) (va : Nat) (L : List Nat) : (L.map (x.lockLane g va)).map LaneAcc.key = L := by
  simp [Group.lockLane, LaneAcc.key, Function.comp_def]

/-- A lock operation on scratch words. -/
def lockOp (n : Nat) (g : Gid) (cmd : CmdId) (bid : Nat) (op : AccOp) (sc : Scope) (acq rel : Bool) (L : List LaneAcc) : MemOp :=
  ⟨n, g, cmd, bid, op, sc, acq, rel, 256, 4, .scr, .none, L⟩

theorem pairwise_lanesOf (m : Mask) : (lanesOf m).Pairwise (· < ·) := List.pairwise_lt_range.filter _

theorem State.lsuHeld_of_none {s : State} (h : s.thr.ops = []) (core : Nat) : s.lsuHeld core = 0 := by
  simp [State.lsuHeld, State.coreOps, h]

/-- A group that enters LKG.ENTER: its LOCK entry is pushed, and it waits for its accesses. -/
def Group.entering (x : Group) (e : SEntry) : Group := { x with wait := .mem, lastLen := 0, stack := e :: x.stack }

/-- A group that waits for its accesses. -/
def Group.inMem (x : Group) : Group := { x with wait := .mem }

theorem Group.leaveLock_last {x : Group} {e : SEntry} {r : List SEntry} {m : Mask} (hstack : x.stack = e :: r)
    (hp : e.pset &&& ~~~m = 0) : x.leaveLock m = { x with stack := r, active := e.mask, pc := Config.nextPc x.pc, wait := .ready } := by
  have hnone : (e.pset &&& ~~~m != 0) = false := by rw [hp]; rfl
  simp only [Group.leaveLock, hstack, hnone, Bool.false_eq_true, if_false]

/-- `t` is `s` with the record of `g` at `y` and the access `o` alone in flight. -/
structure State.InFlight (s : State) (g : Gid) (y : Group) (o : MemOp) (t : State) : Prop where
  group : t.group g = some y
  ops : t.thr.ops = [o]
  scr : t.thr.scr = s.thr.scr
  block : ∀ n, t.block n = s.block n
  cmdOf : ∀ id, t.cmdOf id = s.cmdOf id
  mem : SameMemory s t

theorem State.AtIssue.inFlight {s t : State} {g : Gid} {x : Group} (ht : s.AtIssue g x t) (hops : s.thr.ops = []) (f : Group → Group)
    (o : Nat → MemOp) : s.InFlight g (f x.issuing) (o t.thr.serial) ((t.modGroup g f).pushOp o) := by
  rw [State.pushOp_of_none (s := t.modGroup g f) (ht.ops.trans hops)]
  exact ⟨ht.group_modGroup f, rfl, ht.scr, ht.block, ht.cmdOf, ht.sameMemory⟩

section
variable {s : State} {g : Gid} {x : Group} {b : Block} {c : Cmd} {ra : Nat} {sc : Scope}

theorem State.Issues.lkgEnter (h : s.Issues g x b c [ra]) (hsc : sc ≠ .grp) (hstack : x.stack = []) (hops : s.thr.ops = [])
    (hne : lanesOf x.active ≠ []) (hal : ∀ l ∈ lanesOf x.active, s.laneAddr g x .scr ra l % 4 = 0) :
    ∃ n t, s.InFlight g (x.issuing.entering ⟨.lock, x.active, x.pc, x.active, sc⟩) (lockOp n g b.cmd x.bid .lock sc true false
      (s.lockLanes g x ra (lanesOf x.active))) t ∧
      exec (.lkgEnter g sc .scr ra) s = .next (t.retryOps g.core) := by
  have ht := (State.atIssue_issued h.group true true).trans (State.bookkept_tallyG _ g 0x034 1)
  have hfl := ht.inFlight hops (Group.entering · ⟨.lock, x.active, x.pc, x.active, sc⟩)
    (fun n => lockOp n g b.cmd x.bid .lock sc true false (s.lockLanes g x ra (lanesOf x.active)))
  refine ⟨_, _, hfl, congrArg Host.Outcome.next ?_⟩
  have hscope : (sc == .grp) = false := beq_eq_false_iff_ne.mpr hsc
  have halign : (s.lockLanes g x ra (lanesOf x.active)).any (fun l => l.va % 4 != 0) = false := by
    simpa [State.lockLanes] using hal
  have hempty : (s.lockLanes g x ra (lanesOf x.active)).isEmpty = false := by simpa [State.lockLanes] using hne
  rw [State.lkgEnter, hscope, show addrRegs .scr ra = [ra] from rfl, h.issue]
  have hdepth : ((none : Option SEntry).isNone && decide (32 ≤ ([] : List SEntry).length)) = false := rfl
  have hspace : (Space.scr == Space.dev) = false := rfl
  simp only [State.lockLanes] at halign hempty
  simp only [State.lsuHeld_of_none hops, hstack, hdepth, hspace, halign, hempty, Bool.false_eq_true, if_false]
  rfl

theorem State.Issues.lkgExit (h : s.Issues g x b c [ra]) {e : SEntry} {r : List SEntry} (hstack : x.stack = e :: r)
    (hlock : e.kind = .lock) (hops : s.thr.ops = []) (hne : lanesOf x.active ≠ [])
    (hal : ∀ l ∈ lanesOf x.active, s.laneAddr g x .scr ra l % 4 = 0) :
    ∃ n t, s.InFlight g x.issuing.inMem (lockOp n g b.cmd x.bid .unlock e.scope false true (s.lockLanes g x ra (lanesOf x.active))) t ∧
      exec (.lkgExit g .scr ra) s = .next (t.retryOps g.core) := by
  have ht := (State.atIssue_issued h.group true true).trans (State.bookkept_tallyG _ g 0x034 1)
  have hfl := ht.inFlight hops Group.inMem
    (fun n => lockOp n g b.cmd x.bid .unlock e.scope false true (s.lockLanes g x ra (lanesOf x.active)))
  refine ⟨_, _, hfl, congrArg Host.Outcome.next ?_⟩
  have hkind : (e.kind != SKind.lock) = false := by rw [hlock]; rfl
  have halign : (s.lockLanes g x ra (lanesOf x.active)).any (fun l => l.va % 4 != 0) = false := by
    simpa [State.lockLanes] using hal
  have hempty : (s.lockLanes g x ra (lanesOf x.active)).isEmpty = false := by simpa [State.lockLanes] using hne
  have hspace : (Space.scr == Space.dev) = false := rfl
  rw [State.lkgExit, show addrRegs .scr ra = [ra] from rfl, h.issue]
  simp only [State.lockLanes] at halign hempty
  simp only [State.lsuHeld_of_none hops, hstack, hkind, hspace, halign, hempty, Bool.false_eq_true, if_false]
  rfl

end

/-- Settles O24: the lanes' accesses are alone in flight, so LKG.ENTER and LKG.EXIT end with the issue, and the word says how. -/
theorem lockedSections : Obligations.LockedSections := by
  refine ⟨?enter, ?backoff, ?exit⟩
  case enter =>
    intro s g x b c sc ra l0 va w h hsc hstack hops hl0 hva hal hsome hw hcore hslot
    obtain ⟨T, hT⟩ : ∃ T, lanesOf x.active = l0 :: T := List.head?_eq_some_iff.mp hl0
    have hl0mem : l0 ∈ lanesOf x.active := by simp [hT]
    have hasc := pairwise_lanesOf x.active
    obtain ⟨n, t, ht, hexec⟩ := h.lkgEnter hsc hstack hops (by simp [hT]) (fun l hl => (hva l hl).symm ▸ hal)
    rw [State.lockLanes_of_va hva] at ht
    have haddr : (b.scrAddr va).isSome = true := hsome 0 (by decide)
    have hrd : t.rdScr b va 4 = w := (State.rdScr_of_scr ht.scr b va 4).trans hw
    have hc := (ht.cmdOf b.cmd).trans h.cmdOf
    have hb := (ht.block x.bid).trans h.block
    have hkeys := x.lockLane_keys g va (lanesOf x.active)
    refine ⟨fun hw0 => ⟨_, hexec, ?_⟩, fun hw0 hother => ⟨_, hexec, ?_⟩⟩
    · have hlanes : (lanesOf x.active).map (x.lockLane g va) = x.lockLane g va l0 :: T.map (x.lockLane g va) := by rw [hT]; rfl
      rw [hT, List.pairwise_cons] at hasc
      have hwon := State.retryOps_lockFree (l := x.lockLane g va l0) rfl rfl hc hb ht.ops rfl hlanes rfl
        (by rw [← hlanes, hkeys]; exact nodup_lanesOf _) (by simpa [Group.lockLane] using hasc.1) haddr (hrd.trans hw0)
      rw [show t.retryOps g.core = _ from hwon]
      have hl0lt : l0 < 32 := (mem_lanesOf.mp hl0mem).1
      refine ⟨⟨_, State.group_modGroup_of _ ht.group, rfl, ?_, rfl, rfl⟩,
        (t.withOps []).rdScr_wrScr_word hal haddr (ownerWord_lt hcore hslot hl0lt), ht.mem⟩
      exact congrArg (_ :: ·) hstack
    · have hlost := State.retryOps_lockHeld (va := va) rfl rfl hc hb rfl haddr hrd hw0 ht.ops (by simp [lockOp, hT])
        (hkeys.symm ▸ nodup_lanesOf _) (List.pairwise_map.mpr hasc)
        (fun m hm => by
          obtain ⟨l, hl, rfl⟩ := List.mem_map.mp hm
          exact ⟨rfl, rfl, hother l (mem_lanesOf.mp hl).1⟩)
      rw [show t.retryOps g.core = _ from hlost]
      exact ⟨⟨_, State.group_modGroup_of _ ht.group, rfl, rfl⟩, hrd⟩
  case backoff =>
    intro s g x b n hg hw hhalt hb htrap
    refine congrArg Host.Outcome.next ?_
    simp [State.backoffOver, hg, hw, hhalt, hb, htrap]
  case exit =>
    intro s g x b c ra l va e r h hstack hlock hl hactive hpset hops hva hal hsome howned hcore hslot
    have hlanes := lanesOf_laneBit hl
    rw [← hactive] at hlanes
    obtain ⟨n, t, ht, hexec⟩ := h.lkgExit hstack hlock hops (by simp [hlanes]) (by simp [hlanes, hva, hal])
    rw [State.lockLanes_of_va (va := va) (by simp [hlanes, hva]), hlanes] at ht
    refine ⟨_, hexec, ?_⟩
    have haddr : (b.scrAddr va).isSome = true := hsome 0 (by decide)
    have hleft := State.retryOps_unlock (l := x.lockLane g va l) rfl rfl ((ht.cmdOf b.cmd).trans h.cmdOf)
      ((ht.block x.bid).trans h.block) ht.ops rfl rfl rfl haddr ((State.rdScr_of_scr ht.scr b va 4).trans howned)
    rw [show t.retryOps g.core = _ from hleft]
    have hlast : x.issuing.inMem.leaveLock (laneBit l) = _ :=
      Group.leaveLock_last hstack (by rw [hpset]; exact BitVec.and_not_self _)
    exact ⟨⟨_, (State.group_modGroup_of _ ht.group).trans (congrArg some hlast), rfl, rfl, rfl, rfl⟩,
      (t.withOps []).rdScr_wrScr_word hal haddr (by decide), ht.mem⟩

end Sys2Proof.Machine
end

section
/-! SUPPORT. The tag of a core and the samples it makes (20_tally_and_ledger.md R409-R414), and blocks placed, zeroed and ended
(03_thread_execution.md R58-R62, R84; 09_caches.md R188). -/

namespace Sys2Proof.Machine

open Sys2Proof

/-! ### Samples leave the work as it was -/

theorem State.sameWork_setLed (s : State) (d : Nat) (l : Led) : s.SameWork (s.setLed d l) := State.sameWork_tal s _

theorem State.sameWork_setReg (s : State) (r : Reg) (i j : Nat) (v : W64) : s.SameWork (s.setReg r i j v) := State.SameWork.rfl' s

theorem State.sameWork_ledDrop (s : State) (d stamp : Nat) : s.SameWork (s.ledDrop d stamp) :=
  ((s.sameWork_wr _ _ _ _).trans (State.sameWork_setLed _ _ _)).trans (State.sameWork_ledBusy _ _)

theorem State.sameWork_ledOffer (s : State) (d stamp : Nat) (cl : Option Nat) (r : List Byte) : s.SameWork (s.ledOffer d stamp cl r) :=
  .ite _ (.rfl' s) (.ite _ (s.sameWork_ledDrop _ _) (.ite _ (.rfl' s) (.ite _ (s.sameWork_ledDrop _ _)
    ((s.sameWork_setLed _ _).trans (State.sameWork_ledBusy _ _)))))

theorem State.sameWork_catchUp (s : State) (d i : Nat) : s.SameWork (s.catchUp d i) := by
  unfold State.catchUp
  refine .ite _ (.rfl' s) (State.SameWork.trans ?_ (State.sameWork_bump _))
  have hcounts := State.SameWork.foldl (fun (t : State) j => t.addCount d i j (s.timeOf d i j))
    (fun t j => t.sameWork_addCount d i j _) ((List.range (setCounters i)).filter (fun j => timedEvent i (s.rd F.TAL_SEL_EVENT (talSet d i) j))) s
  exact (hcounts.trans (State.sameWork_tal _ _)).trans (.ite _ (State.sameWork_wr _ _ _ _ _) (.rfl' _))

theorem State.sameWork_sampleSet (s : State) (d i stamp k edge : Nat) : s.SameWork (s.sampleSet d i stamp k edge) :=
  ((s.sameWork_catchUp d i).trans (State.SameWork.foldl _ (fun s _ => s.sameWork_ledOffer _ _ _ _) _ _)).trans (State.sameWork_tal _ _)

theorem State.sameWork_resetSample (s : State) (d i : Nat) : s.SameWork (s.resetSample d i) :=
  .ite _ (((s.sameWork_bump.trans (State.sameWork_setLed _ _ _)).trans (State.sameWork_sampleSet _ _ _ _ _ _)).trans (State.sameWork_tal _ _))
    (.ite _ ((s.sameWork_bump.trans (State.sameWork_sampleSet _ _ _ _ _ _)).trans (State.sameWork_bump _)) s.sameWork_bump)

theorem State.sameWork_tagReset (s : State) (d i : Nat) : s.SameWork (s.tagReset d i) :=
  .ite _ (.rfl' s) ((((s.sameWork_resetSample d i).trans (State.SameWork.foldl _ (fun s _ => s.sameWork_setReg _ _ _ _) _ _)).trans
    (State.sameWork_wr _ _ _ _ _)).trans (State.sameWork_setReg _ _ _ _ _))

theorem State.sameWork_coreTag (s : State) (core : Nat) (id : CmdId) : s.SameWork (s.coreTag core id) :=
  .ite _ (.rfl' s) ((s.sameWork_tagReset _ _).trans (State.sameWork_tal _ _))

/-! ### A block on its core -/

theorem length_placeSlots {n : Nat} {used acc slots : List Nat} (h : placeSlots n used acc = some slots) : slots.length = acc.length + n := by
  induction n generalizing used acc with
  | zero => simp only [placeSlots, Option.some.injEq] at h; rw [← h, Nat.add_zero]
  | succ n ih =>
    simp only [placeSlots] at h
    split at h
    · cases h
    · rw [ih h, List.length_append, List.length_singleton]; omega

/-- A core that is on, with its cluster cache, is ready. -/
theorem State.wakeCore_of_on {s : State} {core : Nat} (h : s.dom core = domOn) (hcc : s.dom (512 + core / 8) = domOn) :
    s.wakeCore core = (s, true) := by
  simp [State.wakeCore, h, hcc]

/-- No line is given up where the L1 can take its size at once. -/
theorem State.shrinkL1_of_resizeL1 {s s' : State} {core steps : Nat} (h : s.resizeL1 core steps = some s') : s.shrinkL1 core steps = s := by
  unfold State.resizeL1 at h
  unfold State.shrinkL1
  split at h
  next hbusy => rw [if_neg (by simpa using hbusy)]
  next =>
    split at h
    next hnone => rw [List.isEmpty_iff.mp hnone]; exact ite_self _
    next => cases h

/-- A block that fits: it is the last of the resident ones, with a slot for each of its groups. -/
theorem State.putBlock_blocks {s : State} {id : CmdId} {p : List Byte} {core : Nat} (h : s.fits core id p = true) (index : Nat)
    (coh : Option (Nat × Nat)) : ∃ b, (s.putBlock id p core index coh).thr.blocks = s.thr.blocks ++ [(s.thr.serial, b)] ∧ b.cmd = id ∧
      b.index = index ∧ b.core = core ∧ b.trapped = false ∧ b.slots.length = lnGroups p := by
  have hslots : (placeSlots (lnGroups p) (s.usedSlots core) []).isSome = true := by
    simp only [State.fits, Bool.and_eq_true] at h
    tauto
  obtain ⟨slots, hs⟩ := Option.isSome_iff_exists.mp hslots
  unfold State.putBlock
  simp -zeta only [hs]
  extract_lets bid pages gran groups m0 m1 q t u
  obtain ⟨-, -, -, -, -, -, -, hthr, -⟩ := (u.loadPages core groups (lnArgs p)).sameWork_coreTag core id
  refine ⟨_, congrArg ThrSt.blocks hthr, rfl, rfl, rfl, rfl, ?_⟩
  exact (length_placeSlots hs).trans (Nat.zero_add _)

theorem State.putBlock_cmd (s : State) (id : CmdId) (p : List Byte) (core index : Nat) (coh : Option (Nat × Nat)) :
    (s.putBlock id p core index coh).cmd = s.cmd := by
  unfold State.putBlock
  split
  · rfl
  · extract_lets bid pages gran groups m0 m1 q t u
    obtain ⟨-, -, -, -, -, hcmd, -⟩ := (u.loadPages core groups (lnArgs p)).sameWork_coreTag core id
    exact hcmd

theorem State.cmdOf_modCmd_self (s : State) (id : CmdId) (f : Cmd → Cmd) : (s.modCmd id f).cmdOf id = (s.cmdOf id).map f :=
  aget_amod_self _ _ _

/-- A launch counts one more block placed, and takes the place of the last to have placed one (R275). -/
def State.countPlaced (s : State) (id : CmdId) : State :=
  let u := s.modCmd id (fun c => { c with blocks := c.blocks + 1 })
  { u.modCmd id (fun c => { c with turn := u.cmd.order }) with cmd.order := u.cmd.order + 1 }

theorem State.cmdOf_countPlaced {s : State} {id : CmdId} {c : Cmd} (h : s.cmdOf id = some c) :
    (s.countPlaced id).cmdOf id = some { c with blocks := c.blocks + 1, turn := s.cmd.order } := by
  have hone : (s.modCmd id (fun c => { c with blocks := c.blocks + 1 })).cmdOf id = some { c with blocks := c.blocks + 1 } :=
    (State.cmdOf_modCmd_self _ _ _).trans (congrArg (Option.map _) h)
  exact (State.cmdOf_modCmd_self _ _ _).trans (congrArg (Option.map _) hone)

/-- One block of a launch without cohorts, on a core that is ready and has room (R60). -/
theorem State.blockPlace_one {s s' : State} {id : CmdId} {c : Cmd} {k i : Nat} (hc : s.cmdOf id = some c) (hop : pkOp c.pkt = opLaunch)
    (hph : c.ph = .started) (hcoh : lnCohort c.pkt = 0) (hnext : c.nextBlocks 1 = some ([i], false)) (hst : s.ctxState id.ctx ≠ ctxSaved)
    (hsaving : s.isSaving id.ctx = false) (hcore : s.dom k = domOn) (hcc : s.dom (512 + k / 8) = domOn)
    (hsize : s.resizeL1 k (lnSteps c.pkt) = some s') (hfits : s'.fits k id c.pkt = true) (hrank : s.outranked [k] id c = false) :
    s.blockPlace id [k] = (s'.putBlock id c.pkt k i none).countPlaced id := by
  have hmax : max 1 (lnCohort c.pkt) = 1 := by rw [hcoh]; rfl
  have hkind : (pkOp c.pkt != opLaunch) = false := by rw [hop, bne_self_eq_false]
  have hphase : (c.ph != .started) = false := by rw [hph, bne_self_eq_false]
  have hstate : (s.ctxState id.ctx == ctxSaved) = false := beq_eq_false_iff_ne.mpr hst
  have hwake : [k].foldl (fun (e : State × Bool) k => ((e.1.wakeCore k).1, e.2 && (e.1.wakeCore k).2)) (s, true) = (s, true) := by
    simp only [List.foldl_cons, List.foldl_nil, State.wakeCore_of_on hcore hcc, Bool.and_self]
  have hsizes : State.resizeAll (lnSteps c.pkt) [k] s = some s' := by simp only [State.resizeAll, hsize]
  have hroom : [k].all (fun k => s'.fits k id c.pkt) = true := by simp only [List.all_cons, List.all_nil, hfits, Bool.and_self]
  unfold State.blockPlace
  simp -zeta only [hc]
  extract_lets p n cl coh u
  have hcl : [k].any (fun k => k / 8 != cl) = false := by simp [cl]
  have hcoh' : coh = some none := if_pos hcoh
  have hu : u = s := by
    simp only [u, hwake, List.foldl_cons, List.foldl_nil]
    exact State.shrinkL1_of_resizeL1 hsize
  have hdedup : [k].dedup.length = 1 := by simp
  rw [show n = 1 from hmax, hnext, hcoh', hu, hwake]
  simp only [p, hkind, hphase, hstate, hcl, hsaving, hrank, hsizes, hroom, hdedup, List.length_singleton, bne_self_eq_false,
    Bool.or_self, Bool.not_true, Bool.false_eq_true, if_false]
  rfl

/-! ### Scratch zeroed -/

theorem mget_filter {α : Type} (p : Nat → Bool) (m : List (Nat × α)) (a : Nat) :
    mget (m.filter (fun e => p e.1)) a = if p a then mget m a else none := by
  induction m with
  | nil => simp [mget]
  | cons e r ih =>
    obtain ⟨k, v⟩ := e
    by_cases hp : p k = true
    · by_cases hk : k = a
      · subst hk; simp [mget, hp]
      · simp [mget, hp, hk, ih]
    · by_cases hk : k = a
      · subst hk; simp [hp, ih]
      · simp [mget, hp, hk, ih]

theorem leNat_zeros (n : Nat) : leNat (List.replicate n 0) = 0 := by
  induction n with
  | zero => rfl
  | succ n ih => rw [List.replicate_succ, leNat, ih]; rfl

/-- A byte of the local stores that a block's granules hold. -/
def Block.holds (b : Block) (a : Nat) : Bool := a / 2 ^ 20 == b.core && b.gran.contains (a % 2 ^ 20 / 1024)

theorem Block.holds_scrAddr {b : Block} (hgran : ∀ k ∈ b.gran, k < 1024) {off a : Nat} (h : b.scrAddr off = some a) : b.holds a = true := by
  unfold Block.scrAddr at h
  cases hk : b.gran[off / 1024]? with
  | none => simp [hk] at h
  | some k =>
    have hmem : k ∈ b.gran := List.mem_of_getElem? hk
    have hlt := hgran k hmem
    simp only [hk, Option.some.injEq] at h
    have hdiv : a / 2 ^ 20 = b.core := by omega
    have hmod : a % 2 ^ 20 / 1024 = k := by omega
    rw [Block.holds, hdiv, hmod, beq_self_eq_true, Bool.true_and]
    exact List.contains_iff_mem.mpr hmem

/-- The state whose local stores hold nothing of a block. -/
def State.scratchCleared (s : State) (b : Block) : State :=
  { s with thr := { s.thr with scr := s.thr.scr.filter (fun e => !b.holds e.1) } }

theorem State.mget_scratchCleared (s : State) (b : Block) (a : Nat) :
    mget (s.scratchCleared b).thr.scr a = if b.holds a then none else mget s.thr.scr a := by
  refine (mget_filter (fun a => !b.holds a) s.thr.scr a).trans ?_
  cases b.holds a <;> rfl

theorem State.rdScr_scratchCleared {b : Block} (s : State) (hgran : ∀ k ∈ b.gran, k < 1024) (off n : Nat) :
    (s.scratchCleared b).rdScr b off n = 0 := by
  have hbyte : (List.range n).map (fun i => match b.scrAddr (off + i) with
      | some a => (mget (s.scratchCleared b).thr.scr a).getD 0
      | none => 0) = List.replicate n 0 := by
    refine List.eq_replicate_iff.mpr ⟨by simp, fun v hv => ?_⟩
    obtain ⟨i, -, rfl⟩ := List.mem_map.mp hv
    cases ha : b.scrAddr (off + i) with
    | none => rfl
    | some a => simp [State.mget_scratchCleared, Block.holds_scrAddr hgran ha]
  exact (congrArg leNat hbyte).trans (leNat_zeros n)

/-! ### Blocks ended -/

/-- A block of no cohort leaves its core with its groups, and its launch counts it. -/
theorem State.freeBlock_solo {s : State} {bid : Nat} {b : Block} {c : Cmd} (hc : s.cmdOf b.cmd = some c) (hcoh : b.cohort = none) :
    (s.freeBlock bid b).block bid = none ∧ (∀ e ∈ (s.freeBlock bid b).thr.groups, e.2.bid ≠ bid) ∧
      (s.freeBlock bid b).cmdOf b.cmd = some { c with ended := c.ended + 1 } ∧ SameMemory s (s.freeBlock bid b) := by
  unfold State.freeBlock
  simp -zeta only [hcoh]
  refine ⟨aget_adel_self _ _, fun e he => ?_, ?_, rfl, rfl, rfl⟩
  · simpa using (List.mem_filter.mp he).2
  · exact (State.cmdOf_modCmd_self _ _ _).trans (congrArg (Option.map _) hc)

/-- Settles O26: a block that fits is the last resident one, a zeroed one reads zero, and one that ends is freed. -/
theorem blocksComeAndGo : Obligations.BlocksComeAndGo := by
  refine ⟨?place, ?zero, ?ended⟩
  case place =>
    intro s s' id c k i hc hop hph hcoh hnext hst hsaving hsaved hcore hcc hsize hfits hcmd hrank
    have hnone : s.obj.saved.all (fun b => b.1 != id.ctx) = true := List.all_eq_true.mpr (fun e he => bne_iff_ne.mpr (hsaved e he))
    have hexec : exec (.blockPlace id [k]) s = .next (s.blockPlace id [k]) := by
      refine congrArg Host.Outcome.next ?_
      rw [State.placeMore, hnone, Bool.true_or, if_pos rfl]
    rw [State.blockPlace_one hc hop hph hcoh hnext hst hsaving hcore hcc hsize hfits hrank] at hexec
    have hcmd' : (s'.putBlock id c.pkt k i none).cmd = s.cmd := (s'.putBlock_cmd id c.pkt k i none).trans hcmd
    have hlaunch : (s'.putBlock id c.pkt k i none).cmdOf id = some c := by rw [State.cmdOf, hcmd']; exact hc
    refine ⟨_, hexec, State.putBlock_blocks hfits i none, (State.cmdOf_countPlaced hlaunch).trans ?_⟩
    rw [hcmd']
  case zero =>
    intro s bid b hb hzero hgran
    have hexec : exec (.scratchZeroDone bid) s = .next ((s.scratchCleared b).setBlock bid { b with zeroed := true }) := by
      refine congrArg Host.Outcome.next ?_
      simp only [State.scratchZeroed, hb, hzero, Bool.false_eq_true, if_false]
      rfl
    refine ⟨_, hexec, aget_aput_self _ _ _, s.rdScr_scratchCleared hgran, fun a ha => ?_, rfl, rfl, rfl⟩
    have hout : b.holds a = false := by simpa [Block.holds] using ha
    exact (s.mget_scratchCleared b a).trans (by rw [hout]; rfl)
  case ended =>
    intro s bid b c hb hc hquiet hcoh
    refine ⟨fun hrem htrap => ⟨s.freeBlock bid b, congrArg Host.Outcome.next ?_, State.freeBlock_solo hc hcoh⟩,
      fun htrap hhalt => ⟨s.freeBlock bid b, congrArg Host.Outcome.next ?_, State.freeBlock_solo hc hcoh⟩⟩
    · simp [State.blockEnd, hb, hrem, hquiet, htrap]
    · have hfree : s.thr.groups.all (fun e => e.2.bid != bid || e.2.halt == 0) = true :=
        List.all_eq_true.mpr (fun e he => by
          by_cases hbid : e.2.bid = bid
          · simp [hhalt e he hbid]
          · simp [hbid])
      simp only [State.trappedEnd, hb, htrap, hquiet, hfree, Bool.and_self, if_true]

end Sys2Proof.Machine
end

section
/-! SUPPORT. Memory accesses of the host (04_memory_model.md R98; 10_coherence.md R222; 18_reset.md R373): an access within a line
that nothing of its module is before, and its answer. -/

namespace Sys2Proof.Machine

open Sys2Proof

/-! ### A module that returns from L1 -/

/-- The accesses held, replaced. -/
def State.setHeld (s : State) (h : List HeldAcc) : State := { s with held := h }

theorem State.wr_setHeld (s : State) (h : List HeldAcc) (f : Fld) (v i j : Nat) :
    (s.setHeld h).wr f v i j = (s.wr f v i j).setHeld h := rfl

theorem State.incSat_setHeld (s : State) (h : List HeldAcc) (f : Fld) (i j : Nat) :
    (s.setHeld h).incSat f i j = (s.incSat f i j).setHeld h := rfl

/-- The always-on island's latch of a source, set. -/
def State.latched (s : State) (n : Nat) : State :=
  { s with int := { s.int with latch := if s.int.latch.contains n then s.int.latch else n :: s.int.latch } }

theorem State.caught_eq (s : State) (n : Nat) :
    s.caught n = ((s.latched n).incSat F.INT_ISL_CAUGHT (srcHome n)).wr F.INT_ISL_WAKING 1 (srcHome n) := rfl

theorem State.caught_setHeld (s : State) (h : List HeldAcc) (n : Nat) : (s.setHeld h).caught n = (s.caught n).setHeld h := by
  have hlatch : (s.setHeld h).latched n = (s.latched n).setHeld h := rfl
  rw [State.caught_eq, hlatch, State.incSat_setHeld, State.wr_setHeld, ← State.caught_eq]

theorem State.syncLevel_setHeld (s : State) (h : List HeldAcc) (t : Nat) :
    (s.setHeld h).syncLevel t = (s.syncLevel t).setHeld h := by
  have hlevel : (s.setHeld h).level t = s.level t := rfl
  unfold State.syncLevel
  rw [hlevel, apply_ite (State.setHeld · h)]
  rfl

theorem State.syncLevels_setHeld (s : State) (h : List HeldAcc) : (s.setHeld h).syncLevels = s.syncLevels.setHeld h := by
  have hfold (l : List Nat) (s : State) : l.foldl State.syncLevel (s.setHeld h) = (l.foldl State.syncLevel s).setHeld h := by
    induction l generalizing s with
    | nil => rfl
    | cons t l ih => rw [List.foldl_cons, List.foldl_cons, State.syncLevel_setHeld, ih]
  exact hfold _ s

theorem State.raise_setHeld (s : State) (h : List HeldAcc) (n : Nat) : (s.setHeld h).raise n = (s.raise n).setHeld h := by
  have hmuted : (s.setHeld h).srcMuted n = s.srcMuted n := rfl
  have hstopped : (s.setHeld h).on F.INT_ISL_STOPPED (srcHome n) = s.on F.INT_ISL_STOPPED (srcHome n) := rfl
  rw [State.raise, hmuted, hstopped, State.wr_setHeld, State.syncLevels_setHeld, State.caught_setHeld, State.raise,
    apply_ite (State.setHeld · h), apply_ite (State.setHeld · h)]

/-- What a module's return from L1 does has nothing to do with the accesses held. -/
theorem State.useModule_setHeld (s : State) (h : List HeldAcc) (m : Nat) : (s.setHeld h).useModule m = (s.useModule m).setHeld h := by
  have hstate : (s.setHeld h).rd F.UCIE_STAT_STATE m = s.rd F.UCIE_STAT_STATE m := rfl
  rw [State.useModule, hstate, State.wr_setHeld, State.raise_setHeld, State.useModule, apply_ite (State.setHeld · h)]

@[simp] theorem State.useModule_coh (s : State) (m : Nat) : (s.useModule m).coh = s.coh := by
  unfold State.useModule; split <;> simp
@[simp] theorem State.useModule_syn (s : State) (m : Nat) : (s.useModule m).syn = s.syn := by
  unfold State.useModule; split <;> simp

theorem State.useModule_same (s : State) (m : Nat) : SameMemory s (s.useModule m) := by
  unfold State.useModule SameMemory; split <;> simp

/-- No source that is raised stops a die's clock. -/
theorem State.on_stopped_raise (s : State) (n d : Nat) : (s.raise n).on F.INT_ISL_STOPPED d = s.on F.INT_ISL_STOPPED d := by
  unfold State.on State.raise
  split
  · rfl
  · split
    · rw [State.caught, State.rd_wr_apart _ _ _ _ _ _ (by decide) (by decide), State.incSat,
        State.rd_wr_apart _ _ _ _ _ _ (by decide) (by decide)]
      rfl
    · rw [State.syncLevels_rd, State.rd_wr_apart _ _ _ _ _ _ (by decide) (by decide)]

theorem State.on_stopped_useModule (s : State) (m d : Nat) :
    (s.useModule m).on F.INT_ISL_STOPPED d = s.on F.INT_ISL_STOPPED d := by
  unfold State.useModule
  split
  · rw [State.on_stopped_raise]
    exact congrArg (· == 1) (s.rd_wr_apart _ _ _ _ _ (by decide) (by decide))
  · rfl

theorem State.hostReady_useModule (s : State) (m : Nat) : (s.useModule m).hostReady = s.hostReady := by
  unfold State.useModule
  split
  · rw [State.hostReady, State.on, State.rd_raise _ _ _ _ _ (by decide) (by decide), State.rd_wr_apart _ _ _ _ _ _ (by decide) (by decide)]
    rfl
  · rfl

/-! ### The one request of an access within a line -/

theorem recvSplit_within {pa : Nat} {l : List Byte} (h0 : 0 < l.length) (h : pa % 128 + l.length ≤ 128) : recvSplit pa l = [(pa, l)] := by
  have hlines : linesOf pa l.length = [pa / 128] := by
    have hcount : (pa + l.length - 1) / 128 + 1 - pa / 128 = 1 := by omega
    rw [linesOf, if_neg h0.ne', hcount]
    rfl
  have hlo : max pa (128 * (pa / 128)) = pa := by omega
  have hlen : min (pa + l.length) (128 * (pa / 128 + 1)) - pa = l.length := by omega
  simp only [recvSplit, hlines, List.map_cons, List.map_nil, hlo, hlen, Nat.sub_self, List.drop_zero, List.take_length]

/-- The mask of `n` bytes of a line from byte `off` on. -/
def byteMask (off n : Nat) : BitVec 128 := BitVec.ofNat 128 ((2 ^ n - 1) * 2 ^ off)

theorem getLsbD_byteMask {off n i : Nat} (hi : i < 128) : (byteMask off n).getLsbD i = decide (off ≤ i ∧ i < off + n) := by
  rw [byteMask, BitVec.getLsbD_ofNat, Nat.testBit_mul_two_pow, Nat.testBit_two_pow_sub_one]
  by_cases hoff : off ≤ i
  · simp [hi, hoff]; omega
  · simp [hoff]

/-- The bytes of a line lie before those named, among them or behind them. -/
theorem range_line {off n : Nat} (h : off + n ≤ 128) :
    List.range 128 = List.range off ++ ((List.range n).map (off + ·) ++ (List.range (128 - (off + n))).map (off + n + ·)) := by
  rw [← List.append_assoc, ← List.range_add, ← List.range_add]
  congr 1
  omega

theorem filter_byteMask {off n : Nat} (h : off + n ≤ 128) :
    (List.range 128).filter (fun i => (byteMask off n).getLsbD i) = (List.range n).map (off + ·) := by
  have hlt {i : Nat} (hi : i ∈ List.range 128) := List.mem_range.mp hi
  rw [List.filter_congr (fun i hi => getLsbD_byteMask (hlt hi)), range_line h, List.filter_append, List.filter_append,
    List.filter_eq_nil_iff.mpr, List.filter_eq_self.mpr, List.filter_eq_nil_iff.mpr, List.nil_append, List.append_nil]
  · simp
  · simp
  · simp; omega

theorem find_byteMask {off n : Nat} (h0 : 0 < n) (h : off + n ≤ 128) :
    (List.range 128).find? (fun i => (byteMask off n).getLsbD i) = some off := by
  rw [← List.head?_filter, filter_byteMask h]
  obtain ⟨k, rfl⟩ := Nat.exists_eq_succ_of_ne_zero h0.ne'
  simp [List.range_succ_eq_map]

/-- The request of a host access within a line. -/
def hostMsg (q : BReq) (m key pa : Nat) (data : List Byte) : BMsg :=
  ⟨q, 64 + m, pa / 128, 3, false, key, byteMask (pa % 128) data.length, BitVec.ofNat 1024 (leNat data * 2 ^ (8 * (pa % 128))), [], 0, .none⟩

theorem hostReq_within (q : Nat → BReq) (m key : Nat) {pa : Nat} {data : List Byte} (h0 : 0 < data.length)
    (h : pa % 128 + data.length ≤ 128) :
    hostReq q m key pa data = [⟨m, .mem (hostMsg (q data.length) m key pa data)⟩] := by
  rw [hostReq, recvSplit_within h0 h]
  rfl

theorem State.hostWrite_within {s : State} {m : Nat} (hup : s.moduleUp m = true) (key : Nat) {pa : Nat} {data : List Byte}
    (h0 : 0 < data.length) (h : pa % 128 + data.length ≤ 128) :
    s.hostWrite m key pa data = s.arrive ⟨m, .mem (hostMsg (if data.length = 128 then .wrF else .wrP) m key pa data)⟩ := by
  rw [State.hostWrite, if_pos hup, hostReq_within _ m key h0 h]
  rfl

theorem State.hostRead_within {s : State} {m : Nat} (hup : s.moduleUp m = true) (key : Nat) {pa len : Nat}
    (h0 : 0 < len) (h : pa % 128 + len ≤ 128) :
    s.hostRead m key pa len = s.arrive ⟨m, .mem (hostMsg .rdN m key pa (List.replicate len 0))⟩ := by
  rw [State.hostRead, if_pos hup, hostReq_within _ m key (by simpa using h0) (by simpa using h)]
  rfl

/-! ### An access that nothing is before -/

theorem State.pumpMod_of_none {s : State} (h : s.held = []) (m : Nat) : s.pumpMod m = s := by
  rw [State.pumpMod, h]
  rfl

/-- A memory access that nothing of its module is before, and whose way is awake, goes to its home on arrival. -/
theorem State.arrive_sent {s : State} {m : Nat} {x : BMsg} (hready : s.hostReady = true) (hboot : s.bootFailed = false)
    (hstep : 8 ≤ s.rst.step) (hheld : s.held = []) (hbusy : s.moduleBusy m = false) (hawake : s.asleep ⟨m, .mem x⟩ = []) :
    s.arrive ⟨m, .mem x⟩ = (s.useModule m).sendB x := by
  have hself : (s.useModule m).setHeld [] = s.useModule m := by
    rw [← s.useModule_setHeld, ← hheld]
    rfl
  have hbusy' : ((s.useModule m).setHeld [⟨m, .mem x⟩]).moduleBusy m = false := by
    simpa only [State.moduleBusy, State.setHeld, State.useModule_coh] using hbusy
  have hawake' : ((s.useModule m).setHeld [⟨m, .mem x⟩]).asleep ⟨m, .mem x⟩ = [] :=
    (List.filter_congr (fun d _ => s.on_stopped_useModule m d)).trans hawake
  have hready' : ((s.useModule m).setHeld [⟨m, .mem x⟩]).hostReady = true := (s.hostReady_useModule m).trans hready
  have hpump : ((s.useModule m).setHeld [⟨m, .mem x⟩]).pumpMod m = ((s.useModule m).setHeld []).sendB x := by
    have hone : ((s.useModule m).setHeld [⟨m, .mem x⟩]).held = [⟨m, .mem x⟩] := rfl
    simp only [State.pumpMod, hone, List.length_singleton, State.pumpN, hready', hbusy', hawake', Bool.not_true, Bool.or_self,
      Bool.false_eq_true, if_false, List.find?_singleton, beq_self_eq_true, if_true, List.isEmpty_nil, List.erase_cons_head]
    rfl
  have hheld' : ({ s with held := s.held ++ [⟨m, .mem x⟩] } : State) = s.setHeld [⟨m, .mem x⟩] := by rw [hheld]; rfl
  rw [State.arrive, hboot, if_neg (by simp), if_neg (by omega), hheld', State.useModule_setHeld, hpump, hself]

/-- A read after a release step that failed ends with zeros (R373). -/
theorem State.arrive_void_read {s : State} (hboot : s.bootFailed = true) (m key pa : Nat) {len : Nat} (h0 : 0 < len)
    (h : pa % 128 + len ≤ 128) :
    s.arrive ⟨m, .mem (hostMsg .rdN m key pa (List.replicate len 0))⟩ = s.send (.hostData m pa (List.replicate len 0) .none) := by
  have hmask : (hostMsg .rdN m key pa (List.replicate len 0)).mask = byteMask (pa % 128) len := by simp [hostMsg]
  rw [State.arrive, if_pos hboot]
  simp only [State.voidAcc, hmask, find_byteMask h0 h, filter_byteMask h, Option.getD_some, List.length_map, List.length_range]
  have hpa : 128 * (pa / 128) + pa % 128 = pa := Nat.div_add_mod pa 128
  simp only [hostMsg, beq_self_eq_true, if_true, hpa]

/-! ### Answers -/

/-- A message of level B passes where the clocks on its way run. -/
theorem State.crossing_of_wayClear {s : State} {r h : Nat} (hway : s.wayClear r h) (toHome : Bool) (f : State → State) :
    s.crossing r h toHome f = f s := by
  have hrun : (if toHome then crossed (agentDie r) (h / 4) else crossed (h / 4) (agentDie r)).all
      (fun d => !s.on F.INT_ISL_STOPPED d) = true := by
    refine List.all_eq_true.mpr (fun d hd => ?_)
    rw [hway d (List.mem_append.mpr (by cases toHome <;> simp_all)), Bool.not_false]
  simp only [State.crossing, hrun, if_true]

/-- Settles O16: an access within a line is one request, which an idle module sends at once; an answer is the only message at level B. -/
theorem hostMemoryAccesses : Obligations.HostMemoryAccesses := by
  refine ⟨?writeAbove, ?readAbove, ?down, ?write, ?read, ?data, ?ack, ?failed⟩
  case writeAbove =>
    intro s m key pa data hup hstep hboot htop
    have hreach : s.reaches m (pa + data.length) = true := by simp [State.reaches, hup, hstep, hboot, htop]
    exact if_pos hreach
  case readAbove =>
    intro s m key pa len hup hstep hboot htop
    have hreach : s.reaches m (pa + len) = true := by simp [State.reaches, hup, hstep, hboot, htop]
    exact if_pos hreach
  case down =>
    intro s m key pa len data hdown
    have hreach (top : Nat) : ¬ s.reaches m top = true := by simp [State.reaches, hdown]
    refine ⟨(if_neg (hreach _)).trans ?_, (if_neg (hreach _)).trans ?_⟩
    · rw [State.hostWrite, hdown, if_neg Bool.false_ne_true]
    · rw [State.hostRead, hdown, if_neg Bool.false_ne_true]
  case write =>
    intro s m key ln data x hup hready hboot hstep hheld hbusy hlen htop hawake
    have hreach : ¬ s.reaches m (128 * ln + data.length) = true := by simp [State.reaches]; omega
    have hx : hostMsg (if data.length = 128 then .wrF else .wrP) m key (128 * ln) data = x := by
      have hmod : 128 * ln % 128 = 0 := Nat.mul_mod_right 128 ln
      have hdiv : 128 * ln / 128 = ln := Nat.mul_div_cancel_left ln (by decide)
      have hmask : byteMask 0 128 = BitVec.allOnes 128 := by decide
      simp only [hostMsg, hlen, if_true, hmod, hdiv, hmask, Nat.mul_zero, pow_zero, Nat.mul_one, x]
    refine (if_neg hreach).trans (congrArg Host.Outcome.next ?_)
    rw [State.hostWrite_within hup key (by omega) (by omega), hx]
    exact State.arrive_sent hready hboot hstep hheld hbusy hawake
  case read =>
    intro s m key pa len x hup hready hboot hstep hheld hbusy h0 hlen htop hawake
    have hreach : ¬ s.reaches m (pa + len) = true := by simp [State.reaches]; omega
    have hx : hostMsg .rdN m key pa (List.replicate len 0) = x := by
      simp only [hostMsg, List.length_replicate, leNat_zeros, Nat.zero_mul, x]
      rfl
    refine (if_neg hreach).trans (congrArg Host.Outcome.next ?_)
    rw [State.hostRead_within hup key h0 hlen, hx]
    exact State.arrive_sent hready hboot hstep hheld hbusy hawake
  case data =>
    intro s m ln pa data pk hm hbn hheld hway
    refine congrArg Host.Outcome.next ?_
    rw [State.crossing_of_wayClear hway]
    have hhost : (decide (64 ≤ 64 + m) && decide (64 + m < 72)) = true := by simp; omega
    simp only [State.takeRdData, hbn, List.find?_cons, beq_self_eq_true, Bool.and_self, List.erase_cons_head, hhost, if_true,
      Nat.add_sub_cancel_left]
    refine State.pumpMod_of_none ?_ m
    exact hheld
  case ack =>
    intro s m ln pk hm hbn hheld hops hway
    refine congrArg Host.Outcome.next ?_
    rw [State.crossing_of_wayClear hway]
    have hhost : (decide (64 ≤ 64 + m) && decide (64 + m < 72)) = true := by simp; omega
    have hagent : ¬ 64 + m < 64 := by omega
    simp only [State.wrAckAt, State.takeWrAck, hbn, List.find?_cons, beq_self_eq_true, Bool.and_self, List.erase_cons_head, hops,
      List.find?_nil, hagent, if_false, hhost, if_true, Nat.add_sub_cancel_left]
    refine State.pumpMod_of_none ?_ m
    exact hheld
  case failed =>
    intro s m key pa len hup hboot h0 hlen
    have hreach : ¬ s.reaches m (pa + len) = true := by simp [State.reaches, hboot]
    refine (if_neg hreach).trans (congrArg Host.Outcome.next ?_)
    rw [State.hostRead_within hup key h0 hlen, State.arrive_void_read hboot m key pa h0 hlen]

end Sys2Proof.Machine
end

section
/-! SUPPORT. The owning units (14_synchronisation.md R293-R298, R302): the line of the sync store that an operation asks for, the signals
that a unit applies, and the signals that the host sends. -/

namespace Sys2Proof.Machine

open Sys2Proof

/-! ### The access to the sync store -/

theorem State.sendInvs_regs (s : State) (cl ln : Nat) (p : BitVec 8) (b : Option Nat) : (s.sendInvs cl ln p b).regs = s.regs := by
  refine foldl_keeps _ (fun s : State => s.regs) (fun s c => ?_) _ _
  simp only
  split <;> split <;> rfl

theorem State.setCc_regs (s : State) (cl ln : Nat) (x : CcLine) : (s.setCc cl ln x).regs = s.regs := rfl

theorem State.regsBut_looked (s : State) (cl cls : Nat) (x : CcLine) : s.RegsBut abortRegs (s.looked cl cls x) :=
  .ite (.refl _ s) (s.regsBut_tally _ _ _ _ _)

/-- A line held to be written, with nothing under way for it and no L1 that owns it, serves a write at once. -/
theorem State.ccAsk_owned {s : State} {cl cls ln : Nat} {x : CcLine} (hfinds : s.finds = []) (hline : s.ccLine cl ln = some x)
    (hst : x.st = .O) (hown : x.own = none) (hcur : x.cur = none) (hsnoop : x.snoop = none) (hwait : x.wait = .none) :
    s.ccAsk cl cls ln true = (((s.looked cl cls x).sendInvs cl ln x.pres none).setCc cl ln
      { x with age := if x.fresh then x.age else 0, fresh := false, pres := 0, dirty := true }, true) := by
  have hstable : (x.cur.isSome || x.snoop.isSome || x.wait != .none || !(x.st == .S || x.st == .O)) = false := by
    rw [hcur, hsnoop, hwait, hst]; rfl
  simp only [State.ccAsk, State.ccFound_nil s cl ln hfinds, hline, hstable, Bool.false_eq_true, if_false]
  simp only [hown, hst, Bool.not_true, Bool.false_eq_true, beq_self_eq_true, if_false, if_true]

theorem State.syncAsk_owned {s : State} {n : Bool} {i c cl : Nat} {x : CcLine} (hctx : s.objCtx (n, i) = some c)
    (hsvc : s.svcCluster c (i % 4) = some cl) (hdom : s.dom (512 + cl) = domOn)
    (hline : s.ccLine cl (s.rd F.SYNC_BASE_BASE * 2 ^ 14 + Config.syncLine n i % 2 ^ 14) = some x) (hst : x.st = .O) (hown : x.own = none)
    (hcur : x.cur = none) (hsnoop : x.snoop = none) (hwait : x.wait = .none) (hfinds : s.finds = []) :
    ∃ u, s.syncAsk (n, i) = (u, true) ∧ s.RegsBut abortRegs u := by
  have hask := State.ccAsk_owned (cls := 2) hfinds hline hst hown hcur hsnoop hwait
  have hone : s.syncAsk (n, i) = s.ccAsk cl 2 (s.rd F.SYNC_BASE_BASE * 2 ^ 14 + Config.syncLine n i % 2 ^ 14) true := by
    simp only [State.syncAsk, hctx, State.svcAsk, hsvc, hdom, beq_self_eq_true, if_true, List.isEmpty_cons, Bool.false_eq_true, if_false,
      State.ccAskAll, List.foldl_cons, List.foldl_nil, hask, Bool.and_self]
  exact ⟨_, hone.trans hask, ((s.regsBut_looked cl 2 x).keep (State.sendInvs_regs _ cl _ x.pres none)).keep (State.setCc_regs _ cl _ _)⟩

/-! ### What a unit applies next -/

/-- The queue of the owning units, replaced. -/
def State.withQueue (s : State) (r : List (Nat × SyncOp)) : State := { s with syn := { s.syn with ops := r } }

theorem pickOp_head {p : SyncOp → Bool} {o : SyncOp} (h : p o = true) (die : Nat) (r : List (Nat × SyncOp)) :
    pickOp p die ((die, o) :: r) [] = some o := by
  simp [pickOp, h]

theorem State.nextOp_head {s : State} {die : Nat} {o : SyncOp} {r : List (Nat × SyncOp)} (hops : s.syn.ops = (die, o) :: r)
    {p : SyncOp → Bool} (h : p o = true) : s.nextOp die p = some o := by
  rw [State.nextOp, hops, pickOp_head h]

theorem State.withSync_waits {s u : State} {o : Bool × Nat} (h : s.syncAsk o = (u, false)) (f : State → State) : s.withSync o f = u := by
  simp only [State.withSync, h]

theorem State.withSync_served {s u : State} {o : Bool × Nat} (h : s.syncAsk o = (u, true)) (f : State → State) : s.withSync o f = f u := by
  simp only [State.withSync, h]

theorem State.signalApply_head {s : State} {die : Nat} {o : SyncOp} {r : List (Nat × SyncOp)} (hops : s.syn.ops = (die, o) :: r)
    (hsig : o.isSignal = true) : s.signalApply die o.obj.1 = s.withSync o.obj (fun s => ((s.takeOp die o).applySignal o).grantOps) := by
  have hnext : s.nextOp die (fun p => p.isSignal && p.obj.1 == o.obj.1) = some o := State.nextOp_head hops (by simp [hsig])
  simp only [State.signalApply, hnext]

theorem SyncOp.eq_register {o : SyncOp} (h : o.isRegister = true) : ∃ n i v id, o = .register n i v id := by
  cases o with
  | register n i v id => exact ⟨n, i, v, id, rfl⟩
  | _ => cases h

theorem SyncOp.eq_withdraw {o : SyncOp} (h : o.isWithdraw = true) : ∃ n i id, o = .withdraw n i id := by
  cases o with
  | withdraw n i id => exact ⟨n, i, id, rfl⟩
  | _ => cases h

/-- Where each operation that waits has a row of its own, none has its effect by standing first. -/
theorem State.grantOps_of_byRow {s : State} (h : ∀ e ∈ s.syn.ops, e.2.byRow = true) : s.grantOps = s := by
  have harm (n : Nat) : State.grantArms n s = s := by
    cases n with
    | zero => rfl
    | succ n =>
      unfold State.grantArms
      split
      case h_1 => rfl
      case h_2 hsome =>
        obtain ⟨⟨d, o⟩, he, harm⟩ := List.exists_of_findSome?_eq_some hsome
        cases o
        case arm => cases h _ he
        all_goals cases harm
  have hstay : s.syn.ops.filter (fun e => e.2.stays && s.firstOp e.2.obj == some e.2) = [] := by
    refine List.filter_eq_nil_iff.mpr (fun e he => ?_)
    obtain ⟨d, o⟩ := e
    cases o
    case hold => cases h _ he
    case destroy => cases h _ he
    all_goals simp [SyncOp.stays]
  simp only [State.grantOps, harm, hstay, List.map_nil, List.foldl_nil]

/-! #### The queue stays as it is while a signal takes effect -/

theorem State.evalWatch_ops (s : State) (n : Bool) (i : Nat) : (s.evalWatch n i).syn.ops = s.syn.ops := by
  refine foldl_keeps _ (fun s : State => s.syn.ops) (fun s w => ?_) _ _
  unfold State.fireSoon
  split <;> rfl

theorem State.wakeTimeline_ops (s : State) (i : Nat) : (s.wakeTimeline i).syn.ops = s.syn.ops := by
  unfold State.wakeTimeline
  simp only
  exact (foldl_keeps (fun (s : State) => s.satisfy _) (fun s : State => s.syn.ops) (fun _ _ => rfl) _ _).trans rfl

theorem State.wakeNote_ops (i n : Nat) (s : State) : (State.wakeNote i n s).syn.ops = s.syn.ops := by
  induction n generalizing s with
  | zero => rfl
  | succ n ih =>
    unfold State.wakeNote
    split
    · rfl
    · split
      · rw [ih, State.evalWatch_ops]; rfl
      · rfl

theorem State.signalTl_ops {s : State} {err : State → State} (h : (err s).syn.ops = s.syn.ops) (i v : Nat) :
    (s.signalTl i v err).syn.ops = s.syn.ops := by
  unfold State.signalTl
  simp only
  split
  · rw [State.wakeTimeline_ops, State.evalWatch_ops]; rfl
  · split
    · rw [State.evalWatch_ops]
    · rw [State.evalWatch_ops, h]

theorem State.signalNote_ops {err : State → State} (h : ∀ s, (err s).syn.ops = s.syn.ops) (s : State) (i c : Nat) :
    (s.signalNote i c err).syn.ops = s.syn.ops := by
  unfold State.signalNote
  simp only
  split
  · rw [State.evalWatch_ops]
  · split
    · rw [State.wakeNote_ops, State.evalWatch_ops]; rfl
    · rw [State.wakeNote_ops, State.evalWatch_ops, h]; rfl

/-! ### Reports -/

/-- `t` is `s` after a report: memory, the objects and what waits for them are as they were, and no register but SYNC_ERR and those of
the interrupt that follows has changed. -/
structure State.Reports (s t : State) : Prop where
  syn : t.syn = s.syn
  stk : t.stk = s.stk
  mem : SameMemory s t
  regs : s.RegsBut [.SYNC_ERR, .INT_SRC_CTL, .INT_ISL] t

theorem State.reports_modCmd (s : State) (id : CmdId) (f : Cmd → Cmd) : s.Reports (s.modCmd id f) :=
  ⟨rfl, rfl, ⟨rfl, rfl, rfl⟩, fun _ _ _ _ => rfl⟩

theorem State.reports_wr (s : State) (f : Fld) (v i j : Nat) (hf : f.reg = .SYNC_ERR) : s.Reports (s.wr f v i j) :=
  ⟨rfl, rfl, ⟨rfl, rfl, rfl⟩, (State.RegsBut.refl _ s).wr f v i j (by simp [hf])⟩

theorem State.reports_raise (s : State) (n : Nat) : s.Reports (s.raise n) :=
  ⟨s.raise_syn n, s.raise_stk n, s.raise_same n, (State.RegsBut.refl _ s).raise n (by decide) (by decide)⟩

theorem State.Reports.trans {s t u : State} (h : s.Reports t) (k : t.Reports u) : s.Reports u :=
  ⟨k.syn.trans h.syn, k.stk.trans h.stk, ⟨k.mem.1.trans h.mem.1, k.mem.2.1.trans h.mem.2.1, k.mem.2.2.trans h.mem.2.2⟩, h.regs.trans k.regs⟩

theorem State.reports_syncErr (s : State) {f : Fld} (hf : f.reg = .SYNC_ERR) : s.Reports (s.syncErr f) :=
  (s.reports_wr f 1 0 0 hf).trans (State.reports_raise _ _)

/-- The bit of SYNC_ERR that a report sets. -/
theorem State.on_syncErr (s : State) {f : Fld} (hf : f.reg = .SYNC_ERR) (hwid : f.wid = 1) (hlo : f.lo + f.wid ≤ 64) :
    (s.syncErr f).on f = true := by
  rw [State.on, State.syncErr, State.rd_raise _ _ _ _ _ (by simp [hf]) (by simp [hf]), State.rd_wr_self _ _ _ _ _ hlo, hwid]
  rfl

/-- A host signal that its unit reports: the object is recorded in `w` unless an earlier report of its kind `f` stands. -/
def State.hostReport (s : State) (f w : Fld) (i : Nat) : State := (if s.on f then s else s.wr w i).syncErr f

theorem State.reports_hostReport (s : State) {f w : Fld} (hf : f.reg = .SYNC_ERR) (hw : w.reg = .SYNC_ERR) (i : Nat) :
    s.Reports (s.hostReport f w i) := by
  refine State.Reports.trans ?_ (State.reports_syncErr _ hf)
  split
  · exact ⟨rfl, rfl, ⟨rfl, rfl, rfl⟩, .refl _ s⟩
  · exact s.reports_wr w i 0 0 hw

/-- The first report of its kind records its object. -/
theorem State.rd_hostReport {s : State} {f w : Fld} (h : s.on f = false) (hw : w.reg = .SYNC_ERR)
    (hflo : f.lo + f.wid ≤ 64) (hwlo : w.lo + w.wid ≤ 64) (hap : w.lo + w.wid ≤ f.lo ∨ f.lo + f.wid ≤ w.lo) (i : Nat) :
    (s.hostReport f w i).rd w = i % 2 ^ w.wid := by
  rw [State.hostReport, h, if_neg Bool.false_ne_true, State.syncErr, State.rd_raise _ _ _ _ _ (by simp [hw]) (by simp [hw]),
    State.rd_wr_apart _ _ _ _ _ _ hflo (.inr hap), State.rd_wr_self _ _ _ _ _ hwlo]

/-- A command records a status that its signal reports. -/
def State.noteStatus (s : State) (id : CmdId) (st : Nat) : State := s.modCmd id (fun c => c.note st)

/-- A host signal lower than its timeline's value, and one that takes a note to its limit, as SYNC_ERR reports them. -/
def State.reportLower (s : State) (i : Nat) : State := s.hostReport F.SYNC_ERR_REGRESS F.SYNC_ERR_TL i
def State.reportLimit (s : State) (i : Nat) : State := s.hostReport F.SYNC_ERR_NOTE_SAT F.SYNC_ERR_NOTE i

theorem State.reports_noteStatus (s : State) (id : CmdId) (st : Nat) : s.Reports (s.noteStatus id st) := s.reports_modCmd id _

theorem State.reports_reportLower (s : State) (i : Nat) : s.Reports (s.reportLower i) := s.reports_hostReport rfl rfl i

theorem State.reports_reportLimit (s : State) (i : Nat) : s.Reports (s.reportLimit i) := s.reports_hostReport rfl rfl i

theorem State.rdByte_congr {s t : State} (hmem : SameMemory s t) (hstk : t.stk = s.stk) (k a : Nat) : t.rdByte k a = s.rdByte k a := by
  obtain ⟨hm, hl, -⟩ := hmem
  have ht : ({ t with mem := s.mem, lines := s.lines, stk := s.stk } : State) = t := by rw [← hm, ← hl, ← hstk]
  rw [← ht]
  rfl

theorem SameBut.refl (pa n : Nat) (s : State) : SameBut pa n s s := ⟨fun _ _ _ => rfl, rfl⟩

theorem SameBut.trans {pa n : Nat} {s t u : State} (h : SameBut pa n s t) (k : SameBut pa n t u) : SameBut pa n s u :=
  ⟨fun i a ha => (k.1 i a ha).trans (h.1 i a ha), k.2.trans h.2⟩

theorem State.Reports.sameBut {s t : State} (h : s.Reports t) (pa n : Nat) : SameBut pa n s t :=
  ⟨fun k a _ => State.rdByte_congr h.mem h.stk k a, h.mem.2.2⟩

/-! ### Values of the objects -/

/-- What is internal to a range of whole lines leaves every byte outside them. -/
theorem State.sameBut_openRange (s : State) {pa n : Nat} (hpa : pa % 128 = 0) (hn : n % 128 = 0) : SameBut pa n s (s.openRange pa n) := by
  refine ⟨fun k a ha => ?_, rfl⟩
  have hmem (c : Nat) (hc : c < pa ∨ pa + n ≤ c) : mget (s.openRange pa n).mem c = mget s.mem c := by
    rw [State.openRange, mget_filter (fun c => decide (c < pa) || decide (pa + n ≤ c)), if_pos (by simpa using hc)]
  have hline : mget (s.openRange pa n).lines (a / 128) = mget s.lines (a / 128) := by
    rw [State.openRange, mget_filter (fun l => decide ((l + 1) * 128 ≤ pa) || decide (pa + n ≤ l * 128)), if_pos (by simp; omega)]
  have hplain (w : Nat) : (s.openRange pa n).plainLine w (a / 128) = s.plainLine w (a / 128) := by
    refine congrArg (fun l => BitVec.ofNat 1024 (leNat l)) (List.map_congr_left (fun i hi => ?_))
    have hi' := List.mem_range.mp hi
    rw [hmem _ (by omega)]
  simp only [State.rdByte, State.cipherLine, hline, hplain, hmem a ha]
  rfl

theorem State.sameBut_storeOpen (s : State) : SameBut s.syncStore (2 ^ 21) s s.storeOpen :=
  s.sameBut_openRange (by unfold State.syncStore; omega) (by decide)

theorem State.sameBut_putTl (s : State) (v i : Nat) : SameBut s.syncStore (2 ^ 21) s (s.putTl v i) := by
  have hstore : (s.wr F.TL_VAL_VALUE v i).syncStore = s.syncStore :=
    congrArg (· * 2 ^ 21) (s.rd_wr_apart _ _ _ _ _ (by decide) (by decide))
  have hopen := (s.wr F.TL_VAL_VALUE v i).sameBut_storeOpen
  rw [hstore] at hopen
  exact hopen

theorem State.sameBut_putNote (s : State) (v i : Nat) : SameBut s.syncStore (2 ^ 21) s (s.putNote v i) := by
  have hstore : (s.wr F.NOTE_VAL_COUNT v i).syncStore = s.syncStore :=
    congrArg (· * 2 ^ 21) (s.rd_wr_apart _ _ _ _ _ (by decide) (by decide))
  have hopen := (s.wr F.NOTE_VAL_COUNT v i).sameBut_storeOpen
  rw [hstore] at hopen
  exact hopen

theorem State.tlVal_putTl_self (s : State) {v : Nat} (hv : v < 2 ^ 64) (i : Nat) : (s.putTl v i).tlVal i = v :=
  (s.rd_wr_self F.TL_VAL_VALUE v i 0 (by decide)).trans (Nat.mod_eq_of_lt hv)

theorem State.tlVal_putTl_ne (s : State) (v : Nat) {i j : Nat} (h : j ≠ i) : (s.putTl v i).tlVal j = s.tlVal j :=
  s.rd_wr_ne _ _ _ _ _ _ _ (by simpa using h.symm)

theorem State.noteVal_putNote_self (s : State) {v : Nat} (hv : v < 2 ^ 32) (i : Nat) : (s.putNote v i).noteVal i = v :=
  (s.rd_wr_self F.NOTE_VAL_COUNT v i 0 (by decide)).trans (Nat.mod_eq_of_lt hv)

theorem State.noteVal_putNote_ne (s : State) (v : Nat) {i j : Nat} (h : j ≠ i) : (s.putNote v i).noteVal j = s.noteVal j :=
  s.rd_wr_ne _ _ _ _ _ _ _ (by simpa using h.symm)

theorem State.sat_putNote (s : State) (v i : Nat) : (s.putNote v i).on F.NOTE_VAL_SAT i = s.on F.NOTE_VAL_SAT i :=
  congrArg (· == 1) (s.rd_wr_apart (f := F.NOTE_VAL_COUNT) (g := F.NOTE_VAL_SAT) v i 0 i 0 (by decide) (by decide))

theorem State.Reports.tlVal {s t : State} (h : s.Reports t) (i : Nat) : t.tlVal i = s.tlVal i := h.regs.rd F.TL_VAL_VALUE (by decide) i 0

theorem State.Reports.noteVal {s t : State} (h : s.Reports t) (i : Nat) : t.noteVal i = s.noteVal i :=
  h.regs.rd F.NOTE_VAL_COUNT (by decide) i 0

/-! ### Watchers and waiters -/

theorem State.watching_of_syn {s t : State} (h : t.syn = s.syn) (n : Bool) (i : Nat) : t.watching n i = s.watching n i := by
  rw [State.watching, h, State.watching]

/-- Where no watcher is armed on an object, none fires. -/
theorem State.evalWatch_of_none {s : State} {n : Bool} {i : Nat} (h : s.watching n i = []) : s.evalWatch n i = s := by
  rw [State.evalWatch, h]
  rfl

theorem State.wakeTimeline_of_none {s : State} (h : s.syn.waiters = []) (i : Nat) : s.wakeTimeline i = s := by
  have hself : ({ s with syn := { s.syn with waiters := [] } } : State) = s := by rw [← h]
  simp only [State.wakeTimeline, h, List.filter_nil, List.map_nil, List.foldl_nil, hself]

/-- A timeline's value reaches its one waiter, or does not. -/
theorem State.wakeTimeline_one {s : State} {i w d : Nat} {id : CmdId} (h : s.syn.waiters = [⟨false, i, w, id, d⟩]) :
    s.wakeTimeline i = if w ≤ s.tlVal i
      then ({ s with syn := { s.syn with waiters := [] } }).satisfy (if s.tlVal i = terminal then stPoison else stOk) id else s := by
  unfold State.wakeTimeline
  by_cases hw : w ≤ s.tlVal i
  · simp [h, hw]
  · have hself : ({ s with syn := { s.syn with waiters := [⟨false, i, w, id, d⟩] } } : State) = s := by rw [← h]
    simp [h, hw, hself]

theorem State.wakeNote_of_none {s : State} (h : s.syn.waiters = []) (i n : Nat) : State.wakeNote i n s = s := by
  cases n <;> simp [State.wakeNote, h]

section
variable {s : State} {i : Nat} {w : Waiter} {r : List Waiter} (h : s.syn.waiters = w :: r) (hw : w.note = true ∧ w.idx = i) (n : Nat)
include h hw

/-- The oldest waiter of a note, which its count does not reach, keeps its place before the others. -/
theorem State.wakeNote_stop (hlt : s.noteVal i < w.v) : State.wakeNote i n s = s := by
  obtain ⟨hnote, hidx⟩ := hw
  cases n with
  | zero => rfl
  | succ n => simp [State.wakeNote, h, hnote, hidx, hlt]

/-- The oldest waiter of a note, which fits, consumes its amount, and the next has its turn. -/
theorem State.wakeNote_first (hle : w.v ≤ s.noteVal i) (hwatch : s.watching true i = []) (hlt : s.noteVal i - w.v < 2 ^ 32) :
    ∃ t, State.wakeNote i (n + 1) s = State.wakeNote i n t ∧ t.noteVal i = s.noteVal i - w.v ∧ t.syn.waiters = r := by
  obtain ⟨hnote, hidx⟩ := hw
  let t := (({ s with syn := { s.syn with waiters := r } }).putNote (s.noteVal i - w.v) i).satisfy stOk w.cmd
  have hquiet : t.watching true i = [] := hwatch
  refine ⟨t, ?_, State.noteVal_putNote_self _ hlt i, rfl⟩
  simp only [State.wakeNote, h, List.find?_cons, hnote, hidx, beq_self_eq_true, Bool.and_self, if_pos hle, List.erase_cons_head]
  exact congrArg _ (State.evalWatch_of_none hquiet)

end

/-! ### Signals applied -/

section
variable {s : State} {i : Nat} (err : State → State)

/-- A signal on a timeline that no watcher watches. -/
theorem State.signalTl_unwatched (hwatch : s.watching false i = []) (herr : s.Reports (err s)) (v : Nat) :
    s.signalTl i v err = if s.tlVal i < v then (s.putTl v i).wakeTimeline i else if v = s.tlVal i then s else err s := by
  have hput : (s.putTl v i).watching false i = [] := hwatch
  have hrep : (err s).watching false i = [] := (State.watching_of_syn herr.syn false i).trans hwatch
  simp only [State.signalTl, State.evalWatch_of_none hput, State.evalWatch_of_none hwatch, State.evalWatch_of_none hrep]

/-- A signal on a timeline that nothing waits for. -/
theorem State.signalTl_alone (hwatch : s.watching false i = []) (hwait : s.syn.waiters = []) (herr : s.Reports (err s)) (v : Nat) :
    s.signalTl i v err = if s.tlVal i < v then s.putTl v i else if v = s.tlVal i then s else err s := by
  rw [State.signalTl_unwatched err hwatch herr, State.wakeTimeline_of_none (s := s.putTl v i) hwait]

/-- The value that a signal leaves, and all it can touch. -/
theorem State.signalTl_value (hwatch : s.watching false i = []) (hwait : s.syn.waiters = []) (herr : s.Reports (err s)) {v : Nat}
    (hv : v < 2 ^ 64) : (s.signalTl i v err).tlVal i = max v (s.tlVal i) ∧ (∀ j, j ≠ i → (s.signalTl i v err).tlVal j = s.tlVal j) ∧
      SameBut s.syncStore (2 ^ 21) s (s.signalTl i v err) := by
  rw [State.signalTl_alone err hwatch hwait herr]
  rcases lt_trichotomy (s.tlVal i) v with hlt | heq | hgt
  · rw [if_pos hlt]
    exact ⟨(s.tlVal_putTl_self hv i).trans (max_eq_left hlt.le).symm, fun j hj => s.tlVal_putTl_ne v hj, s.sameBut_putTl v i⟩
  · rw [if_neg heq.not_lt, if_pos heq.symm]
    exact ⟨(max_eq_right heq.ge).symm, fun _ _ => rfl, .refl _ _ s⟩
  · rw [if_neg hgt.not_gt, if_neg hgt.ne]
    exact ⟨(herr.tlVal i).trans (max_eq_right hgt.le).symm, fun j _ => herr.tlVal j, herr.sameBut _ _⟩

/-- A signal of nothing on a note. -/
theorem State.signalNote_zero (hwatch : s.watching true i = []) : s.signalNote i 0 err = s := by
  rw [State.signalNote, if_pos rfl, State.evalWatch_of_none hwatch]

/-- A signal that keeps a note, which no watcher watches, below its limit. -/
theorem State.signalNote_below (hwatch : s.watching true i = []) {n : Nat} (hn : 0 < n) (hlt : s.noteVal i + n < noteMax) :
    s.signalNote i n err = State.wakeNote i (s.syn.waiters.length + 1) (s.putNote (s.noteVal i + n) i) := by
  have hput : (s.putNote (s.noteVal i + n) i).watching true i = [] := hwatch
  simp only [State.signalNote, if_neg hn.ne', if_pos hlt, State.evalWatch_of_none hput]
  rfl

/-- A note that nothing waits for, at its limit. -/
theorem State.signalNote_limit (hwatch : s.watching true i = []) (hwait : s.syn.waiters = []) {n : Nat} (hn : 0 < n)
    (hle : noteMax ≤ s.noteVal i + n) (herr : ∀ t : State, t.Reports (err t)) :
    s.signalNote i n err = err ((s.putNote noteMax i).wr F.NOTE_VAL_SAT 1 i) := by
  have hsyn : (err ((s.putNote noteMax i).wr F.NOTE_VAL_SAT 1 i)).syn = s.syn := (herr _).syn
  have hquiet := (State.watching_of_syn hsyn true i).trans hwatch
  simp only [State.signalNote, if_neg hn.ne', if_neg hle.not_gt, State.evalWatch_of_none hquiet]
  exact State.wakeNote_of_none ((congrArg SyncSt.waiters hsyn).trans hwait) _ _

/-- The count of a note that a signal keeps below its limit and that nothing waits for, and all the signal can touch. -/
theorem State.signalNote_count (hwatch : s.watching true i = []) (hwait : s.syn.waiters = []) {n : Nat} (hlt : s.noteVal i + n < noteMax) :
    (s.signalNote i n err).noteVal i = s.noteVal i + n ∧ (s.signalNote i n err).on F.NOTE_VAL_SAT i = s.on F.NOTE_VAL_SAT i ∧
      (∀ j, j ≠ i → (s.signalNote i n err).noteVal j = s.noteVal j) ∧ SameBut s.syncStore (2 ^ 21) s (s.signalNote i n err) := by
  rcases Nat.eq_zero_or_pos n with rfl | hn
  · rw [State.signalNote_zero err hwatch]
    exact ⟨rfl, rfl, fun _ _ => rfl, .refl _ _ s⟩
  · rw [State.signalNote_below err hwatch hn hlt, State.wakeNote_of_none (s := s.putNote (s.noteVal i + n) i) hwait]
    exact ⟨s.noteVal_putNote_self (lt_trans hlt (by decide)) i, s.sat_putNote _ i, fun j hj => s.noteVal_putNote_ne _ hj,
      s.sameBut_putNote _ i⟩

theorem State.noteVal_saturated (s : State) (i : Nat) : ((s.putNote noteMax i).wr F.NOTE_VAL_SAT 1 i).noteVal i = noteMax :=
  (State.rd_wr_apart _ (f := F.NOTE_VAL_SAT) (g := F.NOTE_VAL_COUNT) 1 i 0 i 0 (by decide) (by decide)).trans
    (s.noteVal_putNote_self (by decide) i)

theorem State.sat_saturated (s : State) (i : Nat) : ((s.putNote noteMax i).wr F.NOTE_VAL_SAT 1 i).on F.NOTE_VAL_SAT i = true :=
  congrArg (· == 1) (State.rd_wr_self _ F.NOTE_VAL_SAT 1 i 0 (by decide))

/-- A note that nothing waits for stays at its limit, and SAT is set. -/
theorem State.signalNote_saturates (hwatch : s.watching true i = []) (hwait : s.syn.waiters = []) {n : Nat} (hn : 0 < n)
    (hle : noteMax ≤ s.noteVal i + n) (herr : ∀ t : State, t.Reports (err t)) :
    (s.signalNote i n err).noteVal i = noteMax ∧ (s.signalNote i n err).on F.NOTE_VAL_SAT i = true := by
  rw [State.signalNote_limit err hwatch hwait hn hle herr]
  exact ⟨((herr _).noteVal i).trans (s.noteVal_saturated i),
    (congrArg (· == 1) ((herr _).regs.rd F.NOTE_VAL_SAT (by decide) i 0)).trans (s.sat_saturated i)⟩

end

/-! #### What a signal of a packet, and one of the host, reports -/

section
variable {s : State} {i : Nat}

theorem State.cmdOf_signalled {id : CmdId} {c : Cmd} (h : s.cmdOf id = some c) :
    (s.signalled id).cmdOf id = some { c with done := true } := by
  rw [State.signalled, State.cmdOf_modCmd_self, h]
  rfl

theorem State.cmdOf_noteStatus {id : CmdId} {c : Cmd} (h : s.cmdOf id = some c) (st : Nat) :
    (s.noteStatus id st).cmdOf id = some (c.note st) := by
  rw [State.noteStatus, State.cmdOf_modCmd_self, h]
  rfl

/-- A packet's signal on a timeline that nothing waits for is over for its command, which records a lower value. -/
theorem State.cmdOf_signalTl {id : CmdId} {c : Cmd} (hwatch : s.watching false i = []) (hwait : s.syn.waiters = [])
    (hc : s.cmdOf id = some c) (v : Nat) : ((s.signalled id).signalTl i v (State.noteStatus · id stRegress)).cmdOf id =
      some (if v < s.tlVal i then { c with done := true }.note stRegress else { c with done := true }) := by
  have hdone := State.cmdOf_signalled hc
  have hval : (s.signalled id).tlVal i = s.tlVal i := rfl
  rw [State.signalTl_alone (s := s.signalled id) _ hwatch hwait (State.reports_noteStatus _ id stRegress), hval]
  rcases lt_trichotomy (s.tlVal i) v with hlt | heq | hgt
  · rw [if_pos hlt, if_neg hlt.not_gt]
    exact hdone
  · rw [if_neg heq.not_lt, if_pos heq.symm, if_neg heq.not_gt]
    exact hdone
  · rw [if_neg hgt.not_gt, if_neg hgt.ne, if_pos hgt]
    exact State.cmdOf_noteStatus hdone stRegress

/-- A host signal lower than its timeline's value is reported, with its timeline if it is the first. -/
theorem State.signalTl_lower (hwatch : s.watching false i = []) (hwait : s.syn.waiters = []) {v : Nat} (hlt : v < s.tlVal i) :
    (s.signalTl i v (State.reportLower · i)).on F.SYNC_ERR_REGRESS = true ∧ (s.on F.SYNC_ERR_REGRESS = false →
      (s.signalTl i v (State.reportLower · i)).rd F.SYNC_ERR_TL = i % 2 ^ F.SYNC_ERR_TL.wid) := by
  rw [State.signalTl_alone _ hwatch hwait (s.reports_reportLower i), if_neg hlt.not_gt, if_neg hlt.ne]
  exact ⟨State.on_syncErr _ rfl rfl (by decide), fun hfirst => State.rd_hostReport hfirst rfl (by decide) (by decide) (by decide) i⟩

/-- A host signal that is not lower reports nothing. -/
theorem State.signalTl_notLower (hwatch : s.watching false i = []) (hwait : s.syn.waiters = []) {v : Nat} (hle : s.tlVal i ≤ v) :
    (s.signalTl i v (State.reportLower · i)).cmd = s.cmd ∧
      (s.signalTl i v (State.reportLower · i)).rd F.SYNC_ERR_REGRESS = s.rd F.SYNC_ERR_REGRESS := by
  rw [State.signalTl_alone _ hwatch hwait (s.reports_reportLower i)]
  rcases hle.lt_or_eq with hlt | heq
  · rw [if_pos hlt]
    exact ⟨rfl, s.rd_wr_apart (f := F.TL_VAL_VALUE) (g := F.SYNC_ERR_REGRESS) v i 0 0 0 (by decide) (by decide)⟩
  · rw [if_neg heq.not_lt, if_pos heq.symm]
    exact ⟨rfl, rfl⟩

end

/-! #### The signal at the head of the queue -/

/-- The queue while a signal takes effect. -/
theorem State.applySignal_ops (s : State) (o : SyncOp) : (s.applySignal o).syn.ops = s.syn.ops := by
  have hbad : (s.syncErr F.SYNC_ERR_BAD_HOST).syn.ops = s.syn.ops := congrArg SyncSt.ops (s.reports_syncErr rfl).syn
  cases o with
  | signal n i v id =>
    cases n
    · simp only [State.applySignal]
      split
      · exact State.signalTl_ops (s := s.signalled id) (err := (State.noteStatus · id stRegress)) rfl i v
      · rfl
    · simp only [State.applySignal]
      split
      · exact State.signalNote_ops (err := (State.noteStatus · id stNoteSat)) (fun _ => rfl) (s.signalled id) i v
      · rfl
  | host n i v =>
    cases n
    · simp only [State.applySignal]
      split
      · exact State.signalTl_ops (err := (State.reportLower · i)) (congrArg SyncSt.ops (s.reports_reportLower i).syn) i v
      · exact hbad
    · simp only [State.applySignal]
      split
      · exact State.signalNote_ops (err := (State.reportLimit · i)) (fun t => congrArg SyncSt.ops (t.reports_reportLimit i).syn) s i v
      · exact hbad
  | register => rfl
  | withdraw => rfl
  | hold => rfl
  | destroy => rfl
  | arm => rfl

section
variable {s u : State} {die i : Nat} {r : List (Nat × SyncOp)} (huops : u.syn.ops = s.syn.ops) (hr : ∀ e ∈ r, e.2.byRow = true)
include huops hr

/-- A unit applies the signal at the head of the queue, once its object's line is served. -/
theorem State.signalApply_served {o : SyncOp} (hops : s.syn.ops = (die, o) :: r) (hsig : o.isSignal = true)
    (hask : s.syncAsk o.obj = (u, true)) : s.signalApply die o.obj.1 = (u.withQueue r).applySignal o := by
  have htake : u.takeOp die o = u.withQueue r := by
    rw [State.takeOp, huops, hops, List.erase_cons_head]
    rfl
  have hrow : ∀ e ∈ ((u.withQueue r).applySignal o).syn.ops, e.2.byRow = true := by
    rw [State.applySignal_ops]
    exact hr
  rw [State.signalApply_head hops hsig, State.withSync_served hask, htake, State.grantOps_of_byRow hrow]

theorem State.exec_signalTl {v : Nat} {id : CmdId} (hops : s.syn.ops = (die, .signal false i v id) :: r)
    (hask : s.syncAsk (false, i) = (u, true)) (hex : u.tlExists i = true) : exec (.timelineSignalApply die) s =
      .next (((u.withQueue r).signalled id).signalTl i v (State.noteStatus · id stRegress)) :=
  congrArg Host.Outcome.next ((State.signalApply_served (o := .signal false i v id) huops hr hops rfl hask).trans (if_pos hex))

theorem State.exec_hostTl {v : Nat} (hops : s.syn.ops = (die, .host false i v) :: r)
    (hask : s.syncAsk (false, i) = (u, true)) (hex : u.tlExists i = true) : exec (.timelineSignalApply die) s =
      .next ((u.withQueue r).signalTl i v (State.reportLower · i)) :=
  congrArg Host.Outcome.next ((State.signalApply_served (o := .host false i v) huops hr hops rfl hask).trans (if_pos hex))

theorem State.exec_signalNote {n : Nat} {id : CmdId} (hops : s.syn.ops = (die, .signal true i n id) :: r)
    (hask : s.syncAsk (true, i) = (u, true)) (hex : u.noteExists i = true) : exec (.noteSignalApply die) s =
      .next (((u.withQueue r).signalled id).signalNote i n (State.noteStatus · id stNoteSat)) :=
  congrArg Host.Outcome.next ((State.signalApply_served (o := .signal true i n id) huops hr hops rfl hask).trans (if_pos hex))

theorem State.exec_hostNote {n : Nat} (hops : s.syn.ops = (die, .host true i n) :: r)
    (hask : s.syncAsk (true, i) = (u, true)) (hex : u.noteExists i = true) : exec (.noteSignalApply die) s =
      .next ((u.withQueue r).signalNote i n (State.reportLimit · i)) :=
  congrArg Host.Outcome.next ((State.signalApply_served (o := .host true i n) huops hr hops rfl hask).trans (if_pos hex))

/-! #### Its effect on a timeline -/

/-- A timeline's value, its queue, and all that a signal of either kind can touch. -/
def TlSignalled (u : State) (i v : Nat) (r : List (Nat × SyncOp)) (t : State) : Prop :=
  t.syn.ops = r ∧ t.tlVal i = max v (u.tlVal i) ∧ (∀ j, j ≠ i → t.tlVal j = u.tlVal j) ∧ SameBut u.syncStore (2 ^ 21) u t

theorem State.runs_signalTl {v : Nat} {id : CmdId} (hops : s.syn.ops = (die, .signal false i v id) :: r)
    (hask : s.syncAsk (false, i) = (u, true)) (hex : u.tlExists i = true) (hwatch : u.watching false i = []) (hwait : u.syn.waiters = [])
    (hv : v < 2 ^ 64) : Runs (.timelineSignalApply die) s (fun t => TlSignalled u i v r t ∧ ∀ c, u.cmdOf id = some c →
      t.cmdOf id = some (if v < u.tlVal i then { c with done := true }.note stRegress else { c with done := true })) := by
  refine ⟨_, State.exec_signalTl huops hr hops hask hex, ⟨?ops, ?rest⟩, fun c hc => ?cmd⟩
  case ops => exact State.signalTl_ops (s := (u.withQueue r).signalled id) (err := (State.noteStatus · id stRegress)) rfl i v
  case rest => exact State.signalTl_value (s := (u.withQueue r).signalled id) _ hwatch hwait (State.reports_noteStatus _ id stRegress) hv
  case cmd => exact State.cmdOf_signalTl (s := u.withQueue r) hwatch hwait hc v

theorem State.runs_hostTl {v : Nat} (hops : s.syn.ops = (die, .host false i v) :: r)
    (hask : s.syncAsk (false, i) = (u, true)) (hex : u.tlExists i = true) (hwatch : u.watching false i = []) (hwait : u.syn.waiters = [])
    (hv : v < 2 ^ 64) : Runs (.timelineSignalApply die) s (fun t => TlSignalled u i v r t ∧
      (v < u.tlVal i → t.on F.SYNC_ERR_REGRESS = true ∧
        (u.on F.SYNC_ERR_REGRESS = false → t.rd F.SYNC_ERR_TL = i % 2 ^ F.SYNC_ERR_TL.wid)) ∧
      (u.tlVal i ≤ v → t.cmd = u.cmd ∧ t.rd F.SYNC_ERR_REGRESS = u.rd F.SYNC_ERR_REGRESS)) := by
  have hrep := (u.withQueue r).reports_reportLower i
  refine ⟨_, State.exec_hostTl huops hr hops hask hex, ⟨?ops, ?rest⟩, fun hlt => ?lower, fun hle => ?notLower⟩
  case ops => exact State.signalTl_ops (s := u.withQueue r) (err := (State.reportLower · i)) (congrArg SyncSt.ops hrep.syn) i v
  case rest => exact State.signalTl_value (s := u.withQueue r) _ hwatch hwait hrep hv
  case lower => exact State.signalTl_lower (s := u.withQueue r) hwatch hwait hlt
  case notLower => exact State.signalTl_notLower (s := u.withQueue r) hwatch hwait hle

/-- A greater value reaches the one waiter, or does not. -/
theorem State.runs_hostTl_waiter {v w : Nat} {id : CmdId} {c : Cmd} (hops : s.syn.ops = (die, .host false i v) :: r)
    (hask : s.syncAsk (false, i) = (u, true)) (hex : u.tlExists i = true) (hwatch : u.watching false i = [])
    (hwait : u.syn.waiters = [⟨false, i, w, id, 0⟩]) (hc : u.cmdOf id = some c) (hlt : u.tlVal i < v) (hv : v < 2 ^ 64) :
    Runs (.timelineSignalApply die) s (fun t => t.tlVal i = v ∧ t.syn.waiters = (if w ≤ v then [] else u.syn.waiters) ∧
      t.cmdOf id = some (if w ≤ v then { c with wait := .satisfied (if v = terminal then stPoison else stOk) } else c)) := by
  have hexec := State.exec_hostTl huops hr hops hask hex
  have hval : ((u.withQueue r).putTl v i).tlVal i = v := (u.withQueue r).tlVal_putTl_self hv i
  rw [State.signalTl_unwatched (s := u.withQueue r) _ hwatch ((u.withQueue r).reports_reportLower i),
    if_pos (show (u.withQueue r).tlVal i < v from hlt), State.wakeTimeline_one (s := (u.withQueue r).putTl v i) hwait, hval] at hexec
  refine ⟨_, hexec, ?_⟩
  by_cases hle : w ≤ v
  · simp only [if_pos hle]
    exact ⟨hval, rfl, (State.cmdOf_modCmd_self _ id _).trans (congrArg (Option.map _) hc)⟩
  · simp only [if_neg hle]
    exact ⟨hval, rfl, hc⟩

/-! #### Its effect on a note -/

/-- A note below its limit, its queue, and all that a signal of either kind can touch. -/
def NoteSignalled (u : State) (i n : Nat) (r : List (Nat × SyncOp)) (t : State) : Prop :=
  t.syn.ops = r ∧ t.noteVal i = u.noteVal i + n ∧ t.on F.NOTE_VAL_SAT i = u.on F.NOTE_VAL_SAT i ∧
    (∀ j, j ≠ i → t.noteVal j = u.noteVal j) ∧ SameBut u.syncStore (2 ^ 21) u t

section
variable (hwatch : u.watching true i = []) (hex : u.noteExists i = true) (hask : s.syncAsk (true, i) = (u, true))
include hwatch hex hask

theorem State.runs_signalNote_below {n : Nat} {id : CmdId} (hops : s.syn.ops = (die, .signal true i n id) :: r) (hwait : u.syn.waiters = [])
    (hlt : u.noteVal i + n < noteMax) : Runs (.noteSignalApply die) s (NoteSignalled u i n r) := by
  refine ⟨_, State.exec_signalNote huops hr hops hask hex, ?ops, ?rest⟩
  case ops => exact State.signalNote_ops (err := (State.noteStatus · id stNoteSat)) (fun _ => rfl) ((u.withQueue r).signalled id) i n
  case rest => exact State.signalNote_count (s := (u.withQueue r).signalled id) _ hwatch hwait hlt

theorem State.runs_hostNote_below {n : Nat} (hops : s.syn.ops = (die, .host true i n) :: r) (hwait : u.syn.waiters = [])
    (hlt : u.noteVal i + n < noteMax) : Runs (.noteSignalApply die) s (NoteSignalled u i n r) := by
  refine ⟨_, State.exec_hostNote huops hr hops hask hex, ?ops, ?rest⟩
  case ops =>
    exact State.signalNote_ops (err := (State.reportLimit · i)) (fun t => congrArg SyncSt.ops (t.reports_reportLimit i).syn) (u.withQueue r) i n
  case rest => exact State.signalNote_count (s := u.withQueue r) _ hwatch hwait hlt

theorem State.runs_signalNote_limit {n : Nat} {id : CmdId} (hops : s.syn.ops = (die, .signal true i n id) :: r) (hwait : u.syn.waiters = [])
    (hle : noteMax ≤ u.noteVal i + n) (hn : 0 < n) : Runs (.noteSignalApply die) s (fun t => t.noteVal i = noteMax ∧
      t.on F.NOTE_VAL_SAT i = true ∧ ∀ c, u.cmdOf id = some c → t.cmdOf id = some ({ c with done := true }.note stNoteSat)) := by
  have herr (t : State) := t.reports_noteStatus id stNoteSat
  obtain ⟨hval, hsat⟩ := State.signalNote_saturates (s := (u.withQueue r).signalled id) _ hwatch hwait hn hle herr
  refine ⟨_, State.exec_signalNote huops hr hops hask hex, hval, hsat, fun c hc => ?_⟩
  rw [State.signalNote_limit (s := (u.withQueue r).signalled id) _ hwatch hwait hn hle herr]
  exact State.cmdOf_noteStatus (State.cmdOf_signalled (s := u.withQueue r) hc) stNoteSat

theorem State.runs_hostNote_limit {n : Nat} (hops : s.syn.ops = (die, .host true i n) :: r) (hwait : u.syn.waiters = [])
    (hle : noteMax ≤ u.noteVal i + n) (hn : 0 < n) : Runs (.noteSignalApply die) s (fun t => t.noteVal i = noteMax ∧
      t.on F.NOTE_VAL_SAT i = true ∧ t.on F.SYNC_ERR_NOTE_SAT = true) := by
  have herr (t : State) := t.reports_reportLimit i
  obtain ⟨hval, hsat⟩ := State.signalNote_saturates (s := u.withQueue r) _ hwatch hwait hn hle herr
  refine ⟨_, State.exec_hostNote huops hr hops hask hex, hval, hsat, ?_⟩
  rw [State.signalNote_limit (s := u.withQueue r) _ hwatch hwait hn hle herr]
  exact State.on_syncErr _ rfl rfl (by decide)

/-- The oldest of two waiters is served where the count reaches it, and the other is not served before it. -/
theorem State.runs_hostNote_waiters {n v w : Nat} {a b : CmdId} (hops : s.syn.ops = (die, .host true i n) :: r)
    (hwait : u.syn.waiters = [⟨true, i, v, a, 0⟩, ⟨true, i, w, b, 0⟩]) (hn : 0 < n) (hlt : u.noteVal i + n < noteMax) :
    (v ≤ u.noteVal i + n → u.noteVal i + n - v < w → Runs (.noteSignalApply die) s (fun t => t.noteVal i = u.noteVal i + n - v ∧
      t.syn.waiters = [⟨true, i, w, b, 0⟩])) ∧
    (u.noteVal i + n < v → Runs (.noteSignalApply die) s (fun t => t.noteVal i = u.noteVal i + n ∧ t.syn.waiters = u.syn.waiters)) := by
  have hexec := State.exec_hostNote huops hr hops hask hex
  have hlen : (u.withQueue r).syn.waiters.length + 1 = 2 + 1 := congrArg (·.length + 1) hwait
  have hval : ((u.withQueue r).putNote (u.noteVal i + n) i).noteVal i = u.noteVal i + n :=
    (u.withQueue r).noteVal_putNote_self (lt_trans hlt (by decide)) i
  rw [State.signalNote_below (s := u.withQueue r) _ hwatch hn hlt, hlen] at hexec
  constructor
  · intro hle hrest
    have hrem : u.noteVal i + n - v < 2 ^ 32 := lt_of_le_of_lt (Nat.sub_le _ _) (lt_trans hlt (by decide))
    obtain ⟨t, ht, hleft, hothers⟩ := State.wakeNote_first (s := (u.withQueue r).putNote (u.noteVal i + n) i) (i := i) hwait ⟨rfl, rfl⟩ 2
      (hle.trans_eq hval.symm) hwatch (lt_of_eq_of_lt (congrArg (· - v) hval) hrem)
    rw [hval] at hleft
    rw [show (u.withQueue r).noteVal i = u.noteVal i from rfl, ht, State.wakeNote_stop hothers ⟨rfl, rfl⟩ _ (hleft.trans_lt hrest)] at hexec
    exact ⟨t, hexec, hleft, hothers⟩
  · intro hgt
    have hstop := State.wakeNote_stop (s := (u.withQueue r).putNote (u.noteVal i + n) i) (i := i) hwait ⟨rfl, rfl⟩ (2 + 1) (hval.trans_lt hgt)
    rw [show (u.withQueue r).noteVal i = u.noteVal i from rfl, hstop] at hexec
    exact ⟨_, hexec, hval, rfl⟩

end

end

/-! ### Signals of the host -/

/-- An access takes effect at once, in its module returned from L1. -/
theorem State.cmdWrite_of_actsNow {s : State} {src : Src} {off bytes : Nat} {v : W64} (h : s.actsNow src off bytes v)
    (f : State → State) : s.cmdWrite src off bytes v f = f (s.accessed src) := by
  cases src with
  | host m => exact if_pos h
  | connector => exact if_pos (by rw [h.1, h.2]; rfl)

theorem State.accessed_syn (s : State) (src : Src) : (s.accessed src).syn = s.syn := by
  cases src
  · exact s.useModule_syn _
  · rfl

theorem State.accessed_same (s : State) (src : Src) : SameMemory s (s.accessed src) := by
  cases src
  · exact s.useModule_same _
  · exact ⟨rfl, rfl, rfl⟩

/-- A signal of an object that is there joins its unit's queue. -/
theorem State.hostSignal_queued {s : State} {n : Bool} {i : Nat} (h : (if n then s.noteExists i else s.tlExists i) = true) (src : Src) (v : Nat) :
    (s.accessed src).hostSignal n i v = { s.accessed src with syn := { s.syn with ops := s.syn.ops ++ [(i % 4, .host n i v)] } } := by
  have h' : (if n then (s.accessed src).noteExists i else (s.accessed src).tlExists i) = true := by
    simpa only [State.noteExists, State.tlExists, s.accessed_syn] using h
  rw [State.hostSignal, if_pos h', State.pushSync, s.accessed_syn]

/-- A signal that names no object is reported. -/
theorem State.hostSignal_bad {s : State} {n : Bool} {i : Nat} (h : (if n then s.noteExists i else s.tlExists i) = false) (src : Src) (v : Nat) :
    ((s.accessed src).hostSignal n i v).on F.SYNC_ERR_BAD_HOST = true ∧ ((s.accessed src).hostSignal n i v).syn = s.syn ∧
      SameMemory s ((s.accessed src).hostSignal n i v) := by
  have h' : (if n then (s.accessed src).noteExists i else (s.accessed src).tlExists i) = false := by
    simpa only [State.noteExists, State.tlExists, s.accessed_syn] using h
  have hrep := (s.accessed src).reports_syncErr (f := F.SYNC_ERR_BAD_HOST) rfl
  obtain ⟨hm, hl, hh⟩ := s.accessed_same src
  rw [State.hostSignal, h', if_neg Bool.false_ne_true]
  exact ⟨State.on_syncErr _ rfl rfl (by decide), hrep.syn.trans (s.accessed_syn src), hrep.mem.1.trans hm, hrep.mem.2.1.trans hl,
    hrep.mem.2.2.trans hh⟩

/-- Settles O46: the signal at the head of its unit's queue acts on what its line's access leaves; the cases are the order of its value
and the object's, and the waiters that the object has. -/
theorem signals : Obligations.Signals := by
  refine ⟨?line, ?waits, ?timeline, ?waiter, ?note, ?waiters, ?tlSig, ?noteSig⟩
  case line =>
    intro s n i c cl x hctx hsvc hdom hline hst hown hcur hsnoop hwait hfinds
    obtain ⟨u, hask, hregs⟩ := State.syncAsk_owned hctx hsvc hdom hline hst hown hcur hsnoop hwait hfinds
    have hwork := s.sameWork_syncAsk (n, i) hfinds
    rw [hask] at hwork
    obtain ⟨-, -, -, -, -, hcmd, hsyn, -⟩ := hwork
    exact ⟨u, hask, hsyn, hcmd, fun j => ⟨hregs.rd F.TL_VAL_VALUE (by decide) j 0, hregs.rd F.NOTE_VAL_COUNT (by decide) j 0⟩⟩
  case waits =>
    intro s u die o r hops hask
    have hsignal (hsig : o.isSignal = true) : s.signalApply die o.obj.1 = u := by
      rw [State.signalApply_head hops hsig, State.withSync_waits hask]
    refine ⟨fun hsig hobj => ?_, fun hsig hobj => ?_, fun hreg => ?_, fun hwd => ?_, fun n i c hobj hctx hsvc => ?_⟩
    · rw [hobj] at hsignal
      exact congrArg Host.Outcome.next (hsignal hsig)
    · rw [hobj] at hsignal
      exact congrArg Host.Outcome.next (hsignal hsig)
    · obtain ⟨n, i, v, id, rfl⟩ := SyncOp.eq_register hreg
      refine congrArg Host.Outcome.next ?_
      rw [State.waitRegister, State.nextOp_head hops hreg]
      exact State.withSync_waits hask _
    · obtain ⟨n, i, id, rfl⟩ := SyncOp.eq_withdraw hwd
      refine congrArg Host.Outcome.next ?_
      rw [State.waitWithdraw, State.nextOp_head hops hwd]
      exact State.withSync_waits hask _
    · rw [hobj] at hask
      simp only [State.syncAsk, hctx, State.svcAsk, hsvc, Prod.mk.injEq] at hask
      exact hask.1.symm
  case timeline =>
    intro s u die i v r o hops hask huops hr hex hwait hwatch ho hv
    rcases ho with ⟨id, rfl⟩ | rfl
    · obtain ⟨t, hexec, ⟨hq, hval, hothers, hbut⟩, hcmd⟩ := State.runs_signalTl huops hr hops hask hex hwatch hwait hv
      refine ⟨t, hexec, hq, hval, hothers, ?_, nofun, nofun, hbut⟩
      rintro id c ⟨⟩ hc
      exact hcmd c hc
    · obtain ⟨t, hexec, ⟨hq, hval, hothers, hbut⟩, hlower, hquiet⟩ := State.runs_hostTl huops hr hops hask hex hwatch hwait hv
      refine ⟨t, hexec, hq, hval, hothers, ?_, fun _ => hlower, fun _ => hquiet, hbut⟩
      rintro id c ⟨⟩
  case waiter =>
    intro s u die i v w r id c hops hask huops hr hex hwait hc hlt hv hwatch
    obtain ⟨t, hexec, hval, hrest, hcmd⟩ := State.runs_hostTl_waiter huops hr hops hask hex hwatch hwait hc hlt hv
    refine ⟨fun hle => ⟨t, hexec, ?_⟩, fun hgt => ⟨t, hexec, ?_⟩⟩
    · rw [if_pos hle] at hrest hcmd
      exact ⟨hrest, hcmd, hval⟩
    · rw [if_neg hgt.not_ge] at hrest hcmd
      exact ⟨hrest, hcmd, hval⟩
  case note =>
    intro s u die i n r o hops hask huops hr hex hwait hwatch ho
    rcases ho with ⟨id, rfl⟩ | rfl
    · refine ⟨State.runs_signalNote_below huops hr hwatch hex hask hops hwait, fun hle hn => ?_⟩
      obtain ⟨t, hexec, hval, hsat, hcmd⟩ := State.runs_signalNote_limit huops hr hwatch hex hask hops hwait hle hn
      refine ⟨t, hexec, hval, hsat, nofun, ?_⟩
      rintro id c ⟨⟩ hc
      exact hcmd c hc
    · refine ⟨State.runs_hostNote_below huops hr hwatch hex hask hops hwait, fun hle hn => ?_⟩
      obtain ⟨t, hexec, hval, hsat, herr⟩ := State.runs_hostNote_limit huops hr hwatch hex hask hops hwait hle hn
      refine ⟨t, hexec, hval, hsat, fun _ => herr, ?_⟩
      rintro id c ⟨⟩
  case waiters =>
    intro s u die i n v w r a b hops hask huops hr hex hwait hwatch hn hlt
    obtain ⟨hserved, hstays⟩ := State.runs_hostNote_waiters huops hr hwatch hex hask hops hwait hn hlt
    exact ⟨hserved, fun hgt _ => hstays hgt⟩
  case tlSig =>
    intro s src i v hi
    refine ⟨fun hacts => ?_, fun m hsrc hwaits => ?_⟩
    · have hexec : exec (.tlSig src i v) s = .next ((s.accessed src).hostSignal false i v.toNat) :=
        congrArg Host.Outcome.next ((if_pos hi).trans (State.cmdWrite_of_actsNow hacts _))
      exact ⟨fun hex => hexec.trans (congrArg Host.Outcome.next (State.hostSignal_queued (n := false) hex src v.toNat)),
        fun hno => ⟨_, hexec, State.hostSignal_bad (n := false) hno src v.toNat⟩⟩
    · subst hsrc
      exact congrArg Host.Outcome.next ((if_pos hi).trans (if_neg (by simp [hwaits])))
  case noteSig =>
    intro s src i c hi
    refine ⟨fun hacts => ?_, fun m hsrc hwaits => ?_⟩
    · have hexec : exec (.noteSig src i c) s = .next ((s.accessed src).hostSignal true i c.toNat) :=
        congrArg Host.Outcome.next ((if_pos hi).trans (State.cmdWrite_of_actsNow hacts _))
      exact ⟨fun hex => hexec.trans (congrArg Host.Outcome.next (State.hostSignal_queued (n := true) hex src c.toNat)),
        fun hno => ⟨_, hexec, State.hostSignal_bad (n := true) hno src c.toNat⟩⟩
    · subst hsrc
      exact congrArg Host.Outcome.next ((if_pos hi).trans (if_neg (by simp [hwaits])))

end Sys2Proof.Machine
end

section
/-! SUPPORT. Accesses whose destination is register 256 (04_memory_model.md R88, R95; 03_thread_execution.md R59). `MemOp.rd` marks an
access without a destination by 256, and the statements on loads and atomics leave the number of a group's register pages open: a
group with 33 pages owns a register 256, and what it loads there is lost. -/

namespace Sys2Proof.Machine

open Sys2Proof

/-- A launch of context 1, started. -/
def wideCmd : Cmd :=
  ⟨0, List.replicate 64 0, .started, [], none, none, none, false, 1, 0, [], [], false, false, .idle, false, false, false, false, false,
    false, false, none, false, 0, 0, [], false⟩

/-- Its block on core 0, with one granule of scratch. -/
def wideBlock : Block := ⟨⟨1, 0, 0⟩, 0, 0, [0], [0], false, false, none, true, false⟩

/-- Its group, of one thread in lane 0, with 33 register pages. -/
def wideGroup : Group := freshGroup 0 0 0 1 0 (List.range 33)

/-- The group ready to issue, with nothing in flight: page 0 of its context is cached for every access, and line 0 is in M in the L1 of
its core. -/
def wideState : State :=
  let s := State.reset.wr F.XLT_CTX_EN 1 1
  { s with
    thr := { s.thr with blocks := [(0, wideBlock)], groups := [(⟨0, 0⟩, wideGroup)] }
    cmd := { s.cmd with cmds := [(⟨1, 0, 0⟩, wideCmd)] }
    xlt := { s.xlt with tlbs := [⟨.micro 0, 1, 0, 1, 0, true, true, true, false, [0], 0⟩] }
    coh := { s.coh with l1 := [(⟨0, 0⟩, ⟨.M, 0, false, none, false, false⟩)] } }

/-- The group may issue an instruction that names register 256, the first of its page 32. -/
theorem issues_wide : wideState.Issues ⟨0, 0⟩ wideGroup wideBlock wideCmd [256, 3, 4, 5] := by
  unfold State.Issues
  decide +kernel

theorem rfKey_wide : wideState.rfKey 0 (wideGroup.homeSlot ⟨0, 0⟩ 0) 256 0 = ⟨0, 32, 0, 0⟩ := by decide +kernel

/-- Register 256 of lane 0 has not been written in a state that does not list it. -/
theorem not_wroteReg_wide {t : State} (h : aget t.thr.rf ⟨0, 32, 0, 0⟩ = none) (v : Nat → W32) :
    ¬ WroteReg wideState t ⟨0, 0⟩ wideGroup 256 v := by
  intro hwrote
  have hkey := hwrote ⟨0, 32, 0, 0⟩
  rw [h, if_pos ⟨by decide, by decide, rfKey_wide.symm⟩] at hkey
  cases hkey

/-- Refutes O27: a group with 33 register pages loads from aligned scratch to its register 256, which stays as it was. -/
theorem not_scratchAccesses : ¬ Obligations.ScratchAccesses := by
  rintro ⟨hload, -⟩
  have hissues : wideState.Issues ⟨0, 0⟩ wideGroup wideBlock wideCmd (regRun 256 1 ++ [3]) := issues_wide.mono (by decide)
  obtain ⟨t, hexec, hwrote, -⟩ := (hload _ _ _ _ _ _ _ (.ld ⟨0, 0⟩ 256 3 4 .scr .none) hissues (.inl rfl) (by decide +kernel)
    (by decide +kernel) rfl).1 (by decide +kernel)
  have ht : wideState.load ⟨0, 0⟩ .grp false 256 3 4 .scr .none = t := Host.Outcome.next.inj hexec
  have hlost : aget (wideState.load ⟨0, 0⟩ .grp false 256 3 4 .scr .none).thr.rf ⟨0, 32, 0, 0⟩ = none := by decide +kernel
  exact not_wroteReg_wide (ht ▸ hlost) _ hwrote

/-- Refutes O28: the old value of an atomic whose destination is register 256 is not returned. -/
theorem not_scratchAtomics : ¬ Obligations.ScratchAtomics := by
  rintro ⟨hatom, -⟩
  obtain ⟨t, hexec, hwrote, -⟩ := hatom _ _ _ _ _ .uint32 .rlx .blk 256 3 4 5 0 (.atomAdd ⟨0, 0⟩ .uint32 .rlx .blk .scr 256 3 4) aAdd
    (.inl ⟨rfl, rfl⟩) issues_wide rfl rfl (by decide +kernel) (by decide +kernel) rfl (by decide) (by decide) (by decide +kernel)
    (by decide) (by decide +kernel)
  have ht : wideState.atom ⟨0, 0⟩ aAdd .uint32 .rlx .blk .scr 256 3 4 none = t := Host.Outcome.next.inj hexec
  have hlost : aget (wideState.atom ⟨0, 0⟩ aAdd .uint32 .rlx .blk .scr 256 3 4 none).thr.rf ⟨0, 32, 0, 0⟩ = none := by decide +kernel
  exact not_wroteReg_wide (ht ▸ hlost) _ hwrote

/-- Refutes O29: a load of a line that the L1 holds in M, to register 256, writes no register. -/
theorem not_deviceAccesses : ¬ Obligations.DeviceAccesses := by
  rintro ⟨-, hload, -⟩
  have hissues : wideState.Issues ⟨0, 0⟩ wideGroup wideBlock wideCmd (regRun 256 1 ++ [3, 3 + 1]) := issues_wide.mono (by decide)
  obtain ⟨t, hexec, hwrote, -⟩ := hload _ _ _ _ _ 256 3 0 0 0 ⟨.micro 0, 1, 0, 1, 0, true, true, true, false, [0], 0⟩
    ⟨.M, 0, false, none, false, false⟩ hissues (by decide +kernel) (by decide +kernel) rfl (by decide) (by decide) (by decide +kernel)
    (by decide) (by decide) (by decide +kernel) (by decide +kernel) (by decide +kernel) rfl (by decide) rfl (by decide +kernel) rfl rfl
    (by decide +kernel)
  have ht : wideState.load ⟨0, 0⟩ .grp false 256 3 4 .dev .none = t := Host.Outcome.next.inj hexec
  have hlost : aget (wideState.load ⟨0, 0⟩ .grp false 256 3 4 .dev .none).thr.rf ⟨0, 32, 0, 0⟩ = none := by decide +kernel
  exact not_wroteReg_wide (ht ▸ hlost) _ hwrote

end Sys2Proof.Machine
end

section
/-! SUPPORT. The pipes of a matrix engine: starts, advances, result rows, element-wise completions, the ramp and MWAIT
(05_matrix_engines.md R109, R110, R113, R116, R118, R119, R123, R126). -/

namespace Sys2Proof.Machine

open Sys2Proof

/-! ### Elements of the accumulator memory (R104) -/

theorem mget_append {α : Type} (m n : List (Nat × α)) (a : Nat) : mget (m ++ n) a = (mget m a).or (mget n a) := by
  induction m with
  | nil => rfl
  | cons e r ih =>
    obtain ⟨k, v⟩ := e
    by_cases hk : k = a
    · simp [mget, hk]
    · simp [mget, hk, ih]

/-- Elements listed from index `b` on, the zero ones left out. -/
def listedFrom (b : Nat) (v : Nat → W32) (l : List Nat) : List (Nat × W32) :=
  l.filterMap (fun k => if v k == 0#32 then none else some (b + k, v k))

theorem listedFrom_cons (b : Nat) (v : Nat → W32) (k : Nat) (l : List Nat) :
    listedFrom b v (k :: l) = if v k = 0#32 then listedFrom b v l else (b + k, v k) :: listedFrom b v l := by
  by_cases hv : v k = 0#32
  · simp [listedFrom, hv]
  · simp [listedFrom, hv]

theorem mget_listedFrom_outside {b a : Nat} (v : Nat → W32) (l : List Nat) (h : ∀ k ∈ l, b + k ≠ a) :
    mget (listedFrom b v l) a = none := by
  induction l with
  | nil => rfl
  | cons k l ih =>
    obtain ⟨hk, hl⟩ := List.forall_mem_cons.mp h
    rw [listedFrom_cons]
    split
    · exact ih hl
    · rw [mget, if_neg hk, ih hl]

theorem mget_listedFrom {b c : Nat} (v : Nat → W32) {l : List Nat} (h : c ∈ l) : (mget (listedFrom b v l) (b + c)).getD 0 = v c := by
  induction l with
  | nil => cases h
  | cons k l ih =>
    rw [listedFrom_cons]
    by_cases hk : k = c
    · subst hk
      split
      next hv =>
        by_cases hin : k ∈ l
        · exact ih hin
        · rw [mget_listedFrom_outside v l (fun j hj heq => hin (by rwa [← Nat.add_left_cancel heq])), hv]
          rfl
      next => rw [mget, if_pos rfl]; rfl
    · have hin : c ∈ l := (List.mem_cons.mp h).resolve_left (Ne.symm hk)
      split
      · exact ih hin
      · rw [mget, if_neg (by omega), ih hin]

theorem accIdx_inj {t i j t' i' j' : Nat} (hi : i < 32) (hj : j < 32) (hi' : i' < 32) (hj' : j' < 32) :
    accIdx t i j = accIdx t' i' j' ↔ t = t' ∧ i = i' ∧ j = j' := by
  unfold accIdx
  omega

theorem Engine.elem_put (e : Engine) (t i j : Nat) (v : W32) (t' i' j' : Nat) :
    (e.put t i j v).elem t' i' j' = if accIdx t i j = accIdx t' i' j' then v else e.elem t' i' j' := by
  simp only [Engine.elem, Engine.put]
  by_cases h : accIdx t i j = accIdx t' i' j'
  · rw [if_pos h, ← h]
    split
    next hv => rw [mget_mdel_self]; exact (eq_of_beq hv).symm
    next => rw [mget_mput_self]; rfl
  · rw [if_neg h]
    split
    next => rw [mget_mdel_ne _ h]
    next => rw [mget_mput_ne _ _ h]

theorem Engine.elem_of_acc {e e' : Engine} (h : e'.acc = e.acc) (t i j : Nat) : e'.elem t i j = e.elem t i j := by
  rw [Engine.elem, Engine.elem, h]

/-- A row written has its new values in its columns, and every other element is as it was. -/
theorem Engine.elem_putRow (e : Engine) {t i n : Nat} (f : Nat → W32) (hi : i < 32) (hn : n ≤ 32) (t' : Nat) {i' j : Nat} (hi' : i' < 32)
    (hj : j < 32) : (e.putRow t i n f).elem t' i' j = if t = t' ∧ i = i' ∧ j < n then f j else e.elem t' i' j := by
  induction n with
  | zero => simp [Engine.putRow]
  | succ n ih =>
    have hstep : e.putRow t i (n + 1) f = (e.putRow t i n f).put t i n (f n) := by
      simp [Engine.putRow, List.range_succ]
    rw [hstep, Engine.elem_put, ih (by omega)]
    simp only [accIdx_inj hi (show n < 32 by omega) hi' hj]
    by_cases hrow : t = t' ∧ i = i'
    · obtain ⟨rfl, rfl⟩ := hrow
      by_cases hjn : n = j
      · simp [hjn]
      · simp [hjn, show j < n + 1 ↔ j < n by omega]
    · have hne : ∀ p : Prop, ¬ (t = t' ∧ i = i' ∧ p) := fun _ ⟨ht, hi, _⟩ => hrow ⟨ht, hi⟩
      rw [if_neg (hne _), if_neg (hne _), if_neg (hne _)]

/-- The accumulator memory after a tile is written: below the tile and above it as before, its own elements listed anew. -/
theorem Engine.mget_setTile (e : Engine) (t : Nat) (f : Nat → Nat → W32) (a : Nat) : mget (e.setTile t f).acc a =
    ((if a < 1024 * t then mget e.acc a else none).or
      (mget (listedFrom (1024 * t) (fun k => f (k / 32) (k % 32)) (List.range 1024)) a)).or
      (if 1024 * t + 1024 ≤ a then mget e.acc a else none) := by
  have hacc : (e.setTile t f).acc = e.acc.filter (fun x => decide (x.1 < 1024 * t)) ++
      listedFrom (1024 * t) (fun k => f (k / 32) (k % 32)) (List.range 1024) ++
      e.acc.filter (fun x => decide (1024 * t + 1024 ≤ x.1)) := rfl
  have hbelow := mget_filter (fun a => decide (a < 1024 * t)) e.acc a
  have habove := mget_filter (fun a => decide (1024 * t + 1024 ≤ a)) e.acc a
  rw [hacc, mget_append, mget_append, hbelow, habove]
  simp only [decide_eq_true_eq]

/-- A tile written has its new values. -/
theorem Engine.elem_setTile_self (e : Engine) (t : Nat) (f : Nat → Nat → W32) {i j : Nat} (hi : i < 32) (hj : j < 32) :
    (e.setTile t f).elem t i j = f i j := by
  have hidx : accIdx t i j = 1024 * t + (32 * i + j) := Nat.add_assoc ..
  have hi' : (32 * i + j) / 32 = i := by omega
  have hj' : (32 * i + j) % 32 = j := by omega
  rw [Engine.elem, Engine.mget_setTile, hidx, if_neg (by omega), if_neg (by omega), Option.none_or, Option.or_none,
    mget_listedFrom _ (List.mem_range.mpr (by omega)), hi', hj']

/-- Another tile is as it was. -/
theorem Engine.elem_setTile_ne (e : Engine) {t t' : Nat} (h : t' ≠ t) (f : Nat → Nat → W32) {i j : Nat} (hi : i < 32) (hj : j < 32) :
    (e.setTile t f).elem t' i j = e.elem t' i j := by
  have hidx : accIdx t' i j = 1024 * t' + (32 * i + j) := Nat.add_assoc ..
  have hout : mget (listedFrom (1024 * t) (fun k => f (k / 32) (k % 32)) (List.range 1024)) (accIdx t' i j) = none := by
    refine mget_listedFrom_outside _ _ fun k hk => ?_
    have hlt := List.mem_range.mp hk
    omega
  rw [Engine.elem, Engine.elem, Engine.mget_setTile, hout, Option.or_none]
  rcases Nat.lt_or_gt_of_ne h with hlt | hgt
  · rw [if_pos (by omega), if_neg (by omega), Option.or_none]
  · rw [if_neg (by omega), if_pos (by omega), Option.none_or]

/-! ### Engines of a state -/

@[simp] theorem State.engine_setEngine_self (s : State) (k : MxKey) (e : Engine) : (s.setEngine k e).engine k = some e :=
  aget_aput_self _ _ _

theorem State.engine_of_mx {s t : State} (h : t.mx = s.mx) (k : MxKey) : t.engine k = s.engine k := by
  rw [State.engine, State.engine, h]

theorem State.engine_mxRamp (s : State) (k j : MxKey) : (s.mxRamp k).engine j = s.engine j := by unfold State.mxRamp; split <;> rfl

/-! ### Starts and advances -/

section
variable {s : State} {k : MxKey} {e : Engine}

/-- The free side port starts the oldest instruction of its kind, whose dependences are met (R113, R114). -/
theorem State.mxStart_side {i : MxIns} (he : s.engine k = some e) (hi : e.queue.find? (fun j => j.op.pipe == .side) = some i)
    (hmet : e.met i = true) (hready : s.mxReady i = true) (hfree : e.side = none) :
    s.mxStart k .side = s.setEngine k { e with queue := e.queue.erase i, side := some i } := by
  have hpipe : i.op.pipe = .side := by simpa using List.find?_some hi
  have hsplit : s.splitHolds e i = false := by
    unfold State.splitHolds
    split
    next h => rw [h] at hpipe; cases hpipe
    next => rfl
  simp [State.mxStart, he, hi, hmet, hready, hsplit, hfree]

/-- An advance between A rows reads nothing: it is made and counted (R118, R123). -/
theorem State.mxAdvance_between {r : MxRun} {b : Block} {acc : Bool} {sp t sh : Nat} {d : TDesc} (he : s.engine k = some e)
    (hb : s.block e.bid = some b) (hr : e.array = [r]) (hop : r.ins.op = .mma acc sp t sh d)
    (hlevel : (aget s.mx.made k).getD 0 < 2 * (aget s.mx.level k).getD 0) (hleft : r.advanced < s.advancesOf r.ins)
    (hrows : d.rows ≤ r.advanced / advPerRow (s.mxMode r.ins) d.fmt) (hwaits : s.mxWaits k .array = false) :
    s.mxAdvance k = ((s.madeOne k).setEngine k
      { e with got := adel e.got .array, array := [{ r with advanced := r.advanced + 1 }] }).tallyCtx k.core r.ins.cmd.ctx 0x022 1 := by
  simp [State.mxAdvance, Nat.not_le.mpr hlevel, he, hr, hleft, hop, hb, hwaits, Nat.not_lt.mpr hrows]

/-! ### Result rows (R119, R126) -/

/-- The check of the accumulators finds nothing where no check has an error to find. -/
theorem State.accCheck_of_nil (h : s.finds = []) (core : Nat) (reads : Bool) : s.accCheck core reads = (false, s) := by
  simp [State.accCheck, State.takeFind_nil, h]

/-- The one row that waits in the array, its check passed, is added into its tile. -/
theorem State.mxRowAdd_ok {r : MxRun} {acc : Bool} {sp t sh row : Nat} {d : TDesc} {data scales : List Byte} (he : s.engine k = some e)
    (hr : e.array = [r]) (hop : r.ins.op = .mma acc sp t sh d) (hrow : r.rows = [(row, data, scales)])
    (hdone : rowDoneAt (s.mxMode r.ins) sp d.fmt row ≤ r.advanced) (hfinds : s.finds = []) :
    s.mxRowAdd k true = s.setEngine k { e.putRow t row r.cells.rows (fun j =>
      rowElem (s.mxMode r.ins) acc sp d r.cells data scales (e.elem t row j) j) with
        array := [{ r with rows := [], added := r.added ++ [row] }] } := by
  simp [State.mxRowAdd, State.accCheck_of_nil hfinds, he, hr, hop, hrow, hdone]

/-- A first failure: the pass starts over, and the replay is counted. -/
theorem State.mxRowAdd_fails {r : MxRun} {acc : Bool} {sp t sh row : Nat} {d : TDesc} {data scales : List Byte} (he : s.engine k = some e)
    (hr : e.array = [r]) (hop : r.ins.op = .mma acc sp t sh d) (hrow : r.rows = [(row, data, scales)])
    (hdone : rowDoneAt (s.mxMode r.ins) sp d.fmt row ≤ r.advanced) (hagain : r.again = false) :
    s.mxRowAdd k false = (((((s.setEngine k { e with array := [{ r with rows := [], advanced := 0, again := true }] }).mxRamp k).modCmd
      r.ins.cmd (fun c => { c with replayed := true })).countReplay (k.core / 8)).tallyCtx k.core r.ins.cmd.ctx 0x047 1) := by
  simp [State.mxRowAdd, he, hr, hop, hrow, hdone, hagain]

/-! ### Element-wise work (R110) -/

/-- An access to no run stops nowhere. -/
theorem State.mxStop_nil (s : State) (k : MxKey) (i : MxIns) (acc : Nat) : s.mxStop k i acc [] = (s, false) := by
  simp [State.mxStop, State.mxFill]

/-- A read of no run asks the cluster cache for nothing. -/
theorem State.mxAsk_nil {i : MxIns} (he : s.engine k = some e) :
    s.mxAsk k i [] = (s.setEngine k { e with got := adel e.got i.op.pipe }, true) := by
  simp [State.mxAsk, he, State.mxGrant]

/-- An engine whose side port has completed an element-wise instruction: tile `t` is written, and marked as what it read was
(R110, R125). -/
def Engine.ewResult (e : Engine) (md : ArMode) (op : Nat) (ty : MewTy) (t v : Nat) (sc sb : W32) : Engine :=
  { e.setTile t (fun i j => mewElem md op ty (e.elem t i j) (e.elem v i j) sc sb) with side := none, got := adel e.got .side }.mark t
    ((op != 0 && op != 1 && e.marked t) || ((op == 1 || op == 2 || op == 3) && e.marked v))

theorem Engine.ewResult_acc (e : Engine) (md : ArMode) (op : Nat) (ty : MewTy) (t v : Nat) (sc sb : W32) :
    (e.ewResult md op ty t v sc sb).acc = (e.setTile t (fun i j => mewElem md op ty (e.elem t i j) (e.elem v i j) sc sb)).acc := rfl

theorem Engine.elem_ewResult_self (e : Engine) (md : ArMode) (op : Nat) (ty : MewTy) (t v : Nat) (sc sb : W32) {i j : Nat} (hi : i < 32)
    (hj : j < 32) : (e.ewResult md op ty t v sc sb).elem t i j = mewElem md op ty (e.elem t i j) (e.elem v i j) sc sb :=
  (Engine.elem_of_acc (e.ewResult_acc md op ty t v sc sb) t i j).trans (e.elem_setTile_self t _ hi hj)

theorem Engine.elem_ewResult_ne (e : Engine) (md : ArMode) (op : Nat) (ty : MewTy) {t t' : Nat} (v : Nat) (sc sb : W32) (h : t' ≠ t)
    {i j : Nat} (hi : i < 32) (hj : j < 32) : (e.ewResult md op ty t v sc sb).elem t' i j = e.elem t' i j :=
  (Engine.elem_of_acc (e.ewResult_acc md op ty t v sc sb) t' i j).trans (e.elem_setTile_ne h _ hi hj)

/-- An element-wise instruction without an operand in memory completes at once. -/
theorem State.mxComplete_ew {b : Block} {i : MxIns} {op : Nat} {ty : MewTy} {t v : Nat} {sc sb : W32} (he : s.engine k = some e)
    (hb : s.block e.bid = some b) (hi : e.side = some i) (hop : i.op = .ew op ty t v sc sb noDesc) (hbias : op ≠ 5)
    (hwaits : s.mxWaits k .side = false) (hfinds : s.finds = []) :
    s.mxComplete k .side =
      (s.setEngine k { e with got := adel e.got .side }).bump.setEngine k (e.ewResult (s.mxMode i) op ty t v sc sb) := by
  have hpipe : i.op.pipe = .side := by rw [hop]; rfl
  have hfinds' : (s.setEngine k { e with got := adel e.got .side }).finds = [] := hfinds
  have hdone : s.ewDone k e i b op ty t v sc sb noDesc =
      (s.setEngine k { e with got := adel e.got .side }).bump.setEngine k (e.ewResult (s.mxMode i) op ty t v sc sb) := by
    simp only [State.ewDone, if_neg hbias, State.mxStop_nil, State.mxAsk_nil he, hpipe, State.accCheck_of_nil hfinds', State.mxOor,
      List.foldl_nil, List.any_nil, Bool.or_false, Bool.false_or]
    rfl
  simp [State.mxComplete, he, hb, hi, hop, hwaits, hdone]

/-! ### The ramp (R123) -/

/-- Below the cap, and with no droop to keep it, the level of an array that has work rises by one quarter. -/
theorem State.rampStep_rises {l : Nat} (hl : aget s.mx.level k = some l) (he : s.engine k = some e) (hcalm : aget s.mx.calm k = none)
    (hcap : l < s.mxCap) (hwork : s.arrayFree e = false) :
    s.rampStep k = { s with mx := { s.mx with
      level := aput s.mx.level k (l + 1), calm := adel s.mx.calm k, made := adel s.mx.made k } } := by
  have hmin : min s.mxCap (l + 1) = l + 1 := Nat.min_eq_right hcap
  have hcap' : ∀ m, ({ s with mx := m } : State).mxCap = s.mxCap := fun _ => rfl
  simp [State.rampStep, hl, he, hcalm, hcap', hwork, hmin, Nat.not_lt.mpr hcap.le]

/-- The level of an array without work falls by one quarter. -/
theorem State.rampStep_falls {l : Nat} (hl : aget s.mx.level k = some l) (he : s.engine k = some e) (hcalm : aget s.mx.calm k = none)
    (hwork : s.arrayFree e = true) (hpos : 0 < l) :
    s.rampStep k = { s with mx := { s.mx with
      level := aput s.mx.level k (l - 1), calm := adel s.mx.calm k, made := adel s.mx.made k } } := by
  simp [State.rampStep, hl, he, hcalm, hwork, hpos.ne']

end

/-! ### MWAIT (R116) -/

/-- MWAIT leaves its group waiting for what it issued before. -/
theorem State.Issues.mwaitOp {s : State} {g : Gid} {x : Group} {b : Block} {c : Cmd} (h : s.Issues g x b c []) (m0 m1 : Bool) :
    ∃ t, s.AtIssue g x t ∧
      s.mwaitOp g m0 m1 = t.modGroup g (fun y => { y with wait := .mwait m0 m1 s.thr.serial, pc := Config.nextPc y.pc }) :=
  ⟨s.issued g true false, State.atIssue_issued h.group true false, h.issue _⟩

/-- A group that waits becomes ready unless a named engine owes it an instruction. -/
theorem State.mwaitOver_of_wait {s : State} {g : Gid} {x : Group} {m0 m1 : Bool} {n : Nat} (hg : s.group g = some x)
    (hw : x.wait = .mwait m0 m1 n) : s.mwaitOver g =
      if (m0 && s.mxOwes g 0 n) || (m1 && s.mxOwes g 1 n) then s else s.setGroup g { x with wait := .ready } := by
  simp only [State.mwaitOver, hg, hw, State.modGroup_of_group _ hg]

/-! ### The statement -/

/-- Settles O31: each clause is the equation of its command, and a read of the engine, the tile or the group that it leaves. -/
theorem matrixPipes : Obligations.MatrixPipes := by
  refine ⟨?start, ?advance, ?rowAdd, ?elementWise, ?ramp, ?mwait, ?satisfied⟩
  case start =>
    intro s core mx e i he hi hmet hready hfree
    exact congrArg Host.Outcome.next (State.mxStart_side he hi hmet hready hfree)
  case advance =>
    intro s core mx e r b acc sp t sh d he hb hr hop hlevel hleft hrows hwaits
    have hkept := State.bookkept_tallyCtx ((s.madeOne ⟨core, mx⟩).setEngine ⟨core, mx⟩
      { e with got := adel e.got .array, array := [{ r with advanced := r.advanced + 1 }] }) core r.ins.cmd.ctx 0x022 1
    refine ⟨_, congrArg Host.Outcome.next (State.mxAdvance_between he hb hr hop hlevel hleft hrows hwaits), ?_, ?_, hkept.mem⟩
    · exact (State.engine_of_mx hkept.mx _).trans (State.engine_setEngine_self _ _ _)
    · rw [hkept.mx]
      exact aget_aput_self _ _ _
  case rowAdd =>
    intro s core mx e r acc sp t sh row d data scales he hr hop hrow hlt hdone hcols hfinds
    refine ⟨⟨_, congrArg Host.Outcome.next (State.mxRowAdd_ok he hr hop hrow hdone hfinds), _, State.engine_setEngine_self _ _ _, rfl,
      fun j hj => ?_, fun t' i j hj hi hne => ?_, rfl, rfl, rfl⟩, fun hagain => ?_⟩
    · exact (e.elem_putRow _ hlt hcols t hlt (by omega)).trans (if_pos ⟨rfl, rfl, hj⟩)
    · refine (e.elem_putRow _ hlt hcols t' hi hj).trans (if_neg ?_)
      rintro ⟨rfl, rfl, -⟩
      exact hne rfl
    · refine ⟨_, congrArg Host.Outcome.next (State.mxRowAdd_fails he hr hop hrow hdone hagain),
        { e with array := [{ r with rows := [], advanced := 0, again := true }] }, ?_, rfl, rfl⟩
      refine (State.engine_of_mx (State.bookkept_tallyCtx _ _ _ _ _).mx _).trans ?_
      exact (State.engine_mxRamp _ _ _).trans (State.engine_setEngine_self _ _ _)
  case elementWise =>
    intro s core mx e b i op ty t v sc sb he hb hi hop hbias hwaits _ hfinds
    exact ⟨_, congrArg Host.Outcome.next (State.mxComplete_ew he hb hi hop hbias hwaits hfinds), _, State.engine_setEngine_self _ _ _,
      rfl, fun j k hj hk => e.elem_ewResult_self _ op ty t v sc sb hj hk,
      fun t' j k hj hk hne => e.elem_ewResult_ne _ op ty v sc sb hne hj hk, rfl, rfl, rfl⟩
  case ramp =>
    intro s core mx l e hl he hcalm hcap
    refine ⟨fun hwork => ⟨_, congrArg Host.Outcome.next (State.rampStep_rises hl he hcalm hcap hwork), ?_⟩,
      fun hwork hpos => ⟨_, congrArg Host.Outcome.next (State.rampStep_falls hl he hcalm hwork hpos), ?_⟩⟩ <;>
      exact ⟨aget_aput_self _ _ _, rfl, rfl, rfl⟩
  case mwait =>
    intro s g x b c m0 m1 hissues
    obtain ⟨t, ht, hexec⟩ := hissues.mwaitOp m0 m1
    refine ⟨_, congrArg Host.Outcome.next hexec,
      ⟨{ x.issuing with wait := .mwait m0 m1 s.thr.serial, pc := Config.nextPc x.pc }, ?_, rfl, rfl, rfl⟩,
      fun h hne => ?_, ht.onlyThreads.trans (t.onlyThreads_modGroup g g _)⟩
    · rw [State.group_modGroup_self, ht.group_self]
      rfl
    · exact (t.group_modGroup_ne _ hne).trans (ht.group_ne hne)
  case satisfied =>
    intro s g x m0 m1 n hg hw
    have hover := State.mwaitOver_of_wait hg hw
    refine ⟨fun ⟨h0, h1⟩ => congrArg Host.Outcome.next (hover.trans (if_neg ?_)),
      fun hm howes => congrArg Host.Outcome.next (hover.trans (if_pos ?_))⟩
    · rw [Bool.or_eq_true, Bool.and_eq_true, Bool.and_eq_true]
      rintro (⟨hm, howes⟩ | ⟨hm, howes⟩)
      · rw [h0 hm] at howes; cases howes
      · rw [h1 hm] at howes; cases howes
    · rw [hm, howes]; rfl

end Sys2Proof.Machine
end

section
/-! SUPPORT. What a dirty error of a cluster cache (09_caches.md R207), with the aborts and the quarantine that follow it
(17_fault_tolerance.md R346, R349, R355), can add: no armed capture and no line of a cluster cache. -/

namespace Sys2Proof.Machine

open Sys2Proof

/-! ### Neither a capture nor a line of a cluster cache is added -/

/-- The keys of the lines that the cluster caches hold. -/
def State.ccKeys (s : State) : List UL := s.coh.cc.map Prod.fst

theorem mem_keys_of_aget {κ α : Type} [DecidableEq κ] {m : List (κ × α)} {k : κ} {v : α} (h : aget m k = some v) :
    k ∈ m.map Prod.fst := by
  induction m with
  | nil => cases h
  | cons e r ih =>
    obtain ⟨a, w⟩ := e
    by_cases ha : a = k
    · simp [ha]
    · exact List.mem_cons_of_mem _ (ih (by simpa [aget, ha] using h))

theorem keys_aput_subset {κ α : Type} [DecidableEq κ] {m : List (κ × α)} {l : List κ} {k : κ} (v : α)
    (h : m.map Prod.fst ⊆ l) (hk : k ∈ l) : (aput m k v).map Prod.fst ⊆ l := by
  induction m with
  | nil => simpa [aput] using hk
  | cons e r ih =>
    obtain ⟨a, w⟩ := e
    obtain ⟨ha, hr⟩ : a ∈ l ∧ r.map Prod.fst ⊆ l := by simpa using h
    unfold aput
    split
    · simpa using ⟨hk, hr⟩
    · simpa using ⟨ha, ih hr⟩

theorem State.mem_ccKeys {s : State} {cl ln : Nat} {x : CcLine} (h : s.ccLine cl ln = some x) : ⟨cl, ln⟩ ∈ s.ccKeys :=
  mem_keys_of_aget h

theorem State.ccLine_eq_none {s : State} {cl ln : Nat} (h : ⟨cl, ln⟩ ∉ s.ccKeys) : s.ccLine cl ln = none :=
  Option.eq_none_iff_forall_ne_some.mpr (fun _ hx => h (State.mem_ccKeys hx))

/-- No capture is armed and no cluster cache gains a line. -/
structure State.AddsNone (s t : State) : Prop where
  armed : s.dbg.armed = [] → t.dbg.armed = []
  keys : t.ccKeys ⊆ s.ccKeys

theorem State.AddsNone.of_eq {s t : State} (ha : t.dbg.armed = s.dbg.armed) (hc : t.coh.cc = s.coh.cc) : s.AddsNone t :=
  ⟨ha.trans, by rw [State.ccKeys, hc]; exact List.Subset.refl _⟩

theorem State.AddsNone.refl (s : State) : s.AddsNone s := .of_eq rfl rfl

theorem State.AddsNone.trans {s t u : State} (h : s.AddsNone t) (k : t.AddsNone u) : s.AddsNone u :=
  ⟨fun e => k.armed (h.armed e), List.Subset.trans k.keys h.keys⟩

theorem State.AddsNone.keep {s t u : State} (h : s.AddsNone t) (ha : u.dbg.armed = t.dbg.armed) (hc : u.coh.cc = t.coh.cc) : s.AddsNone u :=
  h.trans (.of_eq ha hc)

theorem State.AddsNone.ite {s a b : State} {c : Prop} [Decidable c] (h : s.AddsNone a) (k : s.AddsNone b) :
    s.AddsNone (if c then a else b) := by split <;> assumption

theorem State.AddsNone.foldl {α : Type} {s t : State} (h : s.AddsNone t) (f : State → α → State)
    (hf : ∀ (s : State) (a : α), s.AddsNone (f s a)) (l : List α) : s.AddsNone (l.foldl f t) :=
  List.foldlRecOn l f h (fun _ hu a _ => hu.trans (hf _ a))

theorem State.AddsNone.setCc {s t : State} (h : s.AddsNone t) {cl ln : Nat} (x : CcLine) (hk : ⟨cl, ln⟩ ∈ s.ccKeys) :
    s.AddsNone (t.setCc cl ln x) := ⟨h.armed, keys_aput_subset x h.keys hk⟩

theorem State.AddsNone.delCc {s t : State} (h : s.AddsNone t) (cl ln : Nat) : s.AddsNone (t.delCc cl ln) :=
  ⟨h.armed, List.Subset.trans (List.filter_sublist.map Prod.fst).subset h.keys⟩

/-- An update of the caches that filters the lines of the cluster caches. -/
theorem State.AddsNone.filterCc {s t u : State} (h : s.AddsNone t) (p : UL × CcLine → Bool) (ha : u.dbg.armed = t.dbg.armed)
    (hc : u.coh.cc = t.coh.cc.filter p) : s.AddsNone u :=
  h.trans ⟨ha.trans, by rw [State.ccKeys, hc]; exact (List.filter_sublist.map Prod.fst).subset⟩

/-- An update of the caches that changes lines of the cluster caches in place. -/
theorem State.AddsNone.mapCc {s t u : State} (h : s.AddsNone t) (f : UL × CcLine → UL × CcLine) (hf : ∀ e, (f e).1 = e.1)
    (ha : u.dbg.armed = t.dbg.armed) (hc : u.coh.cc = t.coh.cc.map f) : s.AddsNone u := by
  refine h.trans ⟨ha.trans, ?_⟩
  have hkeys : Prod.fst ∘ f = Prod.fst := funext hf
  rw [State.ccKeys, hc, List.map_map, hkeys, State.ccKeys]
  exact List.Subset.refl _

theorem State.addsNone_rcv (s : State) (r : RcvSt) : s.AddsNone { s with rcv := r } := .of_eq rfl rfl

theorem State.addsNone_coh (s : State) (c : CohSt) (h : c.cc = s.coh.cc) : s.AddsNone { s with coh := c } := .of_eq rfl h

/-! #### Registers, memory and counts -/

theorem State.AddsNone.wr {s t : State} (h : s.AddsNone t) (f : Fld) (v i j : Nat) : s.AddsNone (t.wr f v i j) := h.keep rfl rfl

theorem State.AddsNone.incSat {s t : State} (h : s.AddsNone t) (f : Fld) (i j : Nat) : s.AddsNone (t.incSat f i j) := h.keep rfl rfl

theorem State.AddsNone.raise {s t : State} (h : s.AddsNone t) (n : Nat) : s.AddsNone (t.raise n) := h.keep (by simp) (by simp)

theorem State.addsNone_wrBytes (s : State) (k pa : Nat) (bs : List Byte) : s.AddsNone (s.wrBytes k pa bs) := by
  have hlines (n : Nat) : ∀ (s : State) (pa : Nat) (bs : List Byte), s.AddsNone (State.wrLines k n s pa bs) := by
    induction n with
    | zero => exact fun s _ _ => .refl s
    | succ n ih =>
      intro s pa bs
      have hline : s.AddsNone (s.wrLine k (pa / 128) (pa % 128) (bs.take (128 - pa % 128))) := .ite (.refl s) (.of_eq rfl rfl)
      exact .ite (.refl s) (hline.trans (ih _ _ _))
  exact hlines _ s pa bs

theorem State.AddsNone.wrNat {s t : State} (h : s.AddsNone t) (k pa n v : Nat) : s.AddsNone (t.wrNat k pa n v) :=
  h.trans (t.addsNone_wrBytes k pa _)

theorem State.addsNone_ledFire (s : State) (d : Nat) : s.AddsNone (s.ledFire d) := by
  unfold State.ledFire
  have hdisarmed : s.AddsNone (s.bump.wr F.LED_TRIG_ARMED 0 d) := .of_eq rfl rfl
  have htaken (l : Led) : s.AddsNone (((s.bump.wr F.LED_TRIG_ARMED 0 d).setLed d l).ledBusy d) := .of_eq rfl rfl
  exact .ite (.refl s) (.ite hdisarmed (.ite (((htaken _).wr F.LED_PTR_DONE _ d 0).raise _) (htaken _)))

theorem State.addsNone_counterWrap (s : State) (d i j : Nat) : s.AddsNone (s.counterWrap d i j) := by
  unfold State.counterWrap
  extract_lets n counted tal noted raised
  have hnoted : s.AddsNone noted := .of_eq rfl rfl
  have hraised : s.AddsNone raised := .ite (hnoted.raise _) hnoted
  exact .ite (hraised.trans (raised.addsNone_ledFire d)) hraised

theorem State.addsNone_addCount (s : State) (d i j v : Nat) : s.AddsNone (s.addCount d i j v) :=
  have hcounted := (State.AddsNone.refl s).wr F.TAL_CNT_VALUE (s.rd F.TAL_CNT_VALUE (talSet d i) j + v) (talSet d i) j
  .ite (hcounted.trans (State.addsNone_counterWrap _ d i j)) hcounted

theorem State.addsNone_tally (s : State) (d i code v : Nat) (e : Ev) : s.AddsNone (s.tally d i code v e) := by
  have hedge (s : State) (n j v : Nat) : s.AddsNone (s.edgeCount n j v).1 := by
    unfold State.edgeCount
    split
    · exact .refl s
    · split <;> exact .of_eq rfl rfl
  unfold State.tally
  extract_lets n tal noted
  have hnoted : s.AddsNone noted := .ite (.of_eq rfl rfl) (.refl s)
  exact .ite (.refl s) (hnoted.foldl _ (fun s j => (hedge s n j v).trans (State.addsNone_addCount _ _ _ _ _)) _)

theorem State.AddsNone.tallyCc {s t : State} (h : s.AddsNone t) (cl code cls : Nat) : s.AddsNone (t.tallyCc cl code cls) :=
  h.trans (t.addsNone_tally _ _ _ _ _)

/-! #### The abort of a context (12_shared_objects.md R256) -/

theorem State.addsNone_setCmd (s : State) (id : CmdId) (c : Cmd) : s.AddsNone (s.setCmd id c) := .of_eq rfl rfl

theorem State.addsNone_failCmd (s : State) (id : CmdId) (st : Nat) : s.AddsNone (s.failCmd id st) := .ite (.refl s) (.of_eq rfl rfl)

theorem State.addsNone_dropElig (s : State) (q : Nat) : s.AddsNone (s.dropElig q) := .ite (.refl s) (.of_eq rfl rfl)

theorem State.addsNone_endSend (s : State) (x st : Nat) : s.AddsNone (s.endSend x st) := by
  unfold State.endSend
  split
  · exact .refl s
  · exact .of_eq rfl rfl

theorem State.addsNone_endRecv (s : State) (k : Nat × Nat) (st : Nat) : s.AddsNone (s.endRecv k st) := by
  have hdrop : s.AddsNone (s.dropRecv k) := by
    unfold State.dropRecv
    split
    · exact .refl s
    · extract_lets fab xlt dropped
      have hdropped : s.AddsNone dropped := .of_eq rfl rfl
      exact .ite hdropped (hdropped.wrNat _ _ _ _)
  unfold State.endRecv
  split
  · exact .refl s
  · exact .ite (.refl s) (hdrop.trans (.of_eq rfl rfl))

theorem State.addsNone_dropBlocks (s : State) (p : Nat → Block → Bool) : s.AddsNone (s.dropBlocks p) := .of_eq rfl rfl

theorem State.addsNone_loseWork (s : State) (p : Block → Bool) : s.AddsNone (s.loseWork p) := by
  unfold State.loseWork
  exact ((State.AddsNone.refl s).foldl _ (fun _ _ => State.addsNone_tally _ _ _ _ _ _) _).trans (State.addsNone_dropBlocks _ _)

theorem State.addsNone_dropOps (s : State) (id : CmdId) : s.AddsNone (s.dropOps id) := .of_eq rfl rfl

theorem State.addsNone_dropRecvUpd (s : State) (c : Nat) : s.AddsNone (s.dropRecvUpd c) := .of_eq rfl rfl

theorem State.addsNone_dropXlt (s : State) (c : Nat) : s.AddsNone (s.dropXlt c) := .of_eq rfl rfl

theorem State.addsNone_setBlot (s : State) (c : Nat) (b : Blot) : s.AddsNone (s.setBlot c b) := .of_eq rfl rfl

theorem State.addsNone_abortOne (s : State) (st : Nat) (id : CmdId) : s.AddsNone (s.abortOne st id) := by
  unfold State.abortOne
  split
  · exact .refl s
  rename_i c _
  split
  case h_1 => exact .refl s
  case h_2 => exact (s.addsNone_setCmd _ _).trans (State.addsNone_dropElig _ _)
  case h_3 => exact (s.addsNone_setCmd _ _).trans (State.addsNone_dropElig _ _)
  case h_4 =>
    split
    case h_7 =>
      refine .ite (.refl s) ?_
      extract_lets sent dbg disarmed
      have hsent : s.AddsNone sent := by
        simp only [sent]
        split
        · exact s.addsNone_endSend _ _
        · exact .refl s
      have hdisarmed : sent.AddsNone disarmed := ⟨fun h => by simp [disarmed, h], List.Subset.refl _⟩
      have hlost := (hsent.trans hdisarmed).trans (disarmed.addsNone_loseWork (fun b => b.cmd == id))
      exact (hlost.trans (State.addsNone_dropOps _ id)).trans (State.addsNone_setCmd _ _ _)
    all_goals exact .of_eq rfl rfl

theorem State.addsNone_abortCmds (s : State) (st : Nat) (p : CmdId → Cmd → Bool) : s.AddsNone (s.abortCmds st p) :=
  (State.AddsNone.refl s).foldl _ (fun s id =>
    ((State.AddsNone.refl s).foldl _ (fun s k => s.addsNone_abortOne st k) _).trans (State.addsNone_abortOne _ st id)) _

theorem State.addsNone_closeQuire (s : State) (c : Nat) (irq : Bool) : s.AddsNone (s.closeQuire c irq) := by
  unfold State.closeQuire
  split
  · exact .refl s
  · extract_lets b marked closed headed filled
    have hmarked : s.AddsNone marked := (State.AddsNone.refl s).wrNat _ _ _ _
    have hfilled : s.AddsNone filled := ((hmarked.trans (marked.addsNone_setBlot _ _)).wr _ _ _ _).wr _ _ _ _
    exact .ite (hfilled.raise _) hfilled

theorem State.addsNone_dropQuires (s : State) (c : Nat) : s.AddsNone (s.dropQuires c) :=
  (s.addsNone_closeQuire c false).trans (State.addsNone_setBlot _ _ _)

theorem State.addsNone_cutEnd (s : State) (c : Nat) (x : Snap) : s.AddsNone (s.cutEnd c x) :=
  .ite (.refl s) (.ite (.of_eq rfl rfl) (.of_eq rfl rfl))

theorem State.addsNone_snapStop (s : State) (c err : Nat) : s.AddsNone (s.snapStop c err) := by
  have hoff : s.AddsNone (s.snapOff c 4) := by
    unfold State.snapOff
    split
    · exact .refl s
    · extract_lets rcv dropped ended
      have hdropped : s.AddsNone dropped := .of_eq rfl rfl
      have hended : s.AddsNone ended := hdropped.foldl _ (fun s k => s.addsNone_endSend k _) _
      exact (hended.trans (State.addsNone_cutEnd _ _ _)).wr _ _ _ _
  exact .ite (.refl s) ((hoff.wr _ _ _ _).raise _)

theorem State.addsNone_leavesLive (s : State) (c : Nat) : s.AddsNone (s.leavesLive c) :=
  have hdetach : s.AddsNone (s.detach c) := .of_eq rfl rfl
  have hdisable (s : State) (d : Nat) : s.AddsNone (s.ledDisable d) := .ite (.of_eq rfl rfl) (.refl s)
  (State.AddsNone.ite hdetach (.refl s)).foldl _ (fun s d => (hdisable s d).wr _ _ _ _) _

theorem State.addsNone_abortCtx (s : State) (c st : Nat) : s.AddsNone (s.abortCtx c st) := by
  unfold State.abortCtx
  extract_lets marked reported stamped obj syn emptied ended
  have hmarked : s.AddsNone marked := ((State.AddsNone.refl s).wr _ _ _ _).wr _ _ _ _
  have hstamped : s.AddsNone stamped := ((hmarked.wrNat _ _ _ _).wrNat _ _ _ _).trans (.of_eq rfl rfl)
  have hemptied : s.AddsNone emptied := hstamped.trans (.of_eq rfl rfl)
  have haborted := hemptied.trans (emptied.addsNone_abortCmds stAborted (fun id _ => id.ctx == c))
  have hended : s.AddsNone ended :=
    (haborted.trans (State.addsNone_dropRecvUpd _ c)).foldl _ (fun s k => s.addsNone_endRecv k stAborted) _
  have hquires := (hended.trans (ended.addsNone_dropQuires c)).trans (State.addsNone_dropXlt _ c)
  exact .ite (.refl s) ((hquires.trans (State.addsNone_snapStop _ c 6)).trans (State.addsNone_leavesLive _ c))

theorem State.addsNone_lossAbort (s : State) (st c : Nat) : s.AddsNone (s.lossAbort st c) := by
  unfold State.lossAbort
  refine State.AddsNone.trans ?_ (State.addsNone_abortCtx _ c st)
  exact (State.AddsNone.refl s).foldl _ (fun s (e : CmdId × Cmd) => s.addsNone_failCmd e.1 st) _

theorem State.addsNone_lossAborts (s : State) (st : Nat) (cs : List Nat) : s.AddsNone (s.lossAborts st cs) :=
  (State.AddsNone.refl s).foldl _ (fun s c => s.addsNone_lossAbort st c) cs

/-! #### The recovery log (17_fault_tolerance.md R355) -/

theorem State.addsNone_trigLog (s : State) : s.AddsNone s.trigLog := (State.AddsNone.refl s).foldl _ State.addsNone_ledFire _

theorem State.addsNone_logWrite (s : State) (r : Rec) : s.AddsNone (s.logWrite r) := by
  unfold State.logWrite
  split
  · exact .refl s
  · extract_lets h written
    have hwritten : s.AddsNone written := s.addsNone_wrBytes _ _ _
    split
    · exact (State.AddsNone.refl s).incSat _ _ _
    · exact ((hwritten.wr _ _ _ _).raise _).trans (State.addsNone_trigLog _)

theorem State.addsNone_closeLosses (s : State) : s.AddsNone s.closeLosses := by
  unfold State.closeLosses
  extract_lets closed rcv
  exact (s.addsNone_rcv _).foldl _ State.addsNone_logWrite _

/-! #### A quarantine for repeated containments (17_fault_tolerance.md R346) -/

theorem State.addsNone_cutLost (s : State) (cs : List Nat) : s.AddsNone (s.cutLost cs) := by
  unfold State.cutLost
  refine (State.AddsNone.refl s).foldl _ (fun s e => ?_) _
  obtain ⟨c, x⟩ := e
  exact ((s.addsNone_rcv _).trans (State.addsNone_cutEnd _ c x)).wr _ _ _ _

theorem State.addsNone_loseBlock (st : Nat) (s : State) (b : Block) : s.AddsNone (State.loseBlock st s b) := by
  unfold State.loseBlock
  split
  · exact .refl s
  · exact .ite (.refl s) (.ite (s.addsNone_setCmd _ _) (s.addsNone_setCmd _ _))

theorem State.addsNone_loseBlocks (s : State) (p : Block → Bool) (st : Nat) : s.AddsNone (s.loseBlocks p st).1 :=
  (s.addsNone_loseWork _).foldl _ (State.addsNone_loseBlock st) _

theorem State.sendInvs_cc (s : State) (cl ln : Nat) (p : BitVec 8) (b : Option Nat) : (s.sendInvs cl ln p b).coh.cc = s.coh.cc := by
  refine foldl_keeps _ (fun s : State => s.coh.cc) (fun s c => ?_) _ _
  simp only
  split <;> split <;> rfl

theorem State.sendInvs_dbg (s : State) (cl ln : Nat) (p : BitVec 8) (b : Option Nat) : (s.sendInvs cl ln p b).dbg = s.dbg := by
  refine foldl_keeps _ (fun s : State => s.dbg) (fun s c => ?_) _ _
  simp only
  split <;> split <;> rfl

theorem State.addsNone_sendInvs (s : State) (cl ln : Nat) (p : BitVec 8) (b : Option Nat) : s.AddsNone (s.sendInvs cl ln p b) :=
  .of_eq (by rw [s.sendInvs_dbg]) (s.sendInvs_cc cl ln p b)

theorem State.AddsNone.msgA {s t : State} (h : s.AddsNone t) (core ln : Nat) (m : AMsg) : s.AddsNone (t.msgA core ln m) := h.keep rfl rfl

theorem State.AddsNone.note {s t : State} (h : s.AddsNone t) (n : BNote) : s.AddsNone (t.note n) := h.keep rfl rfl

theorem State.AddsNone.sendB {s t : State} (h : s.AddsNone t) (m : BMsg) : s.AddsNone (t.sendB m) :=
  h.trans (.ite (.of_eq rfl rfl) (.of_eq rfl rfl))

theorem State.addsNone_serveCc (s : State) (cl ln : Nat) : s.AddsNone (s.serveCc cl ln) := by
  unfold State.serveCc
  split
  · exact .refl s
  rename_i x hx
  have hset (y : CcLine) : s.AddsNone (s.setCc cl ln y) := (State.AddsNone.refl s).setCc y (State.mem_ccKeys hx)
  split
  · exact .refl s
  · simp only
    split
    · exact (hset _).msgA _ _ _
    · exact .ite ((hset _).sendB _) (.ite ((hset _).msgA _ _ _) (.ite ((hset _).msgA _ _ _) ((hset _).sendB _)))

theorem State.addsNone_freeVictim (s : State) (cl ln : Nat) (x : CcLine) : s.AddsNone (s.freeVictim cl ln x) := by
  unfold State.freeVictim
  have hfreed := (s.addsNone_sendInvs cl ln x.pres none).delCc cl ln
  simp only
  split
  · exact hfreed.keep rfl rfl
  · exact hfreed

theorem State.addsNone_answerSnoop {s : State} {cl ln : Nat} (h : ⟨cl, ln⟩ ∈ s.ccKeys) (x : CcLine) (k : Snoop) (rcv : Nat) :
    s.AddsNone (s.answerSnoop cl ln x k rcv) := by
  unfold State.answerSnoop
  extract_lets y stay invalidated
  have hstay {t : State} (ht : s.AddsNone t) (st : BSt) (pres : BitVec 8) : s.AddsNone (stay t st pres) :=
    .ite (ht.trans (t.addsNone_freeVictim _ _ _)) (.ite (ht.delCc _ _) (ht.setCc _ h))
  have hinv := s.addsNone_sendInvs cl ln y.pres none
  split
  · exact (State.AddsNone.ite ((hstay (.refl s) _ _).note _) (hstay (.refl s) _ _)).note _
  · exact (State.AddsNone.ite ((hstay hinv _ _).note _) (hstay hinv _ _)).note _
  · exact (hstay hinv _ _).note _
  · exact (hstay hinv _ _).note _

theorem State.addsNone_gotRdata {s : State} {cl ln : Nat} (h : ⟨cl, ln⟩ ∈ s.ccKeys) (x : CcLine) (core : Nat) (dirty : Bool) :
    s.AddsNone (s.gotRdata cl ln x core dirty) := by
  unfold State.gotRdata
  extract_lets down y z
  split
  · exact (State.addsNone_answerSnoop h _ _ _).trans (State.addsNone_serveCc _ _ _)
  · exact ((State.AddsNone.refl s).setCc _ h).trans (State.addsNone_serveCc _ _ _)

theorem State.addsNone_dropCore (s : State) (core : Nat) (keep : Bool) : s.AddsNone (s.dropCore core keep) := by
  unfold State.dropCore
  extract_lets cl dirty waits fix coh emptied returned
  have hfix (e : UL × CcLine) : (fix e).1 = e.1 := by simp only [fix]; split <;> rfl
  have hemptied : s.AddsNone emptied := (State.AddsNone.refl s).mapCc fix hfix rfl rfl
  have hreturned : s.AddsNone returned := by
    refine hemptied.foldl _ (fun s ln => ?_) waits
    split
    · rename_i x hx
      exact State.addsNone_gotRdata (State.mem_ccKeys hx) _ _ _
    · exact .refl s
  exact hreturned.keep rfl rfl

theorem State.addsNone_flushMore (s : State) (cl : Nat) : s.AddsNone (s.flushMore cl) := by
  unfold State.flushMore
  extract_lets lines old
  refine List.foldlRecOn _ _ (State.AddsNone.refl s) (fun t ht e he => ?_)
  have hkey : ⟨cl, e.1⟩ ∈ s.ccKeys := by
    rcases List.mem_append.mp he with h | h
    · obtain ⟨v, -, hv⟩ := List.mem_filterMap.mp (List.mem_filter.mp h).1
      obtain ⟨x, hx, rfl⟩ := Option.map_eq_some_iff.mp hv
      exact State.mem_ccKeys hx
    · obtain ⟨d, hd, rfl⟩ := List.mem_map.mp h
      obtain ⟨hd, hunit⟩ := List.mem_filter.mp (List.mem_filter.mp hd).1
      have hcl : d.1.unit = cl := by simpa using (Bool.and_eq_true_iff.mp hunit).1
      exact hcl ▸ List.mem_map_of_mem hd
  exact .ite (((ht.setCc _ hkey).note _).tallyCc _ _ _) ht

theorem State.addsNone_flushCluster (s : State) (cl : Nat) : s.AddsNone (s.flushCluster cl) := by
  unfold State.flushCluster
  extract_lets dropped coh noted flushed
  have hdropped : s.AddsNone dropped := (State.AddsNone.refl s).foldl _ (fun s k => s.addsNone_dropCore k true) _
  clear_value dropped
  have hnoted : s.AddsNone noted := hdropped.trans (dropped.addsNone_coh _ rfl)
  have hflushed : noted.AddsNone flushed := by
    refine List.foldlRecOn _ _ (State.AddsNone.refl noted) (fun t ht e he => ?_)
    obtain ⟨d, hd, rfl⟩ := List.mem_map.mp he
    obtain ⟨hd, hunit⟩ := List.mem_filter.mp hd
    have hcl : d.1.unit = cl := by simpa using (Bool.and_eq_true_iff.mp hunit).1
    have hkey : ⟨cl, d.1.line⟩ ∈ noted.ccKeys := hcl ▸ List.mem_map_of_mem hd
    exact .ite ht (.ite (ht.delCc _ _) (ht.setCc _ hkey))
  have hover (s : State) : s.AddsNone (s.flushOver cl) := .ite (.refl s) (s.addsNone_coh _ rfl)
  exact ((hnoted.trans hflushed).trans (flushed.addsNone_flushMore cl)).trans (hover _)

theorem State.addsNone_gateSettle (s : State) : s.AddsNone s.gateSettle := by
  unfold State.gateSettle
  refine .ite (.refl s) ?_
  split
  extract_lets err pwr settled reported
  have hreported : s.AddsNone reported := .ite (.of_eq rfl rfl) (.of_eq rfl rfl)
  exact .ite (.of_eq rfl rfl) ((hreported.wr _ _ _ _).raise _)

theorem State.addsNone_clusterOff (s : State) (cl : Nat) : s.AddsNone (s.clusterOff cl) := by
  unfold State.clusterOff
  have hdom (s : State) (d : Nat) : s.AddsNone (s.setDom domOff d) := (State.AddsNone.refl s).wr _ _ _ _
  refine (State.AddsNone.foldl ?_ _ hdom _).trans (State.addsNone_gateSettle _)
  exact (State.AddsNone.refl s).filterCc (fun e => e.1.unit != cl) rfl rfl

theorem State.addsNone_unitsGone (s : State) (cl : Nat) : s.AddsNone (s.unitsGone cl) := .of_eq rfl rfl

theorem State.addsNone_rehome (s : State) (cl : Nat) : s.AddsNone (s.rehome cl) := s.addsNone_coh _ rfl

theorem State.addsNone_openRec (s : State) (r : Rec) : s.AddsNone (s.openRec r) := .of_eq rfl rfl

theorem State.addsNone_capFrom (s old : State) : s.AddsNone (s.capFrom old) := .ite (.refl s) (.of_eq rfl rfl)

theorem State.addsNone_giveDead (s : State) (a : Nat) : s.AddsNone (s.giveDead a) := .of_eq rfl rfl

theorem State.addsNone_quarantine (s : State) (cl cause : Nat) : s.AddsNone (s.quarantine cl cause) := by
  unfold State.quarantine
  extract_lets old mine marked left
  have hmarked : s.AddsNone marked :=
    ((((State.AddsNone.refl s).wr _ _ _ _).incSat _ _ _).raise _).trans (State.addsNone_unitsGone _ cl)
  have hleft : s.AddsNone left := hmarked.trans (marked.addsNone_cutLost _)
  refine .ite (.refl s) ?_
  split
  rename_i lost again failed hlost
  have hlosing := left.addsNone_loseBlocks mine stQuarantined
  rw [hlost] at hlosing
  have hlost : s.AddsNone lost := hleft.trans hlosing
  extract_lets fresh opened rcv listed dropped coh rehomed coh' discarded flushed rcv' ended
  have hlisted : s.AddsNone listed := (hlost.trans (lost.addsNone_openRec _)).trans (opened.addsNone_rcv _)
  have hdropped : s.AddsNone dropped := hlisted.foldl _ (fun s k => s.addsNone_dropCore k false) _
  have hdiscarded : rehomed.AddsNone discarded := rehomed.addsNone_coh _ rfl
  have hflushed : s.AddsNone flushed :=
    ((hlisted.trans (listed.addsNone_rehome cl)).trans hdiscarded).trans (discarded.addsNone_flushCluster cl)
  clear_value flushed dropped
  refine State.AddsNone.trans (.ite ?_ (.ite (hflushed.trans (flushed.addsNone_rcv _)) (hflushed.trans (flushed.addsNone_clusterOff cl))))
    (ended.addsNone_capFrom old)
  refine State.AddsNone.trans ?_ (State.addsNone_giveDead _ cl)
  exact hdropped.filterCc (fun e => e.1.unit != cl) rfl rfl

theorem State.addsNone_countContain (s : State) (cl : Nat) : s.AddsNone (s.countContain cl) := by
  unfold State.countContain
  extract_lets counted
  have hcounted : s.AddsNone counted := (State.AddsNone.refl s).incSat _ _ _
  exact .ite (hcounted.trans (counted.addsNone_quarantine cl _)) hcounted

/-! #### A dirty error (09_caches.md R207) -/

theorem State.addsNone_ccLog (s : State) (cl addr way core unit : Nat) (dirty : Bool) : s.AddsNone (s.ccLog cl addr way core unit dirty) :=
  .ite (.of_eq rfl rfl) (.of_eq rfl rfl)

theorem State.addsNone_partFatal (s : State) (cl : Nat) : s.AddsNone (s.partFatal cl) := by
  unfold State.partFatal
  extract_lets p cs n aborted r
  have haborted : s.AddsNone aborted := s.addsNone_lossAborts stPoison cs
  exact ((haborted.trans (State.addsNone_openRec _ _)).trans (State.addsNone_closeLosses _)).trans (State.addsNone_countContain _ _)

theorem State.addsNone_poisonLine (s : State) (ln : Nat) : s.AddsNone (s.poisonLine ln) := by
  refine (State.AddsNone.refl s).mapCc (fun e => if e.1.line == ln then (e.1, { e.2 with pk := .poison }) else e) (fun e => ?_) rfl rfl
  split <;> rfl

theorem State.not_mem_ccKeys_delCc (s : State) (cl ln : Nat) : ⟨cl, ln⟩ ∉ (s.delCc cl ln).ccKeys := by
  simp [State.ccKeys, State.delCc, adel]

/-- A dirty error arms no capture, and the line has left the cluster cache. -/
theorem State.dirtyError_gone (s : State) (cl ln way core unit : Nat) :
    s.AddsNone (s.dirtyError cl ln way core unit) ∧ (s.dirtyError cl ln way core unit).ccLine cl ln = none := by
  unfold State.dirtyError
  extract_lets logged here coh emptied poisoned left
  have hemptied : s.AddsNone emptied :=
    ((s.addsNone_ccLog _ _ _ _ _ _).incSat _ _ _).trans (logged.addsNone_coh _ rfl)
  have hleft : (emptied.delCc cl ln).AddsNone left := by
    have hpoisoned : (emptied.delCc cl ln).AddsNone poisoned := State.addsNone_poisonLine _ ln
    simp only [left]
    split
    · exact hpoisoned
    · split
      · exact hpoisoned
      · split
        · exact hpoisoned.trans (poisoned.addsNone_coh _ rfl)
        · split
          · exact hpoisoned.trans (poisoned.addsNone_coh _ rfl)
          · exact hpoisoned.trans (poisoned.addsNone_coh _ rfl)
  have hend := hleft.trans (left.addsNone_partFatal cl)
  exact ⟨(hemptied.delCc cl ln).trans hend, State.ccLine_eq_none (fun h => emptied.not_mem_ccKeys_delCc cl ln (hend.keys h))⟩


end Sys2Proof.Machine
end

section
/-! SUPPORT. An agent's read through a cluster cache or over UCIe (09_caches.md R196): where it is served, its check has found no error
that the state shows, and commands, memory and queues are as they were. -/

namespace Sys2Proof.Machine

open Sys2Proof

/-! ### What the cluster cache serves -/

/-- A line that the cluster cache does not hold, or holds with something under way for it, or for an L1 that owns it. -/
def State.Unserved (s : State) (cl ln : Nat) : Prop :=
  ∀ x, s.ccLine cl ln = some x →
    (x.cur.isSome || x.snoop.isSome || x.wait != .none || !(x.st == .S || x.st == .O)) = true ∨ x.own.isSome = true

theorem State.unserved_of_none {s : State} {cl ln : Nat} (h : s.ccLine cl ln = none) : s.Unserved cl ln :=
  fun _ hx => by rw [h] at hx; cases hx

theorem State.ccLog_coh (s : State) (cl addr way core unit : Nat) (dirty : Bool) : (s.ccLog cl addr way core unit dirty).coh = s.coh := by
  unfold State.ccLog
  split <;> rfl

theorem State.ccLine_clean (s : State) (cl ln way : Nat) :
    ((s.incSat F.CC_ECNT_CLEAN cl).ccLog cl ln way 0 2 false).ccLine cl ln = s.ccLine cl ln := by
  simp only [State.ccLine, State.ccLog_coh, State.incSat_coh]

/-- A lookup's parity check leaves the state, or a line that is not served (09_caches.md R206). -/
theorem State.ccCheck_cases (s : State) (cl ln : Nat) (f : Found) :
    s.ccCheck cl ln f = s ∨ s.AddsNone (s.ccCheck cl ln f) ∧ (s.ccCheck cl ln f).Unserved cl ln := by
  have hgone (way unit : Nat) := s.dirtyError_gone cl ln way 0 unit
  unfold State.ccCheck
  split
  · exact .inl rfl
  rename_i x hx
  cases f with
  | clean =>
    simp only
    split
    · right
      generalize hleft : (if x.own.isNone && x.cur.isNone && x.snoop.isNone && x.wait == .none then
        (s.sendInvs cl ln x.pres none).delCc cl ln else s) = left
      have hadds : s.AddsNone left := hleft ▸ .ite ((s.addsNone_sendInvs cl ln _ _).delCc _ _) (.refl s)
      refine ⟨(hadds.incSat _ _ _).trans (State.addsNone_ccLog _ _ _ _ _ _ _), fun y hy => ?_⟩
      rw [State.ccLine_clean, ← hleft] at hy
      split at hy
      · rw [State.ccLine_eq_none (State.not_mem_ccKeys_delCc _ cl ln)] at hy
        cases hy
      · rename_i hstay
        obtain rfl : x = y := Option.some.inj (hx.symm.trans hy)
        cases hown : x.own with
        | none => grind
        | some k => exact .inr rfl
    · exact .inl rfl
  | dirty =>
    simp only
    split
    · exact .inr ⟨(hgone _ _).1, State.unserved_of_none (hgone _ _).2⟩
    · exact .inl rfl
  | tag => exact .inr ⟨(hgone _ _).1, State.unserved_of_none (hgone _ _).2⟩
  | _ => exact .inl rfl

theorem State.addsNone_finds (s : State) (l : List (FUnit × Found)) : s.AddsNone { s with finds := l } := .of_eq rfl rfl

/-- The check of a line that an agent asks for finds nothing, takes an error that it passes over, or leaves a line that is not served. -/
theorem State.ccFound_cases (s : State) (cl ln : Nat) :
    (∃ F, s.ccFound cl ln .none = { s with finds := F }) ∨
      s.AddsNone (s.ccFound cl ln .none) ∧ (s.ccFound cl ln .none).Unserved cl ln := by
  have hnone : (Found.none != Found.none) = false := rfl
  simp only [State.ccFound, hnone, Bool.false_eq_true, if_false]
  split
  · rename_i f t htake
    obtain ⟨-, rfl⟩ := s.takeFind_some _ f t htake
    rcases State.ccCheck_cases { s with finds := s.finds.erase (.cache cl, f) } cl ln f with h | ⟨hadds, hun⟩
    · exact .inl ⟨_, h⟩
    · exact .inr ⟨(s.addsNone_finds _).trans hadds, hun⟩
  · exact .inl ⟨s.finds, rfl⟩

theorem SameMemory.trans {s t u : State} (h : SameMemory s t) (k : SameMemory t u) : SameMemory s u :=
  ⟨k.1.trans h.1, k.2.1.trans h.2.1, k.2.2.trans h.2.2⟩

/-- What an access that is served leaves as it was: commands, memory and the status of every queue. -/
structure State.Served (s t : State) : Prop where
  cmd : t.cmd = s.cmd
  mem : SameMemory s t
  stat : ∀ q, t.reg .SWQ_STAT q 0 = s.reg .SWQ_STAT q 0

theorem State.Served.refl (s : State) : s.Served s := ⟨rfl, ⟨rfl, rfl, rfl⟩, fun _ => rfl⟩

theorem State.Served.trans {s t u : State} (h : s.Served t) (k : t.Served u) : s.Served u :=
  ⟨k.cmd.trans h.cmd, h.mem.trans k.mem, fun q => (k.stat q).trans (h.stat q)⟩

theorem State.served_looked (s : State) (cl cls : Nat) (x : CcLine) : s.Served (s.looked cl cls x) := by
  obtain ⟨hmem, hlines, hhost, -, -, hcmd, -⟩ := s.sameWork_looked cl cls x
  exact ⟨hcmd, ⟨hmem, hlines, hhost⟩, fun q => s.regsBut_looked cl cls x .SWQ_STAT (by decide) q 0⟩

theorem State.served_setCc (s : State) (cl ln : Nat) (x : CcLine) : s.Served (s.setCc cl ln x) :=
  ⟨rfl, ⟨rfl, rfl, rfl⟩, fun _ => rfl⟩

section
variable {cls : Nat} (hcls : cls ≠ 4)
include hcls

/-- A read that is served is of a line that the cache holds, stable and of no L1's own: it makes the line young. -/
theorem State.ccAsk_served {s t : State} {cl ln : Nat} (h : s.ccAsk cl cls ln false = (t, true)) : s.Served t := by
  unfold State.ccAsk at h
  have hfound := s.ccFound_cases cl ln
  generalize s.ccFound cl ln .none = u at h hfound
  dsimp only at h
  split at h
  · split at h
    · cases h
    · split at h <;> cases h
  rename_i x hx
  split at h
  · cases h
  rename_i hstable
  have hfour : (cls == 4) = false := by simpa using hcls
  split at h
  · simp only [hfour, Bool.false_eq_true, if_false] at h
    cases h
  rename_i hown
  obtain ⟨F, rfl⟩ : ∃ F, u = { s with finds := F } := hfound.resolve_right (fun hbad => by
    rcases hbad.2 x hx with hbusy | howned
    · exact hstable hbusy
    · rw [hown] at howned; cases howned)
  simp only [Bool.not_false, if_true] at h
  cases h
  have hfinds : s.Served { s with finds := F } := ⟨rfl, ⟨rfl, rfl, rfl⟩, fun _ => rfl⟩
  exact (hfinds.trans (State.served_looked _ cl cls x)).trans (State.served_setCc _ cl ln _)

end

/-! #### An access that may wait -/

theorem State.addsNone_evictCc (s : State) (cl ln cls : Nat) : s.AddsNone (s.evictCc cl ln cls) := by
  unfold State.evictCc
  split
  · exact .refl s
  rename_i x hx
  have hback : s.AddsNone (s.takeBack cl ln x).1 := by
    refine State.AddsNone.trans ?_ (State.addsNone_sendInvs _ cl ln x.pres x.own)
    split
    · exact .refl s
    · exact .ite (.of_eq rfl rfl) (.refl s)
  generalize s.takeBack cl ln x = p at hback
  obtain ⟨t, dirty⟩ := p
  have hset (y : CcLine) : s.AddsNone (t.setCc cl ln y) := hback.setCc y (State.mem_ccKeys hx)
  exact .ite (hback.delCc _ _) (.ite ((hset _).trans (State.addsNone_coh _ _ rfl)) (((hset _).note _).tallyCc _ _ _))

theorem State.addsNone_ccWay {s t : State} {cl ln cls w : Nat} (h : s.ccWay cl ln cls = some (t, w)) : s.AddsNone t := by
  unfold State.ccWay at h
  split at h
  · cases h; exact .refl s
  · cases h
  · split at h
    · cases h
    · cases h
      refine State.AddsNone.trans ?_ (State.addsNone_evictCc _ _ _ _)
      refine (State.AddsNone.refl s).mapCc (fun e => if e.1.unit == cl && _ then (e.1, { e.2 with age := e.2.age + _ }) else e)
        (fun e => ?_) rfl rfl
      split <;> rfl

theorem State.addsNone_fillWaits (s : State) (cl ln cls : Nat) : s.AddsNone (s.fillWaits cl ln cls) := by
  have hcounted (c : CohSt) (hc : c.cc = s.coh.cc) : s.AddsNone { s.incSat F.VC_STAT_FULLWAIT cl with coh := c } := .of_eq rfl hc
  unfold State.fillWaits
  split
  · exact (hcounted { s.coh with vwait := s.coh.vwait ++ [(cl, ln)] } rfl).tallyCc _ _ _
  · exact .refl s

theorem State.addsNone_ccFilled (s : State) (cl cls age : Nat) : s.AddsNone (s.ccFilled cl cls age) :=
  .ite (((State.AddsNone.refl s).tallyCc _ _ _).tallyCc _ _ _) ((State.AddsNone.refl s).tallyCc _ _ _)

theorem State.addsNone_looked (s : State) (cl cls : Nat) (x : CcLine) : s.AddsNone (s.looked cl cls x) :=
  .ite (.refl s) ((State.AddsNone.refl s).tallyCc _ _ _)

/-- An access through a cluster cache arms no capture. -/
theorem State.armed_ccAsk {s : State} (h : s.dbg.armed = []) (cl cls ln : Nat) (w : Bool) : (s.ccAsk cl cls ln w).1.dbg.armed = [] := by
  have hfound : (s.ccFound cl ln .none).dbg.armed = [] := by
    rcases s.ccFound_cases cl ln with ⟨l, hl⟩ | ⟨hadds, -⟩
    · rw [hl]; exact h
    · exact hadds.armed h
  unfold State.ccAsk
  generalize s.ccFound cl ln .none = t at hfound
  dsimp only
  split
  · split
    · exact hfound
    · split
      · exact (t.addsNone_fillWaits cl ln cls).armed hfound
      · rename_i u way hway
        have hcounted := ((State.addsNone_ccWay hway).trans (u.addsNone_coh { u.coh with vwait := u.coh.vwait.erase (cl, ln) } rfl)).tallyCc
          cl 0x101 cls
        refine ((State.AddsNone.refl _).sendB _).armed ?_
        exact (hcounted.trans (State.addsNone_ccFilled _ cl cls _)).armed hfound
  · rename_i x hx
    have hset {u : State} (hu : t.AddsNone u) (y : CcLine) : t.AddsNone (u.setCc cl ln y) := hu.setCc y (State.mem_ccKeys hx)
    have hlooked := t.addsNone_looked cl cls x
    have hinv := hlooked.trans (State.addsNone_sendInvs _ cl ln x.pres none)
    split
    · exact hfound
    · split
      · split
        · exact (hset hlooked _).armed hfound
        · exact ((hset (.refl t) _).msgA _ _ _).armed hfound
      · split
        · exact (hset hlooked _).armed hfound
        · split
          · exact (hset hinv _).armed hfound
          · exact ((hset hinv _).sendB _).armed hfound

theorem State.armed_svcAsk {s : State} (h : s.dbg.armed = []) (c die cls : Nat) (lns : List Nat) (w : Bool) :
    (s.svcAsk c die cls lns w).1.dbg.armed = [] := by
  have hall (cl : Nat) : (s.ccAskAll cl cls lns w).1.dbg.armed = [] := by
    unfold State.ccAskAll
    exact List.foldlRecOn lns _ (motive := fun (p : State × Bool) => p.1.dbg.armed = []) h
      (fun p hp ln _ => State.armed_ccAsk hp cl cls ln w)
  have hwake : (s.svcWake c die).dbg.armed = [] := by
    unfold State.svcWake
    split
    · exact h
    · split <;> exact h
  unfold State.svcAsk
  split
  · exact h
  · split
    · exact h
    · split
      · exact hall _
      · exact hwake

section
variable {cls : Nat} (hcls : cls ≠ 4)
include hcls

theorem State.ccAskAll_served {s t : State} {cl : Nat} {lns : List Nat} (h : s.ccAskAll cl cls lns false = (t, true)) : s.Served t := by
  have hall : (s.ccAskAll cl cls lns false).2 = true → s.Served (s.ccAskAll cl cls lns false).1 := by
    unfold State.ccAskAll
    refine List.foldlRecOn lns _ (motive := fun (p : State × Bool) => p.2 = true → s.Served p.1)
      (fun _ => .refl s) (fun p hp ln _ h => ?_)
    obtain ⟨hok, hserved⟩ := Bool.and_eq_true_iff.mp h
    exact (hp hok).trans (State.ccAsk_served hcls (Prod.ext rfl hserved))
  rw [h] at hall
  exact hall rfl

theorem State.svcAsk_served {s t : State} {c die : Nat} {lns : List Nat} (h : s.svcAsk c die cls lns false = (t, true)) : s.Served t := by
  unfold State.svcAsk at h
  split at h
  · obtain ⟨rfl, -⟩ := Prod.mk.inj h
    exact .refl s
  · split at h
    · cases h; exact .refl s
    · split at h
      · exact State.ccAskAll_served hcls h
      · cases h

end

/-! #### An access to a range of a context's space -/

theorem State.useModule_cmd (s : State) (m : Nat) : (s.useModule m).cmd = s.cmd := by
  unfold State.useModule
  split <;> simp

theorem State.useModule_dbg (s : State) (m : Nat) : (s.useModule m).dbg = s.dbg := by
  unfold State.useModule
  split <;> simp

theorem State.served_useModule (s : State) (m : Nat) : s.Served (s.useModule m) := by
  refine ⟨s.useModule_cmd m, s.useModule_same m, fun q => ?_⟩
  have hregs : s.RegsBut [.UCIE_STAT, .INT_SRC_CTL, .INT_ISL] (s.useModule m) :=
    .ite (((State.RegsBut.refl _ s).wr F.UCIE_STAT_STATE _ m 0 (by decide)).raise _ (by decide) (by decide)) (.refl _ s)
  exact hregs _ (by decide) q 0

/-- The state in which a range is asked for: what lies in host memory goes over UCIe. -/
theorem State.vaAsk_eq (s : State) (die c cls va n : Nat) :
    ∃ l : State, (l = s ∨ l = s.useLink die) ∧ s.vaAsk die c cls va n = l.svcAsk c die cls (l.vaLines die c va n) false := by
  unfold State.vaAsk
  extract_lets l
  refine ⟨l, ?_, rfl⟩
  simp only [l]
  split
  · exact .inr rfl
  · exact .inl rfl

theorem State.armed_vaAsk {s u : State} {die c cls va n : Nat} {b : Bool} (h : s.vaAsk die c cls va n = (u, b)) (ha : s.dbg.armed = []) :
    u.dbg.armed = [] := by
  obtain ⟨l, hl, hask⟩ := s.vaAsk_eq die c cls va n
  have harmed : l.dbg.armed = [] := by
    rcases hl with rfl | rfl
    · exact ha
    · rw [State.useLink, State.useModule_dbg]; exact ha
  have hu := State.armed_svcAsk harmed c die cls (l.vaLines die c va n) false
  rwa [← hask, h] at hu

theorem State.vaAsk_served {s u : State} {die c cls va n : Nat} (hcls : cls ≠ 4) (h : s.vaAsk die c cls va n = (u, true)) :
    s.Served u := by
  obtain ⟨l, hl, hask⟩ := s.vaAsk_eq die c cls va n
  have hserved : l.Served u := State.svcAsk_served hcls (hask.symm.trans h)
  rcases hl with rfl | rfl
  · exact hserved
  · exact (s.served_useModule _).trans hserved

end Sys2Proof.Machine
end

section
/-! SUPPORT. The parse of a packet and the starts of commands (13_command_submission.md R273, R277, R278, R281). -/

namespace Sys2Proof.Machine

open Sys2Proof

/-! ### PACKET_PARSE (13_command_submission.md R273, R281) -/

@[simp] theorem State.cmdOf_setCmd_self (s : State) (id : CmdId) (c : Cmd) : (s.setCmd id c).cmdOf id = some c := aget_aput_self _ _ _

theorem State.cmdOf_setCmd_ne (s : State) {id i : CmdId} (c : Cmd) (h : i ≠ id) : (s.setCmd id c).cmdOf i = s.cmdOf i :=
  aget_aput_ne _ _ h.symm

theorem State.rd_setCmd (s : State) (id : CmdId) (c : Cmd) (f : Fld) (i j : Nat) : (s.setCmd id c).rd f i j = s.rd f i j := rfl

theorem State.on_setCmd (s : State) (id : CmdId) (c : Cmd) (f : Fld) (i j : Nat) : (s.setCmd id c).on f i j = s.on f i j := rfl

theorem State.armEval_of_nil {s : State} (h : s.dbg.armed = []) : s.armEval = s := by simp [State.armEval, h]

theorem State.Served.cmdOf {s t : State} (h : s.Served t) (id : CmdId) : t.cmdOf id = s.cmdOf id := by simp only [State.cmdOf, h.cmd]

theorem State.Served.rd {s t : State} (h : s.Served t) {f : Fld} (hf : f.reg = .SWQ_STAT) (q : Nat) : t.rd f q = s.rd f q := by
  rw [State.rd, hf, h.stat, State.rd, hf]

/-- Where the packet at HEAD of a queue lies in its context's space. -/
def State.packetVa (s : State) (q : Nat) (w : Swq) : Nat := w.ringVa + 64 * (s.rd F.SWQ_STAT_HEAD q % 2 ^ w.ringLog)

/-- The clerk of a mapped ACTIVE queue goes on to read the packet of its first unparsed command, and nothing stops the access. -/
structure State.TakesPacket (s : State) (q : Nat) (w : Swq) (id : CmdId) (c : Cmd) : Prop where
  queue : s.swq q = some w
  first : lowest ((s.queueCmds q).filter (fun e => e.2.ph == .unparsed)) = some (id, c)
  mapped : s.mapped q = true
  active : s.rd F.SWQ_STAT_STATE q = 1
  awake : s.cmdWaits id = false
  live : s.ctxState w.ctx = ctxLive
  unsaved : s.isSaving w.ctx = false
  reads : s.vaStop w.die w.ctx accRead (s.packetVa q w) 64 = none

theorem State.parseRead_clean {u : State} {q : Nat} {w : Swq} {id : CmdId} {c : Cmd} {p : List Byte} (hpre : c.pre = none)
    (hlaunch : pkBad p = true ∨ pkOp p ≠ opLaunch) (hholds : pkBad p = true ∨ pkHandles p = []) :
    u.parseRead q w id c p .none = (u.inc F.SWQ_STAT_HEAD q).parsePacket id c p (pkHandles p) false := by
  have hnot : ¬(pkOp p = opLaunch ∧ ¬ pkBad p = true ∧ lnObjCnt p ≠ 0) := by
    rintro ⟨hop, hbad, -⟩
    exact (hlaunch.resolve_left hbad) hop
  have hfree : (!pkBad p && State.bindHolds id.ctx id.seq (pkHandles p) u) = false := by
    rcases hholds with hbad | hnone
    · simp [hbad]
    · simp [hnone, State.bindHolds]
  simp only [State.parseRead, hpre, if_neg hnot, hfree]
  rfl

/-- A packet that names no object is parsed with its bytes. -/
theorem State.parsePacket_plain (s : State) (id : CmdId) (c : Cmd) {p : List Byte} (hbad : pkBad p = false)
    (hop : pkOp p = opNop ∨ pkOp p = opFence) :
    s.parsePacket id c p [] false = s.setCmd id { c with pkt := p, ph := .parsed, refs := [] } := by
  rcases hop with hop | hop <;>
    simp [State.parsePacket, hbad, State.bindAll, State.rangeBad, State.redMisaligned, hop, opNop, opFence, opCopy, opFill, opRecord,
      opWait, opSignal, opGraph, opDump]

/-- A packet that breaks a rule is marked to complete with ST_ABORTED (R281). -/
theorem State.parsePacket_bad (s : State) (id : CmdId) (c : Cmd) {p : List Byte} (hbad : pkBad p = true) (hs : List Nat) :
    s.parsePacket id c p hs false =
      (s.wr F.SWQ_STAT_BADPKT 1 c.q).setCmd id { c with pkt := p, ph := .parsed, pre := some stAborted, refs := [] } := by
  simp only [State.parsePacket, hbad, Bool.true_or, if_true]
  rfl

theorem pkHandles_plain {p : List Byte} (hop : pkOp p = opNop ∨ pkOp p = opFence) : pkHandles p = [] := by
  unfold pkHandles
  rcases hop with h | h <;> simp only [h] <;> rfl

section
variable {s u : State} {q : Nat} {w : Swq} {id : CmdId} {c : Cmd} (h : s.TakesPacket q w id c)
include h

theorem State.TakesPacket.parseNext {served : Bool} (hask : s.vaAsk w.die w.ctx 1 (s.packetVa q w) 64 = (u, served)) :
    s.parseNext q = if served then u.parseRead q w id c (u.rdVas w.die w.ctx (s.packetVa q w) 64)
      (u.vaPoison w.die w.ctx (s.packetVa q w) 64) else u := by
  have hgoes : (!s.mapped q || s.rd F.SWQ_STAT_STATE q != 1 || s.cmdWaits id
      || (s.ctxState w.ctx != ctxLive && s.ctxState w.ctx != ctxReleasing) || s.isSaving w.ctx) = false := by
    simp [h.mapped, h.active, h.awake, h.live, h.unsaved]
  have hreads := h.reads
  unfold State.packetVa at hreads hask ⊢
  simp only [State.parseNext, h.queue, h.first, hgoes, Bool.false_eq_true, if_false, hreads, hask]
  cases served <;> rfl

/-- A line that the service cluster does not yet serve is asked for. -/
theorem State.TakesPacket.packetParse_waits (harmed : s.dbg.armed = [])
    (hask : s.vaAsk w.die w.ctx 1 (s.packetVa q w) 64 = (u, false)) : s.packetParse q = u := by
  rw [State.packetParse, h.parseNext hask, if_neg Bool.false_ne_true, State.armEval_of_nil (State.armed_vaAsk hask harmed)]

variable {p : List Byte} (hpre : c.pre = none)
  (hask : s.vaAsk w.die w.ctx 1 (s.packetVa q w) 64 = (u, true))
  (hclean : u.vaPoison w.die w.ctx (s.packetVa q w) 64 = .none) (hp : p = u.rdVas w.die w.ctx (s.packetVa q w) 64)
include hpre hask hclean hp

/-- A packet that the access brings is checked and bound. -/
theorem State.TakesPacket.packetParse_reads (hlaunch : pkBad p = true ∨ pkOp p ≠ opLaunch)
    (hholds : pkBad p = true ∨ pkHandles p = []) :
    s.packetParse q = ((u.inc F.SWQ_STAT_HEAD q).parsePacket id c p (pkHandles p) false).armEval := by
  rw [State.packetParse, h.parseNext hask, if_pos rfl, hclean, ← hp, State.parseRead_clean hpre hlaunch hholds]

variable (harmed : s.dbg.armed = [])
include harmed

theorem State.TakesPacket.packetParse_plain (hbad : pkBad p = false) (hop : pkOp p = opNop ∨ pkOp p = opFence) :
    s.packetParse q = (u.inc F.SWQ_STAT_HEAD q).setCmd id { c with pkt := p, ph := .parsed, refs := [] } := by
  have hlaunch : pkOp p ≠ opLaunch := by rcases hop with h | h <;> rw [h] <;> decide
  have hnone : u.dbg.armed = [] := State.armed_vaAsk hask harmed
  rw [h.packetParse_reads hpre hask hclean hp (.inr hlaunch) (.inr (pkHandles_plain hop)), pkHandles_plain hop,
    State.parsePacket_plain _ id c hbad hop]
  exact State.armEval_of_nil hnone

theorem State.TakesPacket.packetParse_bad (hbad : pkBad p = true) : s.packetParse q =
    ((u.inc F.SWQ_STAT_HEAD q).wr F.SWQ_STAT_BADPKT 1 c.q).setCmd id
      { c with pkt := p, ph := .parsed, pre := some stAborted, refs := [] } := by
  have hnone : u.dbg.armed = [] := State.armed_vaAsk hask harmed
  rw [h.packetParse_reads hpre hask hclean hp (.inl hbad) (.inl hbad), State.parsePacket_bad _ id c hbad]
  exact State.armEval_of_nil hnone

end

/-- HEAD has advanced once the access has been served. -/
theorem State.Served.rd_head {s u : State} (h : s.Served u) (q : Nat) :
    (u.inc F.SWQ_STAT_HEAD q).rd F.SWQ_STAT_HEAD q = (s.rd F.SWQ_STAT_HEAD q + 1) % 2 ^ 32 := by
  rw [State.inc, State.rd_wr_self _ _ _ _ _ (by decide), h.rd rfl]

/-- A packet that breaks a rule sets BADPKT beside HEAD. -/
theorem State.Served.on_badpkt {s u : State} (h : s.Served u) (q : Nat) :
    ((u.inc F.SWQ_STAT_HEAD q).wr F.SWQ_STAT_BADPKT 1 q).on F.SWQ_STAT_BADPKT q = true ∧
      ((u.inc F.SWQ_STAT_HEAD q).wr F.SWQ_STAT_BADPKT 1 q).rd F.SWQ_STAT_HEAD q = (s.rd F.SWQ_STAT_HEAD q + 1) % 2 ^ 32 :=
  ⟨beq_iff_eq.mpr (State.rd_wr_self _ _ _ _ _ (by decide)), (State.rd_wr_apart _ _ _ _ _ _ (by decide) (by decide)).trans (h.rd_head q)⟩

/-! ### A command starts (13_command_submission.md R277, R278) -/

/-- Counters, samples and tags of sets go on: work and captures stay as they were. -/
structure State.Sampled (s t : State) : Prop where
  work : s.SameWork t
  adds : s.AddsNone t

theorem State.Sampled.refl (s : State) : s.Sampled s := ⟨.rfl' s, .refl s⟩

theorem State.Sampled.trans {s t u : State} (h : s.Sampled t) (k : t.Sampled u) : s.Sampled u :=
  ⟨h.work.trans k.work, h.adds.trans k.adds⟩

theorem State.Sampled.ite {s a b : State} {c : Prop} [Decidable c] (h : s.Sampled a) (k : s.Sampled b) :
    s.Sampled (if c then a else b) := by split <;> assumption

theorem State.Sampled.foldl {α : Type} {s t : State} (h : s.Sampled t) (f : State → α → State)
    (hf : ∀ (s : State) (a : α), s.Sampled (f s a)) (l : List α) : s.Sampled (l.foldl f t) :=
  List.foldlRecOn l f h (fun _ hu a _ => hu.trans (hf _ a))

theorem State.sampled_setReg (s : State) (r : Reg) (i j : Nat) (v : W64) : s.Sampled (s.setReg r i j v) := ⟨.rfl' s, .of_eq rfl rfl⟩

theorem State.sampled_wr (s : State) (f : Fld) (v i j : Nat) : s.Sampled (s.wr f v i j) := s.sampled_setReg _ _ _ _

theorem State.sampled_bump (s : State) : s.Sampled s.bump := ⟨.rfl' s, .of_eq rfl rfl⟩

theorem State.sampled_tal (s : State) (t : TalSt) : s.Sampled { s with tal := t } := ⟨.rfl' s, .of_eq rfl rfl⟩

theorem State.sampled_catchUp (s : State) (d i : Nat) : s.Sampled (s.catchUp d i) := by
  unfold State.catchUp
  extract_lets n js counted tal noted
  have hcounted : s.Sampled counted :=
    (State.Sampled.refl s).foldl (fun (t : State) j => t.addCount d i j (s.timeOf d i j))
      (fun t j => ⟨t.sameWork_addCount _ _ _ _, t.addsNone_addCount _ _ _ _⟩) js
  have hnoted : s.Sampled noted := hcounted.trans (counted.sampled_tal _)
  exact .ite (.refl s) ((State.Sampled.ite (hnoted.trans (noted.sampled_wr _ _ _ _)) hnoted).trans (State.sampled_bump _))

theorem State.sampled_ledDrop (s : State) (d stamp : Nat) : s.Sampled (s.ledDrop d stamp) :=
  ((s.sampled_wr _ _ _ _).trans (State.sampled_tal _ _)).trans (State.sampled_wr _ _ _ _ _)

theorem State.sampled_ledOffer (s : State) (d stamp : Nat) (cl : Option Nat) (r : List Byte) : s.Sampled (s.ledOffer d stamp cl r) := by
  have hdrop := s.sampled_ledDrop d stamp
  have hqueued (l : Led) : s.Sampled ((s.setLed d l).ledBusy d) := (s.sampled_tal _).trans (State.sampled_wr _ _ _ _ _)
  exact .ite (.refl s) (.ite hdrop (.ite (.refl s) (.ite hdrop (hqueued _))))

theorem State.sampled_sampleSet (s : State) (d i stamp k edge : Nat) : s.Sampled (s.sampleSet d i stamp k edge) := by
  unfold State.sampleSet
  extract_lets groups caught offered tal
  have hoffered : s.Sampled offered := (s.sampled_catchUp d i).foldl _ (fun s g => s.sampled_ledOffer d stamp _ _) _
  exact hoffered.trans (offered.sampled_tal _)

theorem State.sampled_resetSample (s : State) (d i : Nat) : s.Sampled (s.resetSample d i) := by
  unfold State.resetSample
  extract_lets n k led t
  have ht : s.Sampled t := (s.sampled_bump.trans (State.sampled_tal _ _)).trans (State.sampled_sampleSet _ _ _ _ _ _)
  refine .ite (ht.trans (t.sampled_tal _)) (.ite ?_ s.sampled_bump)
  exact (s.sampled_bump.trans (State.sampled_sampleSet _ _ _ _ _ _)).trans (State.sampled_bump _)

theorem State.sampled_tagReset (s : State) (d i : Nat) : s.Sampled (s.tagReset d i) := by
  unfold State.tagReset
  extract_lets n sampled cleared
  have hcleared : s.Sampled cleared :=
    (s.sampled_resetSample d i).foldl _ (fun s j => s.sampled_setReg .TAL_CNT n j 0) _
  exact .ite (.refl s) ((hcleared.trans (cleared.sampled_wr _ _ _ _)).trans (State.sampled_setReg _ _ _ _ _))

theorem State.sampled_dieTag (s : State) (q : Nat) (id : CmdId) : s.Sampled (s.dieTag q id) := by
  unfold State.dieTag
  extract_lets next
  have hreset (t : State) (d : Nat) : t.Sampled (t.dieSetsReset (next s) d) :=
    .ite (.refl t) ((State.Sampled.refl t).foldl _ (fun t i => t.sampled_tagReset d i) _)
  exact ((State.Sampled.refl s).foldl _ hreset _).trans (State.sampled_tal _ _)

/-- `t` is `s` with a command put in its place: the others, memory and the owning units are as they were, and no capture is armed. -/
structure State.Puts (s t : State) (id : CmdId) (c : Cmd) : Prop where
  cmds : t.cmd.cmds = aput s.cmd.cmds id c
  syn : t.syn = s.syn
  mem : SameMemory s t
  armed : s.dbg.armed = [] → t.dbg.armed = []

/-- A start puts the command as it has begun. -/
theorem State.puts_start (s : State) (id : CmdId) (c : Cmd) (f : Cmd → Cmd) : s.Puts (s.start id c f) id (f (s.begun c)) := by
  have hput (m : List (Nat × Swq)) : s.Puts
      { s.setCmd id (f (s.begun c)) with cmd := { (s.setCmd id (f (s.begun c))).cmd with swqs := m } } id (f (s.begun c)) :=
    ⟨rfl, rfl, ⟨rfl, rfl, rfl⟩, fun h => h⟩
  unfold State.start
  split
  · rename_i hnode
    have htag {t : State} (ht : s.Puts t id (f (s.begun c))) : s.Puts (t.dieTag c.q id) id (f (s.begun c)) := by
      obtain ⟨⟨hmem, hlines, hhost, -, -, hcmd, hsyn, -⟩, hadds⟩ := t.sampled_dieTag c.q id
      exact ⟨(congrArg CmdSt.cmds hcmd).trans ht.cmds, hsyn.trans ht.syn, ht.mem.trans ⟨hmem, hlines, hhost⟩,
        fun h => hadds.armed (ht.armed h)⟩
    exact htag (hput _)
  · exact ⟨rfl, rfl, ⟨rfl, rfl, rfl⟩, fun h => h⟩

section
variable {s t : State} {id : CmdId} {c : Cmd} (h : s.Puts t id c)
include h

theorem State.Puts.cmdOf_self : t.cmdOf id = some c := by rw [State.cmdOf, h.cmds, aget_aput_self]

theorem State.Puts.cmdOf_ne {i : CmdId} (hi : i ≠ id) : t.cmdOf i = s.cmdOf i := by
  rw [State.cmdOf, h.cmds, aget_aput_ne _ _ hi.symm, State.cmdOf]

/-- An operation that the command hands over stands last at its owning unit. -/
theorem State.Puts.ops_pushSync (i : Nat) (o : SyncOp) : (t.pushSync i o).syn.ops = s.syn.ops ++ [(i % 4, o)] := by
  rw [State.pushSync, h.syn]

/-- The earlier commands of the queue are as they were. -/
theorem State.Puts.earlier (q : Nat) : t.earlier q id.seq = s.earlier q id.seq := by
  simp only [State.earlier, State.queueCmds, h.cmds, List.filter_filter]
  generalize s.cmd.cmds = m
  induction m with
  | nil => simp [aput]
  | cons e r ih =>
    obtain ⟨k, v⟩ := e
    by_cases hk : k = id
    · simp [aput, hk]
    · simp [aput, hk, List.filter_cons, ih]

end

theorem State.ready_some {s : State} {id : CmdId} {op : Nat} {c : Cmd} (h : s.ready id op = some c) :
    s.cmdOf id = some c ∧ pkOp c.pkt = op := by
  unfold State.ready at h
  split at h
  · cases h
  · split at h
    · rename_i hready
      cases h
      exact ⟨‹_›, by simpa using (Bool.and_eq_true_iff.mp (Bool.and_eq_true_iff.mp hready).1).1⟩
    · cases h

section
variable {s : State} {id : CmdId} {c : Cmd}

theorem State.startNop_of_ready (h : s.ready id opNop = some c) : s.startNop id = s.start id c (fun c => { c with done := true }) := by
  rw [State.startNop, h]

theorem State.startFence_of_ready (h : s.ready id opFence = some c) : s.startFence id = s.start id c (fun c => c) := by
  rw [State.startFence, h]

theorem State.startLaunch_of_ready (h : s.ready id opLaunch = some c) : s.startLaunch id = s.start id c (fun k => { k with
    strict := (s.arithMode id.ctx (lnArith c.pkt)).1, sat := (s.arithMode id.ctx (lnArith c.pkt)).2.1
    mxfp4 := (s.arithMode id.ctx (lnArith c.pkt)).2.2 }) := by
  rw [State.startLaunch, h]

theorem State.startSignal_of_ready (h : s.ready id opSignal = some c) : s.startSignal id =
    (s.start id c (fun c => { c with sig := true })).pushSync (wtIdx c.pkt) (.signal (wtNote c.pkt) (wtIdx c.pkt) (rcVal c.pkt) id) := by
  rw [State.startSignal, h]

/-- A note WAIT of 0 is done (14_synchronisation.md R298). -/
theorem State.startWait_zero (h : s.ready id opWait = some c) (hn : wtNote c.pkt = true) (hv : rcVal c.pkt = 0) :
    s.startWait id = s.start id c (fun c => { c with wait := .done, done := true }) := by
  simp [State.startWait, h, hn, hv]

/-- Another WAIT that finds an entry registers (R300). -/
theorem State.startWait_registers (h : s.ready id opWait = some c) (hn : wtNote c.pkt = false ∨ rcVal c.pkt ≠ 0)
    (hroom : s.waitEntries ((s.queueDie c.q).getD 0) < 1024) : s.startWait id =
      (s.start id c (fun c => { c with wait := .registering })).pushSync (wtIdx c.pkt)
        (.register (wtNote c.pkt) (wtIdx c.pkt) (rcVal c.pkt) id) := by
  have hzero : (wtNote c.pkt && rcVal c.pkt == 0) = false := by rcases hn with hn | hn <;> simp [hn]
  simp only [State.startWait, h, hzero, Bool.false_eq_true, if_false, if_neg (Nat.not_le.mpr hroom)]

theorem State.startRecord_of_ready (h : s.ready id opRecord = some c) : s.startRecord id = (s.start id c (fun c => c)).recordSignal id := by
  rw [State.startRecord, h]

theorem State.startGraph_of_ready {slot v : Nat} {g : Graph} {x : GVer} (h : s.ready id opGraph = some c) (hgver : c.gver = some (slot, v))
    (hgraph : aget s.obj.graphs slot = some g) (hver : g.vers.find? (fun x => x.ver == v) = some x) :
    s.startGraph id = State.addNodes id c.q x.nobind 0 x.nodes (s.start id c (fun c => c)) := by
  simp only [State.startGraph, h, hgver, hgraph, hver]

end

/-! #### RECORD -/

theorem State.recordSignal_waits {s : State} {id : CmdId} {c : Cmd} (hc : s.cmdOf id = some c) (he : s.earlier c.q id.seq ≠ []) :
    s.recordSignal id = s := by
  simp [State.recordSignal, hc, he]

theorem State.recordSignal_goes {s : State} {id : CmdId} {c : Cmd} (hc : s.cmdOf id = some c) (hop : pkOp c.pkt = opRecord)
    (hph : c.ph = .started) (hsig : c.sig = false) (he : s.earlier c.q id.seq = []) :
    s.recordSignal id =
      (s.setCmd id { c with sig := true }).pushSync (rcTl c.pkt) (.signal false (rcTl c.pkt) (rcVal c.pkt) id) := by
  simp [State.recordSignal, hc, hop, hph, hsig, he]

/-! #### GRAPH_LAUNCH (12_shared_objects.md R264) -/

/-- A node becomes a command before those that follow it; one that its version could not bind does not run. -/
theorem State.addNodes_cons (id : CmdId) (q : Nat) (nb : List Nat) (k : Nat) (p : List Byte) (r : List (List Byte)) (s : State) :
    ∃ pre, (nb.contains k = true → pre = some stObjGone) ∧ State.addNodes id q nb k (p :: r) s =
      State.addNodes id q nb (k + 1) r (s.setCmd ⟨id.ctx, id.seq, k + 1⟩ { newCmd q with pkt := p, ph := .parsed, pre := pre }) :=
  ⟨_, fun h => if_pos (by rw [h, Bool.true_or]), rfl⟩

theorem State.addNodes_same (id : CmdId) (q : Nat) (nb : List Nat) (k : Nat) (l : List (List Byte)) (s : State) :
    SameMemory s (State.addNodes id q nb k l s) := by
  induction l generalizing k s with
  | nil => exact ⟨rfl, rfl, rfl⟩
  | cons p r ih => exact ih _ _

/-- The nodes from `k` on leave the commands numbered up to `k`. -/
theorem State.cmdOf_addNodes_le (id : CmdId) (q : Nat) (nb : List Nat) {i : CmdId} {k : Nat} (h : i.node ≤ k) (l : List (List Byte))
    (s : State) : (State.addNodes id q nb k l s).cmdOf i = s.cmdOf i := by
  induction l generalizing k s with
  | nil => rfl
  | cons p r ih =>
    refine (ih (by omega) _).trans (State.cmdOf_setCmd_ne _ _ ?_)
    rintro rfl
    exact absurd h (by simp)

/-- Each node becomes a parsed command of the queue. -/
theorem State.cmdOf_addNodes (id : CmdId) (q : Nat) (nb : List Nat) {l : List (List Byte)} {i : Nat} {p : List Byte} (h : l[i]? = some p)
    (k : Nat) (s : State) : ∃ n, (State.addNodes id q nb k l s).cmdOf ⟨id.ctx, id.seq, k + i + 1⟩ = some n ∧ n.pkt = p ∧
      n.ph = .parsed ∧ n.q = q ∧ (nb.contains (k + i) = true → n.pre = some stObjGone) := by
  induction l generalizing k s i with
  | nil => cases h
  | cons x r ih =>
    cases i with
    | zero =>
      obtain rfl : x = p := by simpa using h
      obtain ⟨pre, hpre, hcons⟩ := State.addNodes_cons id q nb k x r s
      rw [hcons, Nat.add_zero]
      have hstays := State.cmdOf_addNodes_le id q nb (i := ⟨id.ctx, id.seq, k + 1⟩) (le_refl _) r
      refine ⟨_, (hstays _).trans (State.cmdOf_setCmd_self _ _ _), ?_⟩
      exact ⟨rfl, rfl, rfl, hpre⟩
    | succ i =>
      obtain ⟨pre, -, hcons⟩ := State.addNodes_cons id q nb k x r s
      rw [hcons, show k + (i + 1) = k + 1 + i by omega]
      exact ih (by simpa using h) (k + 1) _

/-! #### DUMP (21_debug.md R427) -/

theorem State.dumpOp_of_ready {s : State} {id : CmdId} {c : Cmd} (h : s.ready id opDump = some c) :
    s.dumpOp id = (s.start id c (fun c => c)).arm id c := by
  rw [State.dumpOp, h]

/-- A DUMP of the next step arms a capture whose step lies ahead. -/
theorem State.arm_next (s : State) (id : CmdId) {c : Cmd} (h : dpStep c.pkt = 2 ^ 64 - 1) : s.arm id c =
    State.armEval { s with dbg := { s.dbg with armed := s.dbg.armed ++ [⟨id, none, none, none, false⟩] } } := by
  rw [State.arm]
  exact if_pos h

/-- The only capture armed learns at most its step and its queue. -/
theorem State.armEval_one {s : State} {id : CmdId} (h : s.dbg.armed = [⟨id, none, none, none, false⟩]) :
    s.armEval.cmd = s.cmd ∧ SameMemory s s.armEval ∧ ∃ a ∈ s.armEval.dbg.armed, a.dump = id ∧ a.got = none := by
  have hkept : s.cmd = s.cmd ∧ SameMemory s s ∧ ∃ a ∈ s.dbg.armed, a.dump = id ∧ a.got = none :=
    ⟨rfl, ⟨rfl, rfl, rfl⟩, _, by rw [h]; exact List.mem_singleton_self _, rfl, rfl⟩
  have heval : s.armEval = s.armOne ⟨id, none, none, none, false⟩ := by simp [State.armEval, h]
  rw [heval]
  cases hd : s.cmdOf id with
  | none => simpa [State.armOne, hd] using hkept
  | some d =>
    simp only [State.armOne, hd, Option.isSome_none, Bool.false_eq_true, if_false]
    split
    · rename_i e _
      refine ⟨rfl, ⟨rfl, rfl, rfl⟩, ⟨id, some e.1.seq, some d.q, none, false⟩, ?_, rfl, rfl⟩
      simp [h]
    · exact hkept

/-! ### The statement -/

/-- Settles O49: a parse acts on what the access to its line leaves, and each start is the command as begun, with what its opcode adds. -/
theorem commandStarts : Obligations.CommandStarts := by
  refine ⟨?parse, ?start⟩
  case parse =>
    intro s u served q va w id c p hqueue hfirst hmapped hactive hawake hlive hunsaved harmed hpre hva hreads hask hclean hp
    subst hva
    have htakes : s.TakesPacket q w id c := ⟨hqueue, hfirst, hmapped, hactive, hawake, hlive, hunsaved, hreads⟩
    refine ⟨fun hwait => ?waits, fun hserved hbad hop => ?plain, fun hserved hbad hq => ?bad⟩
    case waits =>
      subst hwait
      exact congrArg Host.Outcome.next (htakes.packetParse_waits harmed hask)
    case plain =>
      subst hserved
      have hs := State.vaAsk_served (by decide) hask
      refine ⟨_, congrArg Host.Outcome.next (htakes.packetParse_plain hpre hask hclean hp harmed hbad hop),
        State.cmdOf_setCmd_self _ _ _, hs.rd_head q, ?_, fun i hi => (State.cmdOf_setCmd_ne _ _ hi).trans (hs.cmdOf i), hs.mem⟩
      exact (State.rd_wr_apart u _ _ _ _ _ (by decide) (by decide)).trans (hs.rd rfl q)
    case bad =>
      subst hserved hq
      have hs := State.vaAsk_served (by decide) hask
      refine ⟨_, congrArg Host.Outcome.next (htakes.packetParse_bad hpre hask hclean hp harmed hbad),
        State.cmdOf_setCmd_self _ _ _, ?_, ?_, hs.mem⟩
      · rw [State.on_setCmd]
        exact (hs.on_badpkt c.q).1
      · rw [State.rd_setCmd]
        exact (hs.on_badpkt c.q).2
  case start =>
    intro s id c
    have hputs := s.puts_start id c
    refine ⟨fun h => ?nop, fun h => ?fence, fun h => ?launch, fun h hsig => ?record, fun h => ?signal, fun h => ?wait,
      fun slot v g x h hgver hgraph hver hnode => ?graph, fun h harmed hstep => ?dump⟩
    case nop =>
      exact ⟨_, congrArg Host.Outcome.next (State.startNop_of_ready h), (hputs _).cmdOf_self,
        fun _ => (hputs _).cmdOf_ne, (hputs _).mem⟩
    case fence =>
      exact ⟨_, congrArg Host.Outcome.next (State.startFence_of_ready h), (hputs _).cmdOf_self,
        fun _ => (hputs _).cmdOf_ne, (hputs _).mem⟩
    case launch =>
      exact ⟨_, congrArg Host.Outcome.next (State.startLaunch_of_ready h), (hputs _).cmdOf_self, (hputs _).mem⟩
    case record =>
      obtain ⟨hc, hop⟩ := State.ready_some h
      have hrun := State.startRecord_of_ready h
      have ht := hputs (fun c => c)
      refine ⟨fun hfirst => ?goes, fun hlater => ?waits⟩
      case goes =>
        rw [State.recordSignal_goes (c := s.begun c) ht.cmdOf_self hop rfl hsig ((ht.earlier c.q).trans hfirst)] at hrun
        exact ⟨_, congrArg Host.Outcome.next hrun, State.cmdOf_setCmd_self _ _ _, ht.ops_pushSync _ _, ht.mem⟩
      case waits =>
        rw [State.recordSignal_waits (c := s.begun c) ht.cmdOf_self (fun he => hlater ((ht.earlier c.q).symm.trans he))] at hrun
        exact ⟨_, congrArg Host.Outcome.next hrun, ht.cmdOf_self, ht.syn, ht.mem⟩
    case signal =>
      have ht := hputs (fun c => { c with sig := true })
      exact ⟨_, congrArg Host.Outcome.next (State.startSignal_of_ready h), ht.cmdOf_self, ht.ops_pushSync _ _, ht.mem⟩
    case wait =>
      refine ⟨fun hn hv => ?zero, fun hn hroom => ?registers⟩
      case zero =>
        exact ⟨_, congrArg Host.Outcome.next (State.startWait_zero h hn hv), (hputs _).cmdOf_self, (hputs _).syn, (hputs _).mem⟩
      case registers =>
        have ht := hputs (fun c => { c with wait := .registering })
        exact ⟨_, congrArg Host.Outcome.next (State.startWait_registers h hn hroom), ht.cmdOf_self,
          ht.ops_pushSync _ _, ht.mem⟩
    case graph =>
      have ht := hputs (fun c => c)
      have hsame := State.addNodes_same id c.q x.nobind 0 x.nodes (s.start id c (fun c => c))
      refine ⟨_, congrArg Host.Outcome.next (State.startGraph_of_ready h hgver hgraph hver),
        (State.cmdOf_addNodes_le id c.q x.nobind hnode.le _ _).trans ht.cmdOf_self, fun k p hk => ?_, ?_⟩
      · simpa using State.cmdOf_addNodes id c.q x.nobind hk 0 (s.start id c (fun c => c))
      · exact ht.mem.trans hsame
    case dump =>
      have ht := hputs (fun c => c)
      have hrun := (State.dumpOp_of_ready h).trans (State.arm_next _ id hstep)
      obtain ⟨hcmd, hmem, hcapture⟩ := State.armEval_one (id := id)
        (s := { s.start id c (fun c => c) with dbg := { (s.start id c (fun c => c)).dbg with
          armed := (s.start id c (fun c => c)).dbg.armed ++ [⟨id, none, none, none, false⟩] } })
        (by simp [ht.armed harmed])
      exact ⟨_, congrArg Host.Outcome.next hrun, (congrArg (fun y : CmdSt => aget y.cmds id) hcmd).trans ht.cmdOf_self, hcapture,
        ht.mem.trans hmem⟩

end Sys2Proof.Machine
end

section
/-! SUPPORT. A line of stack memory written (08_berim_stacks.md R169, R175-R178): what every byte then reads, and what stays. -/

namespace Sys2Proof.Machine

open Sys2Proof

/-! ### Memory before a line is written -/

theorem State.mget_memFor_ne (s : State) (k : Nat) {ln a : Nat} (h : a / 128 ≠ ln) : mget (s.memFor k ln) a = mget s.mem a := by
  have hfilter : mget (s.mem.filter (fun c => c.1 / 128 != ln)) a = mget s.mem a := by
    rw [mget_filter (fun c => c / 128 != ln), if_pos (by simpa using h)]
  unfold State.memFor
  split
  · split
    · rfl
    · exact hfilter
  · rfl

theorem State.memFor_of_ser {s : State} {k ln : Nat} (h : ∃ m, mget s.lines ln = some m ∧ m.wser = s.keySer k) :
    s.memFor k ln = s.mem := by
  obtain ⟨m, hm, hser⟩ := h
  simp only [State.memFor, hm, if_pos hser]

/-! ### The kind of a line (R167) -/

theorem State.linePoison_congr {s t : State} {ln : Nat} (htrip : t.tripped ln = s.tripped ln)
    (hline : mget t.lines ln = mget s.lines ln) : t.linePoison ln = s.linePoison ln := by simp only [State.linePoison, htrip, hline]

theorem State.linePoison_of_line {s : State} {ln : Nat} {m : LineMeta} (htrip : s.tripped ln = false) (hline : mget s.lines ln = some m) :
    s.linePoison ln = m.poison := by simp only [State.linePoison, htrip, hline, Bool.false_eq_true, if_false]

/-! ### What the bytes of a written line read -/

/-- `t` is `s` with some bytes of a line written under a key: `put` names them. -/
structure State.LineWritten (s t : State) (k ln : Nat) (put : Nat → Option Byte) : Prop where
  frame : t = { s with mem := t.mem, lines := mput s.lines ln ⟨.none, s.keySer k⟩ }
  byte : ∀ i < 128, mget t.mem (128 * ln + i) = (put i).or (mget (s.memFor k ln) (128 * ln + i))
  other : ∀ a, a / 128 ≠ ln → mget t.mem a = mget s.mem a

section
variable {s t : State} {k ln : Nat} {put : Nat → Option Byte} (h : s.LineWritten t k ln put)
include h

theorem State.LineWritten.regs : t.regs = s.regs := by rw [h.frame]

theorem State.LineWritten.stk : t.stk = s.stk := by rw [h.frame]

theorem State.LineWritten.lines : t.lines = mput s.lines ln ⟨.none, s.keySer k⟩ := by rw [h.frame]

theorem State.LineWritten.keySer (j : Nat) : t.keySer j = s.keySer j := by simp only [State.keySer, h.stk]

theorem State.LineWritten.line_self : mget t.lines ln = some ⟨.none, s.keySer k⟩ := by rw [h.lines, mget_mput_self]

theorem State.LineWritten.line_ne {l : Nat} (hl : l ≠ ln) : mget t.lines l = mget s.lines l := by rw [h.lines, mget_mput_ne _ _ hl.symm]

theorem State.LineWritten.linePoison (htrip : s.tripped ln = false) : t.linePoison ln = .none :=
  State.linePoison_of_line ((State.on_of_regs h.regs _ _ _).trans htrip) h.line_self

/-- Under the writer's key a byte of the line reads what memory holds there. -/
theorem State.LineWritten.rdByte_self {i : Nat} (hi : i < 128) : t.rdByte k (128 * ln + i) =
    ((put i).or (mget (s.memFor k ln) (128 * ln + i))).getD (Config.openByte (s.keySer k) (128 * ln + i)) := by
  have hline : (128 * ln + i) / 128 = ln := by omega
  simp [State.rdByte, hline, h.line_self, h.keySer, h.byte i hi]

theorem State.LineWritten.rdByte_put {i : Nat} {b : Byte} (hi : i < 128) (hb : put i = some b) : t.rdByte k (128 * ln + i) = b := by
  rw [h.rdByte_self hi, hb]; rfl

/-- A byte that the write does not name keeps its value where the line was stored under the same key. -/
theorem State.LineWritten.rdByte_kept {i : Nat} (hi : i < 128) (hb : put i = none)
    (hser : ∃ m, mget s.lines ln = some m ∧ m.wser = s.keySer k) : t.rdByte k (128 * ln + i) = s.rdByte k (128 * ln + i) := by
  have hline : (128 * ln + i) / 128 = ln := by omega
  rw [h.rdByte_self hi, hb, State.memFor_of_ser hser]
  obtain ⟨m, hm, hk⟩ := hser
  simp [State.rdByte, hline, hm, hk]

/-- A byte of another line reads as before under every key. -/
theorem State.LineWritten.rdByte_ne (j : Nat) {a : Nat} (ha : a / 128 ≠ ln) : t.rdByte j a = s.rdByte j a := by
  have hplain (w : Nat) : t.plainLine w (a / 128) = s.plainLine w (a / 128) := by
    refine congrArg (fun l => BitVec.ofNat 1024 (leNat l)) (List.map_congr_left (fun i hi => ?_))
    have := List.mem_range.mp hi
    rw [h.other _ (by omega)]
  simp only [State.rdByte, State.cipherLine, h.line_ne ha, hplain, h.keySer, h.other a ha]

/-- Consecutive bytes written read as they were written. -/
theorem State.LineWritten.rdBytes {off : Nat} {bs : List Byte} (hn : off + bs.length ≤ 128)
    (hput : ∀ i (hi : i < bs.length), put (off + i) = some bs[i]) : t.rdBytes k (128 * ln + off) bs.length = bs := by
  refine List.ext_getElem (by simp [State.rdBytes]) (fun i _ hi => ?_)
  simp only [State.rdBytes, List.getElem_map, List.getElem_range, Nat.add_assoc]
  exact h.rdByte_put (by omega) (hput i hi)

end

/-! ### The writes of a line (R169) -/

/-- The byte of a line that `bs` puts there from byte `off` on. -/
def bytesFrom (off : Nat) (bs : List Byte) (i : Nat) : Option Byte := if off ≤ i then bs[i - off]? else none

theorem bytesFrom_add {off i : Nat} {bs : List Byte} (hi : i < bs.length) : bytesFrom off bs (off + i) = some bs[i] := by
  simp [bytesFrom, hi]

theorem mget_putBytes_line (m : List Host.Cell) (pa off i : Nat) (bs : List Byte) :
    mget (putBytes m (pa + off) bs) (pa + i) = (bytesFrom off bs i).or (mget m (pa + i)) := by
  by_cases hin : off ≤ i ∧ i - off < bs.length
  · obtain ⟨hle, hlt⟩ := hin
    obtain ⟨j, rfl⟩ := Nat.exists_eq_add_of_le hle
    have hj : j < bs.length := by omega
    rw [bytesFrom_add hj, ← Nat.add_assoc, mget_putBytes_inside m _ j bs hj, Option.some_or]
  · have hnone : bytesFrom off bs i = none := by
      unfold bytesFrom
      split
      · exact List.getElem?_eq_none (by omega)
      · rfl
    rw [hnone, mget_putBytes_outside _ _ _ _ (by omega), Option.none_or]

theorem State.wrLine_written {s : State} {ln off : Nat} {bs : List Byte} (k : Nat) (htrip : s.tripped ln = false)
    (htake : bs.length = 128 ∨ s.linePoison ln = .none) (hn : off + bs.length ≤ 128) :
    s.LineWritten (s.wrLine k ln off bs) k ln (bytesFrom off bs) := by
  have hgoes : (s.tripped ln || (decide (bs.length < 128) && s.linePoison ln != .none)) = false := by
    rcases htake with hfull | hclean
    · simp [htrip, hfull]
    · simp [htrip, hclean]
  have heq : s.wrLine k ln off bs =
      { s with mem := putBytes (s.memFor k ln) (128 * ln + off) bs, lines := mput s.lines ln ⟨.none, s.keySer k⟩ } := by
    simp only [State.wrLine, hgoes, Bool.false_eq_true, if_false]
  rw [heq]
  exact ⟨rfl, fun i _ => mget_putBytes_line _ _ _ _ _,
    fun a ha => (mget_putBytes_outside _ _ _ _ (by omega)).trans (s.mget_memFor_ne k ha)⟩

theorem State.wrLine_of_poisoned {s : State} {ln : Nat} {bs : List Byte} (k off : Nat) (hn : bs.length < 128)
    (hp : s.linePoison ln ≠ .none) : s.wrLine k ln off bs = s := by
  simp [State.wrLine, hn, hp]

/-- The byte of a line that a masked write puts there. -/
def maskedByte (mask : BitVec 128) (data : Line) (i : Nat) : Option Byte :=
  if mask.getLsbD i then some (data.extractLsb' (8 * i) 8) else none

theorem mget_maskBytes (mask : BitVec 128) (data : Line) (m : List Host.Cell) (ln n i : Nat) :
    mget (maskBytes mask data m ln n) (128 * ln + i) =
      if i < n then (maskedByte mask data i).or (mget m (128 * ln + i)) else mget m (128 * ln + i) := by
  induction n with
  | zero => rfl
  | succ n ih =>
    simp only [maskBytes]
    by_cases hi : i = n
    · subst hi
      rw [if_neg (lt_irrefl i)] at ih
      rw [if_pos (Nat.lt_succ_self i)]
      by_cases hm : mask.getLsbD i = true
      · simp [maskedByte, hm, mget_mput_self]
      · simp [maskedByte, hm, ih]
    · have hput : mget (if mask.getLsbD n = true then mput (maskBytes mask data m ln n) (128 * ln + n) (data.extractLsb' (8 * n) 8)
          else maskBytes mask data m ln n) (128 * ln + i) = mget (maskBytes mask data m ln n) (128 * ln + i) := by
        split
        · exact mget_mput_ne _ _ (by omega)
        · rfl
      rw [hput, ih]
      exact if_congr (by omega) rfl rfl

/-- A masked write leaves every byte that lies outside its line. -/
theorem mget_maskBytes_outside (mask : BitVec 128) (data : Line) (m : List Host.Cell) (ln n : Nat) {a : Nat}
    (h : a < 128 * ln ∨ 128 * ln + n ≤ a) : mget (maskBytes mask data m ln n) a = mget m a := by
  induction n with
  | zero => rfl
  | succ n ih =>
    simp only [maskBytes]
    split
    · rw [mget_mput_ne _ _ (by omega), ih (by omega)]
    · exact ih (by omega)

theorem State.wrMask_written {s : State} {ln : Nat} {mask : BitVec 128} (k : Nat) (data : Line)
    (htrip : s.tripped ln = false) (htake : mask = BitVec.allOnes 128 ∨ s.linePoison ln = .none) :
    s.LineWritten (s.wrMask k ln mask data) k ln (maskedByte mask data) := by
  have hgoes : (s.tripped ln || (mask != BitVec.allOnes 128 && s.linePoison ln != .none)) = false := by
    rcases htake with hfull | hclean
    · simp [htrip, hfull]
    · simp [htrip, hclean]
  have heq : s.wrMask k ln mask data =
      { s with mem := maskBytes mask data (s.memFor k ln) ln 128, lines := mput s.lines ln ⟨.none, s.keySer k⟩ } := by
    simp only [State.wrMask, hgoes, Bool.false_eq_true, if_false]
  rw [heq]
  exact ⟨rfl, fun i hi => (mget_maskBytes _ _ _ _ _ _).trans (if_pos hi),
    fun a ha => (mget_maskBytes_outside _ _ _ _ _ (by omega)).trans (s.mget_memFor_ne k ha)⟩

theorem State.wrMask_of_poisoned {s : State} {ln : Nat} {mask : BitVec 128} (k : Nat) (data : Line) (hm : mask ≠ BitVec.allOnes 128)
    (hp : s.linePoison ln ≠ .none) : s.wrMask k ln mask data = s := by
  have hstop : (mask != BitVec.allOnes 128 && s.linePoison ln != .none) = true := by rw [bne_iff_ne.mpr hm, bne_iff_ne.mpr hp]; rfl
  rw [State.wrMask, hstop, Bool.or_true, if_pos rfl]

/-- Settles O5: a whole line is taken whatever its kind, and each partial write stops at the poison. -/
theorem poisonedLineKeepsItsKind : Obligations.PoisonedLineKeepsItsKind := by
  refine ⟨fun s k ln bs htrip hlen => ?_, fun s k ln off bs hlen hp => s.wrLine_of_poisoned k off hlen hp,
    fun s k ln mask data hm hp => s.wrMask_of_poisoned k data hm hp⟩
  have h : s.LineWritten (s.wrLine k ln 0 bs) k ln (bytesFrom 0 bs) := State.wrLine_written k htrip (.inl hlen) (by omega)
  have hbytes := h.rdBytes (off := 0) (by omega) (fun i hi => bytesFrom_add hi)
  rw [hlen] at hbytes
  exact ⟨h.linePoison htrip, hbytes⟩

end Sys2Proof.Machine
end

section
/-! SUPPORT. The registers of a stack (08_berim_stacks.md R168-R174): its counts, its error log, its status and what it retires. -/

namespace Sys2Proof.Machine

open Sys2Proof

/-! ### Registers left, and fields written -/

theorem State.RegsBut.mono {l l' : List Reg} {s t : State} (h : s.RegsBut l t) (hl : l ⊆ l') : s.RegsBut l' t :=
  fun r hr => h r (fun hm => hr (hl hm))

theorem State.RegsBut.on {l : List Reg} {s t : State} (h : s.RegsBut l t) (f : Fld) (hf : f.reg ∉ l) (i j : Nat) :
    t.on f i j = s.on f i j := by rw [State.on, h.rd f hf, State.on]

theorem State.RegsBut.capFrom {l : List Reg} {s t : State} (h : s.RegsBut l t) (old : State) (hc : .CAP ∈ l) :
    s.RegsBut l (t.capFrom old) := by
  refine h.trans (fun r hr i j => BitVec.eq_of_toNat_eq ?_)
  rw [State.toNat_reg, State.toNat_reg]
  exact t.rd_capFrom old _ i j (fun (e : r = _) => hr (e ▸ hc))

theorem State.on_wr_self (s : State) (f : Fld) (b : Bool) (i j : Nat) (hlo : f.lo + f.wid ≤ 64) (hwid : f.wid = 1) :
    (s.wr f (b2n b) i j).on f i j = b := by
  rw [State.on, s.rd_wr_self f _ i j hlo, hwid]
  cases b <;> rfl

theorem State.on_wr_apart (s : State) {f g : Fld} (v i j i' j' : Nat) (hf : f.lo + f.wid ≤ 64)
    (h : f.reg ≠ g.reg ∨ g.lo + g.wid ≤ f.lo ∨ f.lo + f.wid ≤ g.lo) : (s.wr f v i j).on g i' j' = s.on g i' j' := by
  rw [State.on, s.rd_wr_apart v i j i' j' hf h, State.on]

/-- A count goes on by one, up to the largest value of its field. -/
theorem State.rd_incSat_self (s : State) (f : Fld) (i j : Nat) (hf : f.lo + f.wid ≤ 64) :
    (s.incSat f i j).rd f i j = min (2 ^ f.wid - 1) (s.rd f i j + 1) := by
  have := Nat.two_pow_pos f.wid
  rw [State.incSat, s.rd_wr_self f _ i j hf, satTo, Nat.mod_eq_of_lt (by omega)]

/-! ### The error log (R168) -/

theorem State.eLog_of_later {s : State} {n : Nat} (h : s.on F.STK_ELOG_VALID n = true) (addr kind : Nat) :
    s.eLog n addr kind = s.wr F.STK_ELOG_OVF 1 n := by rw [State.eLog, if_pos h]

theorem State.eLog_of_first {s : State} {n : Nat} (h : s.on F.STK_ELOG_VALID n = false) (addr kind : Nat) :
    s.eLog n addr kind = ((s.wr F.STK_ELOG_ADDR addr n).wr F.STK_ELOG_KIND kind n).wr F.STK_ELOG_VALID 1 n := by
  rw [State.eLog, h]; rfl

theorem State.regsBut_eLog (s : State) (n addr kind : Nat) : s.RegsBut [.STK_ELOG] (s.eLog n addr kind) :=
  have h0 := State.RegsBut.refl [.STK_ELOG] s
  .ite (h0.wr _ _ _ _ (by decide)) (((h0.wr _ _ _ _ (by decide)).wr _ _ _ _ (by decide)).wr _ _ _ _ (by decide))

/-- What an error counted in `f` and logged leaves. -/
def State.errorNoted (s : State) (f : Fld) (n addr kind : Nat) : State := (s.incSat f n).eLog n addr kind

theorem State.errorNoted_frame (s : State) (f : Fld) (n addr kind : Nat) : ∃ r, s.errorNoted f n addr kind = { s with regs := r } := by
  unfold State.errorNoted State.eLog
  split <;> exact ⟨_, rfl⟩

section
variable (s : State) {f : Fld} (n addr kind : Nat)

theorem State.rd_errorNoted_of_ecc {g : Fld} (hg : g.reg = .STK_ECC) :
    (s.errorNoted f n addr kind).rd g n = (s.incSat f n).rd g n :=
  (State.regsBut_eLog _ n addr kind).rd g (by rw [hg]; decide) n 0

variable (hlo : f.lo + f.wid ≤ 64)
include hlo

theorem State.rd_errorNoted_uncounted {g : Fld} (hg : g.reg = .STK_ECC) (h : g.lo + g.wid ≤ f.lo ∨ f.lo + f.wid ≤ g.lo) :
    (s.errorNoted f n addr kind).rd g n = s.rd g n :=
  (s.rd_errorNoted_of_ecc n addr kind hg).trans (s.rd_wr_apart _ _ _ _ _ hlo (.inr h))

variable (hf : f.reg = .STK_ECC)
include hf

theorem State.rd_errorNoted_count : (s.errorNoted f n addr kind).rd f n = min (2 ^ f.wid - 1) (s.rd f n + 1) :=
  (s.rd_errorNoted_of_ecc n addr kind hf).trans (s.rd_incSat_self f n 0 hlo)

theorem State.on_trip_errorNoted (m : Nat) : (s.errorNoted f n addr kind).on F.STK_STAT_TRIP m = s.on F.STK_STAT_TRIP m :=
  ((State.regsBut_eLog _ n addr kind).on _ (by decide) m 0).trans
    (s.on_wr_apart _ _ _ _ _ hlo (.inl (by rw [hf]; decide)))

theorem State.rd_elog_incSat {g : Fld} (hg : g.reg = .STK_ELOG) : (s.incSat f n).rd g n = s.rd g n :=
  s.rd_wr_apart _ _ _ _ _ hlo (.inl (by rw [hf, hg]; decide))

theorem State.errorNoted_first (h : s.on F.STK_ELOG_VALID n = false) :
    (s.errorNoted f n addr kind).on F.STK_ELOG_VALID n = true ∧ (s.errorNoted f n addr kind).rd F.STK_ELOG_KIND n = kind % 4 ∧
      (s.errorNoted f n addr kind).rd F.STK_ELOG_ADDR n = addr % 2 ^ 37 := by
  have hvalid : (s.incSat f n).on F.STK_ELOG_VALID n = false := by rw [State.on, s.rd_elog_incSat n hlo hf rfl]; exact h
  rw [State.errorNoted, State.eLog_of_first hvalid]
  refine ⟨State.on_wr_self _ _ true _ _ (by decide) rfl, ?_, ?_⟩
  · rw [State.rd_wr_apart _ _ _ _ _ _ (by decide) (by decide)]
    exact State.rd_wr_self _ _ _ _ _ (by decide)
  · rw [State.rd_wr_apart _ _ _ _ _ _ (by decide) (by decide), State.rd_wr_apart _ _ _ _ _ _ (by decide) (by decide)]
    exact State.rd_wr_self _ _ _ _ _ (by decide)

theorem State.errorNoted_later (h : s.on F.STK_ELOG_VALID n = true) :
    (s.errorNoted f n addr kind).on F.STK_ELOG_OVF n = true ∧
      (s.errorNoted f n addr kind).rd F.STK_ELOG_ADDR n = s.rd F.STK_ELOG_ADDR n := by
  have hvalid : (s.incSat f n).on F.STK_ELOG_VALID n = true := by rw [State.on, s.rd_elog_incSat n hlo hf rfl]; exact h
  rw [State.errorNoted, State.eLog_of_later hvalid]
  exact ⟨State.on_wr_self _ _ true _ _ (by decide) rfl,
    (State.rd_wr_apart _ _ _ _ _ _ (by decide) (by decide)).trans (s.rd_elog_incSat n hlo hf rfl)⟩

end

/-! ### A granule retired (R171, R172) -/

/-- The registers that a retirement writes: the stack's queue and list, the interrupt, and the view of the module. -/
def retireRegs : List Reg := [.STK_RETIRE, .STK_STAT, .INT_SRC_CTL, .INT_ISL, .CAP]

/-- `t` is `s` after a granule may have been retired. -/
structure State.Retires (s t : State) : Prop where
  mem : SameMemory s t
  coh : t.coh = s.coh
  thr : t.thr = s.thr
  regs : s.RegsBut retireRegs t
  trip : ∀ m, t.on F.STK_STAT_TRIP m = s.on F.STK_STAT_TRIP m

theorem State.Retires.of_stk (s : State) (k : StkSt) : s.Retires { s with stk := k } :=
  ⟨⟨rfl, rfl, rfl⟩, rfl, rfl, .refl _ s, fun _ => rfl⟩

theorem State.Retires.refl (s : State) : s.Retires s := State.Retires.of_stk s s.stk

theorem State.Retires.trans {s t u : State} (h : s.Retires t) (k : t.Retires u) : s.Retires u :=
  ⟨h.mem.trans k.mem, k.coh.trans h.coh, k.thr.trans h.thr, h.regs.trans k.regs, fun m => (k.trip m).trans (h.trip m)⟩

theorem State.Retires.ite {s a b : State} {c : Prop} [Decidable c] (h : s.Retires a) (k : s.Retires b) :
    s.Retires (if c then a else b) := by
  split <;> assumption

theorem State.retires_wr (s : State) (f : Fld) (v i : Nat) (hf : f.reg ∈ retireRegs) (hlo : f.lo + f.wid ≤ 64)
    (h : f.reg ≠ .STK_STAT ∨ 12 ≤ f.lo) : s.Retires (s.wr f v i) :=
  ⟨⟨rfl, rfl, rfl⟩, rfl, rfl, (State.RegsBut.refl _ s).wr f v i 0 hf,
    fun _ => s.on_wr_apart _ _ _ _ _ hlo (h.imp_right (fun hl => .inl hl))⟩

theorem State.retires_showRetire (s : State) (n : Nat) : s.Retires (s.showRetire n) := by
  have hshow (v w : Nat) : s.Retires ((s.wr F.STK_RETIRE_GRANULE v n).wr F.STK_RETIRE_PENDING w n) :=
    (s.retires_wr _ _ _ (by decide) (by decide) (by decide)).trans (State.retires_wr _ _ _ _ (by decide) (by decide) (by decide))
  unfold State.showRetire
  split <;> exact hshow _ _

theorem State.retires_showList (s : State) (n : Nat) : s.Retires (s.showList n) :=
  (s.retires_wr _ _ _ (by decide) (by decide) (by decide)).trans (State.retires_wr _ _ _ _ (by decide) (by decide) (by decide))

theorem State.retires_raise (s : State) (n : Nat) : s.Retires (s.raise n) :=
  ⟨⟨by simp, by simp, by simp⟩, by simp, by simp, (State.RegsBut.refl _ s).raise n (by decide) (by decide),
    fun m => congrArg (· == 1) (s.rd_raise n _ m 0 (by decide) (by decide))⟩

theorem State.retires_capFrom (s old : State) : s.Retires (s.capFrom old) := by
  have hframe : ∃ r, s.capFrom old = { s with regs := r } := by
    unfold State.capFrom
    split <;> exact ⟨_, rfl⟩
  obtain ⟨r, hr⟩ := hframe
  exact ⟨by rw [hr]; exact ⟨rfl, rfl, rfl⟩, by rw [hr], by rw [hr], (State.RegsBut.refl _ s).capFrom old (by decide),
    fun m => congrArg (· == 1) (s.rd_capFrom old _ m 0 (by decide))⟩

theorem State.retires_retireGranule (s : State) (n g : Nat) : s.Retires (s.retireGranule n g) := by
  unfold State.retireGranule
  extract_lets k queued
  have hqueued : s.Retires queued := .of_stk s _
  refine .ite (.refl s) (hqueued.trans ?_)
  exact (((State.retires_showRetire _ n).trans (State.retires_showList _ n)).trans (State.retires_raise _ _)).trans
    (State.retires_capFrom _ s)

/-! ### What the checker's finding leaves (R168-R170) -/

theorem State.retires_corrected (s : State) (n loc sec : Nat) :
    (s.errorNoted F.STK_ECC_CE n (loc + 32 * (sec % 4)) 1).Retires (s.corrected n loc sec) := by
  unfold State.corrected
  extract_lets g k noted stk fixed
  have hfixed : noted.Retires fixed := .ite (.refl noted) (.of_stk noted _)
  exact .ite (hfixed.trans (State.retires_retireGranule _ _ _)) hfixed

theorem State.retires_uncorrectable (s : State) (ln n loc sec kind : Nat) :
    ((s.errorNoted F.STK_ECC_UE n (loc + 32 * (sec % 4)) kind).setPoison ln .poison).Retires (s.uncorrectable ln n loc sec kind) :=
  State.retires_retireGranule _ _ _

theorem State.Retires.linePoison {s t : State} (h : s.Retires t) (ln : Nat) : t.linePoison ln = s.linePoison ln :=
  State.linePoison_congr (h.trip _) (by rw [h.mem.2.1])

/-- A line stored with a kind has it while its stack runs, and every other line keeps its own. -/
theorem State.linePoison_setPoison_self {s : State} {ln : Nat} (h : s.tripped ln = false) (p : Poison) :
    (s.setPoison ln p).linePoison ln = p :=
  State.linePoison_of_line (s := s.setPoison ln p) h (mget_mput_self _ _ _)

theorem State.linePoison_setPoison_ne (s : State) {ln l : Nat} (h : l ≠ ln) (p : Poison) :
    (s.setPoison ln p).linePoison l = s.linePoison l :=
  State.linePoison_congr (t := s.setPoison ln p) rfl (mget_mput_ne _ _ h.symm)

theorem State.eccRead_ok (s : State) (ln kind : Nat) : s.eccRead ln kind .ok = s := by
  unfold State.eccRead
  split <;> rfl

section
variable {s : State} {ln : Nat} (htop : 128 * ln < stackTop) (htrip : s.tripped ln = false) (hbuf : s.buffered ln = false)
include htop htrip hbuf

theorem State.eccRead_corrected (kind sec : Nat) :
    s.eccRead ln kind (.corrected sec) = s.corrected (homeOf ln) (stackOf (128 * ln)).2 sec := by
  simp [State.eccRead, Nat.not_le.mpr htop, htrip, hbuf]

theorem State.eccRead_bad (kind sec : Nat) :
    s.eccRead ln kind (.bad sec) = s.uncorrectable ln (homeOf ln) (stackOf (128 * ln)).2 sec kind := by
  simp [State.eccRead, Nat.not_le.mpr htop, htrip, hbuf]

end

end Sys2Proof.Machine
end

section
/-! SUPPORT. Reads, writes and reductions at a stack (08_berim_stacks.md R168-R170, R179-R185). -/

namespace Sys2Proof.Machine

open Sys2Proof

/-! ### A write within a line -/

/-- Bytes that lie within a line are written by one write of it. -/
theorem State.wrBytes_within (s : State) (k ln : Nat) {off : Nat} {bs : List Byte} (h0 : bs ≠ []) (hn : off + bs.length ≤ 128) :
    s.wrBytes k (128 * ln + off) bs = s.wrLine k ln off bs := by
  have hpos : 0 < bs.length := List.length_pos_iff.mpr h0
  have hline : (128 * ln + off) / 128 = ln := by omega
  have hoff : (128 * ln + off) % 128 = off := by omega
  have hmore : bs.isEmpty = false := by simpa using h0
  have hfits : bs.length ≤ 128 - off := by omega
  simp only [State.wrBytes, State.wrLines, hline, hoff, hmore, List.take_of_length_le hfits, List.drop_eq_nil_of_le hfits,
    List.isEmpty_nil, Bool.false_eq_true, if_false, if_true]

/-- What a byte reads follows memory, the lines and the keys. -/
theorem State.rdByte_of_keys {s t : State} (hmem : SameMemory s t) (hkeys : t.stk.keys = s.stk.keys) (k a : Nat) :
    t.rdByte k a = s.rdByte k a := by
  have hstk : t.rdByte k a = ({ s with stk := t.stk } : State).rdByte k a :=
    State.rdByte_congr (s := { s with stk := t.stk }) hmem rfl k a
  rw [hstk]
  simp only [State.rdByte, State.keySer, hkeys]
  rfl

/-! ### A write that reaches a stack (R169) -/

theorem State.purge_frame (s : State) (ln : Nat) : ∃ c, s.purge ln = { s with coh := c } := by
  unfold State.purge
  split <;> exact ⟨_, rfl⟩

theorem State.dirOf_purge {s : State} {ln : Nat} (h : s.dirOf ln = none) : (s.purge ln).dirOf ln = none := by
  unfold State.purge
  split
  · exact h
  · exact mget_mdel_self _ _

theorem State.lineBusy_purge (s : State) (ln l : Nat) : (s.purge ln).lineBusy l = s.lineBusy l := by
  unfold State.purge
  split <;> rfl

theorem State.stackWrite_unheld {s : State} {ln key : Nat} (mask : BitVec 128) (data : Line) (htop : 128 * ln < stackTop)
    (hkey : key ≤ 16) (hbusy : s.lineBusy ln = false) (hdir : s.dirOf ln = none) :
    s.stackWrite ln key mask data = (s.purge ln).wrMask key ln mask data := by
  simp [State.stackWrite, Nat.not_le.mpr htop, Nat.not_lt.mpr hkey, State.dirOf_purge hdir, s.lineBusy_purge, hbusy]

/-! ### The home goes on (10_coherence.md R217) -/

theorem State.advance_of_idle {s : State} (ht : s.coh.txns = []) (hq : s.coh.queued = []) (ln : Nat) : s.advance ln = s := by
  have hsettle : s.settleTxn ln = s := by simp [State.settleTxn, ht]
  have hheads : s.heads = [] := by simp [State.heads, hq]
  rw [State.advance, hsettle, State.pumpAll, hq]
  simp [State.pump, hheads]

theorem State.failUpd_of_none {s : State} (ht : s.coh.txns = []) (ln : Nat) (p : Poison) : s.failUpd ln p = s := by
  have hcoh : ({ s.coh with txns := [] } : CohSt) = s.coh := by rw [← ht]
  simp only [State.failUpd, ht, List.map_nil, hcoh]

/-- `t` is `s` after events of a home were counted: with its counters off nothing has changed. -/
structure State.HomeCounted (s t : State) (h : Nat) : Prop where
  work : s.SameWork t
  coh : t.coh = s.coh
  regs : s.RegsBut abortRegs t
  off : s.on F.TAL_CTL_EN (talSet (h / 4) (144 + h % 4)) = false → t = s

theorem State.homeCounted_tallyHome (s : State) (h code v : Nat) : s.HomeCounted (s.tallyHome h code v) h :=
  ⟨s.sameWork_tally _ _ _ _ _, s.tally_coh _ _ _ _ _, s.regsBut_tally _ _ _ _ _, fun hoff => s.tally_of_off _ _ _ _ _ hoff⟩

theorem State.HomeCounted.trans {s t u : State} {h : Nat} (ht : s.HomeCounted t h) (hu : t.HomeCounted u h) : s.HomeCounted u h :=
  ⟨ht.work.trans hu.work, hu.coh.trans ht.coh, ht.regs.trans hu.regs, fun hoff => by
    have hs := ht.off hoff
    subst hs
    exact hu.off hoff⟩

theorem State.HomeCounted.ite {s a b : State} {h : Nat} {c : Prop} [Decidable c] (ha : s.HomeCounted a h) (hb : s.HomeCounted b h) :
    s.HomeCounted (if c then a else b) h := by split <;> assumption

theorem State.SameWork.stk {s t : State} (h : s.SameWork t) : t.stk = s.stk := by
  obtain ⟨-, -, -, -, -, -, -, -, -, hstk, -⟩ := h
  exact hstk

theorem State.SameWork.cmd {s t : State} (h : s.SameWork t) : t.cmd = s.cmd := by
  obtain ⟨-, -, -, -, -, hcmd, -⟩ := h
  exact hcmd

/-! ### An update applied (R180, R184) -/

/-- The home counts an update, and whether its line was in a combine buffer. -/
def State.updCounted (s : State) (ln : Nat) : State :=
  let s := s.tallyHome (homeOf ln) 0x207 1
  if s.buffered ln then s.tallyHome (homeOf ln) 0x208 1 else s.stkRead ln

theorem State.homeCounted_updCounted (s : State) (ln : Nat) : s.HomeCounted (s.updCounted ln) (homeOf ln) :=
  (s.homeCounted_tallyHome _ _ _).trans (.ite (State.homeCounted_tallyHome _ _ _ _) (State.homeCounted_tallyHome _ _ _ _))

/-- An update leaves the queue. -/
def State.takeUpd (s : State) (u : RedUpd) : State := { s with stk := { s.stk with upd := s.stk.upd.erase u } }

/-- An update off the queue, counted, and its line used in the combine buffer. -/
def State.updReady (s : State) (ln : Nat) (u : RedUpd) : State := ((s.takeUpd u).updCounted ln).useBuffer ln u.key

theorem State.updReady_same (s : State) (ln : Nat) (u : RedUpd) : SameMemory s (s.updReady ln u) :=
  ((s.takeUpd u).homeCounted_updCounted ln).work.sameMemory

theorem State.updReady_cmd (s : State) (ln : Nat) (u : RedUpd) : (s.updReady ln u).cmd = s.cmd :=
  ((s.takeUpd u).homeCounted_updCounted ln).work.cmd

theorem State.updReady_coh (s : State) (ln : Nat) (u : RedUpd) : (s.updReady ln u).coh = s.coh :=
  ((s.takeUpd u).homeCounted_updCounted ln).coh

/-- The update is off the queue, its line is the last of the combine buffers, and the keys stay. -/
theorem State.updReady_stk (s : State) (ln : Nat) (u : RedUpd) : (s.updReady ln u).stk.keys = s.stk.keys ∧
    (s.updReady ln u).stk.upd = s.stk.upd.erase u ∧ (s.updReady ln u).stk.comb.getLast? = some ⟨ln, u.key⟩ := by
  have hstk := ((s.takeUpd u).homeCounted_updCounted ln).work.stk
  exact ⟨(congrArg StkSt.keys hstk :), (congrArg StkSt.upd hstk :), List.getLast?_concat⟩

theorem State.tripped_updReady (s : State) (ln : Nat) (u : RedUpd) (l : Nat) : (s.updReady ln u).tripped l = s.tripped l :=
  ((s.takeUpd u).homeCounted_updCounted ln).regs.on F.STK_STAT_TRIP (by decide) _ 0

theorem State.linePoison_updReady (s : State) (ln : Nat) (u : RedUpd) (l : Nat) : (s.updReady ln u).linePoison l = s.linePoison l :=
  State.linePoison_congr (s.tripped_updReady ln u l) (by rw [(s.updReady_same ln u).2.1])

theorem State.updReady_regs {s : State} {ln : Nat} (hoff : s.on F.TAL_CTL_EN (talSet (homeOf ln / 4) (144 + homeOf ln % 4)) = false)
    (u : RedUpd) : (s.updReady ln u).regs = s.regs :=
  (congrArg State.regs (((s.takeUpd u).homeCounted_updCounted ln).off hoff) :)

theorem State.rdByte_updReady (s : State) (ln : Nat) (u : RedUpd) (k a : Nat) : (s.updReady ln u).rdByte k a = s.rdByte k a :=
  State.rdByte_of_keys (s.updReady_same ln u) (s.updReady_stk ln u).1 k a

theorem State.rdNat_updReady (s : State) (ln : Nat) (u : RedUpd) (k a n : Nat) : (s.updReady ln u).rdNat k a n = s.rdNat k a n := by
  simp only [State.rdNat, State.rdBytes, s.rdByte_updReady ln u]

theorem State.applyUpd_frame (s : State) (u : RedUpd) : ∃ m l, s.applyUpd u = { s with mem := m, lines := l } := s.wrBytes_frame _ _ _

/-- The bytes that an update puts into its element. -/
def State.updBytes (s : State) (u : RedUpd) : List Byte :=
  leBytes (redBytes u.ty)
    (redUpdate ⟨u.strict, false, false⟩ u.op u.ty (s.rdNat u.key (128 * u.line + u.off) (redBytes u.ty)) u.v.toNat)

theorem State.length_updBytes (s : State) (u : RedUpd) : (s.updBytes u).length = redBytes u.ty := length_leBytes _ _

theorem redBytes_pos (ty : RedTy) : 0 < redBytes ty := by cases ty <;> decide

theorem State.applyUpd_written {s : State} {u : RedUpd} (htrip : s.tripped u.line = false)
    (hp : s.linePoison u.line = .none) (hn : u.off + redBytes u.ty ≤ 128) :
    s.LineWritten (s.applyUpd u) u.key u.line (bytesFrom u.off (s.updBytes u)) := by
  have hlen : u.off + (s.updBytes u).length ≤ 128 := by rw [s.length_updBytes]; exact hn
  have hpos : s.updBytes u ≠ [] := List.ne_nil_of_length_pos (by rw [s.length_updBytes]; exact redBytes_pos u.ty)
  have heq : s.applyUpd u = s.wrLine u.key u.line u.off (s.updBytes u) := s.wrBytes_within u.key u.line hpos hlen
  rw [heq]
  exact State.wrLine_written u.key htrip (.inr hp) hlen

theorem State.rdNat_applyUpd {s : State} {u : RedUpd} (htrip : s.tripped u.line = false)
    (hp : s.linePoison u.line = .none) (hn : u.off + redBytes u.ty ≤ 128) :
    (s.applyUpd u).rdNat u.key (128 * u.line + u.off) (redBytes u.ty) =
      redUpdate ⟨u.strict, false, false⟩ u.op u.ty (s.rdNat u.key (128 * u.line + u.off) (redBytes u.ty)) u.v.toNat %
        2 ^ (8 * redBytes u.ty) := by
  have hbytes := (State.applyUpd_written htrip hp hn).rdBytes (off := u.off) (by rw [s.length_updBytes]; exact hn)
    (fun i hi => bytesFrom_add hi)
  rw [s.length_updBytes] at hbytes
  rw [State.rdNat, hbytes, State.updBytes, leNat_leBytes, pow_mul]
  rfl

section
variable {s : State} {ln : Nat} {u : RedUpd} (hu : s.stk.upd.find? (fun u => u.line == ln) = some u) (htrip : s.tripped ln = false)
  (ht : s.coh.txns = []) (hq : s.coh.queued = [])
include hu htrip ht hq

theorem State.reductionApply_poisoned (hp : s.linePoison ln ≠ .none) : s.reductionApply ln .ok = s.takeUpd u := by
  have htrip' : (s.takeUpd u).tripped ln = false := htrip
  have hp' : ((s.takeUpd u).linePoison ln != .none) = true := bne_iff_ne.mpr hp
  have hfail : (s.takeUpd u).failUpd ln ((s.takeUpd u).linePoison ln) = s.takeUpd u := State.failUpd_of_none (s := s.takeUpd u) ht ln _
  have hadv : (s.takeUpd u).advance ln = s.takeUpd u := State.advance_of_idle (s := s.takeUpd u) ht hq ln
  unfold State.takeUpd at *
  simp only [State.reductionApply, hu, State.eccRead_ok, htrip', hp', hfail, hadv, Bool.false_eq_true, if_false, if_true]

theorem State.reductionApply_clean (hp : s.linePoison ln = .none) :
    s.reductionApply ln .ok = (s.updReady ln u).applyUpd u := by
  have htrip' : (s.takeUpd u).tripped ln = false := htrip
  have hp' : ((s.takeUpd u).linePoison ln != .none) = false := bne_eq_false_iff_eq.mpr hp
  obtain ⟨m, l, hframe⟩ := (s.updReady ln u).applyUpd_frame u
  have hcoh : ((s.updReady ln u).applyUpd u).coh = s.coh := by rw [hframe]; exact s.updReady_coh ln u
  have hadv := State.advance_of_idle (by rw [hcoh, ht]) (by rw [hcoh, hq]) ln
  unfold State.takeUpd at *
  simp only [State.reductionApply, hu, State.eccRead_ok, htrip', hp', Bool.false_eq_true, if_false]
  exact hadv

end

/-- Settles O32: a finding leaves what its count, its log entry and a retirement write; a write acts on the line alone; an update acts
on what its counts leave. -/
theorem stackReads : Obligations.StackReads := by
  refine ⟨fun s ln => ⟨congrArg Host.Outcome.next (s.eccRead_ok ln 2), congrArg Host.Outcome.next (s.eccRead_ok ln 3)⟩, ?corrected,
    ?bad, ?write, ?update, fun s ln => rfl⟩
  case corrected =>
    rintro s ln sec n i htop htrip hbuf rfl hi
    have hret := s.retires_corrected (homeOf ln) (stackOf (128 * ln)).2 sec
    have hexec : exec i s = .next (s.corrected (homeOf ln) (stackOf (128 * ln)).2 sec) := by
      rcases hi with rfl | rfl <;> exact congrArg Host.Outcome.next (State.eccRead_corrected htop htrip hbuf _ sec)
    obtain ⟨r, hframe⟩ := s.errorNoted_frame F.STK_ECC_CE (homeOf ln) ((stackOf (128 * ln)).2 + 32 * (sec % 4)) 1
    refine ⟨_, hexec, ?_, ?_, fun hfirst => ?_, fun hlater => ?_, ?_, ?_, ?_⟩
    · rw [hret.regs.rd _ (by decide)]
      exact s.rd_errorNoted_count _ _ _ (by decide) rfl
    · rw [hret.regs.rd _ (by decide)]
      exact s.rd_errorNoted_uncounted _ _ _ (by decide) rfl (by decide)
    · rw [hret.regs.on _ (by decide), hret.regs.rd _ (by decide), hret.regs.rd _ (by decide)]
      exact s.errorNoted_first _ _ _ (by decide) rfl hfirst
    · rw [hret.regs.on _ (by decide), hret.regs.rd _ (by decide)]
      exact s.errorNoted_later _ _ _ (by decide) rfl hlater
    · exact SameMemory.trans (by rw [hframe]; exact ⟨rfl, rfl, rfl⟩) hret.mem
    · exact hret.coh.trans (by rw [hframe])
    · exact hret.thr.trans (by rw [hframe])
  case bad =>
    rintro s ln sec n htop htrip hbuf rfl i k hi
    have hret := s.retires_uncorrectable ln (homeOf ln) (stackOf (128 * ln)).2 sec k
    have hexec : exec i s = .next (s.uncorrectable ln (homeOf ln) (stackOf (128 * ln)).2 sec k) := by
      rcases hi with ⟨rfl, rfl⟩ | ⟨rfl, rfl⟩ <;> exact congrArg Host.Outcome.next (State.eccRead_bad htop htrip hbuf _ sec)
    have hk : k % 4 = k := by rcases hi with ⟨-, rfl⟩ | ⟨-, rfl⟩ <;> rfl
    obtain ⟨r, hframe⟩ := s.errorNoted_frame F.STK_ECC_UE (homeOf ln) ((stackOf (128 * ln)).2 + 32 * (sec % 4)) k
    have htripped (m : Nat) :
        (s.errorNoted F.STK_ECC_UE (homeOf ln) ((stackOf (128 * ln)).2 + 32 * (sec % 4)) k).tripped m = s.tripped m :=
      s.on_trip_errorNoted (f := F.STK_ECC_UE) _ _ _ (by decide) rfl _
    refine ⟨_, hexec, ?_, fun m hm => ?_, ?_, ?_, fun hfirst => ?_, ?_⟩
    · rw [hret.linePoison]
      exact State.linePoison_setPoison_self ((htripped ln).trans htrip) _
    · rw [hret.linePoison, State.linePoison_setPoison_ne _ hm]
      exact State.linePoison_congr (htripped m) (by rw [hframe])
    · exact hret.mem.1.trans (by rw [State.setPoison_mem, hframe])
    · rw [hret.regs.rd _ (by decide)]
      exact s.rd_errorNoted_count _ _ _ (by decide) rfl
    · rw [hret.regs.on _ (by decide), hret.regs.rd _ (by decide)]
      obtain ⟨hvalid, hkind, -⟩ := s.errorNoted_first (f := F.STK_ECC_UE) (homeOf ln) ((stackOf (128 * ln)).2 + 32 * (sec % 4)) k
        (by decide) rfl hfirst
      exact ⟨hvalid, hkind.trans hk⟩
    · exact hret.coh.trans (by rw [State.setPoison_coh, hframe])
  case write =>
    intro s ln key mask data htop hkey htrip hbusy hdir htake
    have heq := State.stackWrite_unheld mask data htop hkey hbusy hdir
    obtain ⟨c, hpurge⟩ := s.purge_frame ln
    have hw := State.wrMask_written (s := s.purge ln) key data (ln := ln) (by rw [hpurge]; exact htrip) (by rw [hpurge]; exact htake)
    have hread (k a : Nat) : (s.purge ln).rdByte k a = s.rdByte k a := by rw [hpurge]; rfl
    refine ⟨_, congrArg Host.Outcome.next heq, fun i hi hm => ?_, fun i hi hm hser => ?_, fun k a ha => ?_, ?_, ?_⟩
    · exact hw.rdByte_put hi (by rw [maskedByte, if_pos hm])
    · rw [hw.rdByte_kept hi (by rw [maskedByte, hm]; rfl) (by rw [hpurge]; exact hser), hread]
    · rw [hw.rdByte_ne k ha, hread]
    · exact hw.linePoison (by rw [hpurge]; exact htrip)
    · exact hw.regs.trans (by rw [hpurge])
  case update =>
    rintro s ln n a u hu htop htrip ht hq rfl rfl hn
    have hline : u.line = ln := by simpa using List.find?_some hu
    subst hline
    refine ⟨fun hp => ?clean, fun hp => congrArg Host.Outcome.next (State.reductionApply_poisoned hu htrip ht hq hp)⟩
    obtain ⟨-, hupd, hcomb⟩ := s.updReady_stk u.line u
    have hruns : (s.updReady u.line u).tripped u.line = false := (s.tripped_updReady _ _ _).trans htrip
    have hclean : (s.updReady u.line u).linePoison u.line = .none := (s.linePoison_updReady _ _ _).trans hp
    have hw := State.applyUpd_written hruns hclean hn
    refine ⟨_, congrArg Host.Outcome.next (State.reductionApply_clean hu htrip ht hq hp),
      ?_, ?_, ?_, fun k p hk => ?_, ?_, fun hoff => ?_⟩
    · rw [hw.stk, hupd]
    · rw [hw.stk, hcomb]
    · rw [State.rdNat_applyUpd hruns hclean hn, s.rdNat_updReady]
    · rw [hw.rdByte_ne k hk, s.rdByte_updReady]
    · rw [hw.frame]
      exact s.updReady_cmd _ _
    · rw [hw.regs, State.updReady_regs hoff]

end Sys2Proof.Machine
end

section
/-! SUPPORT. Refresh, temperature and the queue of retired granules (08_berim_stacks.md R171, R173, R174), and the trip of a stack while
no context is left (17_fault_tolerance.md R349, R355). -/

namespace Sys2Proof.Machine

open Sys2Proof

/-! ### What a trip writes when no context is left -/

/-- The registers that a record of the recovery log writes, with the triggers it fires. -/
def logRegs : List Reg := .REC_LOG_PTR :: .CAP :: abortRegs

theorem abortRegs_subset_logRegs : abortRegs ⊆ logRegs := by decide

theorem State.regsBut_trigLog (s : State) : s.RegsBut logRegs s.trigLog :=
  (State.RegsBut.refl logRegs s).foldl _ (fun s d => (s.regsBut_ledFire d).mono abortRegs_subset_logRegs) _

theorem State.regsBut_logWrite (s : State) (r : Rec) : s.RegsBut logRegs (s.logWrite r) := by
  have h0 := State.RegsBut.refl logRegs s
  unfold State.logWrite
  extract_lets h t
  have hwritten : s.RegsBut logRegs t := h0.keep (State.wrLines_regs _ _ _ _ _)
  have hhead := (hwritten.wr F.REC_LOG_PTR_HEAD (h + 1) 0 0 (by decide)).raise 0x400 (by decide) (by decide)
  exact .ite h0 (.ite (h0.wr _ _ _ _ (by decide)) (hhead.trans (State.regsBut_trigLog _)))

theorem State.regsBut_closeLosses (s : State) : s.RegsBut logRegs s.closeLosses := by
  have hrcv (k : RcvSt) : s.RegsBut logRegs { s with rcv := k } := (State.RegsBut.refl _ s).keep rfl
  exact (hrcv _).foldl _ State.regsBut_logWrite _

theorem State.liveOf_of_none {s : State} (h : s.obj.ctxs = []) (p : Nat) : s.liveOf p = [] := by simp [State.liveOf, h]

/-- A trip while no context is left sets TRIP; beside it the recovery log, ledgers and interrupts alone are written. -/
theorem State.regsBut_stackTrip {s : State} (h : s.obj.ctxs = []) (n : Nat) :
    (s.wr F.STK_STAT_TRIP 1 n).RegsBut logRegs (s.stackTrip n) := by
  unfold State.stackTrip
  extract_lets stk s0 s1 cs k s2 blank r
  have hcs : cs = [] := by
    refine List.flatMap_eq_nil_iff.mpr (fun p _ => State.liveOf_of_none ?_ p)
    exact (congrArg ObjSt.ctxs (State.raise_obj _ _)).trans h
  have hloss : s2 = s1 := by simp only [s2, hcs]; rfl
  have h1 : (s.wr F.STK_STAT_TRIP 1 n).RegsBut logRegs s1 :=
    ((State.RegsBut.refl logRegs (s.wr F.STK_STAT_TRIP 1 n)).keep (u := s0.wr F.STK_STAT_TRIP 1 n) rfl).raise _ (by decide) (by decide)
  rw [← hloss] at h1
  have hopen : (s.wr F.STK_STAT_TRIP 1 n).RegsBut logRegs (s2.openRec r) := h1.keep rfl
  exact (hopen.trans (State.regsBut_closeLosses _)).capFrom s (by decide)

/-! ### A temperature sample (R173) -/

/-- A sample taken: TEMP, the level noted for the next refresh command, and THROTTLE. -/
def State.sampleTaken (s : State) (n u : Nat) : State :=
  ({ s.wr F.STK_STAT_TEMP u n with stk := { s.stk with nextLevel := aput s.stk.nextLevel n (nextLevel (s.tableLevel n) u) } }).wr
    F.STK_STAT_THROTTLE (b2n (decide (105 ≤ u))) n

/-- A stack that becomes hot raises its source. -/
def State.sampleNoticed (s : State) (n u : Nat) : State :=
  if decide (105 ≤ u) && !s.on F.STK_STAT_THROTTLE n then (s.sampleTaken n u).raise (0x090 + n) else s.sampleTaken n u

theorem State.throttle_wr_temp (s : State) (u n : Nat) :
    (s.wr F.STK_STAT_TEMP u n).on F.STK_STAT_THROTTLE n = s.on F.STK_STAT_THROTTLE n :=
  s.on_wr_apart _ _ _ _ _ (by decide) (by decide)

theorem State.tempSample_eq {s : State} {n : Nat} (hn : n < 16) (htrip : s.on F.STK_STAT_TRIP n = false) (u : Nat) :
    s.tempSample n u =
      if 115 ≤ satTo 255 u then (s.sampleNoticed n (satTo 255 u)).stackTrip n else s.sampleNoticed n (satTo 255 u) := by
  have hruns : (decide (16 ≤ n) || s.on F.STK_STAT_TRIP n) = false := by simp [htrip, hn]
  unfold State.sampleNoticed
  rw [← s.throttle_wr_temp (satTo 255 u) n]
  unfold State.tempSample
  rw [hruns]
  rfl

section
variable (s : State) (n u : Nat)

theorem State.rd_sampleTaken_temp (hu : u < 256) : (s.sampleTaken n u).rd F.STK_STAT_TEMP n = u :=
  calc (s.sampleTaken n u).rd F.STK_STAT_TEMP n = (s.wr F.STK_STAT_TEMP u n).rd F.STK_STAT_TEMP n :=
        State.rd_wr_apart _ _ _ _ _ _ (by decide) (by decide)
    _ = u % 256 := s.rd_wr_self _ _ _ _ (by decide)
    _ = u := Nat.mod_eq_of_lt hu

theorem State.on_sampleTaken_throttle : (s.sampleTaken n u).on F.STK_STAT_THROTTLE n = decide (105 ≤ u) :=
  State.on_wr_self _ _ _ _ _ (by decide) rfl

/-- A sample leaves every field of STK_STAT but TEMP and THROTTLE, and every field of another stack. -/
theorem State.rd_sampleTaken_apart {g : Fld} {m : Nat} (h : n ≠ m ∨ 8 ≤ g.lo ∧ g.lo + g.wid ≤ 10 ∨ 11 ≤ g.lo) :
    (s.sampleTaken n u).rd g m = s.rd g m := by
  by_cases hn : n = m
  · have hg := h.resolve_left (not_not.mpr hn)
    have htemp : F.STK_STAT_TEMP.lo + F.STK_STAT_TEMP.wid ≤ g.lo := hg.elim And.left (fun h => le_trans (by decide) h)
    have hthrottle : g.lo + g.wid ≤ F.STK_STAT_THROTTLE.lo ∨ F.STK_STAT_THROTTLE.lo + F.STK_STAT_THROTTLE.wid ≤ g.lo :=
      hg.imp_left And.right
    exact (State.rd_wr_apart _ _ _ _ _ _ (by decide) (.inr hthrottle)).trans (s.rd_wr_apart _ _ _ _ _ (by decide) (.inr (.inr htemp)))
  · exact (State.rd_wr_ne _ _ _ _ _ _ _ _ (by simp [hn])).trans (s.rd_wr_ne _ _ _ _ _ _ _ (by simp [hn]))

theorem State.tableLevel_sampleTaken : (s.sampleTaken n u).tableLevel n = nextLevel (s.tableLevel n) u := by
  simp [State.tableLevel, State.sampleTaken, aget_aput_self]

theorem State.tableLevel_sampleTaken_ne {m : Nat} (h : m ≠ n) : (s.sampleTaken n u).tableLevel m = s.tableLevel m := by
  simp [State.tableLevel, State.sampleTaken, aget_aput_ne _ _ h.symm]

theorem State.sampleNoticed_cases :
    s.sampleNoticed n u = (s.sampleTaken n u).raise (0x090 + n) ∨ s.sampleNoticed n u = s.sampleTaken n u := by
  unfold State.sampleNoticed
  split
  · exact .inl rfl
  · exact .inr rfl

theorem State.rd_sampleNoticed {g : Fld} (hg : g.reg = .STK_STAT) (m : Nat) :
    (s.sampleNoticed n u).rd g m = (s.sampleTaken n u).rd g m := by
  rcases s.sampleNoticed_cases n u with h | h
  · rw [h, State.rd_raise _ _ _ _ _ (by rw [hg]; decide) (by rw [hg]; decide)]
  · rw [h]

theorem State.sampleNoticed_stk : (s.sampleNoticed n u).stk = (s.sampleTaken n u).stk := by
  rcases s.sampleNoticed_cases n u with h | h <;> simp [h]

theorem State.sampleNoticed_obj : (s.sampleNoticed n u).obj = s.obj := by
  rcases s.sampleNoticed_cases n u with h | h <;> simp [h, State.sampleTaken]

theorem State.sampleNoticed_same : SameMemory s (s.sampleNoticed n u) := by
  rcases s.sampleNoticed_cases n u with h | h
  · rw [h]
    exact State.raise_same (s.sampleTaken n u) _
  · rw [h]
    exact ⟨rfl, rfl, rfl⟩

end

/-! ### The level that Table 8.4 asks for -/

theorem nextLevel_up {cur t : Nat} (h : cur ≤ tempLevel t) : nextLevel cur t = tempLevel t := if_pos h

theorem nextLevel_down {cur t : Nat} (h : tempLevel t < cur) (he : t + 3 ≤ levelEdge cur) : nextLevel cur t = tempLevel t := by
  rw [nextLevel, if_neg (Nat.not_le.mpr h), if_pos he]

theorem nextLevel_held {cur t : Nat} (h : tempLevel t < cur) (he : levelEdge cur < t + 3) : nextLevel cur t = cur := by
  rw [nextLevel, if_neg (Nat.not_le.mpr h), if_neg (Nat.not_le.mpr he)]

/-! ### Refresh commands and acknowledged granules (R171, R173) -/

theorem State.refresh_eq {s : State} {n : Nat} (hn : n < 16) (htrip : s.on F.STK_STAT_TRIP n = false) :
    s.refresh n = s.wr F.STK_STAT_LEVEL (max (s.tableLevel n) (s.rd F.STK_REFRESH_MIN_LEVEL n)) n := by
  simp [State.refresh, htrip, Nat.not_le.mpr hn]

theorem State.rd_lt (s : State) (f : Fld) (i j : Nat) : s.rd f i j < 2 ^ f.wid := Nat.mod_lt _ (Nat.two_pow_pos _)

/-- A granule leaves the queue. -/
def State.dropPend (s : State) (e : Nat × Nat) : State := { s with stk := { s.stk with pend := s.stk.pend.erase e } }

theorem State.retireAck_eq {s : State} {n : Nat} {e : Nat × Nat} (h : s.stk.pend.find? (fun e => e.1 == n) = some e) :
    s.retireAck n = (s.dropPend e).showRetire n := by
  simp only [State.retireAck, h]
  rfl

theorem State.showRetire_frame (s : State) (n : Nat) : ∃ r, s.showRetire n = { s with regs := r } := by
  unfold State.showRetire
  split <;> exact ⟨_, rfl⟩

theorem State.showRetire_shows {s : State} {n : Nat} {e : Nat × Nat} (h : s.stk.pend.find? (fun e => e.1 == n) = some e) :
    (s.showRetire n).on F.STK_RETIRE_PENDING n = true ∧ (s.showRetire n).rd F.STK_RETIRE_GRANULE n = e.2 % 2 ^ 25 := by
  simp only [State.showRetire, h]
  exact ⟨State.on_wr_self _ _ true _ _ (by decide) rfl,
    (State.rd_wr_apart _ _ _ _ _ _ (by decide) (by decide)).trans (s.rd_wr_self _ _ _ _ (by decide))⟩

theorem State.showRetire_empty {s : State} {n : Nat} (h : s.stk.pend.find? (fun e => e.1 == n) = none) :
    (s.showRetire n).on F.STK_RETIRE_PENDING n = false := by
  simp only [State.showRetire, h]
  exact State.on_wr_self _ _ false _ _ (by decide) rfl

/-- Settles O33: a sample writes TEMP, the noted level and THROTTLE, and a trip beside them the log alone; each of the others writes one
register of the stack. -/
theorem stackUpkeep : Obligations.StackUpkeep := by
  refine ⟨fun s n u hn htrip => ⟨fun hu => ?sample, fun hu hctx => ?trip⟩, ?refresh, ?ack⟩
  case sample =>
    have hsat : satTo 255 u = u := Nat.min_eq_right (by omega)
    have heq : s.tempSample n u = s.sampleNoticed n u := by rw [State.tempSample_eq hn htrip, hsat, if_neg (by omega)]
    have hlevel (m : Nat) : (s.sampleNoticed n u).tableLevel m = (s.sampleTaken n u).tableLevel m := by
      simp only [State.tableLevel, s.sampleNoticed_stk n u]
    have hself : (s.sampleNoticed n u).tableLevel n = nextLevel (s.tableLevel n) u := (hlevel n).trans (s.tableLevel_sampleTaken n u)
    refine ⟨_, congrArg Host.Outcome.next heq, ?_, ?_, ?_, ?_, fun hup => hself.trans (nextLevel_up hup),
      fun hdown he => hself.trans (nextLevel_down hdown he), fun hdown he => hself.trans (nextLevel_held hdown he),
      fun m hm => ⟨?_, ?_⟩, s.sampleNoticed_same n u⟩
    · rw [s.rd_sampleNoticed n u rfl]
      exact s.rd_sampleTaken_temp n u (by omega)
    · rw [State.on, s.rd_sampleNoticed n u rfl]
      exact s.on_sampleTaken_throttle n u
    · rw [State.on, s.rd_sampleNoticed n u rfl, s.rd_sampleTaken_apart n u (.inr (by decide))]
      exact htrip
    · rw [s.rd_sampleNoticed n u rfl, s.rd_sampleTaken_apart n u (.inr (by decide))]
    · exact (hlevel m).trans (s.tableLevel_sampleTaken_ne n u hm)
    · rw [s.rd_sampleNoticed n u rfl, s.rd_sampleTaken_apart n u (.inl hm.symm)]
  case trip =>
    have heq : s.tempSample n u = (s.sampleNoticed n (min 255 u)).stackTrip n := by
      rw [State.tempSample_eq hn htrip, satTo, if_pos (by omega)]
    have hregs := State.regsBut_stackTrip (s := s.sampleNoticed n (min 255 u)) (by rw [s.sampleNoticed_obj]; exact hctx) n
    have hon : ((s.sampleNoticed n (min 255 u)).stackTrip n).on F.STK_STAT_TRIP n = true :=
      (hregs.on _ (by decide) n 0).trans (State.on_wr_self _ _ true _ _ (by decide) rfl)
    refine ⟨_, congrArg Host.Outcome.next heq, ?_, hon, fun ln hln => ?_⟩
    · rw [hregs.rd _ (by decide), State.rd_wr_apart _ _ _ _ _ _ (by decide) (by decide), s.rd_sampleNoticed n _ rfl]
      exact s.rd_sampleTaken_temp n _ (by omega)
    · rw [State.linePoison, State.tripped, hln, hon, if_pos rfl]
  case refresh =>
    intro s n hn htrip hlevel
    have hmin := s.rd_lt F.STK_REFRESH_MIN_LEVEL n 0
    refine ⟨_, congrArg Host.Outcome.next (State.refresh_eq hn htrip), ?_,
      s.rd_wr_apart _ _ _ _ _ (by decide) (by decide), rfl, rfl, rfl, rfl⟩
    rw [s.rd_wr_self _ _ _ _ (by decide)]
    exact Nat.mod_eq_of_lt (max_lt (Nat.lt_succ_of_le hlevel) hmin)
  case ack =>
    intro s n g hfirst hg
    obtain ⟨r, hframe⟩ := (s.dropPend (n, g)).showRetire_frame n
    have hstk : ((s.dropPend (n, g)).showRetire n).stk = (s.dropPend (n, g)).stk := by rw [hframe]
    refine ⟨_, congrArg Host.Outcome.next (State.retireAck_eq hfirst), (congrArg StkSt.pend hstk :), (congrArg StkSt.retired hstk :),
      fun k hk => ?_, fun hnone => ?_, by rw [hframe]; exact ⟨rfl, rfl, rfl⟩, by rw [hframe]; rfl⟩
    · rw [hstk] at hk
      exact State.showRetire_shows hk
    · rw [hstk] at hnone
      exact State.showRetire_empty hnone

end Sys2Proof.Machine
end

section
/-! SUPPORT. The warden's management requests (22_security_and_management.md R442, R443; 23_connectors.md R452, R459): one equation
for each way that a request is answered. -/

namespace Sys2Proof.Machine

open Sys2Proof

/-! ### MCTP and sensors (R443, R452) -/

theorem State.mctp_of_other {typ : Nat} (h : typ ≠ 0) (s : State) (body : List Byte) : s.mctp typ body = s := by
  rw [State.mctp, if_pos (by simp [h])]

theorem State.sensorRead_recovering {s : State} {n : Nat} (hrec : s.recovering = true) (hn : n ≠ 65) : s.sensorRead n = s := by
  rw [State.sensorRead, if_pos (by simp [hrec, hn])]

section
variable {s : State} (hpower : s.rst.power = true)
include hpower

theorem State.mctp_setEid {body : List Byte} (h : leAt body 0 1 = 1) : s.mctp 0 body =
    ({ s with sec := { s.sec with eid := leAt body 2 1 } } : State).reply mgOk (leBytes 1 (leAt body 2 1)) := by
  simp [State.mctp, hpower, h]

theorem State.mctp_getEid {body : List Byte} (h : leAt body 0 1 = 2) : s.mctp 0 body = s.reply mgOk (leBytes 1 s.sec.eid) := by
  simp [State.mctp, hpower, h]

theorem State.pldmBase_types : s.pldmBase 4 = s.reply mgOk (leBytes 8 0x8000000000000025) := by
  simp [State.pldmBase, hpower]

/-- A sensor that the module shows answers its value. -/
theorem State.sensorRead_value {n : Nat} {l : List Byte} (hopen : s.recovering = false ∨ n = 65) (hn : n ≠ 67)
    (hl : s.sensor n = some l) : s.sensorRead n = s.reply mgOk l := by
  have hanswers : (!s.rst.power || (s.recovering && n != 65)) = false := by rcases hopen with h | h <;> simp [hpower, h]
  simp only [State.sensorRead, hanswers, hl, Bool.false_eq_true, if_false, if_neg hn]

theorem State.sensorRead_none {n : Nat} (hrec : s.recovering = false) (hl : s.sensor n = none) : s.sensorRead n = s.reply mgError [] := by
  simp only [State.sensorRead, hpower, hrec, hl, Bool.not_true, Bool.false_and, Bool.or_self, Bool.false_eq_true, if_false]

theorem State.sensorRead_fault (hrec : s.recovering = false) : s.sensorRead 67 =
    { s.reply mgOk (leBytes 1 (b2n s.rst.fault)) with rst := { s.rst with fault := false, faultN := false } } := by
  have hanswers : (!s.rst.power || (s.recovering && (67 : Nat) != 65)) = false := by simp [hpower, hrec]
  rw [State.sensorRead, hanswers]
  rfl

end

theorem State.sensor_temp (s : State) {n : Nat} (h16 : 16 ≤ n) (h32 : n < 32) :
    s.sensor n = some (leBytes 1 (s.rd F.STK_STAT_TEMP (n - 16))) := by
  have hrest : n ≠ 0 ∧ n ≠ 1 ∧ n ≠ 2 ∧ ¬ n < 7 ∧ n ≠ 7 ∧ n ≠ 8 := by omega
  simp [State.sensor, hrest, h16, h32]

theorem State.sensor_beyond (s : State) {n : Nat} (h : 68 < n) : s.sensor n = none := by
  have hlow : n ≠ 0 ∧ n ≠ 1 ∧ n ≠ 2 ∧ ¬ n < 7 ∧ n ≠ 7 ∧ n ≠ 8 ∧ ¬ n < 32 ∧ ¬ n < 48 ∧ ¬ n < 64 := by omega
  have hhigh : n ≠ 64 ∧ n ≠ 65 ∧ n ≠ 66 ∧ n ≠ 67 ∧ n ≠ 68 := by omega
  simp [State.sensor, hlow, hhigh]

/-! ### Requests that the warden answers outside recovery -/

section
variable {s : State} (hserves : s.serves = true)
include hserves

theorem State.setNumber_kept {n : Nat} (hn : n < 4096) : s.setNumber n =
    ({ s with sec := { s.sec with number := some n } } : State).reply mgOk [] := by
  simp [State.setNumber, hserves, Nat.not_le.mpr hn]

theorem State.setNumber_refused {n : Nat} (hn : 4096 ≤ n) : s.setNumber n = s.reply mgError [] := by
  simp [State.setNumber, hserves, hn]

theorem State.readRetirement_list {n : Nat} (hn : n < 16) : s.readRetirement n =
    s.reply mgOk ((s.stk.retired.filter (fun e => e.1 == n)).flatMap (fun e => leBytes 4 e.2) ++
      if s.stk.full.contains n then List.replicate 4 0xFF else []) := by
  rw [State.readRetirement, hserves, Bool.not_true, if_neg Bool.false_ne_true, if_neg (Nat.not_le.mpr hn)]
  rfl

theorem State.readRetirement_refused {n : Nat} (hn : 16 ≤ n) : s.readRetirement n = s.reply mgError [] := by
  simp [State.readRetirement, hserves, hn]

theorem State.readFuseMap_answers : s.readFuseMap = s.reply mgOk (packNibbles s.sec.fuseMap) := if_pos hserves

theorem State.readCal_stored {c : Cal} (h : s.sec.cal = some c) : s.readCal = s.reply mgOk c.stored := by
  simp [State.readCal, hserves, h]

theorem State.readCal_none (h : s.sec.cal = none) : s.readCal = s.reply mgError [] := by
  simp [State.readCal, hserves, h]

theorem State.readLog_off (h : s.on F.REC_LOG_BASE_EN = false) : s.readLog = s.reply mgOk [] := by
  simp [State.readLog, hserves, h]

theorem State.readLog_one (h : s.on F.REC_LOG_BASE_EN = true) (hone : s.rd F.REC_LOG_PTR_HEAD = s.rd F.REC_LOG_PTR_TAIL + 1) :
    s.readLog = s.reply mgOk (s.rdBytes devKey (s.rd F.REC_LOG_BASE_BASE * 16384 + 32 * (s.rd F.REC_LOG_PTR_TAIL % 512)) 32) := by
  have hcount : (s.rd F.REC_LOG_PTR_TAIL + 1 + 1024 - s.rd F.REC_LOG_PTR_TAIL) % 1024 = 1 := by omega
  simp [State.readLog, hserves, h, hone, hcount]

/-! ### The calibration set written (R442) -/

/-- The module with a calibration set stored, SOURCE 1. -/
def State.calStored (s : State) (body crc : List Byte) (interrupted : Bool) : State :=
  { s with sec := { s.sec with cal := some ⟨body, BitVec.ofNat 64 (leNat crc), 1, interrupted⟩ } }

theorem State.writeCal_stores {crc : List Byte} (hcrc : crc.length = 8) (hidle : s.sec.writing = 0)
    (hphase : s.rd F.FOLIO_STAT_PHASE ≠ phPersist) (body : List Byte) (i : Bool) :
    s.writeCal (body ++ crc) i = if i then s.calStored body crc i else ((s.calStored body crc i).raise 0x031).reply mgOk [] := by
  have hlen : (body ++ crc).length - 8 = body.length := by simp [hcrc]
  have hbody : (body ++ crc).take body.length = body := List.take_left
  have hsum : leAt (body ++ crc) body.length 8 = leNat crc := by
    rw [leAt, List.drop_left, List.take_of_length_le hcrc.le]
  have hgoes : (s.sec.writing != 0 || s.rd F.FOLIO_STAT_PHASE == phPersist) = false := by simp [hidle, hphase]
  simp only [State.writeCal, hserves, hgoes, hlen, hbody, hsum, Bool.not_true, Bool.false_eq_true, if_false]
  rfl

theorem State.writeCal_notReady (hbusy : s.sec.writing ≠ 0) (bs : List Byte) (i : Bool) : s.writeCal bs i = s.reply mgNotReady [] := by
  simp [State.writeCal, hserves, hbusy]

end

/-- A source that takes events while its die's clock runs is pending once raised (15_interrupts.md R312). -/
theorem State.fires_raise (s : State) (n : Nat) : s.Fires (s.raise n) n := by
  intro hmuted hruns
  rw [State.raise, hmuted, hruns]
  simp only [Bool.false_eq_true, if_false, State.on, State.syncLevels_rd]
  exact State.on_wr_self s F.INT_SRC_CTL_PEND true n 0 (by decide) rfl

/-- Settles O60: one equation for each request. -/
theorem managementRequests : Obligations.ManagementRequests := by
  refine ⟨fun s typ body hpower => ⟨fun h => ?other, ?setEid, ?getEid, ?types⟩,
    fun s n hpower => ⟨fun hrec hn => ?hidden, ?state, fun hrec => ?shown⟩, fun s n hserves => ?requests,
    fun s body crc hserves hcrc => ⟨fun hidle hphase => ⟨?stores, ?torn⟩, fun hbusy i => ?busy⟩, fun s => rfl⟩
  case other => exact congrArg Host.Outcome.next (State.mctp_of_other h s body)
  case setEid =>
    rintro rfl h
    exact ⟨_, congrArg Host.Outcome.next (State.mctp_setEid hpower h), rfl, rfl, rfl, rfl, rfl⟩
  case getEid =>
    rintro rfl h
    exact congrArg Host.Outcome.next (State.mctp_getEid hpower h)
  case types => exact congrArg Host.Outcome.next (State.pldmBase_types hpower)
  case hidden => exact congrArg Host.Outcome.next (State.sensorRead_recovering hrec hn)
  case state =>
    rintro rfl
    exact congrArg Host.Outcome.next (State.sensorRead_value hpower (.inr rfl) (by decide) rfl)
  case shown =>
    have hvalue {l : List Byte} (hn : n ≠ 67) (hl : s.sensor n = some l) : exec (.pldmSensorRead n) s = .next (s.reply mgOk l) :=
      congrArg Host.Outcome.next (State.sensorRead_value hpower (.inl hrec) hn hl)
    refine ⟨?_, ?_, ?_, ?_, fun h16 h32 => hvalue (by omega) (s.sensor_temp h16 h32), ?fault, ?_,
      fun h => congrArg Host.Outcome.next (State.sensorRead_none hpower hrec (s.sensor_beyond h))⟩
    case fault =>
      rintro rfl
      exact ⟨_, congrArg Host.Outcome.next (State.sensorRead_fault hpower hrec), rfl, rfl, rfl, rfl, rfl, rfl⟩
    all_goals
      rintro rfl
      exact hvalue (by decide) rfl
  case requests =>
    refine ⟨fun hn => congrArg Host.Outcome.next (State.setNumber_kept hserves hn),
      fun hn => congrArg Host.Outcome.next (State.setNumber_refused hserves hn), fun hn hroom => ?room, fun hn hfull => ?full,
      fun hn => congrArg Host.Outcome.next (State.readRetirement_refused hserves hn),
      congrArg Host.Outcome.next (State.readFuseMap_answers hserves),
      fun c hc => congrArg Host.Outcome.next (State.readCal_stored hserves hc),
      fun hc => congrArg Host.Outcome.next (State.readCal_none hserves hc),
      fun hoff => congrArg Host.Outcome.next (State.readLog_off hserves hoff),
      fun hon hone => congrArg Host.Outcome.next (State.readLog_one hserves hon hone)⟩
    case room =>
      have h := State.readRetirement_list hserves hn
      rw [if_neg (ne_true_of_eq_false hroom), List.append_nil] at h
      exact congrArg Host.Outcome.next h
    case full =>
      have h := State.readRetirement_list hserves hn
      rw [if_pos hfull] at h
      exact congrArg Host.Outcome.next h
  case stores =>
    refine ⟨_, congrArg Host.Outcome.next (State.writeCal_stores hserves hcrc hidle hphase body false), ?_, ?_, ?_⟩
    · exact State.raise_sec _ _
    · exact (s.calStored body crc false).fires_raise 0x031
    · exact State.raise_same (s.calStored body crc false) 0x031
  case torn => exact congrArg Host.Outcome.next (State.writeCal_stores hserves hcrc hidle hphase body true)
  case busy => exact congrArg Host.Outcome.next (State.writeCal_notReady hserves hbusy _ i)

end Sys2Proof.Machine
end

section
/-! SUPPORT. Requests and answers of L1s at their cluster cache (09_caches.md R193, R194, R198, R200, R203; 10_coherence.md R212): what
each leaves of the line, and the messages it sends. -/

namespace Sys2Proof.Machine

open Sys2Proof

/-! ### What Inv leaves (Table 10.3) -/

/-- The Inv messages of a line to the L1s that a presence mask names. -/
def invsTo (cl ln : Nat) (p : BitVec 8) : List (Nat × Nat × AMsg) :=
  ((coresOf cl).filter (fun c => p.getLsbD (c % 8))).map (fun c => (c, ln, .inv))

/-- A fold of steps that each send one message to an L1, and may change lines of L1s. -/
theorem coh_foldl_sends {f : State → Nat → State} {a : Nat → Nat × Nat × AMsg}
    (hf : ∀ s c, (f s c).coh = { s.coh with l1 := (f s c).coh.l1, am := s.coh.am ++ [a c] }) (l : List Nat) (s : State) :
    (l.foldl f s).coh = { s.coh with l1 := (l.foldl f s).coh.l1, am := s.coh.am ++ l.map a } := by
  induction l generalizing s with
  | nil => simp
  | cons c l ih => rw [List.foldl_cons, ih, hf]; simp

theorem State.sendInvs_coh (s : State) (cl ln : Nat) (p : BitVec 8) :
    (s.sendInvs cl ln p none).coh =
      { s.coh with l1 := (s.sendInvs cl ln p none).coh.l1, am := s.coh.am ++ invsTo cl ln p } := by
  have hdst : (fun c : Nat => p.getLsbD (c % 8)) = fun c => p.getLsbD (c % 8) && some c != none :=
    funext fun _ => (Bool.and_true _).symm
  rw [invsTo, hdst]
  refine coh_foldl_sends (fun s c => ?_) _ s
  simp only
  split <;> split <;> rfl

theorem State.sendInvs_zero (s : State) (cl ln : Nat) (b : Option Nat) : s.sendInvs cl ln 0 b = s := by simp [State.sendInvs]

theorem State.takeBack_alone (s : State) (cl ln : Nat) {x : CcLine} (hown : x.own = none) (hpres : x.pres = 0) :
    s.takeBack cl ln x = (s, x.dirty) := by
  simp only [State.takeBack, hown, hpres, State.sendInvs_zero, Bool.or_false]

/-! ### Work at one line of a cluster cache -/

@[simp] theorem State.ccLine_setCc_self (s : State) (cl ln : Nat) (x : CcLine) : (s.setCc cl ln x).ccLine cl ln = some x :=
  aget_aput_self _ _ _

@[simp] theorem State.ccLine_msgA (s : State) (core ln : Nat) (m : AMsg) (cl l : Nat) : (s.msgA core ln m).ccLine cl l = s.ccLine cl l := rfl

/-- `t` is `s` after work at one line of a cluster cache, which sent the messages `m` to L1s and the requests `b` to the home: lines of
L1s, that one line and what is counted may have changed, and with the counters off no register. -/
structure State.LineWork (s : State) (cl ln : Nat) (m : List (Nat × Nat × AMsg)) (b : List BMsg) (t : State) : Prop where
  work : s.SameWork t
  coh : t.coh = { s.coh with cc := t.coh.cc, l1 := t.coh.l1, am := s.coh.am ++ m, bq := s.coh.bq ++ b }
  lines : ∀ k : UL, k ≠ ⟨cl, ln⟩ → aget t.coh.cc k = aget s.coh.cc k
  regs : s.on F.TAL_CTL_EN (talSet (cl / 16) (128 + cl % 16)) = false → t.regs = s.regs

theorem State.LineWork.trans {s t u : State} {cl ln : Nat} {m m' : List (Nat × Nat × AMsg)} {b b' : List BMsg}
    (h : s.LineWork cl ln m b t) (k : t.LineWork cl ln m' b' u) : s.LineWork cl ln (m ++ m') (b ++ b') u where
  work := h.work.trans k.work
  coh := by rw [k.coh, h.coh]; simp
  lines j hj := (k.lines j hj).trans (h.lines j hj)
  regs hoff := (k.regs ((State.on_of_regs (h.regs hoff) _ _ _).trans hoff)).trans (h.regs hoff)

section
variable (s : State) (cl ln : Nat)

theorem State.lineWork_tallyCc (code cls : Nat) : s.LineWork cl ln [] [] (s.tallyCc cl code cls) where
  work := s.sameWork_tallyCc cl code cls
  coh := by simp [State.tallyCc, State.tally_coh]
  lines k _ := by rw [State.tallyCc, State.tally_coh]
  regs hoff := by rw [State.tallyCc, State.tally_of_off _ _ _ _ _ _ hoff]

theorem State.lineWork_setCc (x : CcLine) : s.LineWork cl ln [] [] (s.setCc cl ln x) where
  work := s.sameWork_setCc cl ln x
  coh := by simp [State.setCc]
  lines k hk := aget_aput_ne _ _ hk.symm
  regs _ := rfl

theorem State.lineWork_hitCc : s.LineWork cl ln [] [] (s.hitCc cl ln) where
  work := s.sameWork_coh _
  coh := by simp [State.hitCc]
  lines k hk := aget_amod_ne _ _ hk.symm
  regs _ := rfl

theorem State.lineWork_msgA (core : Nat) (a : AMsg) : s.LineWork cl ln [(core, ln, a)] [] (s.msgA core ln a) where
  work := s.sameWork_msgA core ln a
  coh := by simp [State.msgA]
  lines _ _ := rfl
  regs _ := rfl

theorem State.lineWork_sendInvs (p : BitVec 8) : s.LineWork cl ln (invsTo cl ln p) [] (s.sendInvs cl ln p none) where
  work := s.sameWork_sendInvs cl ln p none
  coh := by rw [s.sendInvs_coh]; simp
  lines k _ := by rw [s.sendInvs_cc]
  regs _ := s.sendInvs_regs cl ln p none

variable {s}

/-- A requester that is under Retry nowhere sends its request at once (10_coherence.md R221). -/
theorem State.sendB_of_free (hwant : s.coh.want = []) (m : BMsg) :
    s.sendB m = { s with coh := { s.coh with bq := s.coh.bq ++ [m] } } := by
  simp [State.sendB, hwant]

theorem State.lineWork_sendB (hwant : s.coh.want = []) (m : BMsg) : s.LineWork cl ln [] [m] (s.sendB m) := by
  rw [State.sendB_of_free hwant]
  exact ⟨s.sameWork_coh _, by simp, fun _ _ => rfl, fun _ => rfl⟩

end

/-! ### The request in hand goes on (Table 10.3) -/

section
variable {s : State} {cl ln k : Nat} {q : AReq} {x : CcLine} (hline : s.ccLine cl ln = some x) (hcur : x.cur = some (k, q))
include hline hcur

theorem State.serveCc_ofOwner {j : Nat} (hown : x.own = some j) (hj : j ≠ k) :
    s.serveCc cl ln = (s.setCc cl ln { x with wait := if q == .getS then .down else .recall }).msgA j ln
      (if q == .getS then .down else .recall) := by
  simp only [State.serveCc, hline, hcur, hown, beq_eq_false_iff_ne.mpr hj, Bool.false_eq_true, if_false]

variable (hown : x.own = none)
include hown

theorem State.serveCc_invalid (hst : x.st = .I) :
    s.serveCc cl ln = (s.setCc cl ln { x with st := if q == .getS then .ISb else .IXb, wait := .levelB }).sendB
      (ccReq cl ln 3 (if q == .getS then .rdS else .rdX)) := by
  simp only [State.serveCc, hline, hcur, hown, hst, beq_self_eq_true, if_true]

theorem State.serveCc_read (hq : q = .getS) (hst : x.st ≠ .I) {alone : Bool}
    (halone : (x.st == .O && x.pres &&& ~~~(1#8 <<< (k % 8)) == 0) = alone) :
    s.serveCc cl ln = (s.setCc cl ln { x with
        cur := none, wait := .none, pres := x.pres ||| (1#8 <<< (k % 8)), own := if alone then some k else none }).msgA k ln
      (if alone then .dataE else .dataS) := by
  simp only [State.serveCc, hline, hcur, hown, hq, beq_eq_false_iff_ne.mpr hst, halone, beq_self_eq_true, Bool.false_eq_true, if_false,
    if_true]

theorem State.serveCc_own (hq : q ≠ .getS) (hst : x.st = .O) :
    s.serveCc cl ln = (s.setCc cl ln { x with cur := none, wait := .none, pres := 1#8 <<< (k % 8), own := some k }).msgA k ln
      (if q == .upg then .grant else .dataM) := by
  have hI : (BSt.O == BSt.I) = false := rfl
  simp only [State.serveCc, hline, hcur, hown, hst, hI, beq_eq_false_iff_ne.mpr hq, beq_self_eq_true, Bool.false_eq_true, if_false, if_true]

theorem State.serveCc_upgrade (hq : q ≠ .getS) (hst : x.st = .S) :
    s.serveCc cl ln = (s.setCc cl ln { x with st := .SXb, wait := .levelB }).sendB (ccReq cl ln 3 .upX) := by
  have hI : (BSt.S == BSt.I) = false := rfl
  have hO : (BSt.S == BSt.O) = false := rfl
  simp only [State.serveCc, hline, hcur, hown, hst, hI, hO, beq_eq_false_iff_ne.mpr hq, Bool.false_eq_true, if_false]

end

/-! ### Requests of L1s taken (10_coherence.md R212) -/

/-- A request of an L1 taken through the core's path. -/
def State.tookA (s : State) (core ln : Nat) (q : AReq) : State :=
  ({ s with coh := { s.coh with aq := s.coh.aq.erase (core, ln, q) } }).pathGrant core 0

/-- The first request for a line in its cluster is the one of a core. -/
def State.AsksFirst (s : State) (core ln : Nat) (q : AReq) : Prop :=
  s.coh.aq.find? (fun e => e.1 / 8 == core / 8 && e.2.1 == ln) = some (core, ln, q)

theorem State.takeA_first {s : State} {core ln : Nat} {q : AReq} (hfirst : s.AsksFirst core ln q)
    (hfree : s.ccFree (core / 8) ln = true) {p : AReq → Bool} (hp : p q = true) : s.takeA core ln p = some (s.tookA core ln q, q) := by
  simp only [State.takeA, show _ = _ from hfirst, beq_self_eq_true, hp, hfree, Bool.and_self, if_true]
  rfl

/-! #### A line that the cache does not hold (R198) -/

theorem State.ccPick_empty {s : State} {cl ln cls w : Nat} (hways : s.ccWays cl (ccSet ln) = [])
    (hw : ((List.range 16).filter (fun w => bitsOf (s.wayMask cl cls) w 1 == 1)).head? = some w) : s.ccPick cl ln cls = .empty w := by
  obtain ⟨l, hl⟩ := List.head?_eq_some_iff.mp hw
  simp only [State.ccPick, hways, hl, List.all_nil, List.find?_cons]

/-- A line that a fill of an L1's request has just taken a way for. -/
def CcLine.allocated (w age core : Nat) (q : AReq) : CcLine :=
  ⟨.I, false, 0, none, w, age, 3, some (core, q), .none, none, false, .none, none, false⟩

/-- The same line once the home has been asked for it: RdS for a read, RdX for a write (Table 10.3). -/
def CcLine.filling (w age core : Nat) (q : AReq) : CcLine :=
  { CcLine.allocated w age core q with st := if q == .getS then .ISb else .IXb, wait := .levelB }

/-- A fill waits no more for its allotment. -/
def State.waitOver (s : State) (cl ln : Nat) : State := { s with coh := { s.coh with vwait := s.coh.vwait.erase (cl, ln) } }

theorem State.allocCc_empty {s : State} {core ln w : Nat} (hwrite : s.ownWrite (core / 8) ln = false)
    (hways : s.ccWays (core / 8) (ccSet ln) = [])
    (hw : ((List.range 16).filter (fun w => bitsOf (s.wayMask (core / 8) 3) w 1 == 1)).head? = some w) (q : AReq) :
    ∃ age, s.allocCc core ln q =
      some (((s.waitOver (core / 8) ln).ccFilled (core / 8) 3 age).setCc (core / 8) ln (CcLine.allocated w age core q)) := by
  simp only [State.allocCc, hwrite, State.ccWay, State.ccPick_empty hways hw, Bool.false_eq_true, if_false]
  exact ⟨_, rfl⟩

theorem State.ccFilled_coh (s : State) (cl cls age : Nat) : (s.ccFilled cl cls age).coh = s.coh :=
  State.coh_ite _ ((State.tally_coh _ _ _ _ _ _).trans (s.tally_coh _ _ _ _ _)) (s.tally_coh _ _ _ _ _)

theorem State.askCc_miss {s : State} {core ln w : Nat} {q : AReq} {p : AReq → Bool} (hfirst : s.AsksFirst core ln q) (hp : p q = true)
    (hline : s.ccLine (core / 8) ln = none) (hways : s.ccWays (core / 8) (ccSet ln) = [])
    (hwrite : s.ownWrite (core / 8) ln = false) (hfinds : s.finds = [])
    (hw : ((List.range 16).filter (fun w => bitsOf (s.wayMask (core / 8) 3) w 1 == 1)).head? = some w) {k : AReq}
    (hk : (if q == .upg then .getM else q) = k) :
    ∃ age v, s.askCc core ln .none p = (v.setCc (core / 8) ln (.filling w age core k)).sendB
        (ccReq (core / 8) ln 3 (if k == .getS then .rdS else .rdX)) ∧
      (s.tookA core ln q).SameWork v ∧ ∃ cc vwait, v.coh = { (s.tookA core ln q).coh with cc := cc, vwait := vwait } := by
  have hfree : s.ccFree (core / 8) ln = true := by simp only [State.ccFree, hline]
  have hu : (s.tookA core ln q).ccLine (core / 8) ln = none := hline
  obtain ⟨age, halloc⟩ := State.allocCc_empty (s := s.tookA core ln q) (w := w) hwrite hways hw k
  set filled := ((s.tookA core ln q).waitOver (core / 8) ln).ccFilled (core / 8) 3 age with hfilled
  set v := (filled.setCc (core / 8) ln (.allocated w age core k)).tallyCc (core / 8) 0x101 3 with hv
  have hcoh : v.coh = (filled.setCc (core / 8) ln (.allocated w age core k)).coh := State.tally_coh _ _ _ _ _ _
  have hvline : v.ccLine (core / 8) ln = some (.allocated w age core k) := by
    rw [State.ccLine, hcoh]
    exact filled.ccLine_setCc_self _ _ _
  refine ⟨age, v, ?_, ?_, ?_⟩
  · rw [State.askCc, State.takeA_first hfirst hfree hp]
    simp only [show (Found.none == Found.victim) = false from rfl, Bool.false_eq_true, if_false,
      State.ccFound_nil (s.tookA core ln q) (core / 8) ln hfinds, hu, hk, halloc]
    exact State.serveCc_invalid hvline rfl rfl rfl
  · exact ((State.sameWork_coh _ _).trans (State.sameWork_ccFilled _ _ _ _)).trans
      ((State.sameWork_setCc _ _ _ _).trans (State.sameWork_tallyCc _ _ _ _))
  · refine ⟨v.coh.cc, (s.tookA core ln q).coh.vwait.erase (core / 8, ln), ?_⟩
    rw [hcoh, State.setCc, hfilled, State.ccFilled_coh]
    rfl

/-! #### A line that the cache holds -/

/-- The request `q` of a core is the first for a stable line of its cluster cache, `x`, and no check has an error to find. -/
structure State.Asked (s : State) (core ln : Nat) (q : AReq) (x : CcLine) : Prop where
  first : s.AsksFirst core ln q
  line : s.ccLine (core / 8) ln = some x
  cur : x.cur = none
  snoop : x.snoop = none
  wait : x.wait = .none
  stable : x.st = .S ∨ x.st = .O
  finds : s.finds = []

/-- Instruction `i` takes the request `q` of a core: it leaves the line as `y`, and sends `m` to L1s and `b` to the home. -/
def State.Answers (s : State) (i : Instr) (core ln : Nat) (q : AReq) (y : CcLine) (m : List (Nat × Nat × AMsg)) (b : List BMsg) : Prop :=
  ∃ t, exec i s = .next t ∧ t.ccLine (core / 8) ln = some y ∧ (s.tookA core ln q).LineWork (core / 8) ln m b t

theorem State.Answers.of_message {s v : State} {i : Instr} {core ln k : Nat} {q : AReq} {y : CcLine} {a : AMsg}
    {m : List (Nat × Nat × AMsg)} (hv : (s.tookA core ln q).LineWork (core / 8) ln m [] v)
    (hexec : exec i s = .next ((v.setCc (core / 8) ln y).msgA k ln a)) : s.Answers i core ln q y (m ++ [(k, ln, a)]) [] :=
  ⟨_, hexec, v.ccLine_setCc_self _ _ _, by
    simpa using (hv.trans (v.lineWork_setCc _ ln y)).trans (State.lineWork_msgA _ (core / 8) ln k a)⟩

theorem State.Answers.of_request {s v : State} {i : Instr} {core ln : Nat} {q : AReq} {y : CcLine} {r : BMsg}
    {m : List (Nat × Nat × AMsg)} (hwant : s.coh.want = []) (hv : (s.tookA core ln q).LineWork (core / 8) ln m [] v)
    (hexec : exec i s = .next ((v.setCc (core / 8) ln y).sendB r)) : s.Answers i core ln q y m [r] := by
  have hfree : (v.setCc (core / 8) ln y).coh.want = [] := by
    show v.coh.want = []
    rw [hv.coh]
    exact hwant
  refine ⟨_, hexec, ?_, by simpa using (hv.trans (v.lineWork_setCc _ ln y)).trans (State.lineWork_sendB _ _ hfree r)⟩
  rw [State.sendB_of_free hfree]
  exact v.ccLine_setCc_self _ _ _

/-- The presence bits that a request for ownership leaves: the requester's, and an owner's. -/
def CcLine.kept (x : CcLine) (core : Nat) : BitVec 8 := (1#8 <<< (core % 8)) ||| x.own.elim 0 (fun j => 1#8 <<< (j % 8))

theorem CcLine.kept_unowned {x : CcLine} (hown : x.own = none) (core : Nat) : x.kept core = 1#8 <<< (core % 8) := by
  rw [CcLine.kept, hown]
  exact BitVec.or_zero

/-- A line taken in hand for a request, with the presence bits that it leaves: a hit makes it young (R198). -/
def CcLine.inHand (x : CcLine) (core : Nat) (q : AReq) (p : BitVec 8) : CcLine :=
  { x with age := 0, fresh := false, pres := p, cur := some (core, q) }

section
variable {s : State} {core ln : Nat} {q : AReq} {x : CcLine} (h : s.Asked core ln q x)
include h

theorem State.Asked.takeA {p : AReq → Bool} (hp : p q = true) : s.takeA core ln p = some (s.tookA core ln q, q) := by
  refine State.takeA_first h.first ?_ hp
  simp only [State.ccFree, h.line, h.cur, h.snoop, h.wait, Option.isNone_none, beq_self_eq_true, Bool.and_self, Bool.true_and]
  rcases h.stable with hst | hst <;> rw [hst] <;> rfl

/-- A read takes the line in hand. -/
theorem State.Asked.askCc_read {p : AReq → Bool} (hp : p q = true) (hq : q = .getS) : ∃ v : State,
    s.askCc core ln .none p = (v.setCc (core / 8) ln (x.inHand core q x.pres)).serveCc (core / 8) ln ∧
      (s.tookA core ln q).LineWork (core / 8) ln [] [] v := by
  refine ⟨((s.tookA core ln q).tallyCc (core / 8) 0x101 3).hitCc (core / 8) ln, ?_,
    (State.lineWork_tallyCc _ _ ln _ _).trans (State.lineWork_hitCc _ _ ln)⟩
  have hu : (s.tookA core ln q).ccLine (core / 8) ln = some x := h.line
  rw [State.askCc, h.takeA hp]
  simp only [show (Found.none == Found.victim) = false from rfl, Bool.false_eq_true, if_false,
    State.ccFound_nil (s.tookA core ln q) (core / 8) ln h.finds, hu]
  subst hq
  rfl

/-- A request for ownership invalidates the L1s but the requester's and an owner's, and takes the line in hand. -/
theorem State.Asked.askCc_write {p : AReq → Bool} (hp : p q = true)
    (hq : q = .getM ∨ q = .upg ∧ x.pres.getLsbD (core % 8) = true) : ∃ v : State,
    s.askCc core ln .none p = (v.setCc (core / 8) ln (x.inHand core q (x.pres &&& x.kept core))).serveCc (core / 8) ln ∧
      (s.tookA core ln q).LineWork (core / 8) ln (invsTo (core / 8) ln (x.pres &&& ~~~(x.kept core))) [] v := by
  refine ⟨((s.tookA core ln q).tallyCc (core / 8) 0x101 3).sendInvs (core / 8) ln (x.pres &&& ~~~(x.kept core)) none, ?_,
    (State.lineWork_tallyCc _ _ ln _ _).trans (State.lineWork_sendInvs _ _ ln _)⟩
  have hu : (s.tookA core ln q).ccLine (core / 8) ln = some x := h.line
  have hkind : (if q == .upg && !x.pres.getLsbD (core % 8) then .getM else q) = q := by
    rcases hq with rfl | ⟨rfl, hbit⟩
    · rfl
    · rw [hbit]; rfl
  have hread : (q == .getS) = false := by
    rcases hq with rfl | ⟨rfl, -⟩ <;> rfl
  rw [State.askCc, h.takeA hp]
  simp only [show (Found.none == Found.victim) = false from rfl, Bool.false_eq_true, if_false,
    State.ccFound_nil (s.tookA core ln q) (core / 8) ln h.finds, hu, hkind, hread]
  cases hown : x.own <;> simp only [CcLine.kept, CcLine.inHand, hown, Option.elim]

end

/-! #### GetS -/

section
variable {s : State} {core ln : Nat} {x : CcLine} (h : s.Asked core ln .getS x)
include h

theorem State.Asked.gets_unowned (hown : x.own = none) {alone : Bool}
    (halone : (x.st == .O && x.pres &&& ~~~(1#8 <<< (core % 8)) == 0) = alone) :
    s.Answers (.gets core ln .none) core ln .getS
      { x with age := 0, fresh := false, pres := x.pres ||| (1#8 <<< (core % 8)), own := if alone then some core else none }
      [(core, ln, if alone then .dataE else .dataS)] [] := by
  obtain ⟨v, hask, hv⟩ := h.askCc_read (p := (· == .getS)) rfl rfl
  have hst : x.st ≠ .I := by rcases h.stable with hst | hst <;> rw [hst] <;> decide
  have hserve := State.serveCc_read (v.ccLine_setCc_self (core / 8) ln (x.inHand core .getS x.pres)) rfl hown rfl hst halone
  have hans := State.Answers.of_message (i := .gets core ln .none) (hv.trans (v.lineWork_setCc (core / 8) ln _))
    (congrArg Host.Outcome.next (hask.trans hserve))
  simpa only [CcLine.inHand, h.cur, h.wait, List.nil_append] using hans

theorem State.Asked.gets_owned {j : Nat} (hown : x.own = some j) (hj : j ≠ core) :
    s.Answers (.gets core ln .none) core ln .getS { x with age := 0, fresh := false, cur := some (core, .getS), wait := .down }
      [(j, ln, .down)] [] := by
  obtain ⟨v, hask, hv⟩ := h.askCc_read (p := (· == .getS)) rfl rfl
  have hserve := State.serveCc_ofOwner (v.ccLine_setCc_self (core / 8) ln (x.inHand core .getS x.pres)) rfl hown hj
  exact State.Answers.of_message (hv.trans (v.lineWork_setCc (core / 8) ln _)) (congrArg Host.Outcome.next (hask.trans hserve))

end

/-! #### GetM and Upg -/

/-- The presence bits of the L1s but one. -/
theorem getLsbD_others (p : BitVec 8) (c core : Nat) :
    (p &&& ~~~(1#8 <<< (core % 8))).getLsbD (c % 8) = (p.getLsbD (c % 8) && c % 8 != core % 8) := by
  have hc : c % 8 < 8 := Nat.mod_lt _ (by decide)
  have hshift : (1#8 <<< (core % 8)).getLsbD (c % 8) = decide (c % 8 = core % 8) := by
    simp only [BitVec.getLsbD_shiftLeft, hc, decide_true, Bool.true_and, BitVec.getLsbD_one]
    grind
  rw [BitVec.getLsbD_and, BitVec.getLsbD_not, hshift]
  simp [hc, bne, Bool.beq_eq_decide_eq]

/-- The L1s that a request for ownership of a line without an owner invalidates: the other ones that have it. -/
theorem invsTo_others (cl ln core : Nat) (p : BitVec 8) : invsTo cl ln (p &&& ~~~(1#8 <<< (core % 8))) =
    ((coresOf cl).filter (fun c => p.getLsbD (c % 8) && c % 8 != core % 8)).map (fun c => (c, ln, .inv)) := by
  simp only [invsTo, getLsbD_others]

/-- A mask that leaves nothing beside it keeps all. -/
theorem and_eq_self_of_and_not {w : Nat} {p k : BitVec w} (h : p &&& ~~~k = 0) : p &&& k = p := by
  ext i hi
  have hbit := congrArg (fun v : BitVec w => v[i]) h
  simp only [BitVec.getElem_and, BitVec.getElem_not, BitVec.ofNat_eq_ofNat, BitVec.getElem_zero] at hbit ⊢
  cases hp : p[i] <;> simp_all

/-- The two requests for ownership: GetM, and Upg of an L1 that has the line. -/
def OwnRequest (i : Instr) (core ln : Nat) (q : AReq) (x : CcLine) : Prop :=
  i = .getm core ln .none ∧ q = .getM ∨ i = .upg core ln ∧ q = .upg ∧ x.pres.getLsbD (core % 8) = true

section
variable {s : State} {i : Instr} {core ln : Nat} {q : AReq} {x : CcLine} (h : s.Asked core ln q x) (hi : OwnRequest i core ln q x)

theorem OwnRequest.ne_getS (hi : OwnRequest i core ln q x) : q ≠ .getS := by
  rcases hi with ⟨-, rfl⟩ | ⟨-, rfl, -⟩ <;> decide

include h hi

/-- Such a request of the line is taken in hand once the others' copies are invalidated. -/
theorem State.Asked.exec_own : ∃ v : State,
    exec i s = .next ((v.setCc (core / 8) ln (x.inHand core q (x.pres &&& x.kept core))).serveCc (core / 8) ln) ∧
      (s.tookA core ln q).LineWork (core / 8) ln (invsTo (core / 8) ln (x.pres &&& ~~~(x.kept core))) [] v := by
  rcases hi with ⟨rfl, rfl⟩ | ⟨rfl, rfl, hbit⟩
  · obtain ⟨v, hask, hv⟩ := h.askCc_write (p := (· == .getM)) rfl (.inl rfl)
    exact ⟨v, congrArg Host.Outcome.next hask, hv⟩
  · obtain ⟨v, hask, hv⟩ := h.askCc_write (p := (· == .upg)) rfl (.inr ⟨rfl, hbit⟩)
    exact ⟨v, congrArg Host.Outcome.next hask, hv⟩

theorem State.Asked.own_owned (hown : x.own = none) (hst : x.st = .O) :
    s.Answers i core ln q { x with age := 0, fresh := false, pres := 1#8 <<< (core % 8), own := some core }
      (((coresOf (core / 8)).filter (fun c => x.pres.getLsbD (c % 8) && c % 8 != core % 8)).map (fun c => (c, ln, .inv)) ++
        [(core, ln, if q = .upg then .grant else .dataM)]) [] := by
  obtain ⟨v, hexec, hv⟩ := h.exec_own hi
  rw [State.serveCc_own (v.ccLine_setCc_self (core / 8) ln (x.inHand core q (x.pres &&& x.kept core))) rfl hown hi.ne_getS hst] at hexec
  have hans := State.Answers.of_message (hv.trans (v.lineWork_setCc (core / 8) ln _)) hexec
  simpa only [CcLine.kept_unowned hown, CcLine.inHand, h.cur, h.wait, invsTo_others, List.append_nil, beq_iff_eq] using hans

theorem State.Asked.own_shared (hwant : s.coh.want = []) (hown : x.own = none) (hst : x.st = .S) :
    s.Answers i core ln q
      { x with age := 0, fresh := false, pres := x.pres &&& (1#8 <<< (core % 8)), cur := some (core, q), st := .SXb, wait := .levelB }
      (((coresOf (core / 8)).filter (fun c => x.pres.getLsbD (c % 8) && c % 8 != core % 8)).map (fun c => (c, ln, .inv)))
      [ccReq (core / 8) ln 3 .upX] := by
  obtain ⟨v, hexec, hv⟩ := h.exec_own hi
  rw [State.serveCc_upgrade (v.ccLine_setCc_self (core / 8) ln (x.inHand core q (x.pres &&& x.kept core))) rfl hown hi.ne_getS hst] at hexec
  have hans := State.Answers.of_request hwant (hv.trans (v.lineWork_setCc (core / 8) ln _)) hexec
  simpa only [CcLine.kept_unowned hown, CcLine.inHand, invsTo_others, List.append_nil] using hans

end

theorem State.Asked.getm_recalls {s : State} {core ln j : Nat} {x : CcLine} (h : s.Asked core ln .getM x) (hown : x.own = some j)
    (hj : j ≠ core) (hothers : x.pres &&& ~~~((1#8 <<< (core % 8)) ||| (1#8 <<< (j % 8))) = 0) :
    s.Answers (.getm core ln .none) core ln .getM { x with age := 0, fresh := false, cur := some (core, .getM), wait := .recall }
      [(j, ln, .recall)] [] := by
  obtain ⟨v, hexec, hv⟩ := h.exec_own (.inl ⟨rfl, rfl⟩)
  have hkept : x.kept core = (1#8 <<< (core % 8)) ||| (1#8 <<< (j % 8)) := by simp only [CcLine.kept, hown, Option.elim]
  have hnone : invsTo (core / 8) ln 0 = [] := by simp [invsTo]
  rw [hkept, and_eq_self_of_and_not hothers,
    State.serveCc_ofOwner (v.ccLine_setCc_self (core / 8) ln (x.inHand core .getM x.pres)) rfl hown hj] at hexec
  rw [hkept, hothers, hnone] at hv
  exact State.Answers.of_message (hv.trans (v.lineWork_setCc (core / 8) ln _)) hexec

/-! #### PutE and PutM -/

theorem State.Asked.put {s : State} {i : Instr} {core ln : Nat} {q : AReq} {x : CcLine} (h : s.Asked core ln q x)
    (hi : i = .pute core ln ∧ q = .putE ∨ i = .putm core ln ∧ q = .putM) (hown : x.own = some core) :
    s.Answers i core ln q
      { x with own := none, stale := none, pres := x.pres &&& ~~~(1#8 <<< (core % 8)), dirty := x.dirty || q == .putM }
      [(core, ln, .putAck)] [] := by
  have hexec : exec i s = .next (s.putCc core ln q) := by
    rcases hi with ⟨rfl, rfl⟩ | ⟨rfl, rfl⟩ <;> rfl
  have hu : (s.tookA core ln q).ccLine (core / 8) ln = some x := h.line
  refine State.Answers.of_message (v := s.tookA core ln q) (m := [])
    ⟨State.SameWork.rfl' _, by simp, fun _ _ => rfl, fun _ => rfl⟩ (hexec.trans (congrArg Host.Outcome.next ?_))
  rw [State.putCc, h.takeA (p := (· == q)) (beq_self_eq_true q)]
  simp only [State.ccFound_nil (s.tookA core ln q) (core / 8) ln h.finds, hu, hown, beq_self_eq_true, Bool.true_and, if_true]

/-! ### Rdata (10_coherence.md R212) -/

/-- An Rdata taken. -/
def State.tookR (s : State) (core ln : Nat) (d : Bool) : State := { s with coh := { s.coh with ar := s.coh.ar.erase (core, ln, d) } }

/-- A line whose owner has returned its data: after a Recall without its copy. -/
def CcLine.returned (x : CcLine) (core : Nat) (d : Bool) : CcLine :=
  { x with
    dirty := x.dirty || d, own := none, wait := .none, stale := none
    pres := if x.wait = .down then x.pres else x.pres &&& ~~~(1#8 <<< (core % 8)) }

section
variable {s : State} {core ln k : Nat} {d : Bool} {x : CcLine}
  (hfirst : s.coh.ar.find? (fun e => e.1 == core && e.2.1 == ln) = some (core, ln, d)) (hline : s.ccLine (core / 8) ln = some x)
  (hsnoop : x.snoop = none)
include hfirst hline hsnoop

theorem State.takeRdata_serves :
    s.takeRdata core ln = ((s.tookR core ln d).setCc (core / 8) ln (x.returned core d)).serveCc (core / 8) ln := by
  have hu : ({ s with coh := { s.coh with ar := s.coh.ar.erase (core, ln, d) } } : State).ccLine (core / 8) ln = some x := hline
  rw [State.takeRdata, hfirst]
  simp only [hu, State.gotRdata]
  by_cases hwait : x.wait = .down <;> simp [hwait, hsnoop, CcLine.returned, State.tookR]

/-- One more copy is shared: the old owner keeps its own. -/
theorem State.rdata_shared (hst : x.st = .O) (hwait : x.wait = .down) (hcur : x.cur = some (k, .getS))
    (hpres : x.pres.getLsbD (core % 8) = true) (hne : core % 8 ≠ k % 8) :
    s.takeRdata core ln = (((s.tookR core ln d).setCc (core / 8) ln (x.returned core d)).setCc (core / 8) ln
      { x with wait := .none, cur := none, own := none, stale := none, pres := x.pres ||| (1#8 <<< (k % 8)), dirty := x.dirty || d }).msgA
        k ln .dataS := by
  have hother : x.pres &&& ~~~(1#8 <<< (k % 8)) ≠ 0 := by
    intro hzero
    have hbit := getLsbD_others x.pres core k
    rw [hzero, hpres] at hbit
    simp [hne] at hbit
  rw [State.takeRdata_serves hfirst hline hsnoop,
    State.serveCc_read (alone := false) (State.ccLine_setCc_self _ _ _ (x.returned core d)) hcur rfl rfl]
  · simp [CcLine.returned, hwait]
  · simp [CcLine.returned, hst]
  · simpa [CcLine.returned, hwait] using fun _ => hother

/-- The requester becomes the owner. -/
theorem State.rdata_owned (hst : x.st = .O) (hcur : x.cur = some (k, .getM)) :
    s.takeRdata core ln = (((s.tookR core ln d).setCc (core / 8) ln (x.returned core d)).setCc (core / 8) ln
      { x with wait := .none, cur := none, own := some k, stale := none, pres := 1#8 <<< (k % 8), dirty := x.dirty || d }).msgA
        k ln .dataM := by
  rw [State.takeRdata_serves hfirst hline hsnoop,
    State.serveCc_own (State.ccLine_setCc_self _ _ _ (x.returned core d)) hcur rfl (by decide) hst]
  rfl

end

/-- What an Rdata that lets the request in hand go on leaves, by the line and the message that it becomes. -/
theorem State.runs_rdata {s : State} {core ln k : Nat} {d : Bool} {x y : CcLine} {a : AMsg}
    (hserves : s.takeRdata core ln = (((s.tookR core ln d).setCc (core / 8) ln x).setCc (core / 8) ln y).msgA k ln a) :
    Runs (.rdata core ln) s (fun t => t.ccLine (core / 8) ln = some y ∧ t.coh.am = s.coh.am ++ [(k, ln, a)] ∧
      t.coh.ar = s.coh.ar.erase (core, ln, d) ∧ SameMemory s t) := by
  refine ⟨_, congrArg Host.Outcome.next hserves, ?_, ?_, ?_, ?_⟩
  · rw [State.ccLine_msgA, State.ccLine_setCc_self]
  · rfl
  · rfl
  · exact (((s.sameWork_coh _).trans (State.sameWork_setCc _ _ _ x)).trans
      ((State.sameWork_setCc _ _ _ y).trans (State.sameWork_msgA _ _ _ _))).sameMemory

/-! ### The victim cache drains (R203) -/

theorem State.victimDrain_next {s : State} {cl ln : Nat} {x : CcLine} (hline : s.ccLine cl ln = some x) (hown : x.own = none)
    (hpres : x.pres = 0) (hnext : s.vcNext cl ln = true) (hstill : s.inTransit cl ln x = false) (hwb : s.wbOut cl (homeOf ln) < 8)
    (hfinds : s.finds = []) : s.victimDrain cl ln =
      ((s.setCc cl ln { x with st := .OIb, stale := none }).note (.wbM cl ln)).tallyCc cl 0x103 x.cls := by
  have hgoes : (!s.vcNext cl ln || s.inTransit cl ln x || decide (8 ≤ s.wbOut cl (homeOf ln))) = false := by simp [hnext, hstill, hwb]
  simp only [State.victimDrain, hline, hgoes, Bool.false_eq_true, if_false, State.ccFound_nil s cl ln hfinds,
    s.takeBack_alone cl ln hown hpres, ← hpres, ← hown]

/-! ### The statement -/

/-- What a request that misses leaves, by the way that its line takes and the request that goes to the home. -/
theorem State.runs_miss {s : State} {i : Instr} {core ln w : Nat} {q k : AReq} {p : AReq → Bool}
    (hexec : exec i s = .next (s.askCc core ln .none p)) (hp : p q = true) (hk : (if q == .upg then .getM else q) = k)
    (hfirst : s.AsksFirst core ln q) (hline : s.ccLine (core / 8) ln = none) (hways : s.ccWays (core / 8) (ccSet ln) = [])
    (hwant : s.coh.want = []) (hwrite : s.ownWrite (core / 8) ln = false) (hfinds : s.finds = [])
    (hw : ((List.range 16).filter (fun w => bitsOf (s.wayMask (core / 8) 3) w 1 == 1)).head? = some w) :
    Runs i s (fun t => (∃ age, t.ccLine (core / 8) ln = some (.filling w age core k)) ∧
      t.coh.bq = s.coh.bq ++ [ccReq (core / 8) ln 3 (if k == .getS then .rdS else .rdX)] ∧ t.coh.aq = s.coh.aq.erase (core, ln, q) ∧
      t.coh.am = s.coh.am ∧ t.coh.l1 = s.coh.l1 ∧ SameMemory s t) := by
  obtain ⟨age, v, hask, hwork, cc, vwait, hcoh⟩ := State.askCc_miss hfirst hp hline hways hwrite hfinds hw hk
  have hfree : (v.setCc (core / 8) ln (.filling w age core k)).coh.want = [] := (congrArg CohSt.want hcoh).trans hwant
  rw [State.sendB_of_free hfree] at hask
  refine ⟨_, hexec.trans (congrArg Host.Outcome.next hask), ⟨age, v.ccLine_setCc_self _ _ _⟩, ?_, (congrArg CohSt.aq hcoh).trans rfl,
    (congrArg CohSt.am hcoh).trans rfl, (congrArg CohSt.l1 hcoh).trans rfl, hwork.sameMemory⟩
  exact congrArg (· ++ _) ((congrArg CohSt.bq hcoh).trans rfl)

/-- Settles O35: each request through the line it takes in hand and what that sends. -/
theorem clusterRequests : Obligations.ClusterRequests := by
  refine ⟨fun s core ln w i q st r k hfirst hline hways hwant hwrite hfinds hw hi => ?miss,
    fun s core ln i q x y m b hfirst hline hcur hsnoop hwait hwant hfinds hi => ?hit,
    fun s core k ln d x hfirst hline hsnoop _ hst => ⟨fun hwait hcur hpres hne => ?shared, fun _ hcur => ?owned⟩,
    fun s cl ln x hline _ hown hpres hold hstill hdraining hwb hfinds => ?drain, fun s core k l hl => ?stream⟩
  case miss =>
    obtain ⟨p, hexec, hp, hk, rfl, rfl⟩ : ∃ p, exec i s = .next (s.askCc core ln .none p) ∧ p q = true ∧
        (if q == .upg then .getM else q) = k ∧ (if k == .getS then .ISb else .IXb) = st ∧ (if k == .getS then .rdS else .rdX) = r := by
      rcases hi with ⟨rfl, rfl, rfl, rfl, rfl⟩ | ⟨rfl, rfl, rfl, rfl, rfl⟩ | ⟨rfl, rfl, rfl, rfl, rfl⟩ <;>
        exact ⟨_, rfl, rfl, rfl, rfl, rfl⟩
    obtain ⟨t, ht, ⟨age, hx⟩, hrest⟩ := State.runs_miss hexec hp hk hfirst hline hways hwant hwrite hfinds hw
    exact ⟨t, ht, ⟨_, hx, rfl, rfl, rfl, rfl, rfl, rfl, rfl, rfl⟩, hrest⟩
  case hit =>
    have asked (hst : x.st = .S ∨ x.st = .O) : s.Asked core ln q x := ⟨hfirst, hline, hcur, hsnoop, hwait, hst, hfinds⟩
    have hans : s.Answers i core ln q y m b := by
      rcases hi with ⟨rfl, rfl, rfl, hread⟩ | ⟨hown, hnone, hst, rfl, rfl, rfl⟩ | ⟨hown, hnone, hst, rfl, rfl, rfl⟩ |
        ⟨rfl, rfl, rfl, j, hj, hne, hst, hothers, rfl, rfl⟩ | ⟨hput, hst, hmine, rfl, rfl, rfl⟩
      case inl =>
        rcases hread with ⟨hnone, hshared, rfl, rfl⟩ | ⟨hnone, hst, halone, rfl, rfl⟩ | ⟨j, hj, hne, hst, rfl, rfl⟩
        · have hfalse : (x.st == .O && x.pres &&& ~~~(1#8 <<< (core % 8)) == 0) = false := by
            rcases hshared with hst | ⟨hst, hpres⟩
            · rw [hst]; rfl
            · rw [beq_eq_false_iff_ne.mpr hpres, Bool.and_false]
          simpa [hnone] using (asked (hshared.imp_right And.left)).gets_unowned hnone hfalse
        · exact (asked (.inr hst)).gets_unowned (alone := true) hnone (by rw [hst, halone]; rfl)
        · exact (asked (.inr hst)).gets_owned hj hne
      · exact (asked (.inr hst)).own_owned hown hnone hst
      · exact (asked (.inl hst)).own_shared hown hwant hnone hst
      · exact (asked (.inr hst)).getm_recalls hj hne hothers
      · exact (asked hst).put hput hmine
    obtain ⟨t, hexec, hy, hwork⟩ := hans
    obtain ⟨-, -, -, -, -, -, -, hthr, -⟩ := hwork.work
    have hcoh := hwork.coh
    exact ⟨t, hexec, hy, (congrArg CohSt.am hcoh).trans rfl, (congrArg CohSt.bq hcoh).trans rfl, (congrArg CohSt.aq hcoh).trans rfl,
      (congrArg CohSt.bn hcoh).trans rfl, hwork.work.sameMemory, (congrArg ThrSt.groups hthr).trans rfl,
      (congrArg ThrSt.ops hthr).trans rfl, hwork.regs, hwork.lines⟩
  case shared => exact State.runs_rdata (State.rdata_shared hfirst hline hsnoop hst hwait hcur hpres hne)
  case owned => exact State.runs_rdata (State.rdata_owned hfirst hline hsnoop hst hcur)
  case drain =>
    have hnext : s.vcNext cl ln = true := by simp [State.vcNext, hold, hdraining]
    have hcoh := ((s.setCc cl ln { x with st := .OIb, stale := none }).note (.wbM cl ln)).tally_coh (cl / 16) (128 + cl % 16) 0x103 1
      ⟨none, none, some x.cls⟩
    exact ⟨_, congrArg Host.Outcome.next (State.victimDrain_next hline hown hpres hnext hstill hwb hfinds),
      (congrArg (fun c : CohSt => aget c.cc ⟨cl, ln⟩) hcoh).trans (s.ccLine_setCc_self cl ln _), congrArg CohSt.bn hcoh,
      ((s.sameWork_coh _).trans (State.sameWork_tallyCc _ cl 0x103 x.cls)).sameMemory⟩
  case stream =>
    have hends : s.streamEnd core k = { s with thr := { s.thr with streams := aput s.thr.streams core (l.eraseIdx k) } } := by
      rw [State.streamEnd, hl]
    exact ⟨_, congrArg Host.Outcome.next hends, aget_aput_self _ _ _, rfl, rfl, rfl, rfl, rfl⟩

end Sys2Proof.Machine
end

section
/-! SUPPORT. Messages of a cluster cache taken by an L1 (10_coherence.md Table 10.2, R209-R211): what each leaves of the line that it
finds, and the Rdata that answers a Recall or a Down. -/

namespace Sys2Proof.Machine

open Sys2Proof

theorem aget_adel_ne {κ α : Type} [DecidableEq κ] (m : List (κ × α)) {k j : κ} (h : j ≠ k) : aget (adel m k) j = aget m j := by
  induction m with
  | nil => rfl
  | cons e r ih =>
    obtain ⟨a, v⟩ := e
    by_cases ha : a = k
    · have hj : a ≠ j := fun e => h (e.symm.trans ha)
      simpa [adel, aget, ha, ha ▸ hj] using ih
    · have hcons : adel ((a, v) :: r) k = (a, v) :: adel r k := by simp [adel, ha]
      rw [hcons, aget, aget, ih]

theorem State.retryOps_of_coreOps {s : State} {core : Nat} (h : s.coreOps core = []) : s.retryOps core = s := by
  simp [State.retryOps, h]

/-- The first message in a core's channel taken. -/
def State.tookMsg (s : State) (core ln : Nat) (m : AMsg) : State :=
  { s with coh := { s.coh with am := s.coh.am.erase (core, ln, m) } }

/-- `u` is `s` after work at one line of an L1, which it leaves as `y`, and sent the Rdata `d`. -/
structure State.L1Work (s : State) (core ln : Nat) (y : Option L1Line) (d : List (Nat × Nat × Bool)) (u : State) : Prop where
  line : u.l1 core ln = y
  lines : ∀ k : UL, k ≠ ⟨core, ln⟩ → aget u.coh.l1 k = aget s.coh.l1 k
  coh : u.coh = { s.coh with l1 := u.coh.l1, ar := s.coh.ar ++ d }
  rest : u = { s with coh := u.coh }

section
variable (s : State) (core ln : Nat)

theorem State.l1Work_refl : s.L1Work core ln (s.l1 core ln) [] s := ⟨rfl, fun _ _ => rfl, by simp, rfl⟩

theorem State.l1Work_setL1 (x : L1Line) : s.L1Work core ln (some x) [] (s.setL1 core ln x) :=
  ⟨aget_aput_self _ _ _, fun _ hk => aget_aput_ne _ _ hk.symm, by simp [State.setL1], rfl⟩

theorem State.l1Work_delL1 : s.L1Work core ln none [] (s.delL1 core ln) :=
  ⟨aget_adel_self _ _, fun _ hk => aget_adel_ne _ hk, by simp [State.delL1], rfl⟩

variable {s core ln}

theorem State.L1Work.sendRdata {y : Option L1Line} {u : State} (h : s.L1Work core ln y [] u) (dirty : Bool) :
    s.L1Work core ln y [(core, ln, dirty)] (u.sendRdata core ln dirty) where
  line := h.line
  lines := h.lines
  coh := by rw [State.sendRdata, h.coh]; simp
  rest := by rw [State.sendRdata, h.rest]

end

theorem State.l1Demand_of_nil {s : State} (h : s.finds = []) (core ln : Nat) (m : AMsg) : s.l1Demand core ln m = s := by
  simp only [State.l1Demand, State.takeFind_nil _ _ h, ite_self]

section
variable {s : State} {core ln : Nat} {m : AMsg} (hfirst : s.coh.am.find? (fun e => e.1 == core) = some (core, ln, m))
include hfirst

theorem State.takeMsg_first : s.takeMsg core ln m = some (s.tookMsg core ln m) := by
  simp only [State.takeMsg, hfirst, beq_self_eq_true, if_true]
  rfl

variable (hfinds : s.finds = [])
include hfinds

theorem State.deliverA_line {x : L1Line} {u : State} (hline : s.l1 core ln = some x)
    (hmsg : (s.tookMsg core ln m).l1Msg core ln x m = some u) : s.deliverA core ln m = u.retryOps core := by
  have hx : (s.tookMsg core ln m).l1 core ln = some x := hline
  simp only [State.deliverA, State.takeMsg_first hfirst, State.l1Demand_of_nil (s := s.tookMsg core ln m) hfinds, hx, hmsg]

theorem State.deliverA_inv_absent (hm : m = .inv) (hline : s.l1 core ln = none) : s.deliverA core ln m = s.tookMsg core ln m := by
  subst hm
  have hx : (s.tookMsg core ln .inv).l1 core ln = none := hline
  simp [State.deliverA, State.takeMsg_first hfirst, State.l1Demand_of_nil (s := s.tookMsg core ln .inv) hfinds, hx]

end

/-- Instruction `i` brings message `m` to an L1 line in state `x`, which it leaves as `y`, with the Rdata `d`. -/
def State.Takes (s : State) (i : Instr) (core ln : Nat) (x : L1Line) (m : AMsg) (y : Option L1Line) (d : List (Nat × Nat × Bool)) : Prop :=
  exec i s = .next (s.deliverA core ln m) ∧
    ∃ u, (s.tookMsg core ln m).l1Msg core ln x m = some u ∧ (s.tookMsg core ln m).L1Work core ln y d u

/-- The Rdata that answers a Recall or a Down of an L1 line in E or M, which is given up or kept in S. -/
theorem State.l1Msg_returns {s : State} {core ln : Nat} {x : L1Line} (hst : x.st = .E ∨ x.st = .M) :
    s.l1Msg core ln x .recall = some ((s.delL1 core ln).sendRdata core ln (x.st == .M)) ∧
    s.l1Msg core ln x .down = some ((s.setL1 core ln { x with st := .S }).sendRdata core ln (x.st == .M)) := by
  rcases hst with hst | hst <;> simp only [State.l1Msg, hst] <;> exact ⟨rfl, rfl⟩

/-- Settles O34: each message through what it leaves of its line, and then the accesses in flight. -/
theorem l1Messages : Obligations.L1Messages := by
  refine ⟨fun s core ln x m y d i hfirst hline hfinds hi => ?taken, fun s core ln hfirst hline hfinds => ?absent,
    fun s core ln => ⟨fun hz => ?expires, fun hz => ?stays⟩⟩
  case taken =>
    set v := s.tookMsg core ln m with hv
    have hvline : v.l1 core ln = some x := hline
    have htakes : s.Takes i core ln x m y d := by
      rcases hi with ⟨rfl, rfl, hst, rfl, rfl⟩ | ⟨rfl, rfl, hst, rfl, rfl⟩ | ⟨rfl, rfl, hst, rfl, rfl⟩ | ⟨rfl, rfl, hst, rfl, rfl⟩ |
        ⟨rfl, rfl, hst, rfl, rfl⟩ | ⟨rfl, rfl, hst, rfl, rfl⟩ | ⟨rfl, rfl, hst, rfl, rfl⟩ | ⟨rfl, rfl, hst, rfl, rfl⟩ |
        ⟨rfl, rfl, hst, rfl, rfl⟩ | ⟨rfl, rfl, hst, rfl, rfl⟩ | ⟨him, hst, rfl, rfl⟩
      · exact ⟨rfl, _, by simp [State.l1Msg, hst], State.l1Work_setL1 _ _ _ _⟩
      · exact ⟨rfl, _, by simp [State.l1Msg, hst], State.l1Work_setL1 _ _ _ _⟩
      · exact ⟨rfl, _, by simp [State.l1Msg, hst], State.l1Work_setL1 _ _ _ _⟩
      · exact ⟨rfl, _, by simp [State.l1Msg, hst], State.l1Work_setL1 _ _ _ _⟩
      · exact ⟨rfl, _, by simp [State.l1Msg, hst], State.l1Work_delL1 _ _ _⟩
      · exact ⟨rfl, _, by simp [State.l1Msg, hst], State.l1Work_setL1 _ _ _ _⟩
      · refine ⟨rfl, v, ?_, hvline ▸ v.l1Work_refl core ln⟩
        rcases hst with hst | hst | hst <;> simp [State.l1Msg, hst, hv]
      · exact ⟨rfl, _, by simp [State.l1Msg, hst], State.l1Work_setL1 _ _ _ _⟩
      · exact ⟨rfl, _, (State.l1Msg_returns hst).1, (State.l1Work_delL1 _ _ _).sendRdata _⟩
      · exact ⟨rfl, _, (State.l1Msg_returns hst).2, (State.l1Work_setL1 _ _ _ _).sendRdata _⟩
      · have hwork := (v.l1Work_refl core ln).sendRdata (s.coh.aq.contains (core, ln, .putM))
        rw [hvline] at hwork
        rcases him with ⟨rfl, rfl⟩ | ⟨rfl, rfl⟩ <;> exact ⟨rfl, _, by simp only [State.l1Msg, hst]; rfl, hwork⟩
    obtain ⟨hexec, u, hmsg, hwork⟩ := htakes
    have hops : u.coreOps core = s.coreOps core := by rw [hwork.rest]; rfl
    rw [State.deliverA_line hfirst hfinds hline hmsg] at hexec
    refine ⟨_, hexec, u, rfl, hwork.line, hwork.lines, (congrArg CohSt.am hwork.coh).trans rfl, (congrArg CohSt.ar hwork.coh).trans rfl,
      (congrArg CohSt.aq hwork.coh).trans rfl, (congrArg CohSt.cc hwork.coh).trans rfl, (congrArg CohSt.bq hwork.coh).trans rfl,
      (congrArg CohSt.bn hwork.coh).trans rfl, ?_, (congrArg State.thr hwork.rest).trans rfl, (congrArg State.regs hwork.rest).trans rfl,
      fun hnone => State.retryOps_of_coreOps (hops.trans hnone)⟩
    rw [hwork.rest]
    exact ⟨rfl, rfl, rfl⟩
  case absent => exact congrArg Host.Outcome.next (State.deliverA_inv_absent hfirst hfinds rfl hline)
  case expires =>
    have hexp : s.zExpire core ln = s.delL1 core ln := by simp [State.zExpire, hz]
    exact ⟨_, congrArg Host.Outcome.next hexp, (s.l1Work_delL1 core ln).line, (s.l1Work_delL1 core ln).lines, rfl, rfl, rfl, rfl, rfl⟩
  case stays => exact congrArg Host.Outcome.next (by simp [State.zExpire, hz])

end Sys2Proof.Machine
end

section
/-! SUPPORT. An SnFwdX whose receiver is the home (10_coherence.md R218, R223): the timer of the home that ended its transaction has
taken the requester out of it, so the owner answers without a forward. -/

namespace Sys2Proof.Machine

open Sys2Proof

/-- A line of a cluster cache in O, which no L1 has. -/
def ownedLine : CcLine := ⟨.O, true, 0, none, 0, 0, 3, none, .none, none, false, .none, none, false⟩

/-- Cluster 0 owns line 0, and an SnFwdX for it, with a receiver, is on its way. -/
def snoopedState (rcv : Nat) : State :=
  { State.reset with coh := { State.reset.coh with cc := [(⟨0, 0⟩, ownedLine)], bn := [.sn .fwdX 0 0 rcv] } }

/-- A home timer of class 0 to 2 leaves such a state, with the home as receiver (R223). -/
theorem forgetSnoops_snoopedState (rcv : Nat) : (snoopedState rcv).forgetSnoops 0 = snoopedState 84 := rfl

theorem snfwdx_snoopedState_home : ∃ t, exec (.snfwdx 0 0) (snoopedState 84) = .next t ∧ t.coh.bn = [.snAck 0 0] :=
  ⟨_, rfl, by decide +kernel⟩

/-- Refutes O37: the owner of a line that is asked for it with the home as receiver sends SnAck, and no FwdX. -/
theorem not_cacheAnswers : ¬ Obligations.CacheAnswers := by
  rintro ⟨-, -, hsnoops, -⟩
  obtain ⟨t, hexec, -, hbn, -⟩ := hsnoops (snoopedState 84) 0 0 84 .fwdX ownedLine (.snfwdx 0 0) none [] []
    [.fwdX 84 0 .none, .snAck 0 0] rfl (by simp) rfl rfl rfl rfl (fun _ _ => rfl) rfl
    (.inr (.inr (.inl ⟨rfl, rfl, rfl, rfl, rfl⟩)))
  obtain ⟨u, hnext, hu⟩ := snfwdx_snoopedState_home
  obtain rfl : t = u := Host.Outcome.next.inj (hexec.symm.trans hnext)
  exact absurd (hbn.symm.trans hu) (by decide)

end Sys2Proof.Machine
end

section
/-! SUPPORT. Requests, Done and WbM at a home (10_coherence.md R215-R222): what each leaves of the home's transactions, its directory and
the messages, while its counters count. -/

namespace Sys2Proof.Machine

open Sys2Proof

/-! ### What the work of a home leaves -/

/-- `t` is `s` with caches and messages as in `c`, after events of homes were counted. -/
structure State.HomeLeaves (s : State) (c : CohSt) (t : State) : Prop where
  work : s.SameWork t
  regs : s.RegsBut abortRegs t
  coh : t.coh = c

/-- The same transactions with one replaced, by its line. -/
def replaceTxn (l : List Txn) (x : Txn) : List Txn := l.map (fun y => if y.msg.line == x.msg.line then x else y)

theorem State.homeLeaves_coh (s : State) (c : CohSt) : s.HomeLeaves c { s with coh := c } := ⟨s.sameWork_coh c, fun _ _ _ _ => rfl, rfl⟩

section
variable {s t : State} {c : CohSt} (h : s.HomeLeaves c t)
include h

theorem State.HomeLeaves.trans {d : CohSt} {u : State} (k : t.HomeLeaves d u) : s.HomeLeaves d u :=
  ⟨h.work.trans k.work, h.regs.trans k.regs, k.coh⟩

/-- A change of the caches and messages alone. -/
theorem State.HomeLeaves.change (f : CohSt → CohSt) : s.HomeLeaves (f c) { t with coh := f t.coh } :=
  h.coh ▸ h.trans (t.homeLeaves_coh (f t.coh))

theorem State.HomeLeaves.tallyHome (k code v : Nat) : s.HomeLeaves c (t.tallyHome k code v) :=
  h.trans ⟨t.sameWork_tally _ _ _ _ _, t.regsBut_tally _ _ _ _ _, (t.tally_coh _ _ _ _ _).trans h.coh⟩

theorem State.HomeLeaves.note (n : BNote) : s.HomeLeaves { c with bn := c.bn ++ [n] } (t.note n) :=
  h.change (fun c => { c with bn := c.bn ++ [n] })

theorem State.HomeLeaves.setTxn (x : Txn) : s.HomeLeaves { c with txns := replaceTxn c.txns x } (t.setTxn x) :=
  h.change (fun c => { c with txns := replaceTxn c.txns x })

theorem State.HomeLeaves.setDir (ln : Nat) (d : Dir) : s.HomeLeaves { c with dir := mput c.dir ln d } (t.setDir ln d) :=
  h.change (fun c => { c with dir := mput c.dir ln d })

theorem State.HomeLeaves.delDir (ln : Nat) : s.HomeLeaves { c with dir := mdel c.dir ln } (t.delDir ln) :=
  h.change (fun c => { c with dir := mdel c.dir ln })

theorem State.HomeLeaves.notes (f : Nat → BNote) (l : List Nat) :
    s.HomeLeaves { c with bn := c.bn ++ l.map f } (l.foldl (fun s k => s.note (f k)) t) := by
  induction l generalizing t c with
  | nil => simpa using h
  | cons k l ih => simpa using ih (h.note (f k))

theorem State.HomeLeaves.sendSnoops (k : Snoop) (ln rcv : Nat) (dst : List Nat) :
    s.HomeLeaves { c with bn := c.bn ++ dst.map (fun q => .sn k q ln rcv) } (t.sendSnoops k ln rcv dst) :=
  (h.notes (fun q => .sn k q ln rcv) dst).tallyHome _ _ _

theorem State.HomeLeaves.tripped (ln : Nat) : t.tripped ln = s.tripped ln := h.regs.on F.STK_STAT_TRIP (by decide) _ 0

theorem State.HomeLeaves.linePoison (ln : Nat) : t.linePoison ln = s.linePoison ln :=
  State.linePoison_congr (h.tripped ln) (by rw [h.work.sameMemory.2.1])

theorem State.HomeLeaves.rdByte (k a : Nat) : t.rdByte k a = s.rdByte k a := State.rdByte_congr h.work.sameMemory h.work.stk k a

theorem State.HomeLeaves.readB (m : BMsg) : t.readB m = s.readB m := by
  simp only [State.readB, State.rdBytes, h.rdByte, h.linePoison]

end

/-! ### Transactions settled (R217) -/

section
variable {s : State} {ln : Nat}

/-- A home that owes no credit grants none (R221). -/
theorem State.grantCredit_of_none {h : Nat} (hcred : s.coh.credq.all (fun c => c.1 != h) = true) : s.grantCredit h = s := by
  have hnone : s.coh.credq.find? (fun c => c.1 == h) = none := by
    rw [List.find?_eq_none]
    intro c hc
    simpa using List.all_eq_true.mp hcred c hc
  simp only [State.grantCredit, hnone]

theorem State.pump_of_none (hq : s.coh.queued = []) (n : Nat) : State.pump n s = s := by
  have hheads : s.heads = [] := by simp [State.heads, hq]
  cases n with
  | zero => rfl
  | succ n => simp only [State.pump, hheads, List.find?_nil]

theorem State.advance_of_settled {t : State} (hs : s.settleTxn ln = t) (hq : t.coh.queued = []) : s.advance ln = t := by
  rw [State.advance, hs, State.pumpAll, State.pump_of_none hq]

theorem State.settleTxn_of_none (h : s.txnOf ln = none) : s.settleTxn ln = s := by
  have hnone : s.coh.txns.find? (fun t => t.msg.line == ln && !t.again) = none := by
    rw [List.find?_eq_none]
    intro t ht
    have hline := List.find?_eq_none.mp h t ht
    simp only [Bool.not_eq_true] at hline
    simp [hline]
  simp only [State.settleTxn, hnone]

/-- The transaction of a line that does not restart is the first that is looked at. -/
theorem State.find_txn {x : Txn} (hx : s.txnOf ln = some x) (hagain : x.again = false) :
    s.coh.txns.find? (fun t => t.msg.line == ln && !t.again) = some x := by
  obtain ⟨hp, as, bs, hsplit, hbefore⟩ := List.find?_eq_some_iff_append.mp hx
  refine List.find?_eq_some_iff_append.mpr ⟨by simp [hp, hagain], as, bs, hsplit, fun a ha => ?_⟩
  have hline := hbefore a ha
  simp only [Bool.not_eq_true'] at hline
  simp [hline]

/-- A transaction waits while a snoop, a Done or an update of it is out. -/
theorem State.settleTxn_waits {x : Txn} (hx : s.txnOf ln = some x) (hagain : x.again = false)
    (hwaits : x.snoops ≠ [] ∨ x.replied = true ∧ (x.needDone.isSome = true ∨ x.msg.req = .redU ∧ s.updPending ln = true)) :
    s.settleTxn ln = s := by
  have hkeeps : (x.snoops.isEmpty && !x.replied) = false ∧
      (x.snoops.isEmpty && x.replied && x.needDone.isNone && !(x.msg.req == .redU && s.updPending ln)) = false := by
    rcases hwaits with hsn | ⟨hrep, hdone | ⟨hreq, hupd⟩⟩
    · simp [List.isEmpty_eq_false_iff.mpr hsn]
    · simp [hrep, Option.isNone_eq_false_iff.mpr hdone]
    · simp [hrep, hreq, hupd]
  have htxn : s.coh.txns.find? (fun t => t.msg.line == ln) = some x := hx
  simp only [State.settleTxn, State.find_txn hx hagain, hkeeps, htxn, Bool.false_eq_true, if_false]

/-- A transaction that is answered and waits for nothing ends. -/
theorem State.settleTxn_ends {x : Txn} (hx : s.txnOf ln = some x) (hagain : x.again = false) (hsn : x.snoops = [])
    (hrep : x.replied = true) (hdone : x.needDone = none) (hreq : x.msg.req ≠ .redU)
    (hcred : s.coh.credq.all (fun c => c.1 != homeOf ln) = true) :
    s.settleTxn ln = { s with coh := { s.coh with txns := s.coh.txns.filter (fun y => y.msg.line != ln) } } := by
  have htxn : s.coh.txns.find? (fun t => t.msg.line == ln) = some x := hx
  simp only [State.settleTxn, State.find_txn hx hagain, htxn, hsn, hrep, hdone, beq_eq_false_iff_ne.mpr hreq, List.isEmpty_nil,
    Bool.not_true, Bool.and_false, Bool.false_and, Bool.and_self, Bool.not_false, Option.isNone_none, Bool.false_eq_true, if_false,
    if_true]
  exact State.grantCredit_of_none hcred

end

/-! ### A request accepted (R220, R221) -/

/-- The row of a request. -/
def BReq.row : BReq → Nat → Nat → Instr
  | .rdS => .rds
  | .rdX => .rdx
  | .upX => .upx
  | .rdN => .rdn
  | .wrF => .wrf
  | .wrP => .wrp
  | .redU => .redu

theorem exec_row (q : BReq) (r ln : Nat) (s : State) :
    exec (q.row r ln) s = .next (s.crossing r (homeOf ln) true (fun s => s.takeB q r ln)) := by cases q <;> rfl

/-- The transaction that a request begins. -/
def BMsg.txn (m : BMsg) (e : Nat) : Txn := ⟨m, e, [], none, false, false, false, false, false⟩

/-- Caches and messages once a request is accepted and its transaction begun. -/
def CohSt.beginning (c : CohSt) (m : BMsg) (e : Nat) : CohSt :=
  { c with bq := c.bq.erase m, queued := [], txns := c.txns ++ [m.txn e] }

/-- A request taken from the messages under way. -/
def State.taken (s : State) (m : BMsg) : State := { s with coh := { s.coh with bq := s.coh.bq.erase m } }

section
variable {s : State} {m : BMsg}

/-- A request that its home accepts starts its row at once, and its transaction goes on from there. -/
theorem State.exec_row_accepted (h : s.Accepts m) (hqueue : s.coh.queued = []) : ∃ e v, s.HomeLeaves (s.coh.beginning m e) v ∧
    ∀ w, (v.rowB (m.txn e)).settleTxn m.line = w → w.settleTxn m.line = w → w.coh.queued = [] →
      exec (m.req.row m.r m.line) s = .next w := by
  obtain ⟨hfind, hturn, hcredit, hhome, hfree, hidle, hcred, hroom, hway, -⟩ := h
  obtain ⟨e, he⟩ := Option.isSome_iff_exists.mp hfree
  have hmsg : ({ m with credit := false } : BMsg) = m := by rw [← hcredit]
  set a : State := { s with coh := { s.coh with bq := s.coh.bq.erase m, queued := [m.txn e] } } with ha
  set b := a.tallyHome (homeOf m.line) 0x201 1 with hb
  set v : State := { b with coh := s.coh.beginning m e } with hv
  have hbcoh : b.coh = a.coh := a.tally_coh _ _ _ _ _
  have hbusy : s.coh.txns.all (fun x => x.msg.line != m.line) = true := by
    simp only [State.lineBusy, hqueue, List.any_nil, Bool.or_false] at hidle
    simpa [List.all_eq_true, List.any_eq_false] using hidle
  have hheads : b.heads = [m.txn e] := by
    simp [State.heads, hbcoh, ha, BMsg.txn, hbusy]
  have hbroom : b.dirRoom m = true := by
    rw [← hroom]
    simp only [State.dirRoom, State.dirOf, State.dirWays, hbcoh]
    rfl
  have hpump : ∀ w, (v.rowB (m.txn e)).settleTxn m.line = w → w.coh.queued = [] → b.pumpAll = w := by
    intro w hw hq
    have hcoh : ({ b.coh with queued := b.coh.queued.erase (m.txn e), txns := b.coh.txns ++ [m.txn e] } : CohSt) = s.coh.beginning m e := by
      rw [hbcoh, ha]
      simp [CohSt.beginning]
    have hstep : State.pump 3 b = State.pump 2 ((v.rowB (m.txn e)).settleTxn m.line) := by
      simp only [State.pump, hheads, List.find?_cons, show (m.txn e).msg = m from rfl, hbroom, hcoh, hv]
    have hlen : b.coh.queued.length = 1 := by rw [hbcoh]; rfl
    rw [State.pumpAll, hlen, hstep, hw, State.pump_of_none hq]
  refine ⟨e, v, ?_, fun w hw hsettled hq => ?_⟩
  · exact ((s.homeLeaves_coh _).tallyHome _ _ _).trans (b.homeLeaves_coh _)
  · have harrive : (s.taken m).arriveB m = w := by
      have hnot : (!(s.taken m).lineBusy m.line && (s.taken m).coh.credq.all fun c => c.1 != homeOf m.line) = true := by
        rw [show (s.taken m).coh.credq = s.coh.credq from rfl, hcred, Bool.and_true]
        exact congrArg (!·) hidle
      have hhome' : (aget (s.taken m).rst.homes (homeOf m.line)).isSome = false := Option.isSome_eq_false_iff.mpr (Option.isNone_iff_eq_none.mpr hhome)
      have he' : (s.taken m).sharedFree (homeOf m.line) = some e := he
      have hgo : (s.taken m).arriveB m = b.pumpAll.advance m.line := by
        rw [State.arriveB]
        simp only [hhome', hcredit, he', hnot, hmsg, Bool.false_eq_true, if_false, if_true]
        rw [hb, ha, ← List.nil_append [m.txn e], ← hqueue]
        rfl
      rw [hgo, hpump w hw hq, State.advance_of_settled hsettled hq]
    rw [exec_row, State.crossing_of_wayClear hway]
    simp only [State.takeB, hfind, hturn, if_true]
    exact congrArg Host.Outcome.next harrive

end

/-! ### The row of a request (Table 10.6) -/

/-- A look-up through a map that keeps the keys. -/
theorem mget_map_of_key {α : Type} (f : Nat × α → Nat × α) (hf : ∀ e, (f e).1 = e.1) (l : List (Nat × α)) (a : Nat) :
    mget (l.map f) a = (mget l a).map (fun v => (f (a, v)).2) := by
  induction l with
  | nil => rfl
  | cons e l ih =>
    obtain ⟨k, v⟩ := e
    have hk : f (k, v) = (k, (f (k, v)).2) := Prod.ext (hf _) rfl
    rw [List.map_cons, hk]
    by_cases h : k = a
    · subst h
      simp [mget]
    · simp [mget, h, ih]

/-- The state of a home while it works on a request: `x` is the transaction, last in the list. -/
structure State.Working (s : State) (m : BMsg) (x : Txn) (w : State) : Prop where
  txns : w.coh.txns = s.coh.txns ++ [x]
  queued : w.coh.queued = []
  credq : w.coh.credq = s.coh.credq
  bq : w.coh.bq = s.coh.bq.erase m
  msg : x.msg = m
  again : x.again = false

section
variable {s v : State} {m : BMsg} {e : Nat}

theorem State.Accepts.other_lines (h : s.Accepts m) : ∀ y ∈ s.coh.txns, (y.msg.line == m.line) = false := by
  obtain ⟨-, -, -, -, -, hidle, -⟩ := h
  simp only [State.lineBusy, Bool.or_eq_false_iff, List.any_eq_false] at hidle
  exact fun y hy => Bool.eq_false_iff.mpr (hidle.1 y hy)

theorem State.Accepts.finds_nil (h : s.Accepts m) : s.finds = [] := by
  obtain ⟨-, -, -, -, -, -, -, -, -, hfinds⟩ := h
  exact hfinds

/-- The last of the transactions is the one that a home replaces. -/
theorem State.Accepts.replaceTxn_last (h : s.Accepts m) {t x : Txn} (ht : t.msg = m) (hx : x.msg = m) :
    replaceTxn (s.coh.txns ++ [t]) x = s.coh.txns ++ [x] := by
  have hkept : s.coh.txns.map (fun y => if y.msg.line == m.line then x else y) = s.coh.txns :=
    (List.map_congr_left (g := id) (fun y hy => by rw [h.other_lines y hy]; rfl)).trans (List.map_id _)
  simp only [replaceTxn, List.map_append, hx, hkept, List.map_cons, List.map_nil, ht, beq_self_eq_true, if_true]

theorem State.Accepts.working (h : s.Accepts m) {x : Txn} {c : CohSt} {w : State} (hcoh : w.coh = c) (hmsg : x.msg = m)
    (hagain : x.again = false) (htxns : c.txns = replaceTxn (s.coh.txns ++ [m.txn e]) x) (hqueue : c.queued = []) (hcredq : c.credq = s.coh.credq)
    (hbq : c.bq = s.coh.bq.erase m) : s.Working m x w where
  txns := by rw [hcoh, htxns, h.replaceTxn_last rfl hmsg]
  queued := by rw [hcoh, hqueue]
  credq := by rw [hcoh, hcredq]
  bq := by rw [hcoh, hbq]
  msg := hmsg
  again := hagain

variable {x : Txn} {w : State} (k : s.Working m x w) (h : s.Accepts m)
include k h

theorem State.Working.txnOf : w.txnOf m.line = some x := by
  have hnone : s.coh.txns.find? (fun t => t.msg.line == m.line) = none :=
    List.find?_eq_none.mpr (fun y hy => by rw [h.other_lines y hy]; exact Bool.false_ne_true)
  rw [State.txnOf, k.txns, List.find?_append, hnone]
  simp [k.msg]

theorem State.Working.others : w.coh.txns.filter (fun y => y.msg.line != m.line) = s.coh.txns := by
  have hkept : s.coh.txns.filter (fun y => y.msg.line != m.line) = s.coh.txns :=
    List.filter_eq_self.mpr (fun y hy => by rw [bne, h.other_lines y hy]; rfl)
  rw [k.txns, List.filter_append, hkept]
  simp [k.msg]

theorem State.Working.credq_clear : w.coh.credq.all (fun c => c.1 != homeOf m.line) = true := by
  obtain ⟨-, -, -, -, -, -, hcred, -⟩ := h
  rw [k.credq, hcred]

end

/-! ### What a row leaves, and how the command ends -/

section
variable {s : State} {m : BMsg} {P : State → Prop} (h : s.Accepts m) (hqueue : s.coh.queued = [])
include h hqueue

/-- The command of a request whose transaction waits after its row. -/
theorem State.Accepts.runs_waits (hrow : ∀ e v, s.HomeLeaves (s.coh.beginning m e) v → ∃ x, s.Working m x (v.rowB (m.txn e)) ∧
    (x.snoops ≠ [] ∨ x.replied = true ∧ (x.needDone.isSome = true ∨ m.req = .redU ∧ (v.rowB (m.txn e)).updPending m.line = true)) ∧
    P (v.rowB (m.txn e))) : Runs (m.req.row m.r m.line) s P := by
  obtain ⟨e, v, hv, hexec⟩ := s.exec_row_accepted h hqueue
  obtain ⟨x, hx, hwaits, hP⟩ := hrow e v hv
  have hstays := State.settleTxn_waits (hx.txnOf h) hx.again (hx.msg ▸ hwaits)
  exact ⟨_, hexec _ hstays hstays hx.queued, hP⟩

/-- The command of a request whose transaction its row ends. -/
theorem State.Accepts.runs_ends (hrow : ∀ e v, s.HomeLeaves (s.coh.beginning m e) v → ∃ x, s.Working m x (v.rowB (m.txn e)) ∧
    x.snoops = [] ∧ x.replied = true ∧ x.needDone = none ∧ m.req ≠ .redU ∧
    ∀ t : State, t = { v.rowB (m.txn e) with coh := { (v.rowB (m.txn e)).coh with txns := s.coh.txns } } → t.txnOf m.line = none → P t) :
    Runs (m.req.row m.r m.line) s P := by
  obtain ⟨e, v, hv, hexec⟩ := s.exec_row_accepted h hqueue
  obtain ⟨x, hx, hsn, hrep, hdone, hreq, hP⟩ := hrow e v hv
  have hends := State.settleTxn_ends (hx.txnOf h) hx.again hsn hrep hdone (hx.msg.symm ▸ hreq) (hx.credq_clear h)
  rw [hx.others h] at hends
  have hnone : State.txnOf { v.rowB (m.txn e) with coh := { (v.rowB (m.txn e)).coh with txns := s.coh.txns } } m.line = none :=
    List.find?_eq_none.mpr (fun y hy => by rw [h.other_lines y hy]; exact Bool.false_ne_true)
  exact ⟨_, hexec _ hends (State.settleTxn_of_none hnone) hx.queued, hP _ rfl hnone⟩

end


/-- An entry of the directory once the entry of a line has been used. -/
def State.usedEntry (s : State) (ln : Nat) (e : Nat × Dir) : Nat × Dir :=
  if e.1 == ln then (e.1, { e.2 with nru := false })
  else if (s.dirWays ln).all (fun f => f.1 == ln || !f.2.nru) && dirSet e.1 == dirSet ln then (e.1, { e.2 with nru := true })
  else e

theorem State.useDir_eq (s : State) (ln : Nat) :
    s.useDir ln = { s with coh := { s.coh with dir := s.coh.dir.map (s.usedEntry ln) } } := rfl

theorem State.usedEntry_key (s : State) (ln : Nat) (e : Nat × Dir) : (s.usedEntry ln e).1 = e.1 := by
  simp only [State.usedEntry]
  split
  · rfl
  · split <;> rfl

section
variable {s v : State} {c : CohSt}

/-- The directory entry of a request is used: it is there as it was, but for the mark of use. -/
theorem State.HomeLeaves.useDir (h : s.HomeLeaves c v) (hfinds : s.finds = []) (ln : Nat) :
    ∃ D, s.HomeLeaves { c with dir := D } ((v.dirCheck ln).useDir ln) ∧ mget D ln = (mget c.dir ln).map (fun d => { d with nru := false }) := by
  have hcheck : v.dirCheck ln = v := by
    simp only [State.dirCheck, v.takeFind_nil _ (h.work.finds hfinds), ite_self]
  refine ⟨v.coh.dir.map (v.usedEntry ln), ?_, ?_⟩
  · rw [hcheck, State.useDir_eq]
    exact h.change (fun c => { c with dir := v.coh.dir.map (v.usedEntry ln) })
  · rw [mget_map_of_key _ (v.usedEntry_key ln), h.coh]
    simp [State.usedEntry]

end

/-! ### A line that no cache holds -/

theorem State.rdByte_coh (s : State) (c : CohSt) (k a : Nat) : State.rdByte { s with coh := c } k a = s.rdByte k a := rfl

section
variable {s v : State} {m : BMsg} {e : Nat}

/-- The row of a request for a line without an entry answers it at once. -/
theorem State.rowB_unheld (hv : s.HomeLeaves (s.coh.beginning m e) v) (hfinds : s.finds = []) (hd : s.dirOf m.line = none) :
    ∃ D u, s.HomeLeaves { s.coh.beginning m e with dir := D } u ∧ mget D m.line = none ∧ v.rowB (m.txn e) = u.answer (m.txn e) := by
  obtain ⟨D, hu, hD⟩ := hv.useDir hfinds m.line
  have hnone : mget D m.line = none := by
    rw [hD, show mget (s.coh.beginning m e).dir m.line = none from hd, Option.map_none]
  have hdir : ((v.dirCheck m.line).useDir m.line).dirOf m.line = none := by rw [State.dirOf, hu.coh, hnone]
  refine ⟨D, _, hu, hnone, ?_⟩
  simp only [State.rowB, show (m.txn e).msg = m from rfl, hdir]

/-- A reader of a line without an entry gets it with DatX. -/
theorem State.answer_datX {u : State} (hd : u.dirOf m.line = none) (hreq : m.req = .rdS ∨ m.req = .rdX ∨ m.req = .upX) :
    u.answer (m.txn e) = (((u.stkRead m.line).setDir m.line ⟨0, some m.r, decide (m.cls ≤ 2), false⟩).note
      (.datX m.r m.line (u.linePoison m.line))).setTxn { m.txn e with replied := true, needDone := some m.r } := by
  rcases hreq with hreq | hreq | hreq <;> simp only [State.answer, BMsg.txn, hd, hreq, Bool.false_eq_true, if_false, Bool.false_or] <;> rfl

theorem State.answer_rdN {u : State} (hreq : m.req = .rdN) :
    u.answer (m.txn e) = ((u.stkRead m.line).note (u.readB m)).setTxn { m.txn e with replied := true } := by
  simp [State.answer, BMsg.txn, hreq]

theorem State.answer_redU {u : State} (hreq : m.req = .redU) :
    u.answer (m.txn e) = (State.delDir { u with stk := { u.stk with upd := u.stk.upd ++ m.upd } } m.line).setTxn
      { m.txn e with replied := true } := by
  simp [State.answer, State.performB, BMsg.txn, hreq]

/-- A write whose line is not poisoned, or that brings all of it, is performed and answered WrAck. -/
theorem State.answer_write {u : State} (hreq : m.req = .wrF ∨ m.req = .wrP) (htrip : u.tripped m.line = false) (hpk : m.pk = .none)
    (htake : m.mask = BitVec.allOnes 128 ∨ u.linePoison m.line = .none) :
    u.answer (m.txn e) = ((((u.stkWrote m.line).wrMask m.key m.line m.mask m.data).delDir m.line).note
      (.wrAck m.r m.line .none m.op)).setTxn { m.txn e with replied := true } := by
  have hkind : (if m.mask == BitVec.allOnes 128 then Poison.none else u.linePoison m.line) = .none := by
    rcases htake with hfull | hclean
    · simp [hfull]
    · rw [hclean, ite_self]
  have hperf : u.performB m = ((u.stkWrote m.line).wrMask m.key m.line m.mask m.data, .none) := by
    rcases hreq with hreq | hreq <;> simp only [State.performB, hreq, htrip, hpk, hkind, bne_self_eq_false, Bool.false_eq_true, if_false]
  rcases hreq with hreq | hreq <;> simp [State.answer, BMsg.txn, hreq, hperf]

end

section
variable {s : State} {m : BMsg} (h : s.Accepts m) (hqueue : s.coh.queued = []) (hd : s.dirOf m.line = none)
include h hqueue hd

theorem State.Accepts.runs_datX (hreq : m.req = .rdS ∨ m.req = .rdX ∨ m.req = .upX) :
    Runs (m.req.row m.r m.line) s (fun t => (∃ d, t.dirOf m.line = some d ∧ d.own = some m.r ∧ d.ctl = decide (m.cls ≤ 2)) ∧
      t.coh.bn = s.coh.bn ++ [.datX m.r m.line (s.linePoison m.line)] ∧ (∃ x, t.txnOf m.line = some x ∧ x.needDone = some m.r ∧ x.snoops = []) ∧
      t.coh.bq = s.coh.bq.erase m ∧ SameMemory s t) := by
  refine h.runs_waits hqueue (fun e v hv => ?_)
  obtain ⟨D, u, hu, hD, hrow⟩ := State.rowB_unheld hv h.finds_nil hd
  set x : Txn := { m.txn e with replied := true, needDone := some m.r }
  have hdir : u.dirOf m.line = none := by rw [State.dirOf, hu.coh, hD]
  have hw := (((hu.tallyHome (homeOf m.line) 0x205 1).setDir m.line ⟨0, some m.r, decide (m.cls ≤ 2), false⟩).note
    (.datX m.r m.line (u.linePoison m.line))).setTxn x
  rw [hrow, State.answer_datX hdir hreq]
  have hwork : s.Working m x _ := h.working hw.coh rfl rfl rfl rfl rfl rfl
  refine ⟨x, hwork, .inr ⟨rfl, .inl rfl⟩, ⟨⟨0, some m.r, decide (m.cls ≤ 2), false⟩, ?_, rfl, rfl⟩, ?_, ⟨x, hwork.txnOf h, rfl, rfl⟩, hwork.bq, hw.work.sameMemory⟩
  · exact (congrArg (fun c => mget c.dir m.line) hw.coh).trans (mget_mput_self _ _ _)
  · rw [← hu.linePoison]
    exact congrArg CohSt.bn hw.coh

theorem State.Accepts.runs_rdN (hreq : m.req = .rdN) :
    Runs (m.req.row m.r m.line) s (fun t => t.coh.bn = s.coh.bn ++ [s.readB m] ∧ t.txnOf m.line = none ∧
      t.coh.bq = s.coh.bq.erase m ∧ t.dirOf m.line = none ∧ SameMemory s t) := by
  refine h.runs_ends hqueue (fun e v hv => ?_)
  obtain ⟨D, u, hu, hD, hrow⟩ := State.rowB_unheld hv h.finds_nil hd
  set x : Txn := { m.txn e with replied := true }
  have hw := ((hu.tallyHome (homeOf m.line) 0x205 1).note (u.readB m)).setTxn x
  rw [hrow, State.answer_rdN hreq]
  have hwork : s.Working m x _ := h.working hw.coh rfl rfl rfl rfl rfl rfl
  refine ⟨x, hwork, rfl, rfl, rfl, by rw [hreq]; decide, fun t ht hnone => ?_⟩
  subst ht
  refine ⟨?_, hnone, hwork.bq, ?_, hw.work.sameMemory⟩
  · rw [← hu.readB]
    exact congrArg CohSt.bn hw.coh
  · exact (congrArg (fun c => mget c.dir m.line) hw.coh).trans hD

theorem State.Accepts.runs_redU (hreq : m.req = .redU) (hupd : m.upd.any (fun u => u.line == m.line) = true) :
    Runs (m.req.row m.r m.line) s (fun t => t.stk.upd = s.stk.upd ++ m.upd ∧ (∃ x, t.txnOf m.line = some x ∧ x.replied = true) ∧
      t.coh.bn = s.coh.bn ∧ t.coh.bq = s.coh.bq.erase m ∧ SameMemory s t) := by
  refine h.runs_waits hqueue (fun e v hv => ?_)
  obtain ⟨D, u, hu, -, hrow⟩ := State.rowB_unheld hv h.finds_nil hd
  set x : Txn := { m.txn e with replied := true }
  have hw := (hu.delDir m.line).setTxn x
  rw [hrow, State.answer_redU hreq]
  set w : State := State.setTxn (State.delDir { u with stk := { u.stk with upd := u.stk.upd ++ m.upd } } m.line) x with hwdef
  have hcoh : w.coh = _ := hw.coh
  have hwork : s.Working m x w := h.working hcoh rfl rfl rfl rfl rfl rfl
  have hpend : w.updPending m.line = true :=
    show (u.stk.upd ++ m.upd).any (fun u => u.line == m.line) = true by rw [List.any_append, hupd, Bool.or_true]
  refine ⟨x, hwork, .inr ⟨rfl, .inr ⟨hreq, hpend⟩⟩, ?_, ⟨x, hwork.txnOf h, rfl⟩, (congrArg CohSt.bn hcoh :), hwork.bq, hw.work.sameMemory⟩
  exact congrArg (fun k => k.upd ++ m.upd) hu.work.stk

theorem State.Accepts.runs_write (hreq : m.req = .wrF ∨ m.req = .wrP) (htrip : s.tripped m.line = false) (hpk : m.pk = .none)
    (htake : m.mask = BitVec.allOnes 128 ∨ s.linePoison m.line = .none) :
    Runs (m.req.row m.r m.line) s (fun t =>
      (∀ k < 128, m.mask.getLsbD k = true → t.rdByte m.key (128 * m.line + k) = m.data.extractLsb' (8 * k) 8) ∧
      (∀ k < 128, m.mask.getLsbD k = false → (∃ a, mget s.lines m.line = some a ∧ a.wser = s.keySer m.key) →
        t.rdByte m.key (128 * m.line + k) = s.rdByte m.key (128 * m.line + k)) ∧
      (∀ k a, a / 128 ≠ m.line → t.rdByte k a = s.rdByte k a) ∧ t.coh.bn = s.coh.bn ++ [.wrAck m.r m.line .none m.op] ∧
      t.txnOf m.line = none ∧ t.coh.bq = s.coh.bq.erase m) := by
  refine h.runs_ends hqueue (fun e v hv => ?_)
  obtain ⟨D, u, hu, -, hrow⟩ := State.rowB_unheld hv h.finds_nil hd
  set x : Txn := { m.txn e with replied := true }
  have hb : s.HomeLeaves _ (u.stkWrote m.line) := hu.tallyHome (homeOf m.line) 0x206 1
  have htripb : (u.stkWrote m.line).tripped m.line = false := (hb.tripped m.line).trans htrip
  have hwritten := State.wrMask_written m.key m.data (mask := m.mask) htripb (htake.imp_right (hb.linePoison m.line).trans)
  rw [hrow, State.answer_write hreq ((hu.tripped m.line).trans htrip) hpk (htake.imp_right (hu.linePoison m.line).trans)]
  set b := u.stkWrote m.line
  set w : State := State.setTxn (State.note (State.delDir (b.wrMask m.key m.line m.mask m.data) m.line) (.wrAck m.r m.line .none m.op)) x with hwdef
  have hbcoh : (b.wrMask m.key m.line m.mask m.data).coh = b.coh := (congrArg State.coh hwritten.frame :)
  have hsame : w.coh = (((b.delDir m.line).note (.wrAck m.r m.line .none m.op)).setTxn x).coh := by
    simp only [hwdef, State.setTxn, State.note, State.delDir, hbcoh]
  have hcoh := hsame.trans (((hb.delDir m.line).note (.wrAck m.r m.line .none m.op)).setTxn x).coh
  have hwork : s.Working m x w := h.working hcoh rfl rfl rfl rfl rfl rfl
  have hkey : b.keySer m.key = s.keySer m.key := by rw [State.keySer, State.keySer, hb.work.stk]
  refine ⟨x, hwork, rfl, rfl, rfl, by rcases hreq with hreq | hreq <;> rw [hreq] <;> decide, fun t ht hnone => ?_⟩
  have hread (k a : Nat) : t.rdByte k a = (b.wrMask m.key m.line m.mask m.data).rdByte k a := by
    rw [ht, hwdef, State.setTxn, State.note, State.delDir]
    exact State.rdByte_coh _ _ k a
  refine ⟨fun k hk hbit => ?_, fun k hk hbit hser => ?_, fun k a ha => ?_, ?_, hnone, ?_⟩
  · rw [hread, hwritten.rdByte_put hk (if_pos hbit)]
  · rw [hread, hwritten.rdByte_kept hk (if_neg (by rw [hbit]; exact Bool.false_ne_true)), hb.rdByte]
    rw [hkey, hb.work.sameMemory.2.1]
    exact hser
  · rw [hread, hwritten.rdByte_ne k ha, hb.rdByte]
  · rw [ht]
    exact congrArg CohSt.bn hcoh
  · rw [ht]
    exact hwork.bq

end

/-! ### A line with an entry -/

/-- What a request makes the home send the owner of its line, and who receives the data. -/
def BReq.ownerSnoop : BReq → Nat → Snoop × Nat
  | .rdS, r => (.fwdS, r)
  | .rdX, r => (.fwdX, r)
  | .upX, r => (.fwdX, r)
  | .rdN, _ => (.fwdS, 84)
  | .wrF, _ => (.rcl, 84)
  | .wrP, _ => (.rcl, 84)
  | .redU, _ => (.rcl, 84)

/-- The home at the row of a request for a line with an entry: the entry is marked as used, and CTL by a controller's class. -/
def State.atRow (v : State) (m : BMsg) (d : Dir) : State :=
  if m.cls ≤ 2 then ((v.dirCheck m.line).useDir m.line).setDir m.line { d with ctl := true } else (v.dirCheck m.line).useDir m.line

section
variable {s v : State} {m : BMsg} {e : Nat} {d : Dir} (hv : s.HomeLeaves (s.coh.beginning m e) v) (hfinds : s.finds = [])
  (hd : s.dirOf m.line = some d)
include hv hfinds hd

theorem State.dirOf_atRow : ((v.dirCheck m.line).useDir m.line).dirOf m.line = some { d with nru := false } := by
  obtain ⟨D, hu, hD⟩ := hv.useDir hfinds m.line
  rw [State.dirOf, hu.coh, hD, show mget (s.coh.beginning m e).dir m.line = some d from hd, Option.map_some]

theorem State.atRow_leaves : ∃ D d', s.HomeLeaves { s.coh.beginning m e with dir := D } (v.atRow m { d with nru := false }) ∧
    mget D m.line = some d' ∧ d'.own = d.own ∧ d'.sharers = d.sharers := by
  obtain ⟨D, hu, hD⟩ := hv.useDir hfinds m.line
  rw [show mget (s.coh.beginning m e).dir m.line = some d from hd, Option.map_some] at hD
  unfold State.atRow
  split
  · exact ⟨_, _, hu.setDir m.line { d with nru := false, ctl := true }, mget_mput_self _ _ _, rfl, rfl⟩
  · exact ⟨D, _, hu, hD, rfl, rfl⟩

/-- The row of a request for a line that another cluster owns sends it a snoop. -/
theorem State.rowB_owned {q : Nat} (hown : d.own = some q) (hq : q ≠ m.r) : ∃ x : Txn, x.msg = m ∧ x.again = false ∧
    x.snoops = [(q, (m.req.ownerSnoop m.r).1)] ∧ v.rowB (m.txn e) = ((v.atRow m { d with nru := false }).sendSnoops
      (m.req.ownerSnoop m.r).1 m.line (m.req.ownerSnoop m.r).2 [q]).setTxn x := by
  have hother : (q == m.r) = false := beq_eq_false_iff_ne.mpr hq
  simp only [State.rowB, show (m.txn e).msg = m from rfl, State.dirOf_atRow hv hfinds hd, hown, hother, Bool.false_eq_true, if_false]
  cases m.req <;> exact ⟨_, rfl, rfl, rfl, rfl⟩

/-- RdS for a shared line is answered DatS. -/
theorem State.rowB_datS (hown : d.own = none) (hreq : m.req = .rdS) : ∃ ctl, v.rowB (m.txn e) =
    ((((v.atRow m { d with nru := false }).stkRead m.line).setDir m.line ⟨d.sharers ||| (1#64 <<< m.r), none, ctl, false⟩).note
      (.datS m.r m.line ((v.atRow m { d with nru := false }).linePoison m.line))).setTxn
      { m.txn e with replied := true, needDone := some m.r } := by
  simp only [State.rowB, show (m.txn e).msg = m from rfl, State.dirOf_atRow hv hfinds hd, hown, hreq]
  exact ⟨_, rfl⟩

/-- RdX and UpX for a line with other sharers send each of them SnInv. -/
theorem State.rowB_inv {dst : List Nat} (hown : d.own = none) (hreq : m.req = .rdX ∨ m.req = .upX) (hdst : dst ≠ [])
    (hsharers : (sharersOf d.sharers).filter (fun c => c != m.r) = dst) : v.rowB (m.txn e) =
    ((v.atRow m { d with nru := false }).sendSnoops .inv m.line 84 dst).setTxn { m.txn e with snoops := dst.map (fun c => (c, .inv)) } := by
  have hne : dst.isEmpty = false := List.isEmpty_eq_false_iff.mpr hdst
  rcases hreq with hreq | hreq <;>
  · simp only [State.rowB, show (m.txn e).msg = m from rfl, State.dirOf_atRow hv hfinds hd, hown, hreq, beq_self_eq_true, Bool.or_true,
      Bool.true_or, Bool.not_true, Bool.or_false, hsharers, hne, Bool.false_eq_true, if_false]
    rfl

end

/-- The other sharers of a line. -/
theorem sharersOf_filter (b : BitVec 64) (r : Nat) :
    (sharersOf b).filter (fun c => c != r) = (List.range 64).filter (fun c => b.getLsbD c && c != r) := by
  rw [sharersOf, List.filter_filter]
  exact List.filter_congr (fun c _ => Bool.and_comm _ _)

theorem others_ne_nil {b : BitVec 64} {r : Nat} (hb : b &&& ~~~(1#64 <<< r) ≠ 0) :
    (List.range 64).filter (fun c => b.getLsbD c && c != r) ≠ [] := by
  intro hnil
  refine hb (BitVec.eq_of_getLsbD_eq (fun c hc => ?_))
  have hno := List.filter_eq_nil_iff.mp hnil c (List.mem_range.mpr hc)
  simp only [Bool.and_eq_true, bne_iff_ne, not_and, not_not] at hno
  by_cases hbit : b.getLsbD c = true
  · simp [hno hbit]
  · simp [hbit]

section
variable {s : State} {m : BMsg} {d : Dir} (h : s.Accepts m) (hqueue : s.coh.queued = []) (hd : s.dirOf m.line = some d)
include h hqueue hd

theorem State.Accepts.runs_owned {q : Nat} (hown : d.own = some q) (hq : q ≠ m.r) :
    Runs (m.req.row m.r m.line) s (fun t => t.coh.bn = s.coh.bn ++ [.sn (m.req.ownerSnoop m.r).1 q m.line (m.req.ownerSnoop m.r).2] ∧
      (∃ x, t.txnOf m.line = some x ∧ x.snoops = [(q, (m.req.ownerSnoop m.r).1)]) ∧ (∃ e, t.dirOf m.line = some e ∧ e.own = some q) ∧
      t.coh.bq = s.coh.bq.erase m ∧ SameMemory s t ∧ t.stk = s.stk) := by
  refine h.runs_waits hqueue (fun e v hv => ?_)
  obtain ⟨x, hmsg, hagain, hsn, hrow⟩ := State.rowB_owned hv h.finds_nil hd hown hq
  obtain ⟨D, d', hu, hD, hown', -⟩ := State.atRow_leaves hv h.finds_nil hd
  have hw := (hu.sendSnoops (m.req.ownerSnoop m.r).1 m.line (m.req.ownerSnoop m.r).2 [q]).setTxn x
  rw [hrow]
  have hwork : s.Working m x _ := h.working hw.coh hmsg hagain rfl rfl rfl rfl
  refine ⟨x, hwork, .inl (by rw [hsn]; exact List.cons_ne_nil _ _), ?_, ⟨x, hwork.txnOf h, hsn⟩, ⟨d', ?_, hown'.trans hown⟩, hwork.bq,
    hw.work.sameMemory, hw.work.stk⟩
  · exact congrArg CohSt.bn hw.coh
  · exact (congrArg (fun c => mget c.dir m.line) hw.coh).trans hD

theorem State.Accepts.runs_datS (hown : d.own = none) (hreq : m.req = .rdS) :
    Runs (m.req.row m.r m.line) s (fun t => t.coh.bn = s.coh.bn ++ [.datS m.r m.line (s.linePoison m.line)] ∧
      (∃ e, t.dirOf m.line = some e ∧ e.own = none ∧ e.sharers = d.sharers ||| (1#64 <<< m.r)) ∧ SameMemory s t) := by
  refine h.runs_waits hqueue (fun e v hv => ?_)
  obtain ⟨ctl, hrow⟩ := State.rowB_datS hv h.finds_nil hd hown hreq
  obtain ⟨D, -, hu, -⟩ := State.atRow_leaves hv h.finds_nil hd
  set u := v.atRow m { d with nru := false }
  set x : Txn := { m.txn e with replied := true, needDone := some m.r }
  have hw := (((hu.tallyHome (homeOf m.line) 0x205 1).setDir m.line ⟨d.sharers ||| (1#64 <<< m.r), none, ctl, false⟩).note
    (.datS m.r m.line (u.linePoison m.line))).setTxn x
  rw [hrow]
  have hwork : s.Working m x _ := h.working hw.coh rfl rfl rfl rfl rfl rfl
  refine ⟨x, hwork, .inr ⟨rfl, .inl rfl⟩, ?_, ⟨⟨d.sharers ||| (1#64 <<< m.r), none, ctl, false⟩, ?_, rfl, rfl⟩, hw.work.sameMemory⟩
  · rw [← hu.linePoison]
    exact congrArg CohSt.bn hw.coh
  · exact (congrArg (fun c => mget c.dir m.line) hw.coh).trans (mget_mput_self _ _ _)

theorem State.Accepts.runs_inv (hown : d.own = none) (hreq : m.req = .rdX ∨ m.req = .upX) (hothers : d.sharers &&& ~~~(1#64 <<< m.r) ≠ 0) :
    Runs (m.req.row m.r m.line) s (fun t => t.coh.bn = s.coh.bn ++ ((List.range 64).filter (fun c => d.sharers.getLsbD c && c != m.r)).map
      (fun c => .sn .inv c m.line 84) ∧ (∃ x, t.txnOf m.line = some x ∧ x.replied = false) ∧ SameMemory s t) := by
  refine h.runs_waits hqueue (fun e v hv => ?_)
  have hdst := others_ne_nil hothers
  have hrow := State.rowB_inv hv h.finds_nil hd hown hreq hdst (sharersOf_filter d.sharers m.r)
  obtain ⟨D, -, hu, -⟩ := State.atRow_leaves hv h.finds_nil hd
  set dst := (List.range 64).filter (fun c => d.sharers.getLsbD c && c != m.r)
  set x : Txn := { m.txn e with snoops := dst.map (fun c => (c, .inv)) }
  have hw := (hu.sendSnoops .inv m.line 84 dst).setTxn x
  rw [hrow]
  have hwork : s.Working m x _ := h.working hw.coh rfl rfl rfl rfl rfl rfl
  refine ⟨x, hwork, .inl (by simpa [x] using hdst), ?_, ⟨x, hwork.txnOf h, rfl⟩, hw.work.sameMemory⟩
  exact congrArg CohSt.bn hw.coh

end

/-! ### Retry, Done and WbM (R217, R219, R220) -/

section
variable {s : State}

theorem State.rd_coh (s : State) (c : CohSt) (f : Fld) (i j : Nat) : State.rd { s with coh := c } f i j = s.rd f i j := rfl

/-- A request that finds no entry free is counted and answered Retry, and the home owes its sender a credit. -/
theorem State.arriveB_retry {m : BMsg} (hcredit : m.credit = false) (hhome : aget s.rst.homes (homeOf m.line) = none)
    (hfull : s.sharedFree (homeOf m.line) = none) : s.arriveB m =
    (((s.incSat F.HS_CNT_RETRY (homeOf m.line)).tallyHome (homeOf m.line) 0x202 1).note (.retry m (homeOf m.line))).oweB m (homeOf m.line) := by
  have hup : (aget s.rst.homes (homeOf m.line)).isSome = false := by rw [hhome, Option.isSome_none]
  simp only [State.arriveB, hup, hcredit, hfull, Bool.false_eq_true, if_false]

theorem State.mem_oweB (m : BMsg) (h : Nat) : (h, m.r) ∈ (s.oweB m h).coh.credq := by
  simp only [State.oweB]
  split
  · next howed => exact List.contains_iff_mem.mp howed
  · exact List.mem_append_right _ (List.mem_singleton.mpr rfl)

theorem State.runs_retry {m : BMsg} (hfind : s.coh.bq.find? (fun x => x.req == m.req && x.r == m.r && x.line == m.line) = some m)
    (hturn : s.hostTurn m = true) (hcredit : m.credit = false) (hhome : aget s.rst.homes (homeOf m.line) = none)
    (hfull : s.sharedFree (homeOf m.line) = none) (hway : s.wayClear m.r (homeOf m.line)) :
    Runs (m.req.row m.r m.line) s (fun t => t.coh.bn = s.coh.bn ++ [.retry m (homeOf m.line)] ∧ (homeOf m.line, m.r) ∈ t.coh.credq ∧
      t.coh.txns = s.coh.txns ∧ t.coh.dir = s.coh.dir ∧
      t.rd F.HS_CNT_RETRY (homeOf m.line) = min (2 ^ F.HS_CNT_RETRY.wid - 1) (s.rd F.HS_CNT_RETRY (homeOf m.line) + 1) ∧ SameMemory s t) := by
  set a := (s.taken m).incSat F.HS_CNT_RETRY (homeOf m.line)
  set b := a.tallyHome (homeOf m.line) 0x202 1
  have hexec : exec (m.req.row m.r m.line) s = .next ((b.note (.retry m (homeOf m.line))).oweB m (homeOf m.line)) := by
    rw [exec_row, State.crossing_of_wayClear hway]
    simp only [State.takeB, hfind, hturn, if_true]
    exact congrArg Host.Outcome.next (State.arriveB_retry (s := s.taken m) hcredit hhome hfull)
  have hcoh : b.coh = (s.taken m).coh := a.tally_coh _ _ _ _ _
  have hleft : a.RegsBut abortRegs b := a.regsBut_tally _ _ _ _ _
  have hcount : b.rd F.HS_CNT_RETRY (homeOf m.line) = min (2 ^ F.HS_CNT_RETRY.wid - 1) (s.rd F.HS_CNT_RETRY (homeOf m.line) + 1) := by
    rw [hleft.rd F.HS_CNT_RETRY (by decide) _ 0, State.rd_incSat_self _ _ _ _ (by decide), State.taken, State.rd_coh]
  have htaken : s.SameWork (s.taken m) := s.sameWork_coh _
  have hcounted : (s.taken m).SameWork a := State.sameWork_wr _ _ _ _ _
  have hb : s.SameWork b := (htaken.trans hcounted).trans (a.sameWork_tally _ _ _ _ _)
  have hnoted : s.SameWork (b.note (.retry m (homeOf m.line))) := hb.trans (b.sameWork_coh _)
  have hwork : s.SameWork ((b.note (.retry m (homeOf m.line))).oweB m (homeOf m.line)) := hnoted.trans (State.sameWork_coh _ _)
  refine ⟨_, hexec, ?_, State.mem_oweB m _, (congrArg CohSt.txns hcoh :), (congrArg CohSt.dir hcoh :), ?_,
    hwork.sameMemory⟩
  · exact congrArg (fun c => c.bn ++ [.retry m (homeOf m.line)]) hcoh
  · rw [State.oweB, State.note, State.rd_coh, State.rd_coh, hcount]

/-- The transaction of a line once it is replaced. -/
theorem find_replaceTxn (l : List Txn) (x : Txn) (hin : (l.find? (fun y => y.msg.line == x.msg.line)).isSome = true) :
    (replaceTxn l x).find? (fun y => y.msg.line == x.msg.line) = some x := by
  induction l with
  | nil => simp at hin
  | cons y l ih =>
    by_cases hy : y.msg.line = x.msg.line
    · simp [replaceTxn, hy]
    · have hne : (y.msg.line == x.msg.line) = false := beq_eq_false_iff_ne.mpr hy
      rw [List.find?_cons, hne] at hin
      rw [replaceTxn, List.map_cons, hne, if_neg Bool.false_ne_true, List.find?_cons, hne]
      exact ih hin

/-- The transaction of another line once one is replaced and ended. -/
theorem find_filter_replaceTxn (l : List Txn) (x : Txn) {k : Nat} (hk : k ≠ x.msg.line) :
    ((replaceTxn l x).filter (fun y => y.msg.line != x.msg.line)).find? (fun y => y.msg.line == k) = l.find? (fun y => y.msg.line == k) := by
  induction l with
  | nil => rfl
  | cons y l ih =>
    by_cases hy : y.msg.line = x.msg.line
    · have hne : (x.msg.line == k) = false := beq_eq_false_iff_ne.mpr (Ne.symm hk)
      simpa [replaceTxn, hy, hne] using ih
    · have hother : (y.msg.line == x.msg.line) = false := beq_eq_false_iff_ne.mpr hy
      simp only [replaceTxn, List.map_cons, hother, Bool.false_eq_true, if_false] at ih ⊢
      rw [List.filter_cons_of_pos (by rw [bne, hother]; rfl), List.find?_cons, List.find?_cons, ih]

/-- Done ends a transaction that waits for nothing else. -/
theorem State.runs_done {r ln : Nat} {x : Txn} (hin : s.coh.bn.contains (.done r ln) = true) (hx : s.txnOf ln = some x)
    (hdone : x.needDone = some r) (hsn : x.snoops = []) (hrep : x.replied = true) (hagain : x.again = false) (hreq : x.msg.req ≠ .redU)
    (hqueue : s.coh.queued = []) (hway : s.wayClear r (homeOf ln)) (hcred : s.coh.credq.all (fun c => c.1 != homeOf ln) = true) :
    Runs (.done r ln) s (fun t => t.txnOf ln = none ∧ t.coh.bn = s.coh.bn.erase (.done r ln) ∧ t.coh.dir = s.coh.dir ∧
      (∀ k, k ≠ ln → t.txnOf k = s.txnOf k) ∧ SameMemory s t) := by
  have hline : x.msg.line = ln := by simpa using List.find?_some hx
  set y : Txn := { x with needDone := none }
  set a : State := State.setTxn { s with coh := { s.coh with bn := s.coh.bn.erase (.done r ln) } } y with ha
  have hya : a.txnOf ln = some y := by
    rw [← hline]
    exact find_replaceTxn s.coh.txns y (by rw [show s.coh.txns.find? _ = some x from hline ▸ hx]; rfl)
  have hends := State.settleTxn_ends hya hagain hsn hrep rfl hreq hcred
  have hexec : exec (.done r ln) s = .next (a.advance ln) := by
    rw [show exec (.done r ln) s = .next (s.crossing r (homeOf ln) true (fun s => s.takeDone r ln)) from rfl,
      State.crossing_of_wayClear hway]
    have htxn : State.txnOf { s with coh := { s.coh with bn := s.coh.bn.erase (.done r ln) } } ln = some x := hx
    simp only [State.takeDone, State.takeN, hin, htxn, hdone, if_true, beq_self_eq_true]
    rfl
  rw [State.advance_of_settled hends hqueue] at hexec
  refine ⟨_, hexec, ?_, rfl, rfl, fun k hk => ?_, rfl, rfl, rfl⟩
  · exact List.find?_eq_none.mpr (fun z hz => by simpa using (List.mem_filter.mp hz).2)
  · rw [← hline] at hk ⊢
    exact find_filter_replaceTxn s.coh.txns y hk

end

section
variable (s : State) (ln : Nat) (p : Poison)

theorem State.storeLine_coh : (s.storeLine ln p).coh = s.coh := by
  unfold State.storeLine
  split
  · rfl
  · split <;> rfl

theorem State.storeLine_bytes : (s.storeLine ln p).mem = s.mem ∧ (s.storeLine ln p).hostMem = s.hostMem := by
  unfold State.storeLine
  split
  · exact ⟨rfl, rfl⟩
  · split <;> exact ⟨rfl, rfl⟩

theorem State.linePoison_storeLine_self (htrip : s.tripped ln = false) : (s.storeLine ln p).linePoison ln = p := by
  unfold State.storeLine
  rw [htrip, if_neg Bool.false_ne_true]
  split
  · next hclean =>
    simp only [Bool.and_eq_true, beq_iff_eq, Option.isNone_iff_eq_none] at hclean
    obtain ⟨hp, hline⟩ := hclean
    simp only [State.linePoison, htrip, hline, hp, Bool.false_eq_true, if_false]
  · exact State.linePoison_setPoison_self htrip p

theorem State.linePoison_storeLine_ne {l : Nat} (hl : l ≠ ln) : (s.storeLine ln p).linePoison l = s.linePoison l := by
  unfold State.storeLine
  split
  · rfl
  · split
    · rfl
    · exact s.linePoison_setPoison_ne hl p

end

/-- The WbM of a line's owner: the stack takes the line, it becomes U, and WbAck is sent. -/
theorem State.applyWb_leaves {s : State} {c ln : Nat} {d : Dir} (hd : s.dirOf ln = some d) (hown : d.own = some c) :
    (s.storeLine ln (s.sentKind c ln)).HomeLeaves { s.coh with bn := s.coh.bn ++ [.wbAck c ln], dir := mdel s.coh.dir ln } (s.applyWb c ln) := by
  set a := s.storeLine ln (s.sentKind c ln)
  have hacoh : a.coh = s.coh := s.storeLine_coh _ _
  have hstart : a.HomeLeaves s.coh a := ⟨.rfl' a, .refl _ a, hacoh⟩
  have hnoted : a.HomeLeaves { s.coh with bn := s.coh.bn ++ [.wbAck c ln] } ((a.stkWrote ln).note (.wbAck c ln)) :=
    (hstart.tallyHome (homeOf ln) 0x206 1).note (.wbAck c ln)
  have hdir : ((a.stkWrote ln).note (.wbAck c ln)).dirOf ln = some d := by
    rw [State.dirOf, hnoted.coh]
    exact hd
  have heq : s.applyWb c ln = ((a.stkWrote ln).note (.wbAck c ln)).delDir ln := by
    simp only [State.applyWb]
    rw [hdir]
    simp only [hown, beq_self_eq_true, if_true]
    rfl
  rw [heq]
  exact hnoted.delDir ln

theorem State.runs_wbm {s : State} {c ln : Nat} {d : Dir} (hin : s.coh.bn.contains (.wbM c ln) = true) (hidle : s.txnOf ln = none)
    (hd : s.dirOf ln = some d) (hown : d.own = some c) (hqueue : s.coh.queued = []) (hway : s.wayClear c (homeOf ln)) :
    Runs (.wbm c ln) s (fun t => t.dirOf ln = none ∧ (∀ k, k ≠ ln → t.dirOf k = s.dirOf k) ∧
      t.coh.bn = s.coh.bn.erase (.wbM c ln) ++ [.wbAck c ln] ∧ t.mem = s.mem ∧ t.hostMem = s.hostMem ∧
      (s.tripped ln = false → t.linePoison ln = s.sentKind c ln) ∧ (∀ k, k ≠ ln → t.linePoison k = s.linePoison k)) := by
  set a : State := { s with coh := { s.coh with bn := s.coh.bn.erase (.wbM c ln) } }
  have hda : a.dirOf ln = some d := hd
  have hw := State.applyWb_leaves hda hown
  have hq : (a.applyWb c ln).coh.queued = [] := by rw [hw.coh]; exact hqueue
  have hexec : exec (.wbm c ln) s = .next (a.applyWb c ln) := by
    have htxn : a.txnOf ln = none := hidle
    rw [show exec (.wbm c ln) s = .next (s.crossing c (homeOf ln) true (fun s => s.takeWbM c ln)) from rfl,
      State.crossing_of_wayClear hway]
    simp only [State.takeWbM, State.takeN, hin, if_true]
    rw [htxn, hda]
    simp only [hown, Option.any_some, beq_self_eq_true, if_true]
    rw [State.pumpAll, State.pump_of_none hq]
  obtain ⟨hmem, -, hhost⟩ := hw.work.sameMemory
  obtain ⟨hmem', hhost'⟩ := a.storeLine_bytes ln (a.sentKind c ln)
  refine ⟨_, hexec, ?_, fun k hk => ?_, ?_, hmem.trans hmem', hhost.trans hhost', fun htrip => ?_, fun k hk => ?_⟩
  · rw [State.dirOf, hw.coh]
    exact mget_mdel_self _ _
  · rw [State.dirOf, hw.coh]
    exact mget_mdel_ne _ (Ne.symm hk)
  · rw [hw.coh]
  · rw [hw.linePoison]
    exact a.linePoison_storeLine_self ln _ htrip
  · rw [hw.linePoison]
    exact a.linePoison_storeLine_ne ln _ hk

/-- Settles O36, clause by clause: a request that its home accepts goes through its row of Table 10.6 at once. -/
theorem homeRequests : Obligations.HomeRequests := by
  unfold Obligations.HomeRequests
  refine ⟨fun s m i h hd hqueue => ⟨?_, ?_, ?_, ?_⟩, fun s m i d q rcv k h hd hown hq hqueue => ?_,
    fun s m d h hd hown _ hqueue => ⟨fun hreq => ?_, ?_⟩, fun s m hfind hturn hcredit hhome hfull hway hreq => ?_,
    fun s r ln x hin hx hdone hsn hrep hagain hreq hqueue hway hcred => ?_, fun s c ln d hin hidle hd hown hqueue hway => ?_⟩
  · rintro (⟨rfl, hreq⟩ | ⟨rfl, hreq⟩ | ⟨rfl, hreq⟩)
    · simpa only [hreq, BReq.row] using h.runs_datX hqueue hd (.inl hreq)
    · simpa only [hreq, BReq.row] using h.runs_datX hqueue hd (.inr (.inl hreq))
    · simpa only [hreq, BReq.row] using h.runs_datX hqueue hd (.inr (.inr hreq))
  · rintro rfl hreq
    simpa only [hreq, BReq.row] using h.runs_rdN hqueue hd hreq
  · rintro (⟨rfl, hreq⟩ | ⟨rfl, hreq⟩) htrip hpk htake
    · simpa only [hreq, BReq.row] using h.runs_write hqueue hd (.inl hreq) htrip hpk htake
    · simpa only [hreq, BReq.row] using h.runs_write hqueue hd (.inr hreq) htrip hpk htake
  · rintro rfl hreq hupd
    simpa only [hreq, BReq.row] using h.runs_redU hqueue hd hreq hupd
  · rintro (⟨rfl, hreq, rfl, rfl⟩ | ⟨rfl, hreq, rfl, rfl⟩ | ⟨rfl, hreq, rfl, rfl⟩ | ⟨rfl, hreq, rfl, rfl⟩ | ⟨rfl, hreq, rfl, rfl⟩ |
      ⟨rfl, hreq, rfl, rfl⟩ | ⟨rfl, hreq, rfl, rfl⟩) <;>
    simpa only [hreq, BReq.row, BReq.ownerSnoop] using h.runs_owned hqueue hd hown hq
  · simpa only [hreq, BReq.row] using h.runs_datS hqueue hd hown hreq
  · rintro i (⟨rfl, hreq⟩ | ⟨rfl, hreq⟩) hothers
    · simpa only [hreq, BReq.row] using h.runs_inv hqueue hd hown (.inl hreq) hothers
    · simpa only [hreq, BReq.row] using h.runs_inv hqueue hd hown (.inr hreq) hothers
  · simpa only [hreq, BReq.row] using s.runs_retry hfind hturn hcredit hhome hfull hway
  · exact s.runs_done hin hx hdone hsn hrep hagain hreq hqueue hway hcred
  · exact s.runs_wbm hin hidle hd hown hqueue hway

end Sys2Proof.Machine
end

section
/-! SUPPORT. What the responses to faults (17_fault_tolerance.md R342-R355) leave of the registers, and that an event which one of
them fires stays pending. -/

namespace Sys2Proof.Machine

open Sys2Proof

/-! ### Registers left, and events kept -/

/-- The registers that the response to a fault can write. -/
def faultRegs : List Reg := .AGENT_DEAD :: .RST_UNIT :: .RST_CORE :: .PWR_DSTAT :: .PWR_GATE_STAT :: logRegs

/-- The other registers stay, a pending event stays pending, no source or die's clock changes hands, and no block, quarantine or
reset begins. -/
structure State.Responds (s t : State) : Prop where
  regs : s.RegsBut faultRegs t
  pend : ∀ n, s.on F.INT_SRC_CTL_PEND n = true → t.on F.INT_SRC_CTL_PEND n = true
  owner : ∀ n, t.rd F.INT_SRC_CTL_OWNER n = s.rd F.INT_SRC_CTL_OWNER n
  stopped : ∀ d, t.on F.INT_ISL_STOPPED d = s.on F.INT_ISL_STOPPED d
  blocks : t.thr.blocks ⊆ s.thr.blocks
  repart : t.rcv.repart = s.rcv.repart
  rst : t.rst = s.rst

/-- The registers, the blocks, the quarantines to answer and the resets are as they were. -/
structure State.Stands (s t : State) : Prop where
  regs : t.regs = s.regs
  blocks : t.thr.blocks = s.thr.blocks
  repart : t.rcv.repart = s.rcv.repart
  rst : t.rst = s.rst

theorem State.Stands.refl (s : State) : s.Stands s := ⟨rfl, rfl, rfl, rfl⟩

theorem State.Stands.trans {s t u : State} (h : s.Stands t) (k : t.Stands u) : s.Stands u :=
  ⟨k.regs.trans h.regs, k.blocks.trans h.blocks, k.repart.trans h.repart, k.rst.trans h.rst⟩

theorem State.Stands.ite {s a b : State} {c : Prop} [Decidable c] (h : s.Stands a) (k : s.Stands b) :
    s.Stands (if c then a else b) := by split <;> assumption

theorem State.Stands.foldl {α : Type} {s t : State} (h : s.Stands t) (f : State → α → State)
    (hf : ∀ (s : State) (a : α), s.Stands (f s a)) (l : List α) : s.Stands (l.foldl f t) :=
  List.foldlRecOn l f h (fun _ hu a _ => hu.trans (hf _ a))

theorem State.Stands.responds {s t : State} (h : s.Stands t) : s.Responds t where
  regs := (State.RegsBut.refl _ s).keep h.regs
  pend n hn := (State.on_of_regs h.regs _ n 0).trans hn
  owner n := by rw [State.rd, State.rd, State.reg, State.reg, h.regs]
  stopped d := State.on_of_regs h.regs _ d 0
  blocks := by rw [h.blocks]; exact List.Subset.refl _
  repart := h.repart
  rst := h.rst

theorem State.Responds.refl (s : State) : s.Responds s := (State.Stands.refl s).responds

theorem State.Responds.trans {s t u : State} (h : s.Responds t) (k : t.Responds u) : s.Responds u where
  regs := h.regs.trans k.regs
  pend n hn := k.pend n (h.pend n hn)
  owner n := (k.owner n).trans (h.owner n)
  stopped d := (k.stopped d).trans (h.stopped d)
  blocks := List.Subset.trans k.blocks h.blocks
  repart := k.repart.trans h.repart
  rst := k.rst.trans h.rst

theorem State.Responds.stands {s t u : State} (h : s.Responds t) (k : t.Stands u) : s.Responds u := h.trans k.responds

theorem State.Responds.ite {s a b : State} {c : Prop} [Decidable c] (h : s.Responds a) (k : s.Responds b) :
    s.Responds (if c then a else b) := by split <;> assumption

theorem State.Responds.foldl {α : Type} {s t : State} (h : s.Responds t) (f : State → α → State)
    (hf : ∀ (s : State) (a : α), s.Responds (f s a)) (l : List α) : s.Responds (l.foldl f t) :=
  List.foldlRecOn l f h (fun _ hu a _ => hu.trans (hf _ a))

theorem State.Responds.setReg {s t : State} (h : s.Responds t) (r : Reg) (i j : Nat) (v : W64) (hr : r ∈ faultRegs)
    (hc : r ≠ .INT_SRC_CTL) (hi : r ≠ .INT_ISL) : s.Responds (t.setReg r i j v) := by
  have hother (q : Reg) (i' j' : Nat) (hq : r ≠ q) : (t.setReg r i j v).reg q i' j' = t.reg q i' j' :=
    t.reg_setReg_ne _ _ _ _ _ _ _ (fun e => hq (congrArg Prod.fst e))
  refine h.trans ⟨fun q hq i' j' => hother q i' j' (fun e => hq (e ▸ hr)), fun n hn => ?_, fun n => ?_, fun d => ?_, List.Subset.refl _,
    rfl, rfl⟩
  · rw [← hn, State.on, State.rd, hother _ _ _ hc]
    rfl
  · rw [State.rd, hother _ _ _ hc]
    rfl
  · rw [State.on, State.rd, hother _ _ _ hi]
    rfl

theorem State.Responds.wr {s t : State} (h : s.Responds t) (f : Fld) (v i j : Nat) (hr : f.reg ∈ faultRegs)
    (hc : f.reg ≠ .INT_SRC_CTL) (hi : f.reg ≠ .INT_ISL) : s.Responds (t.wr f v i j) := h.setReg _ _ _ _ hr hc hi

/-- Raising a source loses no event that is pending (15_interrupts.md R312). -/
theorem State.pend_raise (s : State) (n k : Nat) (h : s.on F.INT_SRC_CTL_PEND k = true) : (s.raise n).on F.INT_SRC_CTL_PEND k = true := by
  unfold State.raise
  split
  · exact h
  · split
    · rw [State.caught, State.on_wr_apart _ _ _ _ _ _ (by decide) (.inl (by decide)), State.incSat,
        State.on_wr_apart _ _ _ _ _ _ (by decide) (.inl (by decide))]
      exact h
    · rw [State.on, State.syncLevels_rd, ← State.on]
      by_cases hk : n = k
      · subst hk
        exact State.on_wr_self s F.INT_SRC_CTL_PEND true n 0 (by decide) rfl
      · rw [State.on, State.rd_wr_ne _ _ _ _ _ _ _ _ (by simpa using hk)]
        exact h

theorem State.owner_raise (s : State) (n k : Nat) : (s.raise n).rd F.INT_SRC_CTL_OWNER k = s.rd F.INT_SRC_CTL_OWNER k := by
  unfold State.raise
  split
  · rfl
  · split
    · rw [State.caught, State.rd_wr_apart _ _ _ _ _ _ (by decide) (.inl (by decide)), State.incSat,
        State.rd_wr_apart _ _ _ _ _ _ (by decide) (.inl (by decide))]
      rfl
    · rw [State.syncLevels_rd, State.rd_wr_apart _ _ _ _ _ _ (by decide) (by decide)]

theorem State.Responds.raise {s t : State} (h : s.Responds t) (n : Nat) : s.Responds (t.raise n) :=
  h.trans ⟨(State.RegsBut.refl _ t).raise n (by decide) (by decide), t.pend_raise n, t.owner_raise n, t.on_stopped_raise n,
    by rw [State.raise_thr]; exact List.Subset.refl _, by rw [State.raise_rcv], t.raise_rst n⟩

theorem State.Responds.fires {s t u : State} {n : Nat} (h : s.Fires t n) (k : t.Responds u) : s.Fires u n :=
  fun hm hs => k.pend n (h hm hs)

/-- A source that belongs to no context fires while its owner's partition is not under reset. -/
theorem State.Responds.fires_raise {s t : State} (h : s.Responds t) (n : Nat) (hctx : srcCtx n = none) :
    s.Fires (t.raise n) n := by
  intro hmuted hruns
  refine t.fires_raise n ?_ ((h.stopped _).trans hruns)
  rw [← hmuted]
  simp only [State.srcMuted, hctx, h.rst, h.owner]

/-! ### Counters and ledgers -/

theorem State.responds_ledFire (s : State) (d : Nat) : s.Responds (s.ledFire d) := by
  unfold State.ledFire
  have hdisarmed : s.Responds (s.bump.wr F.LED_TRIG_ARMED 0 d) :=
    (State.Stands.responds ⟨rfl, rfl, rfl, rfl⟩ : s.Responds s.bump).wr F.LED_TRIG_ARMED _ d 0 (by decide) (by decide) (by decide)
  have htaken (l : Led) : s.Responds (((s.bump.wr F.LED_TRIG_ARMED 0 d).setLed d l).ledBusy d) :=
    (hdisarmed.stands (u := (s.bump.wr F.LED_TRIG_ARMED 0 d).setLed d l) ⟨rfl, rfl, rfl, rfl⟩).wr F.LED_PTR_BUSY _ d 0 (by decide) (by decide) (by decide)
  refine .ite (.refl s) (.ite hdisarmed ?_)
  exact .ite (((htaken _).wr F.LED_PTR_DONE _ d 0 (by decide) (by decide) (by decide)).raise _) (htaken _)

theorem State.responds_counterWrap (s : State) (d i j : Nat) : s.Responds (s.counterWrap d i j) := by
  unfold State.counterWrap
  extract_lets n counted tal noted raised
  have hcounted : s.Responds counted :=
    ((State.Responds.refl s).wr F.TAL_CNT_WRAP _ n j (by decide) (by decide) (by decide)).wr F.TAL_CTL_OVF _ n 0 (by decide) (by decide) (by decide)
  have hnoted : s.Responds noted := hcounted.stands ⟨rfl, rfl, rfl, rfl⟩
  have hraised : s.Responds raised := .ite (hnoted.raise _) hnoted
  exact .ite (hraised.trans (raised.responds_ledFire d)) hraised

theorem State.responds_tally (s : State) (d i code v : Nat) (e : Ev) : s.Responds (s.tally d i code v e) := by
  have hadd (s : State) (d i j v : Nat) : s.Responds (s.addCount d i j v) := by
    have hw := (State.Responds.refl s).wr F.TAL_CNT_VALUE (s.rd F.TAL_CNT_VALUE (talSet d i) j + v) (talSet d i) j (by decide) (by decide) (by decide)
    exact .ite (hw.trans (State.responds_counterWrap _ _ _ _)) hw
  unfold State.tally
  extract_lets n tal noted
  have hedge (s : State) (n j v : Nat) : s.Stands (s.edgeCount n j v).1 := by
    unfold State.edgeCount
    split
    · exact .refl s
    · split <;> exact ⟨rfl, rfl, rfl, rfl⟩
  have hnoted : s.Responds noted := .ite (State.Stands.responds ⟨rfl, rfl, rfl, rfl⟩) (.refl s)
  exact .ite (.refl s) (hnoted.foldl _ (fun s j => (hedge s n j v).responds.trans (hadd _ _ _ _ _)) _)

theorem State.responds_trigLog (s : State) : s.Responds s.trigLog := (State.Responds.refl s).foldl _ State.responds_ledFire _

/-! ### The recovery log (R355) -/

theorem State.responds_logWrite (s : State) (r : Rec) : s.Responds (s.logWrite r) := by
  unfold State.logWrite
  extract_lets h written
  obtain ⟨mem, lines, hframe⟩ := s.wrBytes_frame devKey (s.rd F.REC_LOG_BASE_BASE * 2 ^ 14 + 32 * (h % 512)) r.bytes
  have hwritten : s.Responds written := by
    simp only [written, hframe]
    exact State.Stands.responds ⟨rfl, rfl, rfl, rfl⟩
  have hhead := (hwritten.wr F.REC_LOG_PTR_HEAD (h + 1) 0 0 (by decide) (by decide) (by decide)).raise 0x400
  refine .ite (.refl s) (.ite ?_ (hhead.trans (State.responds_trigLog _)))
  exact (State.Responds.refl s).wr F.REC_LOG_PTR_DROPPED _ 0 0 (by decide) (by decide) (by decide)

/-- While the log is off no record is written. -/
theorem State.logWrite_off {s : State} (h : s.on F.REC_LOG_BASE_EN = false) (r : Rec) : s.logWrite r = s := by
  simp only [State.logWrite, h, Bool.not_false, if_true]

theorem State.responds_capFrom (s old : State) : s.Responds (s.capFrom old) :=
  .ite (.refl s) ((State.Responds.refl s).setReg .CAP 1 0 _ (by decide) (by decide) (by decide))

theorem State.Responds.tallyCc {s t : State} (h : s.Responds t) (cl code cls : Nat) : s.Responds (t.tallyCc cl code cls) :=
  h.trans (t.responds_tally _ _ _ _ _)

theorem State.stands_coh (s : State) (c : CohSt) : s.Stands { s with coh := c } := ⟨rfl, rfl, rfl, rfl⟩

theorem State.stands_rcv (s : State) {r : RcvSt} (h : r.repart = s.rcv.repart) : s.Stands { s with rcv := r } := ⟨rfl, rfl, h, rfl⟩

theorem State.stands_fol (s : State) (f : FolioSt) : s.Stands { s with fol := f } := ⟨rfl, rfl, rfl, rfl⟩

theorem State.stands_fab (s : State) (f : FabSt) : s.Stands { s with fab := f } := ⟨rfl, rfl, rfl, rfl⟩

theorem State.stands_setCmd (s : State) (id : CmdId) (c : Cmd) : s.Stands (s.setCmd id c) := ⟨rfl, rfl, rfl, rfl⟩

theorem State.stands_setCc (s : State) (cl ln : Nat) (x : CcLine) : s.Stands (s.setCc cl ln x) := ⟨rfl, rfl, rfl, rfl⟩

theorem State.stands_delCc (s : State) (cl ln : Nat) : s.Stands (s.delCc cl ln) := ⟨rfl, rfl, rfl, rfl⟩

theorem State.stands_note (s : State) (n : BNote) : s.Stands (s.note n) := ⟨rfl, rfl, rfl, rfl⟩

theorem State.stands_msgA (s : State) (core ln : Nat) (m : AMsg) : s.Stands (s.msgA core ln m) := ⟨rfl, rfl, rfl, rfl⟩

/-! ### Work lost, and a cluster that leaves the protocols (R345, R346) -/

theorem State.stands_sendInvs (s : State) (cl ln : Nat) (p : BitVec 8) (b : Option Nat) : s.Stands (s.sendInvs cl ln p b) := by
  refine (State.Stands.refl s).foldl _ (fun s c => ?_) _
  simp only
  split <;> split <;> exact ⟨rfl, rfl, rfl, rfl⟩

theorem State.stands_sendB (s : State) (m : BMsg) : s.Stands (s.sendB m) := .ite (s.stands_coh _) (s.stands_coh _)

theorem State.stands_serveCc (s : State) (cl ln : Nat) : s.Stands (s.serveCc cl ln) := by
  unfold State.serveCc
  have hset := s.stands_setCc cl ln
  split
  · exact .refl s
  · split
    · exact .refl s
    · simp only
      split
      · exact (hset _).trans (State.stands_msgA _ _ _ _)
      · exact .ite ((hset _).trans (State.stands_sendB _ _)) (.ite ((hset _).trans (State.stands_msgA _ _ _ _))
          (.ite ((hset _).trans (State.stands_msgA _ _ _ _)) ((hset _).trans (State.stands_sendB _ _))))

theorem State.stands_freeVictim (s : State) (cl ln : Nat) (x : CcLine) : s.Stands (s.freeVictim cl ln x) := by
  have hfreed := (s.stands_sendInvs cl ln x.pres none).trans (State.stands_delCc _ cl ln)
  unfold State.freeVictim
  simp only
  split
  · exact hfreed.trans (State.stands_coh _ _)
  · exact hfreed

theorem State.stands_answerSnoop (s : State) (cl ln : Nat) (x : CcLine) (k : Snoop) (rcv : Nat) : s.Stands (s.answerSnoop cl ln x k rcv) := by
  unfold State.answerSnoop
  extract_lets y stay invalidated
  have hstay {t : State} (ht : s.Stands t) (st : BSt) (pres : BitVec 8) : s.Stands (stay t st pres) :=
    ht.trans (.ite (t.stands_freeVictim _ _ _) (.ite (t.stands_delCc _ _) (t.stands_setCc _ _ _)))
  have hinv := s.stands_sendInvs cl ln y.pres none
  have hnote {t : State} (ht : s.Stands t) (n : BNote) : s.Stands (t.note n) := ht.trans (t.stands_note n)
  split
  · exact hnote (.ite (hnote (hstay (.refl s) _ _) _) (hstay (.refl s) _ _)) _
  · exact hnote (.ite (hnote (hstay hinv _ _) _) (hstay hinv _ _)) _
  · exact hnote (hstay hinv _ _) _
  · exact hnote (hstay hinv _ _) _

theorem State.stands_gotRdata (s : State) (cl ln : Nat) (x : CcLine) (core : Nat) (dirty : Bool) : s.Stands (s.gotRdata cl ln x core dirty) := by
  unfold State.gotRdata
  extract_lets down y z
  split
  · exact (s.stands_answerSnoop _ _ _ _ _).trans (State.stands_serveCc _ _ _)
  · exact (s.stands_setCc _ _ _).trans (State.stands_serveCc _ _ _)

theorem State.stands_dropCore (s : State) (core : Nat) (keep : Bool) : s.Stands (s.dropCore core keep) := by
  unfold State.dropCore
  extract_lets cl dirty waits fix coh emptied returned
  have hreturned : s.Stands returned := by
    have hemptied : s.Stands emptied := ⟨rfl, rfl, rfl, rfl⟩
    refine hemptied.foldl _ (fun s ln => ?_) waits
    split
    · exact s.stands_gotRdata _ _ _ _ _
    · exact .refl s
  exact ⟨hreturned.regs, hreturned.blocks, hreturned.repart, hreturned.rst⟩

theorem State.responds_dropBlocks (s : State) (p : Nat → Block → Bool) : s.Responds (s.dropBlocks p) where
  regs _ _ _ _ := rfl
  pend _ h := h
  owner _ := rfl
  stopped _ := rfl
  blocks := List.filter_sublist.subset
  repart := rfl
  rst := rfl

theorem State.responds_loseWork (s : State) (p : Block → Bool) : s.Responds (s.loseWork p) := by
  unfold State.loseWork
  exact ((State.Responds.refl s).foldl _ (fun s _ => s.responds_tally _ _ _ _ _) _).trans (State.responds_dropBlocks _ _)

theorem State.stands_loseBlock (st : Nat) (s : State) (b : Block) : s.Stands (State.loseBlock st s b) := by
  unfold State.loseBlock
  split
  · exact .refl s
  · exact .ite (.refl s) (.ite (s.stands_setCmd _ _) (s.stands_setCmd _ _))

theorem State.responds_loseBlocks (s : State) (p : Block → Bool) (st : Nat) : s.Responds (s.loseBlocks p st).1 :=
  (s.responds_loseWork _).foldl _ (fun s b => (State.stands_loseBlock st s b).responds) _

theorem State.responds_cutLost (s : State) (cs : List Nat) : s.Responds (s.cutLost cs) := by
  have hcut (s : State) (c : Nat) (x : Snap) : s.Stands (s.cutEnd c x) :=
    .ite (.refl s) (.ite ⟨rfl, rfl, rfl, rfl⟩ ⟨rfl, rfl, rfl, rfl⟩)
  unfold State.cutLost
  refine (State.Responds.refl s).foldl _ (fun s e => ?_) _
  obtain ⟨c, x⟩ := e
  refine State.Responds.wr ?_ F.SNAP_STAT_PHASE _ c 0 (by decide) (by decide) (by decide)
  exact ((s.stands_rcv (r := { s.rcv with snaps := aput s.rcv.snaps c { x with step := 0, mine := false } }) rfl).trans (hcut _ c x)).responds

theorem State.responds_flushMore (s : State) (cl : Nat) : s.Responds (s.flushMore cl) := by
  unfold State.flushMore
  extract_lets lines old
  refine (State.Responds.refl s).foldl _ (fun s e => ?_) _
  obtain ⟨ln, x⟩ := e
  exact .ite (((s.stands_setCc _ _ _).trans (State.stands_note _ _)).responds.tallyCc _ _ _) (.refl s)

theorem State.responds_flushCluster (s : State) (cl : Nat) : s.Responds (s.flushCluster cl) := by
  unfold State.flushCluster
  extract_lets dropped coh noted flushed
  have hdropped : s.Stands dropped := (State.Stands.refl s).foldl _ (fun s k => s.stands_dropCore k true) _
  clear_value dropped
  have hnoted : s.Stands noted := hdropped.trans (dropped.stands_coh _)
  have hflushed : s.Stands flushed := hnoted.foldl _ (fun s e => .ite (.refl s) (.ite (s.stands_delCc _ _) (s.stands_setCc _ _ _))) _
  have hover (s : State) : s.Stands (s.flushOver cl) := .ite (.refl s) (s.stands_coh _)
  exact (hflushed.responds.trans (flushed.responds_flushMore cl)).stands (hover _)

theorem State.responds_gateSettle (s : State) : s.Responds s.gateSettle := by
  unfold State.gateSettle
  refine .ite (.refl s) ?_
  split
  extract_lets err pwr settled reported
  have hsettled : s.Responds settled := State.Stands.responds ⟨rfl, rfl, rfl, rfl⟩
  have hreported : s.Responds reported := .ite (hsettled.wr F.PWR_GATE_STAT_ERR _ 0 0 (by decide) (by decide) (by decide)) hsettled
  exact .ite hsettled ((hreported.wr F.PWR_GATE_STAT_BUSY _ 0 0 (by decide) (by decide) (by decide)).raise _)

theorem State.responds_setDom (s : State) (st d : Nat) : s.Responds (s.setDom st d) :=
  (State.Responds.refl s).wr F.PWR_DSTAT_STATE st d 0 (by decide) (by decide) (by decide)

theorem State.responds_clusterOff (s : State) (cl : Nat) : s.Responds (s.clusterOff cl) := by
  unfold State.clusterOff
  exact ((s.stands_coh _).responds.foldl _ (fun s d => s.responds_setDom domOff d) _).trans (State.responds_gateSettle _)

theorem State.responds_unitsGone (s : State) (cl : Nat) : s.Responds (s.unitsGone cl) := by
  unfold State.unitsGone
  extract_lets d w wrapped cored
  have hwrapped : s.Responds wrapped := (State.Responds.refl s).wr F.RST_UNIT_CLUSTER _ d 0 (by decide) (by decide) (by decide)
  have hcored : s.Responds cored := hwrapped.wr F.RST_CORE_CORE _ w 0 (by decide) (by decide) (by decide)
  exact hcored.stands (cored.stands_fol _)

theorem State.stands_rehome (s : State) (cl : Nat) : s.Stands (s.rehome cl) := s.stands_coh _

theorem State.responds_giveDead (s : State) (a : Nat) : s.Responds (s.giveDead a) := by
  unfold State.giveDead
  extract_lets dead
  have hdead : s.Responds dead :=
    (s.stands_rehome a).responds.wr F.AGENT_DEAD_DEAD _ _ 0 (by decide) (by decide) (by decide)
  exact (hdead.stands (dead.stands_coh _)).stands (State.stands_fab _ _)

/-! ### Quarantine (R346) -/

/-- No block that a test picks is left where it loses its work. -/
theorem State.loseBlocks_none (s : State) (p : Block → Bool) (st : Nat) : ∀ e ∈ (s.loseBlocks p st).1.thr.blocks, p e.2 = false := by
  unfold State.loseBlocks
  extract_lets hit gone all lost again
  have hlost : (s.loseWork gone).Stands lost := (State.Stands.refl _).foldl _ (State.stands_loseBlock st) all
  intro e he
  have hkept : e ∈ (s.loseWork gone).thr.blocks := hlost.blocks ▸ he
  have hgone : gone e.2 = false := by simpa using (List.mem_filter.mp hkept).2
  exact (Bool.or_eq_false_iff.mp hgone).1

/-- A cluster marked as quarantined, its source raised and its unit resets over. -/
def State.quarMarked (s : State) (cl : Nat) : State :=
  (((s.wr F.REC_CNT_QUAR 1 cl).incSat F.REC_CNT_QUARS cl).raise (0x040 + cl)).unitsGone cl

theorem State.quarMarked_quar (s : State) (cl : Nat) : (s.quarMarked cl).on F.REC_CNT_QUAR cl = true := by
  rw [State.quarMarked, (State.responds_unitsGone _ cl).regs.on _ (by decide), State.on, State.rd_raise _ _ _ _ _ (by decide) (by decide),
    State.incSat, State.rd_wr_apart _ _ _ _ _ _ (by decide) (by decide)]
  exact s.on_wr_self F.REC_CNT_QUAR true cl 0 (by decide) rfl

theorem State.quarMarked_quars (s : State) (cl : Nat) :
    (s.quarMarked cl).rd F.REC_CNT_QUARS cl = min 255 (s.rd F.REC_CNT_QUARS cl + 1) := by
  rw [State.quarMarked, (State.responds_unitsGone _ cl).regs.rd _ (by decide), State.rd_raise _ _ _ _ _ (by decide) (by decide),
    State.rd_incSat_self _ _ _ _ (by decide), State.rd_wr_apart _ _ _ _ _ _ (by decide) (by decide)]
  rfl

theorem State.quarMarked_fires (s : State) {cl : Nat} (hcl : cl < 64) : s.Fires (s.quarMarked cl) (0x040 + cl) := by
  have hsrc : ∀ k < 64, srcCtx (0x040 + k) = none := by decide
  set counted := (s.wr F.REC_CNT_QUAR 1 cl).incSat F.REC_CNT_QUARS cl with hcounted
  have hfires := (State.Responds.refl counted).fires_raise (0x040 + cl) (hsrc cl hcl)
  have howner : counted.rd F.INT_SRC_CTL_OWNER (0x040 + cl) = s.rd F.INT_SRC_CTL_OWNER (0x040 + cl) := by
    rw [hcounted, State.incSat, State.rd_wr_apart _ _ _ _ _ _ (by decide) (.inl (by decide)), State.rd_wr_apart _ _ _ _ _ _ (by decide) (.inl (by decide))]
  have hstopped (d : Nat) : counted.on F.INT_ISL_STOPPED d = s.on F.INT_ISL_STOPPED d := by
    rw [hcounted, State.incSat, State.on_wr_apart _ _ _ _ _ _ (by decide) (.inl (by decide)), State.on_wr_apart _ _ _ _ _ _ (by decide) (.inl (by decide))]
  intro hm hs
  refine (State.responds_unitsGone _ cl).pend _ (hfires ?_ ((hstopped _).trans hs))
  rw [← hm]
  simp only [State.srcMuted, hsrc cl hcl, howner]
  rfl

/-- The steps of a quarantine: the cluster is marked, its blocks are lost, it is listed for the re-partition, and it leaves the
protocols. -/
structure State.Quarantines (s : State) (cl : Nat) (opened listed t : State) : Prop where
  opens : (s.quarMarked cl).Responds opened
  lost : ∀ e ∈ opened.thr.blocks, e.2.core / 8 ≠ cl
  regs : listed.regs = opened.regs
  blocks : listed.thr.blocks = opened.thr.blocks
  repart : listed.rcv.repart = opened.rcv.repart ++ [cl]
  leaves : listed.Responds t

theorem State.quarantine_steps {s : State} {cl : Nat} (cause : Nat) (hcl : cl < 64) (hq : s.on F.REC_CNT_QUAR cl = false) :
    ∃ opened listed, s.Quarantines cl opened listed (s.quarantine cl cause) := by
  have hgoes : (decide (64 ≤ cl) || s.on F.REC_CNT_QUAR cl) = false := by simp [hq, hcl]
  unfold State.quarantine
  rw [if_neg (by rw [hgoes]; exact Bool.false_ne_true)]
  extract_lets old mine marked left
  have hleft : (s.quarMarked cl).Responds left := marked.responds_cutLost _
  split
  rename_i lost again failed hlost
  have hlosing := left.responds_loseBlocks mine stQuarantined
  have hnone := left.loseBlocks_none mine stQuarantined
  rw [hlost] at hlosing hnone
  extract_lets fresh opened rcv listed dropped coh rehomed coh' discarded flushed rcv' ended
  have hdropped : listed.Responds dropped := ((State.Stands.refl _).foldl _ (fun s k => s.stands_dropCore k false) _).responds
  have hflushed : listed.Responds flushed :=
    ((listed.stands_rehome cl).trans (rehomed.stands_coh _)).responds.trans (discarded.responds_flushCluster cl)
  refine ⟨opened, listed, (hleft.trans hlosing).stands ⟨rfl, rfl, rfl, rfl⟩, fun e he => by simpa [mine] using hnone e he, rfl, rfl, rfl, ?_⟩
  clear_value flushed dropped listed
  refine State.Responds.trans ?_ (ended.responds_capFrom old)
  exact .ite ((hdropped.stands (dropped.stands_coh _)).trans (State.responds_giveDead _ cl))
    (.ite (hflushed.stands (flushed.stands_rcv rfl)) (hflushed.trans (flushed.responds_clusterOff cl)))

section
variable {s opened listed t : State} {cl : Nat} (h : s.Quarantines cl opened listed t)
include h

theorem State.Quarantines.quar : t.on F.REC_CNT_QUAR cl = true := by
  rw [h.leaves.regs.on _ (by decide), State.on_of_regs h.regs, h.opens.regs.on _ (by decide), s.quarMarked_quar]

theorem State.Quarantines.quars : t.rd F.REC_CNT_QUARS cl = min 255 (s.rd F.REC_CNT_QUARS cl + 1) := by
  rw [h.leaves.regs.rd _ (by decide), ← s.quarMarked_quars, ← h.opens.regs.rd _ (by decide), State.rd, State.rd, State.reg, State.reg, h.regs]

theorem State.Quarantines.noBlocks : ∀ e ∈ t.thr.blocks, e.2.core / 8 ≠ cl :=
  fun e he => h.lost e (h.blocks ▸ h.leaves.blocks he)

theorem State.Quarantines.fires (hcl : cl < 64) : s.Fires t (0x040 + cl) := by
  intro hm hs
  refine h.leaves.pend _ ?_
  rw [State.on_of_regs h.regs]
  exact h.opens.pend _ (s.quarMarked_fires hcl hm hs)

end

end Sys2Proof.Machine
end

section
/-! SUPPORT. Agents declared dead and returned (10_coherence.md R225), and REPARTITION (17_fault_tolerance.md R347). -/

namespace Sys2Proof.Machine

open Sys2Proof

/-! ### One bit of a field -/

theorem bitsOf_one (x i : Nat) : bitsOf x i 1 = (x.testBit i).toNat := by
  rw [bitsOf, Nat.shiftRight_eq_div_pow, pow_one, Nat.toNat_testBit]

theorem bitsOf_set {w i : Nat} (x : Nat) (hi : i < w) : bitsOf ((x ||| 2 ^ i) % 2 ^ w) i 1 = 1 := by
  simp [bitsOf_one, Nat.testBit_mod_two_pow, hi, Nat.testBit_or]

theorem bitsOf_clear {w i : Nat} (x : Nat) (hi : i < w) : bitsOf ((x &&& (2 ^ w - 1 - 2 ^ i)) % 2 ^ w) i 1 = 0 := by
  have hmask : (2 ^ w - 1 - 2 ^ i).testBit i = false := by
    rw [Nat.sub_sub, Nat.add_comm, Nat.testBit_two_pow_sub_succ (Nat.pow_lt_pow_right Nat.one_lt_two hi)]
    simp
  simp [bitsOf_one, Nat.testBit_mod_two_pow, hi, Nat.testBit_and, hmask]

/-! ### Agents declared dead, and returned (10_coherence.md R225) -/

theorem State.isDead_of_regs {s t : State} (h : t.regs = s.regs) (a : Nat) : t.isDead a = s.isDead a := by
  rw [State.isDead, State.isDead, State.rd, State.rd, State.reg, State.reg, h]

theorem State.isDead_giveDead (s : State) (a : Nat) : (s.giveDead a).isDead a = true := by
  have hregs : (s.giveDead a).isDead a =
      ((s.rehome a).wr F.AGENT_DEAD_DEAD (s.rd F.AGENT_DEAD_DEAD (a / 64) ||| 2 ^ (a % 64)) (a / 64)).isDead a :=
    State.isDead_of_regs rfl a
  rw [hregs, State.isDead, State.rd_wr_self _ _ _ _ _ (by decide), bitsOf_set _ (Nat.mod_lt _ (by decide))]
  rfl

theorem State.isDead_clearDead (s : State) (a : Nat) : (s.clearDead a).isDead a = false := by
  rw [State.clearDead, State.isDead, State.rd_wr_self _ _ _ _ _ (by decide), bitsOf_clear _ (Nat.mod_lt _ (by decide))]
  rfl

theorem State.isDead_setDead (s : State) {a : Nat} (ha : a < 84) : (s.setDead a).isDead a = true := by
  unfold State.setDead
  split
  · next h => simpa [Nat.not_le.mpr ha] using h
  · exact s.isDead_giveDead a

theorem State.isDead_capFrom (s old : State) (a : Nat) : (s.capFrom old).isDead a = s.isDead a := by
  rw [State.isDead, State.isDead, s.rd_capFrom old _ _ _ (by decide)]

theorem State.capFrom_coh (s old : State) : (s.capFrom old).coh = s.coh := by
  unfold State.capFrom
  split <;> rfl

theorem State.capFrom_rcv (s old : State) : (s.capFrom old).rcv = s.rcv := by
  unfold State.capFrom
  split <;> rfl

/-- A cluster whose heartbeat is lost is dead, and its cache is gone. -/
theorem State.quarantine_heart {s : State} {cl : Nat} (hcl : cl < 64) (hq : s.on F.REC_CNT_QUAR cl = false) :
    ∃ u : State, s.quarantine cl fClHeart = (State.giveDead { u with coh := { u.coh with
      cc := u.coh.cc.filter (fun e => e.1.unit != cl), vc := u.coh.vc.filter (fun e => e.1 != cl) } } cl).capFrom s := by
  have hgoes : (decide (64 ≤ cl) || s.on F.REC_CNT_QUAR cl) = false := by simp [hq, hcl]
  unfold State.quarantine
  rw [if_neg (by rw [hgoes]; exact Bool.false_ne_true)]
  extract_lets old mine marked left
  split
  extract_lets fresh opened rcv listed dropped coh rehomed coh' discarded flushed rcv' ended
  exact ⟨dropped, congrArg (State.capFrom · s) (if_pos (.inl rfl))⟩

theorem State.runs_heartbeat {s : State} {cl : Nat} (hcl : cl < 64) (hq : s.on F.REC_CNT_QUAR cl = false) :
    Runs (.heartbeatTimeout cl) s (fun t => t.on F.REC_CNT_QUAR cl = true ∧ t.rd F.REC_CNT_QUARS cl = min 255 (s.rd F.REC_CNT_QUARS cl + 1) ∧
      t.isDead cl = true ∧ t.rcv.repart = s.rcv.repart ++ [cl] ∧ (∀ e ∈ t.thr.blocks, e.2.core / 8 ≠ cl) ∧
      (∀ e ∈ t.coh.cc, e.1.unit ≠ cl) ∧ s.Fires t (0x040 + cl)) := by
  obtain ⟨opened, listed, h⟩ := State.quarantine_steps fClHeart hcl hq
  obtain ⟨u, hu⟩ := State.quarantine_heart hcl hq
  have hrepart : (s.quarMarked cl).rcv.repart = s.rcv.repart := congrArg RcvSt.repart (State.raise_rcv _ _)
  refine ⟨_, rfl, h.quar, h.quars, ?_, ?_, h.noBlocks, fun e he => ?_, h.fires hcl⟩
  · rw [hu, State.isDead_capFrom, State.isDead_giveDead]
  · rw [h.leaves.repart, h.repart, h.opens.repart, hrepart]
  · rw [hu, State.capFrom_coh] at he
    simpa using (List.mem_filter.mp he).2

/-- The write-backs of a quarantined cluster still out at the time limit are dropped. -/
theorem State.runs_wbTimeout {s : State} {cl : Nat} (hwb : s.rcv.wb.contains cl = true) (hflush : s.flushing cl = true) :
    Runs (.quarantineWbTimeout cl) s (fun t => t.isDead cl = true ∧ t.rcv.wb = s.rcv.wb.erase cl ∧ (∀ e ∈ t.coh.cc, e.1.unit ≠ cl) ∧
      (∀ e ∈ t.coh.vc, e.1 ≠ cl) ∧ t.thr = s.thr ∧ SameMemory s t) := by
  set u : State := { s with
    rcv := { s.rcv with wb := s.rcv.wb.erase cl }
    coh := { s.coh with cc := s.coh.cc.filter (fun e => e.1.unit != cl), vc := s.coh.vc.filter (fun e => e.1 != cl) } }
  have hexec : exec (.quarantineWbTimeout cl) s = .next (u.giveDead cl) := by
    show Host.Outcome.next (s.wbTimeout cl) = _
    rw [State.wbTimeout, hwb, hflush]
    rfl
  refine ⟨_, hexec, u.isDead_giveDead cl, rfl, fun e he => ?_, fun e he => ?_, rfl, rfl, rfl, rfl⟩
  · have hin : e ∈ s.coh.cc.filter (fun e => e.1.unit != cl) := he
    simpa using (List.mem_filter.mp hin).2
  · have hin : e ∈ s.coh.vc.filter (fun e => e.1 != cl) := he
    simpa using (List.mem_filter.mp hin).2

/-! ### Records closed while the log is off (R347, R355) -/

/-- The open records once the first of an action and unit is closed. -/
def closedRec (l : List Rec) (action unit : Nat) : List Rec :=
  match l.find? (fun r => r.action == action && r.unit == unit) with
  | none => l
  | some r => l.erase r

/-- The open records once those of the containments of some cores are closed. -/
def closedCores (l : List Rec) (ks : List Nat) : List Rec := ks.foldl (fun l k => closedRec l 1 k) l

theorem closedRec_of_find {l : List Rec} {action unit : Nat} {r : Rec}
    (h : l.find? (fun r => r.action == action && r.unit == unit) = some r) : closedRec l action unit = l.erase r := by rw [closedRec, h]

theorem closedRec_sublist (l : List Rec) (action unit : Nat) : (closedRec l action unit).Sublist l := by
  unfold closedRec
  split
  · exact .refl l
  · exact List.erase_sublist

theorem closedCores_sublist (l : List Rec) (ks : List Nat) : (closedCores l ks).Sublist l := by
  induction ks generalizing l with
  | nil => exact .refl l
  | cons k ks ih => exact (ih _).trans (closedRec_sublist l 1 k)

/-- Without a record of a containment of one of the cores, none is closed. -/
theorem closedCores_of_none {l : List Rec} {ks : List Nat} (h : ∀ x ∈ l, x.action = 1 → x.unit ∉ ks) : closedCores l ks = l := by
  induction ks with
  | nil => rfl
  | cons k ks ih =>
    have hnone : l.find? (fun r => r.action == 1 && r.unit == k) = none := by
      refine List.find?_eq_none.mpr (fun x hx hk => ?_)
      obtain ⟨hact, hunit⟩ : x.action = 1 ∧ x.unit = k := by simpa using hk
      exact h x hx hact (by simp [hunit])
    have hk : closedRec l 1 k = l := by rw [closedRec, hnone]
    rw [closedCores, List.foldl_cons, hk]
    exact ih (fun x hx hact hin => h x hx hact (List.mem_cons_of_mem _ hin))

/-- The only record of a containment of a cluster's cores is closed with that of its core. -/
theorem not_mem_closedRec {l : List Rec} {r : Rec} {p : Rec → Bool} (hp : (l.filter p).Sublist [r]) (hact : r.action = 1)
    (hpick : ∀ x : Rec, x.action = 1 → x.unit = r.unit → p x = true) : r ∉ closedRec l 1 r.unit := by
  intro hin
  have hr : r ∈ l := (closedRec_sublist l 1 r.unit).subset hin
  obtain ⟨x, hx⟩ := Option.isSome_iff_exists.mp (List.find?_isSome.mpr ⟨r, hr, by simp [hact]⟩ :
    (l.find? (fun x => x.action == 1 && x.unit == r.unit)).isSome = true)
  obtain ⟨hxact, hxunit⟩ : x.action = 1 ∧ x.unit = r.unit := by simpa using List.find?_some hx
  have hxr : x = r := List.mem_singleton.mp (hp.subset (List.mem_filter.mpr ⟨List.mem_of_find?_eq_some hx, hpick x hxact hxunit⟩))
  rw [closedRec_of_find hx, hxr] at hin
  have hcount : l.count r ≤ 1 := by
    rw [← List.count_filter (hpick r hact rfl)]
    exact (hp.count_le r).trans (by simp)
  have hpos := List.count_pos_iff.mpr hin
  rw [List.count_erase_self] at hpos
  omega

theorem not_mem_closedCores {l : List Rec} {r : Rec} {p : Rec → Bool} {ks : List Nat} (hp : (l.filter p).Sublist [r]) (hact : r.action = 1)
    (hpick : ∀ x : Rec, x.action = 1 → x.unit = r.unit → p x = true) (hk : r.unit ∈ ks) : r ∉ closedCores l ks := by
  induction ks generalizing l with
  | nil => cases hk
  | cons k ks ih =>
    rw [closedCores, List.foldl_cons]
    by_cases hunit : r.unit = k
    · subst hunit
      exact fun hin => not_mem_closedRec hp hact hpick ((closedCores_sublist _ ks).subset hin)
    · exact ih (((closedRec_sublist l 1 k).filter p).trans hp) ((List.mem_cons.mp hk).resolve_left hunit)

/-- The open records replaced. -/
def State.setLogs (s : State) (l : List Rec) : State := { s with rcv := { s.rcv with logs := l } }

section
variable {s : State} (hoff : s.on F.REC_LOG_BASE_EN = false)
include hoff

theorem State.closeRec_off (action unit : Nat) : s.closeRec action unit = s.setLogs (closedRec s.rcv.logs action unit) := by
  cases hfind : s.rcv.logs.find? (fun r => r.action == action && r.unit == unit) with
  | none =>
    rw [closedRec, hfind, State.closeRec, hfind]
    rfl
  | some r =>
    rw [closedRec_of_find hfind, State.closeRec, hfind]
    exact State.logWrite_off (s := s.setLogs (s.rcv.logs.erase r)) hoff r

theorem State.closeCores_off (ks : List Nat) : ks.foldl (fun s k => s.closeRec 1 k) s = s.setLogs (closedCores s.rcv.logs ks) := by
  induction ks generalizing s with
  | nil => rfl
  | cons k ks ih =>
    rw [List.foldl_cons, State.closeRec_off hoff]
    exact ih hoff

end

/-! ### REPARTITION (R347) -/

theorem mem_coresOf {cl k : Nat} : k ∈ coresOf cl ↔ k / 8 = cl := by
  simp only [coresOf, List.mem_map, List.mem_range]
  exact ⟨fun ⟨i, hi, h⟩ => by omega, fun h => ⟨k % 8, by omega, by omega⟩⟩

theorem State.rd_of_regs {s t : State} (h : t.regs = s.regs) (f : Fld) (i j : Nat) : t.rd f i j = s.rd f i j := by
  rw [State.rd, State.rd, State.reg, State.reg, h]

/-- A source that belongs to no context fires where its owner, its die's clock and the resets are as they were. -/
theorem State.fires_raise_of {s t : State} {n : Nat} (hctx : srcCtx n = none)
    (howner : t.rd F.INT_SRC_CTL_OWNER n = s.rd F.INT_SRC_CTL_OWNER n)
    (hstop : t.on F.INT_ISL_STOPPED (srcHome n) = s.on F.INT_ISL_STOPPED (srcHome n)) (hrst : t.rst = s.rst) : s.Fires (t.raise n) n := by
  intro hmuted hruns
  refine t.fires_raise n ?_ (hstop.trans hruns)
  rw [← hmuted]
  simp only [State.srcMuted, hctx, hrst, howner]

theorem State.repartition_settled {s : State} {cl : Nat} (hlist : s.rcv.repart = [cl]) (hset : s.quarSettled cl = true)
    (hawake : s.clerkAwake (cl / 16) = true) (hoff : s.on F.REC_LOG_BASE_EN = false) : s.repartition =
    State.raise { s with rcv := { s.rcv with repart := [], logs := closedRec (closedCores s.rcv.logs (coresOf cl)) 2 cl } } 0x401 := by
  set u : State := { s with rcv := { s.rcv with repart := [] } }
  have hclosed : ((coresOf cl).foldl (fun s k => s.closeRec 1 k) u).closeRec 2 cl =
      u.setLogs (closedRec (closedCores s.rcv.logs (coresOf cl)) 2 cl) := by
    rw [State.closeCores_off (s := u) hoff]
    exact State.closeRec_off (s := u.setLogs (closedCores s.rcv.logs (coresOf cl))) hoff 2 cl
  have hcs : s.rcv.repart.filter s.quarSettled = [cl] := by rw [hlist, List.filter_cons_of_pos hset, List.filter_nil]
  have hrest : s.rcv.repart.filter (fun c => !([cl] : List Nat).contains c) = [] := by simp [hlist]
  simp only [State.repartition, hcs, hrest, List.isEmpty_cons, List.any_cons, List.any_nil, hawake, Bool.not_true, Bool.or_false,
    Bool.false_eq_true, if_false, List.foldl_cons, List.foldl_nil]
  exact congrArg (State.raise · 0x401) hclosed

theorem State.runs_repartition {s : State} {cl : Nat} (hlist : s.rcv.repart = [cl]) (hset : s.quarSettled cl = true)
    (hawake : s.clerkAwake (cl / 16) = true) (hoff : s.on F.REC_LOG_BASE_EN = false) :
    Runs .repartition s (fun t => t.rcv.repart = [] ∧
      (∀ r, s.rcv.logs.find? (fun r => r.action == 2 && r.unit == cl) = some r → (∀ x ∈ s.rcv.logs, x.action = 1 → x.unit / 8 ≠ cl) →
        t.rcv.logs = s.rcv.logs.erase r) ∧
      (∀ r, s.rcv.logs.filter (fun x => x.action == 1 && x.unit / 8 == cl) = [r] → r ∉ t.rcv.logs) ∧ s.Fires t 0x401 ∧ SameMemory s t) := by
  set u : State := { s with rcv := { s.rcv with repart := [], logs := closedRec (closedCores s.rcv.logs (coresOf cl)) 2 cl } } with hu
  have hregs : u.regs = s.regs := rfl
  have hlogs : (u.raise 0x401).rcv.logs = closedRec (closedCores s.rcv.logs (coresOf cl)) 2 cl := by rw [State.raise_rcv]
  have hfires : s.Fires (u.raise 0x401) 0x401 :=
    State.fires_raise_of (by decide) (State.rd_of_regs hregs _ _ _) (State.on_of_regs hregs _ _ _) rfl
  refine ⟨_, congrArg Host.Outcome.next (State.repartition_settled hlist hset hawake hoff), ?_, fun r hr hnone => ?_, fun r hr hin => ?_,
    hfires, u.raise_mem _, u.raise_lines _, u.raise_hostMem _⟩
  · rw [← hu, State.raise_rcv]
  · rw [← hu, hlogs]
    have hcores : closedCores s.rcv.logs (coresOf cl) = s.rcv.logs :=
      closedCores_of_none (fun x hx hact hk => hnone x hx hact (mem_coresOf.mp hk))
    rw [hcores, closedRec_of_find hr]
  · rw [← hu, hlogs] at hin
    have hmem : r ∈ s.rcv.logs.filter (fun x => x.action == 1 && x.unit / 8 == cl) := hr ▸ List.mem_singleton.mpr rfl
    obtain ⟨hact, hunit⟩ : r.action = 1 ∧ r.unit / 8 = cl := by simpa using (List.mem_filter.mp hmem).2
    refine not_mem_closedCores (p := fun x => x.action == 1 && x.unit / 8 == cl) (hr ▸ .refl _) hact (fun x hx hxu => ?_) (mem_coresOf.mpr hunit)
      ((closedRec_sublist _ 2 cl).subset hin)
    simp [hx, hxu, hunit]

theorem State.repartition_asleep {s : State} {cl : Nat} (hlist : s.rcv.repart = [cl]) (hset : s.quarSettled cl = true)
    (hasleep : s.clerkAwake (cl / 16) = false) : s.repartition = s.wakeClerk (cl / 16) := by
  have hcs : s.rcv.repart.filter s.quarSettled = [cl] := by rw [hlist, List.filter_cons_of_pos hset, List.filter_nil]
  simp [State.repartition, hcs, hasleep]

theorem State.repartition_unsettled {s : State} {cl : Nat} (hlist : s.rcv.repart = [cl]) (hset : s.quarSettled cl = false) :
    s.repartition = s := by
  have hcs : s.rcv.repart.filter s.quarSettled = [] := by simp [hlist, hset]
  simp [State.repartition, hcs]

end Sys2Proof.Machine
end

section
/-! SUPPORT. The self-test of a cluster (17_fault_tolerance.md R348). -/

namespace Sys2Proof.Machine

open Sys2Proof

/-! ### What a reset of registers leaves (18_reset.md Table 18.2) -/

theorem aget_filter_of_keeps {κ α : Type} [DecidableEq κ] {p : κ × α → Bool} {k : κ} (hp : ∀ v, p (k, v) = true) (l : List (κ × α)) :
    aget (l.filter p) k = aget l k := by
  induction l with
  | nil => rfl
  | cons e l ih =>
    obtain ⟨a, v⟩ := e
    by_cases ha : a = k
    · subst ha
      simp [List.filter_cons_of_pos, hp, aget]
    · by_cases hkeep : p (a, v) = true
      · simp [List.filter_cons_of_pos hkeep, aget, ha, ih]
      · simp [List.filter_cons_of_neg hkeep, aget, ha, ih]

theorem aget_filter_of_drops {κ α : Type} [DecidableEq κ] {p : κ × α → Bool} {k : κ} (hp : ∀ v, p (k, v) = false) (l : List (κ × α)) :
    aget (l.filter p) k = none := by
  induction l with
  | nil => rfl
  | cons e l ih =>
    obtain ⟨a, v⟩ := e
    by_cases hkeep : p (a, v) = true
    · have ha : a ≠ k := by
        rintro rfl
        rw [hp] at hkeep
        exact Bool.false_ne_true hkeep
      simp [List.filter_cons_of_pos hkeep, aget, ha, ih]
    · rw [List.filter_cons_of_neg hkeep, ih]

theorem State.regsBut_regsReset (s : State) (rs : List Reg) (i : Nat) : s.RegsBut rs (s.regsReset rs i) := by
  intro r hr i' j'
  have hkeep (v : W64) : (!(rs.contains (⟨r, i', j'⟩ : RegKey).reg && (⟨r, i', j'⟩ : RegKey).i == i)) = true := by simp [hr]
  exact congrArg (fun o => o.getD r.desc.reset) (aget_filter_of_keeps (p := fun e => !(rs.contains e.1.reg && e.1.i == i)) hkeep s.regs)

/-- The registers that a reset of a cluster clears. -/
def clusterCleared : List Reg := .TAL_CNT :: .TAL_CYC :: clusterRegs

theorem State.regsBut_emptyCluster (s : State) (cl : Nat) : s.RegsBut clusterCleared (s.emptyCluster cl) := by
  unfold State.emptyCluster
  extract_lets mine cleared
  have hcleared : s.RegsBut clusterCleared cleared :=
    (State.RegsBut.refl _ s).foldl _ (fun s n => (s.regsBut_regsReset _ n).mono (by decide)) _
  exact hcleared.keep rfl

theorem State.emptyCluster_same (s : State) (cl : Nat) : SameMemory s (s.emptyCluster cl) ∧ (s.emptyCluster cl).fol = s.fol := by
  have hclear (s : State) (n : Nat) : s.SameWork (s.talClear n) := ⟨rfl, rfl, rfl, rfl, rfl, rfl, rfl, rfl, rfl, rfl, rfl, rfl, rfl⟩
  unfold State.emptyCluster
  extract_lets mine cleared
  have hcleared : s.SameWork cleared := State.SameWork.foldl _ hclear _ s
  obtain ⟨hmem, hlines, hhost⟩ := hcleared.sameMemory
  have hfol := hcleared.fol_eq
  clear_value cleared
  exact ⟨⟨hmem, hlines, hhost⟩, hfol⟩

theorem State.adoptOrphans_frame (s : State) : ∃ c, s.adoptOrphans = { s with coh := c } := by
  unfold State.adoptOrphans
  refine List.foldlRecOn (motive := fun t => ∃ c, t = { s with coh := c }) _ _ ⟨s.coh, rfl⟩ (fun t ht m _ => ?_)
  obtain ⟨c, rfl⟩ := ht
  split <;> exact ⟨_, rfl⟩

/-! ### The self-test of a cluster (R348) -/

/-- The cluster's test is over. -/
def State.tested (s : State) (cl : Nat) : State := { s with rcv := { s.rcv with testing := s.rcv.testing.filter (fun c => c != cl) } }

/-- A quarantined cluster that passes: its agent is alive, its counts are cleared, and it is empty. -/
def State.returned (s : State) (cl : Nat) : State :=
  ((((s.clearDead cl).wr F.REC_CNT_CONTAIN 0 cl).wr F.REC_CNT_QUAR 0 cl).emptyCluster cl).regsReset clusterRegs cl

theorem State.returned_regs (s : State) (cl : Nat) :
    (((s.clearDead cl).wr F.REC_CNT_CONTAIN 0 cl).wr F.REC_CNT_QUAR 0 cl).RegsBut clusterCleared (s.returned cl) :=
  (State.regsBut_emptyCluster _ cl).trans ((State.regsBut_regsReset _ clusterRegs cl).mono (by decide))

theorem State.returned_same (s : State) (cl : Nat) : SameMemory s (s.returned cl) ∧ (s.returned cl).fol = s.fol := by
  set u := ((s.clearDead cl).wr F.REC_CNT_CONTAIN 0 cl).wr F.REC_CNT_QUAR 0 cl
  have hcounts : SameMemory s u ∧ u.fol = s.fol := ⟨⟨rfl, rfl, rfl⟩, rfl⟩
  have hreset (v : State) : SameMemory v (v.regsReset clusterRegs cl) ∧ (v.regsReset clusterRegs cl).fol = v.fol := ⟨⟨rfl, rfl, rfl⟩, rfl⟩
  obtain ⟨hempty, hfol⟩ := u.emptyCluster_same cl
  exact ⟨(hcounts.1.trans hempty).trans (hreset _).1, ((hreset _).2.trans hfol).trans hcounts.2⟩

theorem State.returned_counts (s : State) (cl : Nat) : (s.returned cl).on F.REC_CNT_QUAR cl = false ∧
    (s.returned cl).rd F.REC_CNT_CONTAIN cl = 0 ∧ (s.returned cl).isDead cl = false := by
  have hregs := s.returned_regs cl
  refine ⟨?_, ?_, ?_⟩
  · rw [hregs.on _ (by decide)]
    exact State.on_wr_self _ F.REC_CNT_QUAR false cl 0 (by decide) rfl
  · rw [hregs.rd _ (by decide), State.rd_wr_apart _ _ _ _ _ _ (by decide) (by decide), State.rd_wr_self _ _ _ _ _ (by decide)]
    rfl
  · rw [State.isDead, hregs.rd _ (by decide), State.rd_wr_apart _ _ _ _ _ _ (by decide) (.inl (by decide)),
      State.rd_wr_apart _ _ _ _ _ _ (by decide) (.inl (by decide)), ← State.isDead, State.isDead_clearDead]

/-- Another register than those of the cluster and its counts. -/
theorem State.returned_rd (s : State) (cl : Nat) (f : Fld) (i j : Nat) (hf : f.reg ∉ .AGENT_DEAD :: .REC_CNT :: clusterCleared) :
    (s.returned cl).rd f i j = s.rd f i j := by
  have hdead : F.AGENT_DEAD_DEAD.reg ≠ f.reg := fun e => hf (e ▸ by decide)
  have hquar : F.REC_CNT_QUAR.reg ≠ f.reg := fun e => hf (e ▸ by decide)
  rw [(s.returned_regs cl).rd f (fun hm => hf (List.mem_cons_of_mem _ (List.mem_cons_of_mem _ hm))),
    State.rd_wr_apart (f := F.REC_CNT_QUAR) _ _ _ _ _ _ (by decide) (.inl hquar),
    State.rd_wr_apart (f := F.REC_CNT_CONTAIN) _ _ _ _ _ _ (by decide) (.inl hquar), State.clearDead,
    State.rd_wr_apart _ _ _ _ _ _ (by decide) (.inl hdead)]

/-- A returned cluster whose folio gives it to a partition wakes. -/
def State.woken (s : State) (cl : Nat) : State :=
  if s.heldOff cl then s else (clusterDoms cl).foldl (fun s d => s.setDom domWaking d) s

theorem State.woken_regs (s : State) (cl : Nat) : s.RegsBut [.PWR_DSTAT] (s.woken cl) :=
  .ite (.refl _ s) ((State.RegsBut.refl _ s).foldl _ (fun s d => (State.RegsBut.refl _ s).wr F.PWR_DSTAT_STATE domWaking d 0 (by decide)) _)

section
variable {s : State} {cl : Nat} (htest : s.rcv.testing.contains cl = true)
include htest

/-- A test that ends takes the branch of what it found, and of a quarantine. -/
theorem State.clusterTested_eq (pass : Bool) : s.clusterTested cl pass =
    if (s.tested cl).on F.REC_CNT_QUAR cl then
      if pass then
        let u := ((((s.tested cl).clearDead cl).wr F.REC_CNT_CONTAIN 0 cl).wr F.REC_CNT_QUAR 0 cl).emptyCluster cl |>.regsReset clusterRegs cl
        let u := if u.heldOff cl then u else (clusterDoms cl).foldl (fun s d => s.setDom domWaking d) u
        (((u.logWrite (u.newRec 0 8 cl (u.clusterPart cl))).bump).capFrom s).adoptOrphans
      else ((s.tested cl).logWrite ((s.tested cl).newRec fClTest 2 cl ((s.tested cl).clusterPart cl))).bump
    else if pass then
      (if (s.tested cl).rst.step < 10 && !(s.tested cl).heldOff cl then (s.tested cl).domsOn (clusterDoms cl) else s.tested cl).capFrom s
    else
      (if (s.tested cl).clusterReset cl then (s.tested cl).clrUnit F.RST_UNIT_CLUSTER (cl / 16) (cl % 16) else s.tested cl).quarantine cl
        fClTest := by
  unfold State.clusterTested
  rw [htest]
  rfl

theorem State.runs_clusterBoot (hq : s.on F.REC_CNT_QUAR cl = false) : Runs (.clusterSelftestDone cl true) s (fun t =>
    (s.rst.step < 10 → s.clusterPart cl ≠ 255 → ∀ d ∈ clusterDoms cl, t.dom d = domOn) ∧ (s.clusterPart cl = 255 → ∀ d, t.dom d = s.dom d) ∧
    (10 ≤ s.rst.step → ∀ d, t.dom d = s.dom d) ∧ t.rcv.testing = s.rcv.testing.filter (fun c => c != cl) ∧ SameMemory s t) := by
  have hq' : (s.tested cl).on F.REC_CNT_QUAR cl = false := hq
  have hheld : (s.tested cl).heldOff cl = (s.clusterPart cl == 255) := by
    rw [State.heldOff, hq']
    rfl
  have heq := State.clusterTested_eq htest true
  rw [hq', if_neg Bool.false_ne_true, if_pos rfl, hheld] at heq
  have hdom (u : State) (d : Nat) : (u.capFrom s).dom d = u.dom d := u.rd_capFrom s _ _ _ (by decide)
  have hdoms := State.SameWork.foldl (fun (s : State) d => s.setDom domOn d) (fun s d => s.sameWork_wr _ _ _ _) (clusterDoms cl) (s.tested cl)
  have hcap (u : State) := (u.sameWork_capFrom s).sameMemory
  refine ⟨_, congrArg Host.Outcome.next heq, fun hstep hpart d hd => ?_, fun hpart d => ?_, fun hstep d => ?_, ?_, ?_⟩
  · have hon : (decide ((s.tested cl).rst.step < 10) && !(s.clusterPart cl == 255)) = true := by
      rw [show (s.tested cl).rst.step = s.rst.step from rfl]
      simp [hstep, hpart]
    rw [hon, if_pos rfl, hdom]
    exact (State.rd_foldl_wr F.PWR_DSTAT_STATE (fun _ => domOn) _ d _ (by decide) hd).trans rfl
  · rw [hpart, hdom]
    simp only [beq_self_eq_true, Bool.not_true, Bool.and_false, Bool.false_eq_true, if_false]
    rfl
  · have hoff : (decide ((s.tested cl).rst.step < 10) && !(s.clusterPart cl == 255)) = false := by
      rw [show (s.tested cl).rst.step = s.rst.step from rfl]
      simp [Nat.not_lt.mpr hstep]
    rw [hoff, if_neg Bool.false_ne_true, hdom]
    rfl
  · rw [State.capFrom_rcv]
    split
    · exact foldl_keeps (fun (s : State) d => s.setDom domOn d) (fun s : State => s.rcv.testing) (fun _ _ => rfl) _ _
    · rfl
  · refine SameMemory.trans ?_ (hcap _)
    split
    · exact hdoms.sameMemory
    · exact ⟨rfl, rfl, rfl⟩

theorem State.runs_clusterReturns (hq : s.on F.REC_CNT_QUAR cl = true) (hoff : s.on F.REC_LOG_BASE_EN = false) :
    Runs (.clusterSelftestDone cl true) s (fun t => (s.clusterPart cl ≠ 255 → ∀ d ∈ clusterDoms cl, t.dom d = domWaking) ∧
      (s.clusterPart cl = 255 → ∀ d, t.dom d = s.dom d) ∧ t.on F.REC_CNT_QUAR cl = false ∧ t.rd F.REC_CNT_CONTAIN cl = 0 ∧
      t.isDead cl = false ∧ SameMemory s t) := by
  have hq' : (s.tested cl).on F.REC_CNT_QUAR cl = true := hq
  have heq := State.clusterTested_eq htest true
  rw [hq', if_pos rfl, if_pos rfl] at heq
  set u := (s.tested cl).returned cl with hu
  obtain ⟨hquar, hcount, hdead⟩ := (s.tested cl).returned_counts cl
  obtain ⟨hsame, hfol⟩ := (s.tested cl).returned_same cl
  have hheld : u.heldOff cl = (s.clusterPart cl == 255) := by
    rw [State.heldOff, hquar, State.clusterPart, hfol]
    rfl
  have hwoken := u.woken_regs cl
  have hlog : (u.woken cl).on F.REC_LOG_BASE_EN = false := by
    rw [hwoken.on _ (by decide), State.on, (s.tested cl).returned_rd cl _ _ _ (by decide)]
    exact hoff
  have heq' : s.clusterTested cl true = (((u.woken cl).bump).capFrom s).adoptOrphans := by
    rw [heq]
    exact congrArg (fun v => ((State.bump v).capFrom s).adoptOrphans) (State.logWrite_off hlog _)
  obtain ⟨c, hc⟩ := (((u.woken cl).bump).capFrom s).adoptOrphans_frame
  set t := (((u.woken cl).bump).capFrom s).adoptOrphans
  have hregs : (u.woken cl).RegsBut [.CAP] t := by
    refine State.RegsBut.keep ?_ (congrArg State.regs hc)
    exact ((State.RegsBut.refl _ _).keep (State.bump_regs _)).capFrom s (by decide)
  have hsameWoken : SameMemory u (u.woken cl) :=
    (State.SameWork.ite _ (.rfl' u) (State.SameWork.foldl _ (fun s d => s.sameWork_wr _ _ _ _) _ u)).sameMemory
  have hsameT : SameMemory (u.woken cl) t := by
    rw [hc]
    exact ((u.woken cl).sameWork_bump.trans (State.sameWork_capFrom _ s)).sameMemory
  refine ⟨t, congrArg Host.Outcome.next heq', fun hpart d hd => ?_, fun hpart d => ?_, ?_, ?_, ?_, ?_⟩
  · have hon : u.heldOff cl = false := by simp [hheld, hpart]
    rw [State.dom, hregs.rd _ (by decide), State.woken, hon, if_neg Bool.false_ne_true]
    exact (State.rd_foldl_wr F.PWR_DSTAT_STATE (fun _ => domWaking) _ d _ (by decide) hd).trans rfl
  · have hon : u.heldOff cl = true := by simp [hheld, hpart]
    rw [State.dom, hregs.rd _ (by decide), State.woken, hon, if_pos rfl, (s.tested cl).returned_rd cl _ _ _ (by decide)]
    rfl
  · rw [hregs.on _ (by decide), hwoken.on _ (by decide), hquar]
  · rw [hregs.rd _ (by decide), hwoken.rd _ (by decide), hcount]
  · rw [State.isDead, hregs.rd _ (by decide), hwoken.rd _ (by decide), ← State.isDead, hdead]
  · obtain ⟨hmem, hlines, hhost⟩ := (hsame.trans hsameWoken).trans hsameT
    exact ⟨hmem, hlines, hhost⟩

theorem State.runs_clusterFails (hcl : cl < 64) (hq : s.on F.REC_CNT_QUAR cl = false) :
    Runs (.clusterSelftestDone cl false) s (fun t => t.on F.REC_CNT_QUAR cl = true) := by
  have hq' : (s.tested cl).on F.REC_CNT_QUAR cl = false := hq
  have heq := State.clusterTested_eq htest false
  rw [hq', if_neg Bool.false_ne_true, if_neg Bool.false_ne_true] at heq
  set u := if (s.tested cl).clusterReset cl then (s.tested cl).clrUnit F.RST_UNIT_CLUSTER (cl / 16) (cl % 16) else s.tested cl
  have hu : (s.tested cl).RegsBut [.RST_UNIT] u :=
    .ite ((State.RegsBut.refl _ _).wr F.RST_UNIT_CLUSTER _ _ 0 (by decide)) (.refl _ _)
  have hquar : u.on F.REC_CNT_QUAR cl = false := (hu.on _ (by decide) cl 0).trans hq'
  obtain ⟨opened, listed, hsteps⟩ := State.quarantine_steps fClTest hcl hquar
  exact ⟨_, congrArg Host.Outcome.next heq, hsteps.quar⟩

theorem State.runs_clusterQuarFails (hq : s.on F.REC_CNT_QUAR cl = true) (hoff : s.on F.REC_LOG_BASE_EN = false) :
    Runs (.clusterSelftestDone cl false) s (fun t => t.regs = s.regs ∧ t.thr = s.thr ∧
      t.rcv.testing = s.rcv.testing.filter (fun c => c != cl) ∧ SameMemory s t) := by
  have hq' : (s.tested cl).on F.REC_CNT_QUAR cl = true := hq
  have hlog : (s.tested cl).on F.REC_LOG_BASE_EN = false := hoff
  have heq := State.clusterTested_eq htest false
  rw [hq', if_pos rfl, if_neg Bool.false_ne_true, State.logWrite_off hlog] at heq
  exact ⟨_, congrArg Host.Outcome.next heq, rfl, rfl, rfl, rfl, rfl, rfl⟩

end

end Sys2Proof.Machine
end

section
/-! SUPPORT. What a record of the log leaves, and a clerk that restarts (17_fault_tolerance.md R351). -/

namespace Sys2Proof.Machine

open Sys2Proof

/-! ### What a record of the log leaves beside memory and registers -/

/-- Threads, commands, synchronization, resets, recovery and held accesses are as they were. -/
structure State.LogKeeps (s t : State) : Prop where
  thr : t.thr = s.thr
  cmd : t.cmd = s.cmd
  syn : t.syn = s.syn
  rst : t.rst = s.rst
  rcv : t.rcv = s.rcv
  held : t.held = s.held

theorem State.LogKeeps.refl (s : State) : s.LogKeeps s := ⟨rfl, rfl, rfl, rfl, rfl, rfl⟩

theorem State.LogKeeps.trans {s t u : State} (h : s.LogKeeps t) (k : t.LogKeeps u) : s.LogKeeps u :=
  ⟨k.thr.trans h.thr, k.cmd.trans h.cmd, k.syn.trans h.syn, k.rst.trans h.rst, k.rcv.trans h.rcv, k.held.trans h.held⟩

theorem State.LogKeeps.ite {s a b : State} {c : Prop} [Decidable c] (h : s.LogKeeps a) (k : s.LogKeeps b) :
    s.LogKeeps (if c then a else b) := by split <;> assumption

theorem State.logKeeps_wr (s : State) (f : Fld) (v i j : Nat) : s.LogKeeps (s.wr f v i j) := ⟨rfl, rfl, rfl, rfl, rfl, rfl⟩

theorem State.logKeeps_bump (s : State) : s.LogKeeps s.bump := ⟨rfl, rfl, rfl, rfl, rfl, rfl⟩

theorem State.logKeeps_raise (s : State) (n : Nat) : s.LogKeeps (s.raise n) :=
  ⟨s.raise_thr n, s.raise_cmd n, s.raise_syn n, s.raise_rst n, s.raise_rcv n, s.raise_held n⟩

theorem State.logKeeps_ledFire (s : State) (d : Nat) : s.LogKeeps (s.ledFire d) := by
  unfold State.ledFire
  have hdisarmed : s.LogKeeps (s.bump.wr F.LED_TRIG_ARMED 0 d) := ⟨rfl, rfl, rfl, rfl, rfl, rfl⟩
  have htaken (l : Led) : s.LogKeeps (((s.bump.wr F.LED_TRIG_ARMED 0 d).setLed d l).ledBusy d) := ⟨rfl, rfl, rfl, rfl, rfl, rfl⟩
  exact .ite (.refl s) (.ite hdisarmed (.ite (((htaken _).trans (State.logKeeps_wr _ F.LED_PTR_DONE _ d 0)).trans (State.logKeeps_raise _ _))
    (htaken _)))

theorem State.logKeeps_logWrite (s : State) (r : Rec) : s.LogKeeps (s.logWrite r) := by
  have htrig (s : State) : s.LogKeeps s.trigLog := List.foldlRecOn _ _ (.refl s) (fun t ht d _ => ht.trans (t.logKeeps_ledFire d))
  unfold State.logWrite
  extract_lets h written
  obtain ⟨mem, lines, hframe⟩ := s.wrBytes_frame devKey (s.rd F.REC_LOG_BASE_BASE * 2 ^ 14 + 32 * (h % 512)) r.bytes
  have hwritten : s.LogKeeps written := by
    simp only [written, hframe]
    exact ⟨rfl, rfl, rfl, rfl, rfl, rfl⟩
  clear_value written
  have hraised := (hwritten.trans (written.logKeeps_wr F.REC_LOG_PTR_HEAD (h + 1) 0 0)).trans (State.logKeeps_raise _ 0x400)
  exact .ite (.refl s) (.ite (s.logKeeps_wr _ _ _ _) (hraised.trans (htrig _)))

/-! ### A clerk that restarts (R351) -/

section
variable {s : State} {k next n : Nat}

theorem State.passSlots_frame (s : State) (k next : Nat) : ∃ regs, s.passSlots k next = { s with regs := regs } := by
  unfold State.passSlots
  refine List.foldlRecOn (motive := fun t : State => ∃ regs, t = { s with regs := regs }) _ _ ⟨s.regs, rfl⟩ (fun t ht n _ => ?_)
  obtain ⟨regs, rfl⟩ := ht
  split
  · exact ⟨_, rfl⟩
  · exact ⟨regs, rfl⟩

theorem State.regsBut_passSlots (s : State) (k next : Nat) : s.RegsBut [.QSLOT_STAT] (s.passSlots k next) :=
  (State.RegsBut.refl _ s).foldl _ (fun s n => .ite ((State.RegsBut.refl _ s).wr F.QSLOT_STAT_CLERK next n 0 (by decide)) (.refl _ s)) _

/-- One slot, as `passSlots` looks at it. -/
def State.passSlot (s : State) (k next n : Nat) : State :=
  if s.on F.QSLOT_STAT_MAPPED n && s.rd F.QSLOT_STAT_CLERK n == k then s.wr F.QSLOT_STAT_CLERK next n else s

theorem State.passSlot_other {m : Nat} (hm : m ≠ n) (f : Fld) : (s.passSlot k next m).rd f n = s.rd f n := by
  unfold State.passSlot
  split
  · exact State.rd_wr_ne _ _ _ _ _ _ _ _ (by simp [hm])
  · rfl

theorem State.passSlot_self (hnext : next < 16) (h : s.rd F.QSLOT_STAT_CLERK n = next) (m : Nat) :
    (s.passSlot k next m).rd F.QSLOT_STAT_CLERK n = next := by
  by_cases hm : m = n
  · subst hm
    unfold State.passSlot
    split
    · exact (State.rd_wr_self _ _ _ _ _ (by decide)).trans (Nat.mod_eq_of_lt hnext)
    · exact h
  · rw [State.passSlot_other hm, h]

theorem State.passSlot_passes (hnext : next < 16) (hmapped : s.on F.QSLOT_STAT_MAPPED n = true) (hk : s.rd F.QSLOT_STAT_CLERK n = k) :
    (s.passSlot k next n).rd F.QSLOT_STAT_CLERK n = next := by
  have hpass : (s.on F.QSLOT_STAT_MAPPED n && s.rd F.QSLOT_STAT_CLERK n == k) = true := by simp [hmapped, hk]
  rw [State.passSlot, if_pos hpass, State.rd_wr_self _ _ _ _ _ (by decide)]
  exact Nat.mod_eq_of_lt hnext

theorem State.foldl_passSlot_self (hnext : next < 16) (l : List Nat) (h : s.rd F.QSLOT_STAT_CLERK n = next) :
    (l.foldl (fun s m => s.passSlot k next m) s).rd F.QSLOT_STAT_CLERK n = next :=
  List.foldlRecOn (motive := fun t : State => t.rd F.QSLOT_STAT_CLERK n = next) l _ h (fun _ ht m _ => State.passSlot_self hnext ht m)

theorem State.foldl_passSlot (hnext : next < 16) {l : List Nat} (hn : n ∈ l) (hmapped : s.on F.QSLOT_STAT_MAPPED n = true)
    (hk : s.rd F.QSLOT_STAT_CLERK n = k) : (l.foldl (fun s m => s.passSlot k next m) s).rd F.QSLOT_STAT_CLERK n = next := by
  induction l generalizing s with
  | nil => cases hn
  | cons m l ih =>
    rw [List.foldl_cons]
    by_cases hm : m = n
    · subst hm
      exact State.foldl_passSlot_self hnext l (State.passSlot_passes hnext hmapped hk)
    · refine ih ((List.mem_cons.mp hn).resolve_left (Ne.symm hm)) ?_ ((State.passSlot_other hm _).trans hk)
      rw [State.on, State.passSlot_other hm]
      exact hmapped

/-- The slots of a clerk that is out have its die's next clerk. -/
theorem State.rd_passSlots (hnext : next < 16) (hn : n < 256) (hmapped : s.on F.QSLOT_STAT_MAPPED n = true)
    (hk : s.rd F.QSLOT_STAT_CLERK n = k) : (s.passSlots k next).rd F.QSLOT_STAT_CLERK n = next :=
  State.foldl_passSlot hnext (List.mem_range.mpr hn) hmapped hk

theorem State.clerkOut_frame (s : State) (k : Nat) : ∃ regs fol, s.clerkOut k = { s with regs := regs, fol := fol } := by
  unfold State.clerkOut
  extract_lets next passed
  clear_value next
  have hpassed : ∃ regs, passed = { s with regs := regs } := by
    cases next with
    | none => exact ⟨s.regs, rfl⟩
    | some i => exact s.passSlots_frame _ _
  clear_value passed
  obtain ⟨regs, rfl⟩ := hpassed
  split <;> exact ⟨regs, _, rfl⟩

theorem State.clerkOut_regs (s : State) (k : Nat) : (s.clerkOut k).regs =
    (match (List.range 4).find? (fun i => k / 4 * 4 + i != k && s.clerkIn (k / 4 * 4 + i)) with
      | some i => s.passSlots k (k / 4 * 4 + i)
      | none => s).regs := by
  unfold State.clerkOut
  extract_lets next passed
  split <;> rfl

theorem State.regsBut_clerkOut (s : State) (k : Nat) : s.RegsBut [.QSLOT_STAT] (s.clerkOut k) := by
  refine State.RegsBut.keep ?_ (s.clerkOut_regs k)
  split
  · exact s.regsBut_passSlots _ _
  · exact .refl _ s

theorem State.rd_clerkOut {i : Nat} (hk : k < 16)
    (hnext : (List.range 4).find? (fun i => k / 4 * 4 + i != k && s.clerkIn (k / 4 * 4 + i)) = some i) (hn : n < 256)
    (hmapped : s.on F.QSLOT_STAT_MAPPED n = true) (hslot : s.rd F.QSLOT_STAT_CLERK n = k) :
    (s.clerkOut k).rd F.QSLOT_STAT_CLERK n = k / 4 * 4 + i := by
  have hi : i < 4 := List.mem_range.mp (List.mem_of_find?_eq_some hnext)
  rw [State.rd_of_regs (s.clerkOut_regs k), hnext]
  exact State.rd_passSlots (by omega) hn hmapped hslot

theorem State.runs_clerkWdt (s : State) {k : Nat} (hk : k < 16) : Runs (.clerkWdt k) s (fun t =>
    (∀ i n, (List.range 4).find? (fun i => k / 4 * 4 + i != k && s.clerkIn (k / 4 * 4 + i)) = some i → n < 256 → s.on F.QSLOT_STAT_MAPPED n = true →
      s.rd F.QSLOT_STAT_CLERK n = k → t.rd F.QSLOT_STAT_CLERK n = k / 4 * 4 + i) ∧ t.cmd = s.cmd ∧ t.thr = s.thr ∧ t.syn = s.syn ∧
    s.Fires t (0x0B4 + k) ∧ (s.on F.REC_LOG_BASE_EN = false → SameMemory s t)) := by
  have hsrc : ∀ k < 16, srcCtx (0x0B4 + k) = none := by decide
  obtain ⟨regs, fol, hout⟩ := s.clerkOut_frame k
  have hregs := s.regsBut_clerkOut k
  set u := s.clerkOut k
  set r := u.newRec fClerkWdt 5 (k / 4 * 16 + k % 4) 0xFF
  have hexec : exec (.clerkWdt k) s = .next (((u.logWrite r).bump).raise (0x0B4 + k)) := by
    show Host.Outcome.next (s.clerkWdt k) = _
    rw [State.clerkWdt, if_neg (Nat.not_le.mpr hk)]
    rfl
  have hleft : u.LogKeeps s := by rw [hout]; exact ⟨rfl, rfl, rfl, rfl, rfl, rfl⟩
  have hlogged := (u.logKeeps_logWrite r).trans (State.logKeeps_bump _)
  have hkept := hlogged.trans (State.logKeeps_raise _ (0x0B4 + k))
  have hbumped : (u.logWrite r).bump.regs = (u.logWrite r).regs := State.bump_regs _
  have hwritten := u.responds_logWrite r
  have howner : (u.logWrite r).bump.rd F.INT_SRC_CTL_OWNER (0x0B4 + k) = s.rd F.INT_SRC_CTL_OWNER (0x0B4 + k) := by
    rw [State.rd_of_regs hbumped, hwritten.owner, hregs.rd _ (by decide)]
  have hstop (d : Nat) : (u.logWrite r).bump.on F.INT_ISL_STOPPED d = s.on F.INT_ISL_STOPPED d := by
    rw [State.on_of_regs hbumped, hwritten.stopped, hregs.on _ (by decide)]
  refine ⟨_, hexec, fun i n hnext hn hmapped hslot => ?_, hkept.cmd.trans hleft.cmd.symm, hkept.thr.trans hleft.thr.symm,
    hkept.syn.trans hleft.syn.symm, State.fires_raise_of (hsrc k hk) howner (hstop _) (hlogged.rst.trans hleft.rst.symm), fun hoff => ?_⟩
  · rw [State.rd_raise _ _ _ _ _ (by decide) (by decide), State.rd_of_regs hbumped, (u.regsBut_logWrite r).rd _ (by decide)]
    exact State.rd_clerkOut hk hnext hn hmapped hslot
  · have hlog : u.on F.REC_LOG_BASE_EN = false := (hregs.on _ (by decide) 0 0).trans hoff
    have hsame : SameMemory s u := by rw [hout]; exact ⟨rfl, rfl, rfl⟩
    rw [State.logWrite_off hlog]
    exact hsame.trans ((u.sameWork_bump.trans (State.sameWork_raise _ _)).sameMemory)

end

end Sys2Proof.Machine
end

section
/-! SUPPORT. Module faults and UCIe modules (17_fault_tolerance.md R349, R350). -/

namespace Sys2Proof.Machine

open Sys2Proof

/-! ### A module fault (R349; 18_reset.md R368) -/

/-- The number of resets since power-good, with this one. -/
def State.resetCount (s : State) : Nat := (s.rd F.RST_CAUSE_COUNT + 1) % 2 ^ 32

theorem State.rd_moduleReset (s : State) {c : Cause} (hc : c ≠ .power) {f : Fld} (hf : f.reg = .RST_CAUSE) :
    (s.moduleReset c).rd f = bitsOf (causeBits c + s.resetCount * 2 ^ 32) f.lo f.wid := by
  have hbits : causeBits c < 2 ^ 32 := by cases c <;> decide
  have hcount : s.resetCount < 2 ^ 32 := Nat.mod_lt _ (by decide)
  have hpower : (c == .power) = false := beq_eq_false_iff_ne.mpr hc
  have hreg : (s.moduleReset c).reg .RST_CAUSE 0 0 = BitVec.ofNat 64 (causeBits c + s.resetCount * 2 ^ 32) := by
    simp only [State.reg, State.moduleReset, hpower, Bool.false_eq_true, if_false, aget, if_true]
    rfl
  rw [State.rd, hf, hreg, BitVec.toNat_ofNat, Nat.mod_eq_of_lt (by omega)]

theorem State.count_moduleReset (s : State) {c : Cause} (hc : c ≠ .power) : (s.moduleReset c).rd F.RST_CAUSE_COUNT = s.resetCount := by
  have hbits : causeBits c < 2 ^ 32 := by cases c <;> decide
  have hcount : s.resetCount < 2 ^ 32 := Nat.mod_lt _ (by decide)
  rw [s.rd_moduleReset hc rfl, bitsOf, Nat.shiftRight_eq_div_pow]
  show (causeBits c + s.resetCount * 2 ^ 32) / 2 ^ 32 % 2 ^ 32 = s.resetCount
  omega

/-- The cause of a reset by the warden, and READY low. -/
theorem State.warden_moduleReset (s : State) : (s.moduleReset .warden).on F.RST_CAUSE_WARDEN = true ∧
    (s.moduleReset .warden).on F.RST_CAUSE_READY = false := by
  have hc : Cause.warden ≠ .power := by decide
  rw [State.on, State.on, s.rd_moduleReset hc rfl, s.rd_moduleReset hc rfl, bitsOf, bitsOf, Nat.shiftRight_eq_div_pow,
    Nat.shiftRight_eq_div_pow, beq_iff_eq, beq_eq_false_iff_ne]
  show (4 + s.resetCount * 2 ^ 32) / 2 ^ 2 % 2 ^ 1 = 1 ∧ (4 + s.resetCount * 2 ^ 32) / 2 ^ 8 % 2 ^ 1 ≠ 1
  omega

theorem State.pkgWdt_moduleReset (s : State) : (s.moduleReset .pkgWdt).on F.RST_CAUSE_PKG_WDT = true := by
  rw [State.on, s.rd_moduleReset (by decide) rfl, bitsOf, Nat.shiftRight_eq_div_pow, beq_iff_eq]
  show (8 + s.resetCount * 2 ^ 32) / 2 ^ 3 % 2 ^ 1 = 1
  omega

/-- A state in which a fault has been noted. -/
def State.faulted (s : State) : State := { s with rst := { s.rst with fault := true } }.bump

theorem State.moduleFault_off {s : State} (hoff : s.on F.REC_LOG_BASE_EN = false) (c : Cause) (cause unit : Nat) :
    s.moduleFault c cause unit = s.faulted.moduleReset c := by
  show (s.logWrite { s.newRec cause 4 unit 0xFF with aborted := ctxMask (s.obj.ctxs.map (fun e => e.1)) }).faulted.moduleReset c = _
  rw [State.logWrite_off hoff]

theorem State.faulted_moduleReset (s : State) {c : Cause} (hc : c ≠ .power) : (s.faulted.moduleReset c).rst.asserted = true ∧
    (s.faulted.moduleReset c).rst.fault = true := by
  have hpower : (c == .power) = false := beq_eq_false_iff_ne.mpr hc
  refine ⟨rfl, ?_⟩
  show (true && !(c == .power)) = true
  rw [hpower]
  rfl

section
variable {s : State} (hoff : s.on F.REC_LOG_BASE_EN = false)
include hoff

theorem State.runs_moduleFault {i : Instr} {c : Cause} {cause unit : Nat} (hc : c ≠ .power) (hexec : exec i s = .next (s.moduleFault c cause unit)) :
    Runs i s (fun t => t = s.faulted.moduleReset c ∧ t.rst.asserted = true ∧ t.rst.fault = true ∧ t.thr = State.reset.thr ∧
      t.rd F.RST_CAUSE_COUNT = (s.rd F.RST_CAUSE_COUNT + 1) % 2 ^ 32 ∧ SameMemory s t) := by
  obtain ⟨hasserted, hfault⟩ := s.faulted_moduleReset hc
  rw [State.moduleFault_off hoff] at hexec
  exact ⟨_, hexec, rfl, hasserted, hfault, rfl, s.faulted.count_moduleReset hc, rfl, rfl, rfl⟩

theorem State.runs_d2dDown (pair : Nat) : Runs (.d2dDown pair) s (fun t => t.rst.asserted = true ∧ t.rst.fault = true ∧
    t.on F.RST_CAUSE_WARDEN = true ∧ t.thr = State.reset.thr ∧ t.rd F.RST_CAUSE_COUNT = (s.rd F.RST_CAUSE_COUNT + 1) % 2 ^ 32 ∧
    SameMemory s t) := by
  obtain ⟨t, hexec, rfl, hasserted, hfault, hthr, hcount, hsame⟩ :=
    State.runs_moduleFault (i := .d2dDown pair) (c := .warden) hoff (by decide) rfl
  exact ⟨_, hexec, hasserted, hfault, (State.warden_moduleReset _).1, hthr, hcount, hsame⟩

theorem State.runs_pkgWdt : Runs .pkgWdt s (fun t => t.rst.asserted = true ∧ t.rst.fault = true ∧ t.on F.RST_CAUSE_PKG_WDT = true ∧
    t.thr = State.reset.thr ∧ t.rd F.RST_CAUSE_COUNT = (s.rd F.RST_CAUSE_COUNT + 1) % 2 ^ 32 ∧ SameMemory s t) := by
  obtain ⟨t, hexec, rfl, hasserted, hfault, hthr, hcount, hsame⟩ := State.runs_moduleFault (i := .pkgWdt) (c := .pkgWdt) hoff (by decide) rfl
  exact ⟨_, hexec, hasserted, hfault, State.pkgWdt_moduleReset _, hthr, hcount, hsame⟩

end

/-! ### UCIe modules (R350) -/

/-- A module out of service: its state, its dead agent, the accesses it held dropped, and its source raised. -/
structure State.Out (s : State) (m st : Nat) (t : State) : Prop where
  state : t.rd F.UCIE_STAT_STATE m = st
  ucie : t.rcv.ucie = m :: s.rcv.ucie.filter (fun x => x != m)
  dead : t.isDead (64 + m) = true
  held : t.held = s.held.filter (fun a => a.mod != m)
  fires : s.Fires t (0x0AC + m)
  rst : t.rst = s.rst
  thr : t.thr = s.thr

theorem State.ucieOut_out (s : State) {m st : Nat} (hm : m < 8) (hst : st < 16) : s.Out m st (s.ucieOut m st) := by
  have hsrc : ∀ m < 8, srcCtx (0x0AC + m) = none := by decide
  unfold State.ucieOut
  extract_lets d dead rcv left sent
  have hdead : (s.wr F.UCIE_STAT_STATE st m).RegsBut [.AGENT_DEAD] dead ∧ dead.rst = s.rst ∧ dead.thr = s.thr ∧ dead.rcv = s.rcv ∧ dead.held = s.held := by
    simp only [dead, State.setDead]
    split
    · exact ⟨.refl _ _, rfl, rfl, rfl, rfl⟩
    · refine ⟨State.RegsBut.keep (t := (s.wr F.UCIE_STAT_STATE st m).wr F.AGENT_DEAD_DEAD _ _) ?_ rfl, rfl, rfl, rfl, rfl⟩
      exact (State.RegsBut.refl _ _).wr F.AGENT_DEAD_DEAD _ _ 0 (by decide)
  have hisDead : dead.isDead (64 + m) = true := State.isDead_setDead _ (by omega)
  clear_value dead
  obtain ⟨hregs, hrst, hthr, hrcv, hheld⟩ := hdead
  have hsent : ∃ o, sent = { left with out := o } := by
    refine List.foldlRecOn (motive := fun t : State => ∃ o, t = { left with out := o }) _ _ ⟨left.out, rfl⟩ (fun t ht w _ => ?_)
    obtain ⟨o, rfl⟩ := ht
    exact ⟨_, rfl⟩
  clear_value sent
  obtain ⟨o, rfl⟩ := hsent
  set sent : State := { left with out := o }
  have hsentRegs : sent.regs = dead.regs := rfl
  have howner : sent.rd F.INT_SRC_CTL_OWNER (0x0AC + m) = s.rd F.INT_SRC_CTL_OWNER (0x0AC + m) := by
    rw [State.rd_of_regs hsentRegs, hregs.rd _ (by decide), State.rd_wr_apart _ _ _ _ _ _ (by decide) (.inl (by decide))]
  have hstop : sent.on F.INT_ISL_STOPPED (srcHome (0x0AC + m)) = s.on F.INT_ISL_STOPPED (srcHome (0x0AC + m)) := by
    rw [State.on_of_regs hsentRegs, hregs.on _ (by decide), State.on_wr_apart _ _ _ _ _ _ (by decide) (.inl (by decide))]
  refine ⟨?_, ?_, ?_, ?_, State.fires_raise_of (hsrc m hm) howner hstop hrst, (sent.raise_rst _).trans hrst, (sent.raise_thr _).trans hthr⟩
  · rw [State.rd_raise _ _ _ _ _ (by decide) (by decide), State.rd_of_regs hsentRegs, hregs.rd _ (by decide), State.rd_wr_self _ _ _ _ _ (by decide)]
    exact Nat.mod_eq_of_lt hst
  · rw [State.raise_rcv, ← hrcv]
  · rw [State.isDead, State.rd_raise _ _ _ _ _ (by decide) (by decide), ← State.isDead, State.isDead_of_regs hsentRegs, hisDead]
  · rw [State.raise_held, ← hheld]


section
variable {s : State} {m : Nat}

/-- The other module of a die is out where it was. -/
theorem State.Out.other {t : State} {st : Nat} (h : s.Out m st t) :
    t.rcv.ucie.contains (m / 2 * 2 + (1 - m % 2)) = s.rcv.ucie.contains (m / 2 * 2 + (1 - m % 2)) := by
  have hne : m / 2 * 2 + (1 - m % 2) ≠ m := by omega
  rw [h.ucie, Bool.eq_iff_iff, List.contains_iff_mem, List.contains_iff_mem, List.mem_cons, List.mem_filter]
  simp [hne]

/-- A module that returns to service, before its record. -/
def State.back (s : State) (m : Nat) (slow : Bool) : State :=
  let s : State := { s with rcv := { s.rcv with ucie := s.rcv.ucie.filter (fun x => x != m) } }
  let s := (s.clearDead (64 + m)).wr F.EQ_CTL_UCIE (s.rd F.EQ_CTL_UCIE &&& (255 - 2 ^ m))
  (s.wr F.UCIE_STAT_STATE 5 m).wr F.UCIE_STAT_SLOW (b2n slow) m

theorem State.ucieBack_eq (hout : s.rcv.ucie.contains m = true) (hreset : s.unitBit F.RST_UNIT_UCIE (m / 2) (m % 2) = false) (slow : Bool) :
    ∃ r, s.ucieBack m slow = (((s.back m slow).raise (0x0AC + m)).logWrite r).bump := by
  have hgoes : (!s.rcv.ucie.contains m || s.unitBit F.RST_UNIT_UCIE (m / 2) (m % 2)) = false := by
    simp only [hout, hreset, Bool.not_true, Bool.or_false]
  exact ⟨_, if_neg (by rw [hgoes]; exact Bool.false_ne_true)⟩

theorem State.back_events (slow : Bool) (n : Nat) : (s.back m slow).rd F.INT_SRC_CTL_OWNER n = s.rd F.INT_SRC_CTL_OWNER n ∧
    ∀ d, (s.back m slow).on F.INT_ISL_STOPPED d = s.on F.INT_ISL_STOPPED d := by
  unfold State.back
  extract_lets rcv u v
  refine ⟨?_, fun d => ?_⟩
  · rw [State.rd_wr_apart _ _ _ _ _ _ (by decide) (.inl (by decide)), State.rd_wr_apart _ _ _ _ _ _ (by decide) (.inl (by decide)),
      State.rd_wr_apart _ _ _ _ _ _ (by decide) (.inl (by decide)), State.clearDead,
      State.rd_wr_apart _ _ _ _ _ _ (by decide) (.inl (by decide))]
    rfl
  · rw [State.on_wr_apart _ _ _ _ _ _ (by decide) (.inl (by decide)), State.on_wr_apart _ _ _ _ _ _ (by decide) (.inl (by decide)),
      State.on_wr_apart _ _ _ _ _ _ (by decide) (.inl (by decide)), State.clearDead,
      State.on_wr_apart _ _ _ _ _ _ (by decide) (.inl (by decide))]
    rfl

end

section
variable {s : State} {m : Nat} (hm : m < 8)
include hm

/-- A module that goes down, with the record of it. -/
theorem State.ucieDown_eq (hup : s.rcv.ucie.contains m = false) : ∃ r, s.ucieDown m = (((s.ucieOut m 7).logWrite r).bump).ucieLost m := by
  have hgoes : (decide (8 ≤ m) || s.rcv.ucie.contains m) = false := by simp only [hup, Nat.not_le.mpr hm, decide_false, Bool.or_false]
  exact ⟨_, if_neg (by rw [hgoes]; exact Bool.false_ne_true)⟩

theorem State.runs_ucieDown (hup : s.rcv.ucie.contains m = false) (hother : s.rcv.ucie.contains (m / 2 * 2 + (1 - m % 2)) = false) :
    Runs (.ucieDown m) s (fun t => t.rd F.UCIE_STAT_STATE m = 7 ∧ t.rcv.ucie.contains m = true ∧ t.isDead (64 + m) = true ∧
      t.held = s.held.filter (fun a => a.mod != m) ∧ s.Fires t (0x0AC + m) ∧ t.rst = s.rst ∧ t.thr = s.thr) := by
  obtain ⟨r, heq⟩ := State.ucieDown_eq hm hup
  have hout := s.ucieOut_out hm (show 7 < 16 by decide)
  set u := s.ucieOut m 7
  have hkept := (u.logKeeps_logWrite r).trans (State.logKeeps_bump _)
  have hbumped : (u.logWrite r).bump.regs = (u.logWrite r).regs := State.bump_regs _
  have hregs := (u.regsBut_logWrite r).keep hbumped
  have hresp := (u.responds_logWrite r).stands (u := (u.logWrite r).bump) ⟨rfl, rfl, rfl, rfl⟩
  have hstays : ((u.logWrite r).bump).ucieLost m = (u.logWrite r).bump := by
    rw [State.ucieLost, hkept.rcv, hout.other, hother, if_neg Bool.false_ne_true]
  rw [hstays] at heq
  refine ⟨_, congrArg Host.Outcome.next heq, ?_, ?_, ?_, hkept.held.trans hout.held, hresp.fires hout.fires,
    hkept.rst.trans hout.rst, hkept.thr.trans hout.thr⟩
  · rw [hregs.rd _ (by decide), hout.state]
  · rw [hkept.rcv, hout.ucie]
    simp
  · rw [State.isDead, hregs.rd _ (by decide), ← State.isDead, hout.dead]

theorem State.runs_ucieLost (hup : s.rcv.ucie.contains m = false) (hother : s.rcv.ucie.contains (m / 2 * 2 + (1 - m % 2)) = true) :
    Runs (.ucieDown m) s (fun t => t.rst.asserted = true ∧ t.rst.fault = true ∧ t.on F.RST_CAUSE_WARDEN = true ∧
      t.on F.RST_CAUSE_READY = false) := by
  obtain ⟨r, heq⟩ := State.ucieDown_eq hm hup
  have hout := s.ucieOut_out hm (show 7 < 16 by decide)
  set u := s.ucieOut m 7
  have hkept := (u.logKeeps_logWrite r).trans (State.logKeeps_bump _)
  set v := (u.logWrite r).bump
  have hlost : ∃ w : State, v.ucieLost m = w.faulted.moduleReset .warden := by
    rw [State.ucieLost, hkept.rcv, hout.other, hother, if_pos rfl]
    exact ⟨_, rfl⟩
  obtain ⟨w, hw⟩ := hlost
  rw [hw] at heq
  obtain ⟨hasserted, hfault⟩ := w.faulted_moduleReset (c := .warden) (by decide)
  obtain ⟨hwarden, hready⟩ := w.faulted.warden_moduleReset
  exact ⟨_, congrArg Host.Outcome.next heq, hasserted, hfault, hwarden, hready⟩

theorem State.back_rd (slow : Bool) : (s.back m slow).rd F.UCIE_STAT_STATE m = 5 ∧ (s.back m slow).rd F.UCIE_STAT_SLOW m = b2n slow ∧
    (s.back m slow).isDead (64 + m) = false ∧ bitsOf ((s.back m slow).rd F.EQ_CTL_UCIE) m 1 = 0 := by
  unfold State.back
  extract_lets rcv u v
  refine ⟨?_, ?_, ?_, ?_⟩
  · rw [State.rd_wr_apart _ _ _ _ _ _ (by decide) (by decide), State.rd_wr_self _ _ _ _ _ (by decide)]
    rfl
  · rw [State.rd_wr_self _ _ _ _ _ (by decide)]
    exact b2n_mod_two slow
  · rw [State.isDead, State.rd_wr_apart _ _ _ _ _ _ (by decide) (.inl (by decide)),
      State.rd_wr_apart _ _ _ _ _ _ (by decide) (.inl (by decide)), State.rd_wr_apart _ _ _ _ _ _ (by decide) (.inl (by decide)),
      ← State.isDead, State.isDead_clearDead]
  · rw [State.rd_wr_apart _ _ _ _ _ _ (by decide) (.inl (by decide)), State.rd_wr_apart _ _ _ _ _ _ (by decide) (.inl (by decide)),
      State.rd_wr_self _ _ _ _ _ (by decide)]
    exact bitsOf_clear (w := 8) _ hm

theorem State.runs_ucieBack (hout : s.rcv.ucie.contains m = true) (hreset : s.unitBit F.RST_UNIT_UCIE (m / 2) (m % 2) = false) (slow : Bool) :
    Runs (.ucieLinkTrained m slow) s (fun t => t.rd F.UCIE_STAT_STATE m = 5 ∧ t.rd F.UCIE_STAT_SLOW m = b2n slow ∧
      t.rcv.ucie.contains m = false ∧ t.isDead (64 + m) = false ∧ bitsOf (t.rd F.EQ_CTL_UCIE) m 1 = 0 ∧ s.Fires t (0x0AC + m) ∧ t.thr = s.thr) := by
  have hsrc : ∀ m < 8, srcCtx (0x0AC + m) = none := by decide
  obtain ⟨r, heq⟩ := State.ucieBack_eq hout hreset slow
  obtain ⟨hstate, hslow, hdead, heqctl⟩ := State.back_rd (s := s) hm slow
  obtain ⟨howner, hstop⟩ := State.back_events (s := s) (m := m) slow (0x0AC + m)
  have hrst : (s.back m slow).rst = s.rst ∧ (s.back m slow).thr = s.thr ∧
      (s.back m slow).rcv.ucie = s.rcv.ucie.filter (fun x => x != m) := ⟨rfl, rfl, rfl⟩
  set u := s.back m slow
  obtain ⟨hrst, hthr, hucie⟩ := hrst
  set v := u.raise (0x0AC + m)
  have hfires : s.Fires v (0x0AC + m) := State.fires_raise_of (hsrc m hm) howner (hstop _) hrst
  have hkept := ((u.logKeeps_raise (0x0AC + m)).trans (v.logKeeps_logWrite r)).trans (State.logKeeps_bump _)
  have hbumped : (v.logWrite r).bump.regs = (v.logWrite r).regs := State.bump_regs _
  have hresp := (v.responds_logWrite r).stands (u := (v.logWrite r).bump) ⟨rfl, rfl, rfl, rfl⟩
  have hraised : u.RegsBut logRegs v := (State.RegsBut.refl _ u).raise _ (by decide) (by decide)
  have hregs : u.RegsBut logRegs (v.logWrite r).bump := hraised.trans ((v.regsBut_logWrite r).keep hbumped)
  refine ⟨_, congrArg Host.Outcome.next heq, ?_, ?_, ?_, ?_, ?_, hresp.fires hfires, hkept.thr.trans hthr⟩
  · rw [hregs.rd _ (by decide), hstate]
  · rw [hregs.rd _ (by decide), hslow]
  · rw [hkept.rcv, hucie]
    simp
  · rw [State.isDead, hregs.rd _ (by decide), ← State.isDead, hdead]
  · rw [hregs.rd _ (by decide), heqctl]

end

end Sys2Proof.Machine
end

section
/-! SUPPORT. The self-test of a core and its record (17_fault_tolerance.md R345, R355), and the obligation O53. -/

namespace Sys2Proof.Machine

open Sys2Proof

/-! ### The self-test of a core (R345) -/

/-- The registers that a core which is back finds at their reset values. -/
def coreCleared : List Reg := [.TAL_CNT, .TAL_CYC, .LS_SPLIT]

theorem State.regsBut_coreBack (s : State) (core : Nat) : s.RegsBut coreCleared (s.coreBack core) := by
  unfold State.coreBack
  extract_lets cleared
  have hcleared : s.RegsBut coreCleared cleared := (s.regsBut_regsReset _ _).mono (by decide)
  refine hcleared.trans (fun r hr i j => ?_)
  have hkeep (v : W64) : (!((⟨r, i, j⟩ : RegKey).reg == .LS_SPLIT && (⟨r, i, j⟩ : RegKey).i == core / 8 && (⟨r, i, j⟩ : RegKey).j == core % 8)) = true := by
    have hne : (r == Reg.LS_SPLIT) = false := beq_eq_false_iff_ne.mpr (fun e => hr (by rw [e]; decide))
    simp [hne]
  clear_value cleared
  exact congrArg (fun o => o.getD r.desc.reset)
    (aget_filter_of_keeps (p := fun e => !(e.1.reg == .LS_SPLIT && e.1.i == core / 8 && e.1.j == core % 8)) hkeep cleared.regs)

/-- A core that is back has no register, and every other core's stay. -/
theorem State.coreBack_rf (s : State) (core : Nat) (k : RfKey) :
    aget (s.coreBack core).thr.rf k = if k.core = core then none else aget s.thr.rf k := by
  show aget (s.thr.rf.filter (fun e => e.1.core != core)) k = _
  split
  · next h => exact aget_filter_of_drops (p := fun e : RfKey × W32 => e.1.core != core) (fun _ => by simp [h]) _
  · next h => exact aget_filter_of_keeps (p := fun e : RfKey × W32 => e.1.core != core) (fun _ => by simp [h]) _

section
variable {s : State} {core : Nat} (hin : s.rcv.cores.contains core = true)
  (hunit : s.unitBit F.RST_CORE_CORE (core / 64) (core % 64) = false)
include hin hunit

/-- A test of a core that ends closes its record; where it fails, its cluster is quarantined. -/
theorem State.coreTested_eq {u : State} (hu : (s.coreBack core).closeRec 1 core = u) (hregs : s.RegsBut (coreCleared ++ logRegs) u) (pass : Bool) :
    s.coreTested core pass = if pass then u.capFrom s else (u.capFrom s).quarantine (core / 8) fClTest := by
  have hover : u.coreUnitOver core = u := by
    have hbit : u.unitBit F.RST_CORE_CORE (coreWord core).1 (coreWord core).2 = false := by
      rw [State.unitBit, hregs.rd _ (by decide)]
      exact hunit
    rw [State.coreUnitOver, hbit, if_neg Bool.false_ne_true]
  unfold State.coreTested
  rw [hin]
  simp only [Bool.not_true, Bool.false_eq_true, if_false, hu, hover]

/-- While the log is off, the record is dropped. -/
theorem State.coreTested_off (hoff : s.on F.REC_LOG_BASE_EN = false) (pass : Bool) : ∃ l, s.coreTested core pass =
    if pass then ((s.coreBack core).setLogs l).capFrom s else (((s.coreBack core).setLogs l).capFrom s).quarantine (core / 8) fClTest := by
  have hback := s.regsBut_coreBack core
  have hlog : (s.coreBack core).on F.REC_LOG_BASE_EN = false := (hback.on _ (by decide) 0 0).trans hoff
  refine ⟨_, State.coreTested_eq hin hunit (State.closeRec_off hlog 1 core) ?_ pass⟩
  exact (hback.mono (by decide)).keep rfl

theorem State.runs_coreBack (hoff : s.on F.REC_LOG_BASE_EN = false) : Runs (.coreSelftestDone core true) s (fun t =>
    t.rcv.cores = s.rcv.cores.filter (fun k => k != core) ∧ (∀ k : RfKey, k.core = core → aget t.thr.rf k = none) ∧
    (∀ k : RfKey, k.core ≠ core → aget t.thr.rf k = aget s.thr.rf k) ∧
    (∀ f i j, f.reg ≠ .CAP → f.reg ≠ .LS_SPLIT → f.reg ≠ .TAL_CNT → f.reg ≠ .TAL_CYC → t.rd f i j = s.rd f i j) ∧ SameMemory s t) := by
  obtain ⟨l, heq⟩ := State.coreTested_off hin hunit hoff true
  rw [if_pos rfl] at heq
  have hregs := (s.regsBut_coreBack core).keep (u := (s.coreBack core).setLogs l) rfl
  have hsame : SameMemory s ((s.coreBack core).setLogs l) := ⟨rfl, rfl, rfl⟩
  have hcores : ((s.coreBack core).setLogs l).rcv.cores = s.rcv.cores.filter (fun k => k != core) := rfl
  have hrf : ((s.coreBack core).setLogs l).thr.rf = (s.coreBack core).thr.rf := rfl
  have hrfs := s.coreBack_rf core
  set u := (s.coreBack core).setLogs l
  have hcap := u.sameWork_capFrom s
  obtain ⟨-, -, -, -, -, -, -, hthr, -⟩ := hcap
  refine ⟨_, congrArg Host.Outcome.next heq, ?_, fun k hk => ?_, fun k hk => ?_, fun f i j hc hl ht hy => ?_,
    hsame.trans (u.sameWork_capFrom s).sameMemory⟩
  · rw [State.capFrom_rcv, hcores]
  · rw [hthr, hrf, hrfs, if_pos hk]
  · rw [hthr, hrf, hrfs, if_neg hk]
  · rw [u.rd_capFrom s f i j hc, hregs.rd f (by simp [coreCleared, hl, ht, hy])]

theorem State.runs_coreFails (hcore : core < 512) (hq : s.on F.REC_CNT_QUAR (core / 8) = false) (hoff : s.on F.REC_LOG_BASE_EN = false) :
    Runs (.coreSelftestDone core false) s (fun t => t.on F.REC_CNT_QUAR (core / 8) = true ∧ ∀ e ∈ t.thr.blocks, e.2.core / 8 ≠ core / 8) := by
  obtain ⟨l, heq⟩ := State.coreTested_off hin hunit hoff false
  rw [if_neg Bool.false_ne_true] at heq
  have hregs := (s.regsBut_coreBack core).keep (u := (s.coreBack core).setLogs l) rfl
  set u := (s.coreBack core).setLogs l
  have hquar : (u.capFrom s).on F.REC_CNT_QUAR (core / 8) = false := by
    rw [State.on, u.rd_capFrom s _ _ _ (by decide), ← State.on, hregs.on _ (by decide), hq]
  obtain ⟨opened, listed, h⟩ := State.quarantine_steps fClTest (show core / 8 < 64 by omega) hquar
  exact ⟨_, congrArg Host.Outcome.next heq, h.quar, h.noBlocks⟩

end

/-! ### A record of the log (R355) -/

theorem Rec.bytes_length (r : Rec) : r.bytes.length = 32 := by
  simp [Rec.bytes, leBytes]

/-- Where the log at HEAD writes its next record. -/
def State.logAt (s : State) : Nat := s.rd F.REC_LOG_BASE_BASE * 2 ^ 14 + 32 * (s.rd F.REC_LOG_PTR_HEAD % 512)

section
variable {s : State} (hon : s.on F.REC_LOG_BASE_EN = true)
  (hroom : (s.rd F.REC_LOG_PTR_HEAD + 1024 - s.rd F.REC_LOG_PTR_TAIL) % 1024 ≠ 512)
include hon hroom

theorem State.logWrite_on (r : Rec) : s.logWrite r =
    (((s.wrBytes devKey s.logAt r.bytes).wr F.REC_LOG_PTR_HEAD (s.rd F.REC_LOG_PTR_HEAD + 1)).raise 0x400).trigLog := by
  have hfull : ((s.rd F.REC_LOG_PTR_HEAD + 1024 - s.rd F.REC_LOG_PTR_TAIL) % 1024 == 512) = false := beq_eq_false_iff_ne.mpr hroom
  simp only [State.logWrite, hon, Bool.not_true, Bool.false_eq_true, if_false, hfull]
  rfl

/-- A record whose line is not poisoned is written at HEAD, which advances, and REC_LOG is raised. -/
theorem State.logWrite_writes (r : Rec) (hclean : s.linePoison (s.logAt / 128) = .none) :
    (s.logWrite r).rdBytes devKey s.logAt 32 = r.bytes ∧ (s.logWrite r).rd F.REC_LOG_PTR_HEAD = (s.rd F.REC_LOG_PTR_HEAD + 1) % 1024 ∧
      s.Fires (s.logWrite r) 0x400 ∧ ∀ k p, p / 128 ≠ s.logAt / 128 → (s.logWrite r).rdByte k p = s.rdByte k p := by
  have hoff : s.logAt % 128 + 32 ≤ 128 := by
    have hat : s.logAt = s.rd F.REC_LOG_BASE_BASE * 2 ^ 14 + 32 * (s.rd F.REC_LOG_PTR_HEAD % 512) := rfl
    omega
  have haddr : 128 * (s.logAt / 128) + s.logAt % 128 = s.logAt := Nat.div_add_mod _ _
  have htrip : s.tripped (s.logAt / 128) = false := by
    by_contra h
    rw [Bool.not_eq_false] at h
    simp [State.linePoison, h] at hclean
  have hlen := r.bytes_length
  have hwithin := s.wrBytes_within devKey (s.logAt / 128) (off := s.logAt % 128) (bs := r.bytes)
    (fun e => by rw [e] at hlen; cases hlen) (by rw [hlen]; exact hoff)
  rw [haddr] at hwithin
  have hwritten : s.LineWritten (s.wrBytes devKey s.logAt r.bytes) devKey (s.logAt / 128) (bytesFrom (s.logAt % 128) r.bytes) := by
    rw [hwithin]
    exact State.wrLine_written devKey htrip (.inr hclean) (by rw [hlen]; exact hoff)
  have hbytes := hwritten.rdBytes (off := s.logAt % 128) (by rw [hlen]; exact hoff) (fun i hi => bytesFrom_add hi)
  rw [haddr, hlen] at hbytes
  rw [State.logWrite_on hon hroom]
  set w := s.wrBytes devKey s.logAt r.bytes
  set y := w.wr F.REC_LOG_PTR_HEAD (s.rd F.REC_LOG_PTR_HEAD + 1) with hy
  have htrig : (y.raise 0x400).RegsBut abortRegs (y.raise 0x400).trigLog := (State.RegsBut.refl _ _).foldl _ State.regsBut_ledFire _
  have hwork : w.SameWork (y.raise 0x400).trigLog :=
    ((w.sameWork_wr _ _ _ _).trans (y.sameWork_raise _)).trans (State.SameWork.foldl _ State.sameWork_ledFire _ _)
  have hread (k p : Nat) : (y.raise 0x400).trigLog.rdByte k p = w.rdByte k p := State.rdByte_congr hwork.sameMemory hwork.stk k p
  refine ⟨?_, ?_, ?_, fun k p hp => ?_⟩
  · rw [← hbytes]
    simp only [State.rdBytes, hread]
  · rw [htrig.rd _ (by decide), State.rd_raise _ _ _ _ _ (by decide) (by decide), hy, State.rd_wr_self _ _ _ _ _ (by decide)]
    rfl
  · refine (State.responds_trigLog _).fires (State.fires_raise_of (by decide) ?_ ?_ ?_)
    · rw [hy, State.rd_wr_apart _ _ _ _ _ _ (by decide) (.inl (by decide)), State.rd_of_regs hwritten.regs]
    · rw [hy, State.on_wr_apart _ _ _ _ _ _ (by decide) (.inl (by decide)), State.on_of_regs hwritten.regs]
    · rw [hy]
      exact (congrArg State.rst hwritten.frame :)
  · rw [hread, hwritten.rdByte_ne k hp]

end

/-- A core that is back while the log has room: its record is written. -/
theorem State.runs_coreRecord {s : State} {core : Nat} {r : Rec} (hin : s.rcv.cores.contains core = true)
    (hunit : s.unitBit F.RST_CORE_CORE (core / 64) (core % 64) = false) (hon : s.on F.REC_LOG_BASE_EN = true)
    (hrec : s.rcv.logs.find? (fun r => r.action == 1 && r.unit == core) = some r)
    (hroom : (s.rd F.REC_LOG_PTR_HEAD + 1024 - s.rd F.REC_LOG_PTR_TAIL) % 1024 ≠ 512) (hclean : s.linePoison (s.logAt / 128) = .none) :
    Runs (.coreSelftestDone core true) s (fun t => t.rdBytes devKey s.logAt 32 = r.bytes ∧
      t.rd F.REC_LOG_PTR_HEAD = (s.rd F.REC_LOG_PTR_HEAD + 1) % 1024 ∧ t.rcv.logs = s.rcv.logs.erase r ∧ s.Fires t 0x400 ∧
      ∀ k p, p / 128 ≠ s.logAt / 128 → t.rdByte k p = s.rdByte k p) := by
  have hregs := (s.regsBut_coreBack core).keep (u := (s.coreBack core).setLogs (s.rcv.logs.erase r)) rfl
  have hsame : SameMemory s ((s.coreBack core).setLogs (s.rcv.logs.erase r)) := ⟨rfl, rfl, rfl⟩
  have hstk : ((s.coreBack core).setLogs (s.rcv.logs.erase r)).stk = s.stk := rfl
  have hrst : ((s.coreBack core).setLogs (s.rcv.logs.erase r)).rst = s.rst := rfl
  have hlogs : ((s.coreBack core).setLogs (s.rcv.logs.erase r)).rcv.logs = s.rcv.logs.erase r := rfl
  have hclosed : (s.coreBack core).closeRec 1 core = ((s.coreBack core).setLogs (s.rcv.logs.erase r)).logWrite r := by
    have hfound : (s.coreBack core).rcv.logs.find? (fun r => r.action == 1 && r.unit == core) = some r := hrec
    rw [State.closeRec, hfound]
    rfl
  set u := (s.coreBack core).setLogs (s.rcv.logs.erase r)
  have hhead : u.rd F.REC_LOG_PTR_HEAD = s.rd F.REC_LOG_PTR_HEAD := hregs.rd _ (by decide) 0 0
  have htail : u.rd F.REC_LOG_PTR_TAIL = s.rd F.REC_LOG_PTR_TAIL := hregs.rd _ (by decide) 0 0
  have hat : u.logAt = s.logAt := by rw [State.logAt, State.logAt, hhead, hregs.rd _ (by decide)]
  have hkind : u.linePoison (u.logAt / 128) = .none := by
    rw [hat, State.linePoison_congr (hregs.on _ (by decide) _ _) (by rw [hsame.2.1]), hclean]
  obtain ⟨hbytes, hnext, hfires, hothers⟩ := State.logWrite_writes (s := u) ((hregs.on _ (by decide) 0 0).trans hon)
    (by rw [hhead, htail]; exact hroom) r hkind
  have hlogged := (hregs.mono (l' := coreCleared ++ logRegs) (by decide)).trans ((u.regsBut_logWrite r).mono (by decide))
  have heq := State.coreTested_eq hin hunit hclosed hlogged true
  rw [if_pos rfl] at heq
  have hkeeps := u.logKeeps_logWrite r
  set v := u.logWrite r
  have hcap := v.sameWork_capFrom s
  have hread (k p : Nat) : (v.capFrom s).rdByte k p = v.rdByte k p := State.rdByte_congr hcap.sameMemory hcap.stk k p
  refine ⟨_, congrArg Host.Outcome.next heq, ?_, ?_, ?_, fun hm hs => ?_, fun k p hp => ?_⟩
  · rw [← hbytes, hat]
    simp only [State.rdBytes, hread]
  · rw [v.rd_capFrom s _ _ _ (by decide), hnext, hhead]
  · rw [State.capFrom_rcv, hkeeps.rcv, hlogs]
  · refine (v.responds_capFrom s).pend _ (hfires ?_ ((hregs.on _ (by decide) _ 0).trans hs))
    rw [← hm]
    simp only [State.srcMuted, hrst, hregs.rd F.INT_SRC_CTL_OWNER (by decide), show srcCtx 0x400 = none from rfl]
  · rw [hread, hothers k p (by rw [hat]; exact hp)]
    exact State.rdByte_congr hsame hstk k p

/-- Settles O53, clause by clause: what each response writes, and that what it fires stays pending to its end. -/
theorem faultResponses : Obligations.FaultResponses := by
  unfold Obligations.FaultResponses
  refine ⟨fun s core hin hunit => ⟨fun hoff => State.runs_coreBack hin hunit hoff, ?_, fun hcore hq hoff =>
      State.runs_coreFails hin hunit hcore hq hoff⟩, fun s cl hcl => ⟨fun hq => ?_, fun hq => State.runs_heartbeat hcl hq,
      fun hwb hflush => State.runs_wbTimeout hwb hflush, fun hover => ?_, fun hlist hset hasleep => ?_,
      fun hlist hset hawake hoff => State.runs_repartition hlist hset hawake hoff, fun hlist hset => ?_, fun htest hoff => ⟨?_, ?_, ?_, ?_⟩,
      fun hzero => ?_, fun hcount => ?_⟩, fun s k hk => s.runs_clerkWdt hk,
    fun s m hm => ⟨fun hout => ?_, fun hup hother => State.runs_ucieDown hm hup hother, fun hup hother => State.runs_ucieLost hm hup hother,
      fun hout hreset slow => State.runs_ucieBack hm hout hreset slow⟩,
    fun s pair hoff => ⟨State.runs_d2dDown hoff pair, State.runs_pkgWdt hoff⟩⟩
  · rintro r h a hon hrec rfl hroom rfl hclean
    exact State.runs_coreRecord hin hunit hon hrec hroom hclean
  · exact congrArg Host.Outcome.next (if_pos (by rw [hq, Bool.or_true]))
  · refine congrArg Host.Outcome.next (if_pos ?_)
    rcases hover with hnone | hover
    · rw [hnone, Bool.not_false, Bool.true_or]
    · rw [hover, Bool.not_false, Bool.or_true]
  · exact congrArg Host.Outcome.next (State.repartition_asleep hlist hset hasleep)
  · exact congrArg Host.Outcome.next (State.repartition_unsettled hlist hset)
  · exact fun hq => State.runs_clusterBoot htest hq
  · exact fun hq => State.runs_clusterReturns htest hq hoff
  · exact fun hq => State.runs_clusterFails htest hcl hq
  · exact fun hq => State.runs_clusterQuarFails htest hq hoff
  · exact congrArg Host.Outcome.next (if_pos (by rw [hzero]; rfl))
  · exact congrArg Host.Outcome.next (if_neg (by simpa using hcount))
  · exact congrArg Host.Outcome.next (if_pos (by rw [hout, Bool.or_true]))

end Sys2Proof.Machine
end

section
/-! SUPPORT. Invalidations of cached translations (11_translation.md R237, R240-R243): what one removes as it enters the queue, and what
its completion reports. -/

namespace Sys2Proof.Machine

open Sys2Proof

/-! ### An invalidation enters the queue (R240, R241) -/

theorem State.rd_invCount (s : State) (f : Fld) (hf : f.reg ≠ .XLT_INV_STAT) (i j : Nat) : s.invCount.rd f i j = s.rd f i j :=
  s.rd_wr_apart _ _ _ _ _ (by decide) (.inl hf.symm)

theorem State.rd_pushInv (s : State) (o : InvOp) (f : Fld) (hf : f.reg ≠ .XLT_INV_STAT) (i j : Nat) :
    (s.pushInv o).rd f i j = s.rd f i j := State.rd_invCount _ f hf i j

theorem State.pushInv_same (s : State) (o : InvOp) : SameMemory s (s.pushInv o) := ⟨rfl, rfl, rfl⟩

/-- The cached translations that stay are those of another context or outside the range. -/
theorem State.mem_tlbs_pushInv (s : State) (o : InvOp) (x : Tlb) : x ∈ (s.pushInv o).xlt.tlbs ↔
    x ∈ s.xlt.tlbs ∧ ¬ (x.ctx ∈ o.ctxs ∧ x.vpn * 4096 < o.hi ∧ o.lo < (x.vpn + x.pages) * 4096) := by
  simp only [State.pushInv, State.invCount, State.wr_xlt, List.mem_filter, Bool.not_eq_true', ← Bool.not_eq_true, Bool.and_eq_true,
    decide_eq_true_eq, List.contains_iff_mem, and_assoc]

/-- A walk of a context that the invalidation names is stale. -/
theorem State.stale_pushInv {s : State} {o : InvOp} {w : Walk} (hw : w ∈ (s.pushInv o).xlt.walks) (hc : w.ctx ∈ o.ctxs) :
    w.stale = true := by
  simp only [State.pushInv, State.invCount, State.wr_xlt, List.mem_map] at hw
  obtain ⟨v, -, rfl⟩ := hw
  split at hc <;> simp_all

/-- The queue of invalidations after one has entered it. -/
theorem State.pushInv_invs (s : State) (o : InvOp) :
    (s.pushInv o).xlt.invs = s.xlt.invs ++ [{ o with flight := s.flights o.ctxs ++ s.strays o.ctxs }] := rfl

/-! ### The driver's invalidations (R240, R243) -/

section
variable {s : State} (hpending : (s.xlt.invs.filter (fun o => o.host.isNone)).length < 48) (hfree : s.xlt.invs.length < 64)
include hpending hfree

theorem State.driverInv_taken (cs : List Nat) (lo hi : Nat) (irq : Bool) :
    s.driverInv cs lo hi irq = (s.inc F.XLT_INV_SEQ_ISSUED).pushInv ⟨none, cs, lo, hi, irq, []⟩ :=
  if_neg (by simp [hpending, hfree])

/-- What a driver's invalidation that is taken does at once. -/
theorem State.driverInv_removes (cs : List Nat) (lo hi : Nat) (irq : Bool) :
    let t := s.driverInv cs lo hi irq
    t.rd F.XLT_INV_SEQ_ISSUED = (s.rd F.XLT_INV_SEQ_ISSUED + 1) % 2 ^ 32 ∧ t.rd F.XLT_INV_SEQ_DONE = s.rd F.XLT_INV_SEQ_DONE ∧
      (∃ o, t.xlt.invs = s.xlt.invs ++ [o] ∧ o.host = none ∧ o.ctxs = cs ∧ o.lo = lo ∧ o.hi = hi ∧ o.irq = irq) ∧
      (∀ x, x ∈ t.xlt.tlbs ↔ x ∈ s.xlt.tlbs ∧ ¬ (x.ctx ∈ cs ∧ x.vpn * 4096 < hi ∧ lo < (x.vpn + x.pages) * 4096)) ∧
      (∀ w ∈ t.xlt.walks, w.ctx ∈ cs → w.stale = true) ∧ SameMemory s t ∧ t.thr = s.thr := by
  intro t
  have ht : t = (s.inc F.XLT_INV_SEQ_ISSUED).pushInv ⟨none, cs, lo, hi, irq, []⟩ := State.driverInv_taken hpending hfree cs lo hi irq
  rw [ht]
  refine ⟨?_, ?_, ⟨_, State.pushInv_invs _ _, rfl, rfl, rfl, rfl, rfl⟩, fun x => State.mem_tlbs_pushInv _ _ x,
    fun w hw hc => State.stale_pushInv hw hc, State.pushInv_same _ _, rfl⟩
  · rw [State.rd_pushInv _ _ _ (by decide)]
    exact State.rd_wr_self _ _ _ _ _ (by decide)
  · rw [State.rd_pushInv _ _ _ (by decide)]
    exact State.rd_wr_apart _ _ _ _ _ _ (by decide) (by decide)

end

/-- A driver's invalidation that finds no room only sets DROP. -/
theorem State.driverInv_dropped {s : State}
    (hfull : 48 ≤ (s.xlt.invs.filter (fun o => o.host.isNone)).length ∨ 64 ≤ s.xlt.invs.length) (cs : List Nat) (lo hi : Nat) (irq : Bool) :
    s.driverInv cs lo hi irq = s.wr F.XLT_INV_STAT_DROP 1 :=
  if_pos (by simpa using hfull)

theorem State.invRange_bad {s : State} {size count : Nat} (hbad : 3 ≤ size ∨ count = 0) (c : Nat) (irq : Bool) :
    s.invRange c size count irq = s.wr F.XLT_INV_STAT_DROP 1 :=
  if_pos (by simpa using hbad)

theorem State.invRange_good {s : State} {size count : Nat} (hsize : size < 3) (hcount : 0 < count) (c : Nat) (irq : Bool) :
    s.invRange c size count irq =
      s.driverInv [c] (s.rd F.XLT_INV_ADDR_VA * 4096) (s.rd F.XLT_INV_ADDR_VA * 4096 + count * levelSize size) irq :=
  if_neg (by simp; omega)

/-! ### The HTU's invalidations (R237) -/

/-- The contexts of a PASID. -/
def State.pasidCtxs (s : State) (pasid : Nat) : List Nat := (List.range 64).filter (fun c => s.rd F.XLT_PASID_PASID c == pasid)

/-- The HTU's invalidation as it enters the queue. -/
def State.htuOp (s : State) (pasid va pages tag : Nat) : InvOp :=
  ⟨some tag, s.pasidCtxs pasid, va / 4096 * 4096, (va / 4096 + pages) * 4096, false, []⟩

theorem State.htuInv_taken {s : State} (hfree : s.xlt.invs.length < 64) (pasid va pages tag : Nat) :
    s.htuInv pasid va pages tag = s.pushInv (s.htuOp pasid va pages tag) := if_pos hfree

theorem State.htuInv_held {s : State} (hfull : 64 ≤ s.xlt.invs.length) (pasid va pages tag : Nat) : s.htuInv pasid va pages tag =
    { s with xlt := { s.xlt with htuHeld := s.xlt.htuHeld ++ [s.htuOp pasid va pages tag] } } := if_neg (by omega)

/-! ### The oldest invalidation is complete (R241) -/

/-- The queue without its oldest invalidation. -/
def State.invsLeft (s : State) (r : List InvOp) : State := ({ s with xlt := { s.xlt with invs := r } }).invCount

/-- A driver's invalidation is reported: DONE counts it, and the source is raised where it asks for it. -/
def State.invReported (s : State) (irq : Bool) : State :=
  if irq then (s.inc F.XLT_INV_SEQ_DONE).raise 0x002 else s.inc F.XLT_INV_SEQ_DONE

theorem State.invComplete_alone {s : State} {o : InvOp} {r : List InvOp} (hinvs : s.xlt.invs = o :: r)
    (hwalks : s.xlt.walks.any (fun w => w.stale && o.ctxs.contains w.ctx) = false)
    (hflight : ∀ n ∈ s.flights o.ctxs ++ s.strays o.ctxs, n ∉ o.flight) (hheld : s.xlt.htuHeld = []) :
    s.invComplete = match o.host with
      | some tag => (s.invsLeft r).send (.htuInvDone tag)
      | none => (s.invsLeft r).invReported o.irq := by
  have hover : (s.flights o.ctxs ++ s.strays o.ctxs).any (fun n => o.flight.contains n) = false :=
    List.any_eq_false.mpr (fun n hn => by simpa using hflight n hn)
  unfold State.invComplete
  rw [hinvs]
  simp only [hwalks, hover, Bool.or_self, Bool.false_eq_true, if_false]
  cases o.host with
  | some tag =>
    have hnone : ((s.invsLeft r).send (.htuInvDone tag)).xlt.htuHeld = [] := hheld
    simp only [State.invsLeft] at hnone ⊢
    rw [hnone]
  | none =>
    have hnone : ((s.invsLeft r).invReported o.irq).xlt.htuHeld = [] := by
      unfold State.invReported
      split
      · rw [State.raise_xlt]; exact hheld
      · exact hheld
    simp only [State.invsLeft, State.invReported] at hnone ⊢
    rw [hnone]

theorem State.rd_invsLeft (s : State) (r : List InvOp) (f : Fld) (hf : f.reg ≠ .XLT_INV_STAT) (i j : Nat) :
    (s.invsLeft r).rd f i j = s.rd f i j := State.rd_invCount _ f hf i j

section
variable (s : State) (irq : Bool)

theorem State.invReported_xlt : (s.invReported irq).xlt = s.xlt := by
  unfold State.invReported; split <;> simp

theorem State.invReported_same : SameMemory s (s.invReported irq) := by
  unfold State.invReported
  split
  · exact State.raise_same (s.inc F.XLT_INV_SEQ_DONE) _
  · exact ⟨rfl, rfl, rfl⟩

theorem State.rd_invReported (f : Fld) (hf : f.reg = .XLT_INV_SEQ) :
    (s.invReported irq).rd f = (s.inc F.XLT_INV_SEQ_DONE).rd f := by
  unfold State.invReported
  split
  · exact State.rd_raise _ _ _ _ _ (by simp [hf]) (by simp [hf])
  · rfl

/-- The driver's source is pending where the invalidation asks for it. -/
theorem State.fires_invReported : s.Fires (s.invReported true) 0x002 :=
  State.fires_raise_of (t := s.inc F.XLT_INV_SEQ_DONE) (by decide) (s.rd_wr_apart _ _ _ _ _ (by decide) (by decide))
    (s.on_wr_apart _ _ _ _ _ (by decide) (by decide)) rfl

end

/-- Settles O40, clause by clause: what a driver's invalidation that is taken removes, what stops one, the HTU's, and the completion. -/
theorem invalidations : Obligations.Invalidations := by
  unfold Obligations.Invalidations
  refine ⟨fun s c size count lo hi cs irq i hpending hfree hi => ?taken, fun s c size count irq i hbad => ?dropped,
    fun s pasid va pages tag cs hcs => ⟨fun hfree => ?htu, fun hfull => ?held⟩, fun s o r hinvs hwalks hflight hheld => ?complete⟩
  case taken =>
    rcases hi with ⟨rfl, hsize, hcount, rfl, rfl, rfl⟩ | ⟨rfl, rfl, rfl, rfl⟩ | ⟨rfl, rfl, rfl, rfl⟩
    · exact ⟨_, congrArg Host.Outcome.next (State.invRange_good hsize hcount c irq), State.driverInv_removes hpending hfree _ _ _ irq⟩
    · exact ⟨_, rfl, State.driverInv_removes hpending hfree _ _ _ irq⟩
    · exact ⟨_, rfl, State.driverInv_removes hpending hfree _ _ _ irq⟩
  case dropped =>
    rcases hbad with ⟨rfl, hsize⟩ | ⟨hfull, rfl | rfl | rfl⟩
    · exact congrArg Host.Outcome.next (State.invRange_bad hsize c irq)
    · by_cases hsize : 3 ≤ size ∨ count = 0
      · exact congrArg Host.Outcome.next (State.invRange_bad hsize c irq)
      · refine congrArg Host.Outcome.next ((State.invRange_good ?_ ?_ c irq).trans (State.driverInv_dropped hfull _ _ _ irq)) <;> omega
    · exact congrArg Host.Outcome.next (State.driverInv_dropped hfull _ _ _ irq)
    · exact congrArg Host.Outcome.next (State.driverInv_dropped hfull _ _ _ irq)
  case htu =>
    subst hcs
    refine ⟨_, congrArg Host.Outcome.next (State.htuInv_taken hfree pasid va pages tag), ⟨_, State.pushInv_invs _ _, rfl, rfl⟩,
      fun x hx hhit => ?_, State.pushInv_same _ _⟩
    obtain ⟨hctx, hlo, hhi⟩ := hhit
    exact ((s.mem_tlbs_pushInv _ x).mp hx).2 ⟨hctx, by simp only [State.htuOp]; omega, by simp only [State.htuOp]; omega⟩
  case held =>
    exact ⟨_, congrArg Host.Outcome.next (State.htuInv_held hfull pasid va pages tag), rfl, by simp, rfl, rfl, rfl, rfl⟩
  case complete =>
    have heq := State.invComplete_alone hinvs hwalks hflight hheld
    cases hhost : o.host with
    | some tag =>
      rw [hhost] at heq
      exact ⟨_, congrArg Host.Outcome.next heq, rfl, rfl, ⟨rfl, rfl, rfl⟩, fun h => (by cases h), fun n hn => by cases hn; rfl⟩
    | none =>
      rw [hhost] at heq
      have hsame : SameMemory s (s.invsLeft r) := ⟨rfl, rfl, rfl⟩
      refine ⟨_, congrArg Host.Outcome.next heq, ?_, ?_, hsame.trans (State.invReported_same _ _),
        fun _ => ⟨?_, ?_, fun hirq hmuted hruns => ?_⟩, fun n hn => (by cases hn)⟩
      · rw [State.invReported_xlt]; rfl
      · rw [State.invReported_xlt]; rfl
      · rw [State.rd_invReported _ _ _ rfl, State.inc, State.rd_wr_self _ _ _ _ _ (by decide), State.rd_invsLeft _ _ _ (by decide)]
      · rw [State.rd_invReported _ _ _ rfl, State.inc, State.rd_wr_apart _ _ _ _ _ _ (by decide) (by decide),
          State.rd_invsLeft _ _ _ (by decide)]
      · rw [hirq]
        refine (s.invsLeft r).fires_invReported ?_ ?_
        · rw [← hmuted]
          simp only [State.srcMuted, show srcCtx 0x002 = none from rfl, State.rd_invsLeft _ _ F.INT_SRC_CTL_OWNER (by decide)]
          rfl
        · rw [State.on, State.rd_invsLeft _ _ _ (by decide)]
          exact hruns

end Sys2Proof.Machine
end

section
/-! SUPPORT. A walk that sets D at a leaf of a CONT run that breaks R232 (11_translation.md R232, R235). The page is then translated by an
entry of the run that is a free choice (log 76). Where that entry does not permit the access, the walk faults after D has been set, and
its record goes to the blotter's ring, which is memory: D is not all that the step writes. -/

namespace Sys2Proof.Machine

open Sys2Proof

/-! ### The end of a walk that sets D -/

/-- D is set where the entry is still as it was read, and the walk ends at the leaf. -/
theorem State.walkStep_sets {s u : State} {w : Walk} (hph : w.ph = .dirty) (hfresh : w.stale = false) (htop : w.leafPa < stackTop)
    (hask : s.svcAsk w.ctx w.die 0 [w.leafPa / 128] true = (u, true)) (hkind : u.svcKind w.ctx w.die (w.leafPa / 128) = .none)
    (hstill : u.rdNat (s.ctxKey w.ctx) w.leafPa 8 = w.leaf.toNat) : s.walkStep w =
      (u.svcPut w.ctx w.die (s.ctxKey w.ctx) w.leafPa (leBytes 1 (pteDirty w.leaf.toNat % 256))).1.walkLeaf w
        (pteDirty w.leaf.toNat) w.level w.leafPa := by
  have hin : ¬ stackTop ≤ w.leafPa := by omega
  simp [State.walkStep, hph, hfresh, hin, hask, hkind, hstill]

/-- A page of a broken run whose chosen entry does not permit the access faults. -/
theorem State.walkLeaf_denied {s : State} {w : Walk} {e l pa x : Nat} (hbroken : s.runBroken (s.ctxKey w.ctx) e l pa = true)
    (hx : s.runEntry (s.ctxKey w.ctx) e l pa = x) (hpa : (!pteHost x && decide (stackTop < ptePa x + levelSize l)) = false)
    (hperm : permOk (pteR x) (pteW x) (pteA x) w.acc = false) : s.walkLeaf w e l pa = s.bump.walkFault w caPerm l := by
  rw [State.walkLeaf, if_pos hbroken, State.walkBroken]
  simp only [hx, hpa, hperm, Bool.false_eq_true, if_false, Bool.not_false, if_true]

/-- The entry of a run at an offset: the one that translates a page where the free choice falls on it and it is a valid leaf. -/
def State.runAt (s : State) (key e pa i : Nat) : Nat :=
  s.rdNat key (pa / 4096 * 4096 + 8 * (pa % 4096 / 8 / 2 ^ pteCont e * 2 ^ pteCont e + i)) 8

theorem State.runEntry_chosen {s : State} {key e l pa i : Nat} (hi : s.freeVal 1404 64 % 2 ^ pteCont e = i)
    (hvalid : (pteV (s.runAt key e pa i) && !pteBad (s.runAt key e pa i) l && pteLeaf (s.runAt key e pa i)) = true) (hd : pteD e = true) :
    s.runEntry key e l pa = pteDirty (s.runAt key e pa i) := by
  subst hi
  unfold State.runAt at hvalid ⊢
  rw [State.runEntry, if_pos hvalid, if_pos hd]

/-! ### A run of two pages that differ in W -/

/-- Entry `k` of a run of two pages: read and write, or, where `ro`, read alone. -/
def splitEntry (k : Nat) (ro : Bool) : Nat := 0x10000000000 + 0x1000 * k + (if ro then 0x107 else 0x10F)

/-- A write of context 1 at the page that may be written, found at its leaf: entry `i` of the run is the one that may not. -/
def splitWalk (i : Nat) : Walk :=
  ⟨0, 1, 0x1000 * (3 - i), accWrite, true, 0, 0x10000, BitVec.ofNat 64 (splitEntry (1 - i) false), 0x10000 + 8 * (3 - i), .dirty, false,
    ⟨3, 0, some ⟨1, 0, 0⟩, none, none⟩, .die 0, 0⟩

/-- The walk sets D at its leaf, whose line cluster 0 holds in O. An earlier write of the page has faulted: its record, of quire 0, is in the
ring with a COUNT of 1. -/
def splitRun (i : Nat) : State :=
  let s := ((State.reset.wr F.XLT_CTX_EN 1 1).wr F.XLT_BLOT_BASE 1 1).setDom domOn 512
  let s := (s.wrNat 0 0x10010 8 (splitEntry 0 (i == 0))).wrNat 0 0x10018 8 (splitEntry 1 (i == 1))
  let s := (s.wrNat devKey 0x20010 2 1).setCc 0 0x200 ⟨.O, false, 0, none, 0, 0, 0, none, .none, none, false, .none, none, false⟩
  { s with
    fol := { s.fol with cur := safeFolio }
    xlt := { s.xlt with
      walks := [splitWalk i]
      blots := [(1, ⟨1, none, 1, [⟨0, 0, 3 - i, caPerm, accWrite, stFaultPerm, 1⟩], [0], []⟩)] } }

/-- The state in which the cluster has served the line of the entry, and the one in which D is set. -/
def splitAsked (i : Nat) : State := ((splitRun i).svcAsk 1 0 0 [(splitWalk i).leafPa / 128] true).1
def splitSet (i : Nat) : State :=
  ((splitAsked i).svcPut 1 0 0 (splitWalk i).leafPa (leBytes 1 (pteDirty (splitWalk i).leaf.toNat % 256))).1

/-- The walk may set D: what the statement asks for. -/
theorem splitRun_ready : ∀ i < 2, (splitRun i).walkAt 0 0 = some (splitWalk i) ∧ (splitWalk i).leafPa % 8 = 0 ∧
    (splitWalk i).leafPa < stackTop ∧ ((splitRun i).svcAsk 1 0 0 [(splitWalk i).leafPa / 128] true).2 = true ∧
    (splitAsked i).svcKind 1 0 ((splitWalk i).leafPa / 128) = .none ∧ (splitRun i).ctxKey 1 = 0 ∧
    mget (splitRun i).lines ((splitWalk i).leafPa / 128) = some ⟨.none, (splitRun i).keySer 0⟩ ∧ (splitRun i).thr.ops = [] ∧
    (splitRun i).rdNat 0 (splitWalk i).leafPa 8 = (splitWalk i).leaf.toNat ∧
    (splitAsked i).rdNat 0 (splitWalk i).leafPa 8 = (splitWalk i).leaf.toNat := by
  decide +kernel

/-- Once D is set the run is broken, and its entry `i` is a valid leaf that does not permit the write. -/
theorem splitSet_denies : ∀ i < 2, (splitSet i).ctxKey 1 = 0 ∧ (splitSet i).free = State.reset.free ∧
    pteCont (pteDirty (splitWalk i).leaf.toNat) = 1 ∧ pteD (pteDirty (splitWalk i).leaf.toNat) = true ∧
    (splitSet i).runBroken 0 (pteDirty (splitWalk i).leaf.toNat) 0 (splitWalk i).leafPa = true ∧
    (splitSet i).runAt 0 (pteDirty (splitWalk i).leaf.toNat) (splitWalk i).leafPa i = splitEntry i true ∧
    (pteV (splitEntry i true) && !pteBad (splitEntry i true) 0 && pteLeaf (splitEntry i true)) = true ∧
    (!pteHost (pteDirty (splitEntry i true)) && decide (stackTop < ptePa (pteDirty (splitEntry i true)) + levelSize 0)) = false ∧
    permOk (pteR (pteDirty (splitEntry i true))) (pteW (pteDirty (splitEntry i true))) (pteA (pteDirty (splitEntry i true))) accWrite =
      false := by
  decide +kernel

/-- The fault counts in the record of the ring. -/
theorem splitSet_counts : ∀ i < 2, (splitRun i).rdByte devKey 0x20010 = 1 ∧
    ((splitSet i).bump.walkFault (splitWalk i) caPerm 0).rdByte devKey 0x20010 = 2 := by
  decide +kernel

/-- Where the free choice falls on the entry that does not permit the write, the step ends in the fault. -/
theorem splitRun_faults {i : Nat} (hi : i < 2) (hchoice : State.reset.freeVal 1404 64 % 2 = i) :
    (splitRun i).walkStep (splitWalk i) = (splitSet i).bump.walkFault (splitWalk i) caPerm 0 := by
  obtain ⟨-, -, htop, hok, hkind, hkey, -, -, -, hstill⟩ := splitRun_ready i hi
  obtain ⟨hkey', hfree, hcont, hd, hbroken, hat, hvalid, hpa, hperm⟩ := splitSet_denies i hi
  have hset := State.walkStep_sets (s := splitRun i) (u := splitAsked i) (w := splitWalk i) rfl rfl htop (Prod.ext rfl hok) hkind
    (hkey.symm ▸ hstill)
  have hchosen : (splitSet i).freeVal 1404 64 % 2 ^ pteCont (pteDirty (splitWalk i).leaf.toNat) = i := by
    rw [hcont, State.freeVal, hfree]
    exact hchoice
  have hentry := State.runEntry_chosen (s := splitSet i) (key := 0) (l := 0) (pa := (splitWalk i).leafPa) hchosen (hat.symm ▸ hvalid) hd
  rw [hat] at hentry
  rw [hset, show (splitRun i).ctxKey (splitWalk i).ctx = 0 from hkey]
  exact State.walkLeaf_denied (s := splitSet i) (w := splitWalk i) (hkey'.symm ▸ hbroken) (hkey'.symm ▸ hentry) hpa hperm

/-- Refutes O39: a walk sets D at a leaf of a broken CONT run, the free choice falls on the run's other entry, which does not permit the
write, and the fault changes the blotter's ring in memory too. -/
theorem not_tableWalks : ¬ Obligations.TableWalks := by
  rintro ⟨-, -, hdirty, -⟩
  obtain ⟨i, hchoice⟩ : ∃ i, State.reset.freeVal 1404 64 % 2 = i := ⟨_, rfl⟩
  have hi : i < 2 := hchoice ▸ Nat.mod_lt _ (by decide)
  obtain ⟨hwalk, halign, htop, hok, hkind, hkey, hline, hops, hstill, -⟩ := splitRun_ready i hi
  obtain ⟨hbefore, hafter⟩ := splitSet_counts i hi
  obtain ⟨t, hexec, -, hkept⟩ := (hdirty (splitRun i) (splitAsked i) 0 0 (splitWalk i) hwalk rfl rfl halign htop (Prod.ext rfl hok) hkind
    ⟨_, hline, congrArg (splitRun i).keySer hkey.symm⟩ hops).1 (hkey.symm ▸ hstill)
  have ht : (splitRun i).walkStep (splitWalk i) = t := by
    have hstep : exec (.walkStep 0 0) (splitRun i) = .next ((splitRun i).walkStep (splitWalk i)) := by
      show execWalkStep 0 0 (splitRun i) = _
      rw [execWalkStep, hwalk]
    exact Host.Outcome.next.inj (hstep.symm.trans hexec)
  have hbyte := hkept devKey 0x20010 (by simp only [splitWalk]; omega) (.inr (by simp only [splitWalk]; omega))
  rw [← ht, splitRun_faults hi hchoice, hafter, hbefore] at hbyte
  cases hbyte

end Sys2Proof.Machine
end

section
/-! SUPPORT. What the abort of a context leaves of CTX_STAT and of the blotter (11_translation.md R247; 12_shared_objects.md R256): past
its own two writes, nothing of the abort writes CTX_STAT, and nothing past the end of the quires changes the blotter. -/

namespace Sys2Proof.Machine

open Sys2Proof

/-! ### CTX_STAT while the work of a context ends -/

/-- The CTX_STAT registers. -/
def State.ctxStats (s : State) : Nat → Nat → W64 := s.reg .CTX_STAT

theorem State.ctxStats_of_regs {s t : State} (h : t.regs = s.regs) : t.ctxStats = s.ctxStats := by
  unfold State.ctxStats State.reg
  rw [h]

/-- CTX_STAT stays under what leaves it by a list of registers. -/
theorem State.RegsBut.ctxStats {l : List Reg} {s t : State} (h : s.RegsBut l t) (hl : Reg.CTX_STAT ∉ l) : t.ctxStats = s.ctxStats :=
  funext (fun i => funext (fun j => h _ hl i j))

theorem State.rd_of_ctxStats {s t : State} (h : t.ctxStats = s.ctxStats) (f : Fld) (hf : f.reg = .CTX_STAT) (i j : Nat) :
    t.rd f i j = s.rd f i j := by
  have hreg : t.reg .CTX_STAT i j = s.reg .CTX_STAT i j := congrFun (congrFun h i) j
  rw [State.rd, State.rd, hf, hreg]

theorem State.ctxStats_ite {c : Prop} [Decidable c] {a b : State} {x : Nat → Nat → W64} (ha : a.ctxStats = x) (hb : b.ctxStats = x) :
    (if c then a else b).ctxStats = x := by split <;> assumption

section
variable (s : State)

theorem State.ctxStats_wr (f : Fld) (v i j : Nat) (hf : f.reg ≠ .CTX_STAT) : (s.wr f v i j).ctxStats = s.ctxStats :=
  funext (fun i' => funext (fun j' => s.reg_wr_ne f v i j i' j' hf))

@[simp] theorem State.ctxStats_raise (n : Nat) : (s.raise n).ctxStats = s.ctxStats :=
  State.RegsBut.ctxStats (l := [.INT_SRC_CTL, .INT_ISL]) ((State.RegsBut.refl _ s).raise n (by decide) (by decide)) (by decide)

@[simp] theorem State.ctxStats_ledBusy (d : Nat) : (s.ledBusy d).ctxStats = s.ctxStats := s.ctxStats_wr _ _ _ _ (by decide)

@[simp] theorem State.ctxStats_ledFire (d : Nat) : (s.ledFire d).ctxStats = s.ctxStats := by
  have hdisarmed : (s.bump.wr F.LED_TRIG_ARMED 0 d).ctxStats = s.ctxStats :=
    (s.bump.ctxStats_wr _ _ _ _ (by decide)).trans (State.ctxStats_of_regs s.bump_regs)
  have htaken (l : Led) : (((s.bump.wr F.LED_TRIG_ARMED 0 d).setLed d l).ledBusy d).ctxStats = s.ctxStats :=
    ((State.ctxStats_ledBusy _ d).trans (State.ctxStats_of_regs (State.setLed_regs _ d l))).trans hdisarmed
  unfold State.ledFire
  refine State.ctxStats_ite rfl ?_
  dsimp only
  refine State.ctxStats_ite hdisarmed (State.ctxStats_ite ?_ (htaken _))
  exact (State.ctxStats_raise _ _).trans ((State.ctxStats_wr _ F.LED_PTR_DONE 1 d 0 (by decide)).trans (htaken _))

@[simp] theorem State.ctxStats_counterWrap (d i j : Nat) : (s.counterWrap d i j).ctxStats = s.ctxStats := by
  unfold State.counterWrap
  extract_lets n counted tal noted raised
  have hcounted : counted.ctxStats = s.ctxStats :=
    (State.ctxStats_wr _ F.TAL_CTL_OVF _ n 0 (by decide)).trans (s.ctxStats_wr F.TAL_CNT_WRAP _ n j (by decide))
  have hnoted : noted.ctxStats = s.ctxStats := (State.ctxStats_of_regs (s := counted) (t := noted) rfl).trans hcounted
  have hraised : raised.ctxStats = s.ctxStats := State.ctxStats_ite ((State.ctxStats_raise _ _).trans hnoted) hnoted
  exact State.ctxStats_ite ((raised.ctxStats_ledFire d).trans hraised) hraised

@[simp] theorem State.ctxStats_addCount (d i j v : Nat) : (s.addCount d i j v).ctxStats = s.ctxStats := by
  have hadded := s.ctxStats_wr F.TAL_CNT_VALUE (s.rd F.TAL_CNT_VALUE (talSet d i) j + v) (talSet d i) j (by decide)
  exact State.ctxStats_ite ((State.ctxStats_counterWrap _ _ _ _).trans hadded) hadded

@[simp] theorem State.ctxStats_tally (d i code v : Nat) (e : Ev) : (s.tally d i code v e).ctxStats = s.ctxStats := by
  unfold State.tally
  extract_lets n tal noted
  have hnoted : noted.ctxStats = s.ctxStats := State.ctxStats_ite (State.ctxStats_of_regs (s := s) (t := { s with tal := tal }) rfl) rfl
  split
  · rfl
  · refine (foldl_keeps _ State.ctxStats (fun u j => ?_) _ _).trans hnoted
    exact (State.ctxStats_addCount _ _ _ _ _).trans (State.ctxStats_of_regs (u.edgeCount_regs n j v))

@[simp] theorem State.ctxStats_loseWork (p : Block → Bool) : (s.loseWork p).ctxStats = s.ctxStats := by
  have hdrop (u : State) (q : Nat → Block → Bool) : (u.dropBlocks q).ctxStats = u.ctxStats :=
    State.ctxStats_of_regs (s := u) (t := u.dropBlocks q) rfl
  exact (hdrop _ _).trans (foldl_keeps _ State.ctxStats (fun u o => u.ctxStats_tally _ _ _ _ _) _ s)

@[simp] theorem State.ctxStats_abortOne (st : Nat) (id : CmdId) : (s.abortOne st id).ctxStats = s.ctxStats := by
  unfold State.abortOne
  split
  · rfl
  split
  case h_1 => rfl
  case h_2 => exact State.ctxStats_of_regs (by simp)
  case h_3 => exact State.ctxStats_of_regs (by simp)
  case h_4 =>
    split
    case h_7 =>
      split
      · rfl
      extract_lets sent dbg disarmed
      have hsent : sent.ctxStats = s.ctxStats := by
        unfold sent
        split
        · exact State.ctxStats_of_regs (State.endSend_regs _ _ _)
        · rfl
      refine Eq.trans (State.ctxStats_of_regs (s := disarmed.loseWork (fun b => b.cmd == id)) (by simp)) ?_
      exact (State.ctxStats_loseWork _ _).trans hsent
    all_goals exact State.ctxStats_of_regs (by simp)

@[simp] theorem State.ctxStats_abortCmds (st : Nat) (p : CmdId → Cmd → Bool) : (s.abortCmds st p).ctxStats = s.ctxStats :=
  foldl_keeps _ State.ctxStats (fun u id => (State.ctxStats_abortOne _ st id).trans
    (foldl_keeps _ State.ctxStats (fun v k => v.ctxStats_abortOne st k) _ u)) _ s

@[simp] theorem State.ctxStats_snapStop (c err : Nat) : (s.snapStop c err).ctxStats = s.ctxStats := by
  have hoff : (s.snapOff c 4).ctxStats = s.ctxStats := by
    unfold State.snapOff
    split
    · rfl
    · extract_lets rcv dropped ended
      have hended : ended.ctxStats = dropped.ctxStats :=
        foldl_keeps _ State.ctxStats (fun u k => State.ctxStats_of_regs (u.endSend_regs k _)) _ dropped
      have hdropped : dropped.ctxStats = s.ctxStats := State.ctxStats_of_regs (s := s) (t := dropped) rfl
      exact (State.ctxStats_wr _ F.SNAP_STAT_PHASE 4 c 0 (by decide)).trans
        ((State.ctxStats_of_regs (State.cutEnd_regs _ _ _)).trans (hended.trans hdropped))
  exact State.ctxStats_ite rfl ((State.ctxStats_raise _ _).trans ((State.ctxStats_wr _ F.SNAP_STAT_ERR err c 0 (by decide)).trans hoff))

@[simp] theorem State.ctxStats_leavesLive (c : Nat) : (s.leavesLive c).ctxStats = s.ctxStats := by
  have hdetach : (s.detach c).ctxStats = s.ctxStats := by
    refine (State.ctxStats_of_regs (t := s.detach c)
      (s := ((s.wr F.DBG_ATTACH_EN 0 c).wr F.DBG_ATTACH_BP_EN 0 c).wr F.DBG_ATTACH_WP_EN 0 c) rfl).trans ?_
    rw [State.ctxStats_wr _ F.DBG_ATTACH_WP_EN 0 c 0 (by decide), State.ctxStats_wr _ F.DBG_ATTACH_BP_EN 0 c 0 (by decide),
      State.ctxStats_wr _ F.DBG_ATTACH_EN 0 c 0 (by decide)]
  have hdisable (u : State) (d : Nat) : (u.ledDisable d).ctxStats = u.ctxStats := by
    refine State.ctxStats_ite ((State.ctxStats_ledBusy _ d).trans ((State.ctxStats_of_regs (State.setLed_regs _ d _)).trans ?_)) rfl
    exact u.ctxStats_wr F.LED_CFG_EN 0 d 0 (by decide)
  refine (foldl_keeps _ State.ctxStats (fun u d => ?_) _ _).trans (State.ctxStats_ite hdetach rfl)
  exact (State.ctxStats_wr _ F.LED_STAT_ERR 1 d 0 (by decide)).trans (hdisable u d)

/-! ### The blotter past the end of the quires -/

@[simp] theorem State.endSend_xlt (x st : Nat) : (s.endSend x st).xlt = s.xlt := by
  unfold State.endSend
  split <;> rfl

@[simp] theorem State.snapStop_xlt (c err : Nat) : (s.snapStop c err).xlt = s.xlt := by
  have hcut (u : State) (x : Snap) : (u.cutEnd c x).xlt = u.xlt := by
    unfold State.cutEnd
    split
    · rfl
    · split <;> rfl
  have hoff : (s.snapOff c 4).xlt = s.xlt := by
    unfold State.snapOff
    split
    · rfl
    · rw [State.wr_xlt, hcut]
      exact foldl_keeps _ (fun u : State => u.xlt) (fun u k => u.endSend_xlt k _) _ _
  unfold State.snapStop
  split
  · rfl
  · rw [State.raise_xlt, State.wr_xlt, hoff]

@[simp] theorem State.leavesLive_xlt (c : Nat) : (s.leavesLive c).xlt = s.xlt := by
  have hdisable (u : State) (d : Nat) : (u.ledDisable d).xlt = u.xlt := by
    unfold State.ledDisable
    split <;> rfl
  refine (foldl_keeps _ (fun u : State => u.xlt) (fun u d => (State.wr_xlt _ F.LED_STAT_ERR 1 d 0).trans (hdisable u d)) _ _).trans ?_
  split <;> rfl

end

/-! ### Quires end (R250) -/

theorem State.blot_setBlot_self (s : State) (c : Nat) (b : Blot) : (s.setBlot c b).blot c = b := by
  simp [State.blot, State.setBlot, aget_aput_self]

theorem State.blot_of_xlt {s t : State} (h : t.xlt = s.xlt) (c : Nat) : t.blot c = s.blot c := by
  rw [State.blot, State.blot, h]

theorem State.blot_dropXlt (s : State) (c : Nat) : (s.dropXlt c).blot c = s.blot c := rfl

/-- The blotter once the quires of its context have ended: no record, no quire, nothing that waits. -/
theorem State.blot_dropQuires (s : State) (c : Nat) :
    (s.dropQuires c).blot c = { (s.closeQuire c false).blot c with recs := [], closed := [], waiting := [] } :=
  State.blot_setBlot_self _ c _

/-! ### A quire that closes (R246) -/

/-- An open quire ends: LAST in its final record, and the quire among the closed ones. -/
def State.quireEnded (s : State) (c q : Nat) : State :=
  (s.wrNat devKey (s.blotAt c ((s.blot c).wr + 8191) + 20) 1 1).setBlot c
    { s.blot c with openQ := none, closed := (s.blot c).closed ++ [q] }

/-- HEAD has moved past it, and FULL with HEAD. -/
def State.quireHead (s : State) (c q : Nat) : State := (s.quireEnded c q).wr F.XLT_BLOT_PTR_HEAD (s.blot c).wr c
def State.quireClosed (s : State) (c q : Nat) : State :=
  (s.quireHead c q).wr F.XLT_BLOT_PTR_FULL (b2n ((s.quireHead c q).blotFull c)) c

theorem State.closeQuire_open {s : State} {c q : Nat} (h : (s.blot c).openQ = some q) (irq : Bool) :
    s.closeQuire c irq = if irq then (s.quireClosed c q).raise (0x100 + c) else s.quireClosed c q := by
  unfold State.closeQuire
  rw [h]
  dsimp only
  simp only [State.quireClosed, State.quireHead, State.quireEnded]

theorem State.closeQuire_none {s : State} {c : Nat} (h : (s.blot c).openQ = none) (irq : Bool) : s.closeQuire c irq = s := by
  unfold State.closeQuire
  rw [h]

section
variable (s : State) (c q : Nat)

theorem State.quireEnded_regs : (s.quireEnded c q).regs = s.regs := (State.setBlot_regs _ _ _).trans (State.wrNat_regs _ _ _ _ _)

/-- The end of a quire is memory's and the blotter's. -/
theorem State.quireEnded_frame : ∃ m l b, s.quireEnded c q = { s with mem := m, lines := l, xlt := { s.xlt with blots := b } } := by
  obtain ⟨m, l, h⟩ := s.wrBytes_frame devKey (s.blotAt c ((s.blot c).wr + 8191) + 20) (leBytes 1 1)
  refine ⟨m, l, aput s.xlt.blots c { s.blot c with openQ := none, closed := (s.blot c).closed ++ [q] }, ?_⟩
  rw [State.quireEnded, State.wrNat, h]
  rfl

theorem State.quireClosed_xlt : (s.quireClosed c q).xlt = (s.quireEnded c q).xlt := rfl

theorem State.quireClosed_blot : (s.quireClosed c q).blot c = { s.blot c with openQ := none, closed := (s.blot c).closed ++ [q] } := by
  rw [State.blot_of_xlt (s.quireClosed_xlt c q), State.quireEnded, State.blot_setBlot_self]

theorem State.quireClosed_tlbs : (s.quireClosed c q).xlt.tlbs = s.xlt.tlbs := by
  obtain ⟨m, l, b, h⟩ := s.quireEnded_frame c q
  rw [State.quireClosed_xlt, h]

theorem State.quireClosed_thr : (s.quireClosed c q).thr = s.thr := by
  obtain ⟨m, l, b, h⟩ := s.quireEnded_frame c q
  rw [State.quireClosed, State.wr_thr, State.quireHead, State.wr_thr, h]

theorem State.quireClosed_rst : (s.quireClosed c q).rst = s.rst := by
  obtain ⟨m, l, b, h⟩ := s.quireEnded_frame c q
  rw [State.quireClosed, State.wr_rst, State.quireHead, State.wr_rst, h]

theorem State.quireClosed_obj : (s.quireClosed c q).obj = s.obj := by
  obtain ⟨m, l, b, h⟩ := s.quireEnded_frame c q
  rw [State.quireClosed, State.wr_obj, State.quireHead, State.wr_obj, h]

theorem State.regsBut_quireClosed : s.RegsBut [.XLT_BLOT_PTR] (s.quireClosed c q) :=
  (((State.RegsBut.refl _ s).keep (s.quireEnded_regs c q)).wr F.XLT_BLOT_PTR_HEAD _ c 0 (by decide)).wr F.XLT_BLOT_PTR_FULL _ c 0 (by decide)

theorem State.quireClosed_head : (s.quireClosed c q).rd F.XLT_BLOT_PTR_HEAD c = (s.blot c).wr % 2 ^ 13 := by
  rw [State.quireClosed, State.rd_wr_apart _ _ _ _ _ _ (by decide) (by decide), State.quireHead]
  exact State.rd_wr_self _ _ _ _ _ (by decide)

theorem State.quireClosed_tail : (s.quireClosed c q).rd F.XLT_BLOT_PTR_TAIL c = s.rd F.XLT_BLOT_PTR_TAIL c := by
  rw [State.quireClosed, State.rd_wr_apart _ _ _ _ _ _ (by decide) (by decide), State.quireHead,
    State.rd_wr_apart _ _ _ _ _ _ (by decide) (by decide)]
  exact State.rd_of_regs (s.quireEnded_regs c q) _ _ _

theorem State.openQ_closeQuire (irq : Bool) : ((s.closeQuire c irq).blot c).openQ = none := by
  cases h : (s.blot c).openQ with
  | none => rw [State.closeQuire_none h, h]
  | some q =>
    rw [State.closeQuire_open h]
    split
    · rw [State.blot_of_xlt (State.raise_xlt _ _), State.quireClosed_blot]
    · rw [State.quireClosed_blot]

/-! #### The quires of a context end -/

/-- The end of the quires leaves cached translations, contexts and CTX_STAT. -/
theorem State.dropQuires_keeps : (s.dropQuires c).xlt.tlbs = s.xlt.tlbs ∧ (s.dropQuires c).obj = s.obj ∧
    (s.dropQuires c).ctxStats = s.ctxStats := by
  have hset (u : State) (b : Blot) : (u.setBlot c b).xlt.tlbs = u.xlt.tlbs ∧ (u.setBlot c b).obj = u.obj ∧
      (u.setBlot c b).ctxStats = u.ctxStats := ⟨rfl, rfl, State.ctxStats_of_regs (State.setBlot_regs u c b)⟩
  obtain ⟨htlbs, hobj, hstats⟩ := hset (s.closeQuire c false) { (s.closeQuire c false).blot c with recs := [], closed := [], waiting := [] }
  rw [State.dropQuires, htlbs, hobj, hstats]
  cases h : (s.blot c).openQ with
  | none =>
    rw [State.closeQuire_none h]
    exact ⟨rfl, rfl, rfl⟩
  | some q =>
    rw [State.closeQuire_open h, if_neg Bool.false_ne_true]
    exact ⟨s.quireClosed_tlbs c q, s.quireClosed_obj c q, (s.regsBut_quireClosed c q).ctxStats (by decide)⟩

end

/-! #### Its timeout -/

/-- A source takes or discards events as before where CTX_STAT, its owner and the resets are as they were. -/
theorem State.srcMuted_congr {s t : State} {n : Nat} (hstats : t.ctxStats = s.ctxStats)
    (howner : t.rd F.INT_SRC_CTL_OWNER n = s.rd F.INT_SRC_CTL_OWNER n) (hrst : t.rst = s.rst) : t.srcMuted n = s.srcMuted n := by
  simp only [State.srcMuted, State.ctxState, State.rd_of_ctxStats hstats F.CTX_STAT_STATE rfl, howner, hrst]

/-- The timeout of an open quire (R246). -/
theorem State.runs_quireTimeout {s : State} {c q : Nat} (h : (s.blot c).openQ = some q) :
    Runs (.quireTimeout c) s (fun t => (t.blot c).openQ = none ∧
      (t.blot c).closed = (s.blot c).closed ++ [q] ∧ (t.blot c).recs = (s.blot c).recs ∧ (t.blot c).nextQ = (s.blot c).nextQ ∧
      t.rd F.XLT_BLOT_PTR_HEAD c = (s.blot c).wr % 2 ^ 13 ∧ t.rd F.XLT_BLOT_PTR_TAIL c = s.rd F.XLT_BLOT_PTR_TAIL c ∧
      s.Fires t (0x100 + c) ∧ t.thr = s.thr) := by
  have hregs := s.regsBut_quireClosed c q
  have hblot : ((s.quireClosed c q).raise (0x100 + c)).blot c =
      { s.blot c with openQ := none, closed := (s.blot c).closed ++ [q] } :=
    (State.blot_of_xlt (State.raise_xlt _ _) c).trans (s.quireClosed_blot c q)
  refine ⟨(s.quireClosed c q).raise (0x100 + c), congrArg Host.Outcome.next ((State.closeQuire_open h true).trans (if_pos rfl)), ?_⟩
  dsimp only
  rw [hblot, State.rd_raise _ _ _ _ _ (by decide) (by decide), State.rd_raise _ _ _ _ _ (by decide) (by decide)]
  refine ⟨rfl, rfl, rfl, rfl, s.quireClosed_head c q, s.quireClosed_tail c q, fun hmuted hruns => State.fires_raise _ _ ?_ ?_,
    (State.raise_thr _ _).trans (s.quireClosed_thr c q)⟩
  · rw [State.srcMuted_congr (hregs.ctxStats (by decide)) (hregs.rd _ (by decide) _ _) (s.quireClosed_rst c q), hmuted]
  · rw [State.on, hregs.rd _ (by decide), ← State.on, hruns]

/-! ### A context is aborted (12_shared_objects.md R256) -/

/-- A live context that is aborted: its work ends, then its quires, its translations, its snapshot and its attachment. -/
theorem State.abortCtx_live {s : State} {c : Nat} (hlive : s.ctxState c = ctxLive) (st : Nat) :
    ∃ u : State, s.abortCtx c st = (((u.dropQuires c).dropXlt c).snapStop c 6).leavesLive c ∧
      u.ctxStats = ((s.wr F.CTX_STAT_STATE ctxAborting c).wr F.CTX_STAT_ABORT_STATUS st c).ctxStats := by
  have hgoes : (s.ctxState c != ctxLive && s.ctxState c != ctxReleasing && s.ctxState c != ctxSaved) = false := by rw [hlive]; rfl
  unfold State.abortCtx
  rw [hgoes]
  extract_lets marked reported stamped obj syn emptied ended
  have hemptied : emptied.ctxStats = marked.ctxStats :=
    State.ctxStats_of_regs (s := marked) (t := emptied) (by simp [emptied, stamped, reported])
  have hended : ended.ctxStats = (emptied.abortCmds stAborted (fun id _ => id.ctx == c)).ctxStats :=
    State.ctxStats_of_regs (s := emptied.abortCmds stAborted (fun id _ => id.ctx == c)) (t := ended) (by simp [ended])
  exact ⟨ended, if_neg Bool.false_ne_true, hended.trans ((emptied.ctxStats_abortCmds _ _).trans hemptied)⟩

/-- A live context that is aborted is ABORTING with the status, and its blotter is empty. -/
theorem State.abortCtx_blotter {s : State} {c st : Nat} (hlive : s.ctxState c = ctxLive) (hst : st < 2 ^ 16) :
    let t := s.abortCtx c st
    t.ctxState c = ctxAborting ∧ t.rd F.CTX_STAT_ABORT_STATUS c = st ∧ (t.blot c).closed = [] ∧ (t.blot c).recs = [] ∧
      (t.blot c).waiting = [] := by
  obtain ⟨u, heq, hu⟩ := State.abortCtx_live hlive st
  have hstats : (s.abortCtx c st).ctxStats = ((s.wr F.CTX_STAT_STATE ctxAborting c).wr F.CTX_STAT_ABORT_STATUS st c).ctxStats := by
    rw [heq, State.ctxStats_leavesLive, State.ctxStats_snapStop, State.ctxStats_of_regs (State.dropXlt_regs _ _),
      (State.dropQuires_keeps _ _).2.2, hu]
  have hblot : (s.abortCtx c st).blot c = (u.dropQuires c).blot c := by
    rw [heq, State.blot_of_xlt (State.leavesLive_xlt _ _), State.blot_of_xlt (State.snapStop_xlt _ _ _), State.blot_dropXlt]
  dsimp only
  rw [hblot, State.blot_dropQuires, State.ctxState, State.rd_of_ctxStats hstats _ rfl, State.rd_of_ctxStats hstats _ rfl]
  refine ⟨?_, ?_, rfl, rfl, rfl⟩
  · rw [State.rd_wr_apart _ _ _ _ _ _ (by decide) (by decide)]
    exact State.rd_wr_self _ _ _ _ _ (by decide)
  · rw [State.rd_wr_self _ _ _ _ _ (by decide)]
    exact Nat.mod_eq_of_lt hst

/-! ### Quires resolved (R247) -/

@[simp] theorem State.failWhole_regs (s : State) (id : CmdId) (st : Nat) : (s.failWhole id st).regs = s.regs := by
  have hfail (u : State) (k : CmdId) : (u.failCmd k st).regs = u.regs := by
    unfold State.failCmd
    split <;> rfl
  exact (hfail _ _).trans (hfail _ _)

@[simp] theorem State.failWait_regs (s : State) (w : BWait) (st : Nat) : (s.failWait w st).regs = s.regs := by
  unfold State.failWait
  split
  · exact State.failWhole_regs _ _ _
  · exact State.endRecv_regs _ _ _
  · rfl

section
variable {s : State} {c q : Nat}

theorem State.resolveErr_sets (haborting : s.ctxState c ≠ ctxAborting) (haborted : s.ctxState c ≠ ctxAborted) :
    s.resolveErr c = s.wr F.XLT_BLOT_PTR_RES_ERR 1 c :=
  if_neg (by simp [haborting, haborted])

theorem State.resolveRetry_notClosed (h : (s.blot c).closed.contains q = false) : s.resolveRetry c q = s.resolveErr c :=
  if_pos (by rw [h]; rfl)

theorem State.resolveAbort_notClosed (h : (s.blot c).closed.contains q = false) : s.resolveAbort c q = s.resolveErr c :=
  if_pos (by rw [h]; rfl)

/-- A context without an access in flight has no lane in any phase. -/
theorem State.lanesIn_of_noCores (h : s.ctxCores c = []) (p : LanePh → Bool) : s.lanesIn c p = [] := by
  have hops : s.thr.ops.filter (fun o => o.cmd.ctx == c) = [] := by
    by_contra hne
    obtain ⟨o, ho⟩ := List.exists_mem_of_ne_nil _ hne
    have hcore : o.g.core ∈ s.ctxCores c := List.mem_dedup.mpr (List.mem_map_of_mem ho)
    rw [h] at hcore
    cases hcore
  rw [State.lanesIn, hops]
  rfl

/-- A retry of a quire that no thread's access waits on takes it out (R247). -/
theorem State.resolveRetry_closed (h : (s.blot c).closed.contains q = true) (hcores : s.ctxCores c = [])
    (hsrc : ∀ w ∈ (s.blot c).waiting, w.src.source ≠ 1) : s.resolveRetry c q = s.setBlot c { s.blot c with
      closed := (s.blot c).closed.erase q
      recs := (s.blot c).recs.filter (fun r => r.quire != q)
      waiting := (s.blot c).waiting.filter (fun w => w.quire != some q) } := by
  have hwaits (u : State) (ws : List BWait) (hws : ∀ w ∈ ws, w.src.source ≠ 1) :
      ws.foldl (fun s w => if w.src.source == 1 then s.fromDie w.src.unit c w.va else s) u = u := by
    induction ws with
    | nil => rfl
    | cons w ws ih =>
      have hw : (w.src.source == 1) = false := beq_eq_false_iff_ne.mpr (hws w List.mem_cons_self)
      rw [List.foldl_cons, hw]
      exact ih (fun v hv => hws v (List.mem_cons_of_mem _ hv))
  unfold State.resolveRetry
  simp only [h, Bool.not_true, Bool.false_eq_true, if_false, State.lanesIn_of_noCores hcores, List.foldl_nil]
  rw [hwaits _ _ (fun w hw => hsrc w (List.mem_of_mem_filter hw))]
  have hleft (b : Blot) : (s.setBlot c b).ctxCores c = [] := hcores
  rw [hleft, List.foldl_nil]

/-- An abort of a quire aborts its context with the status of its first record, once its accesses have failed (R247). -/
theorem State.resolveAbort_closed (h : (s.blot c).closed.contains q = true) {r : BRec}
    (hrec : (s.blot c).recs.find? (fun r => r.quire == q) = some r) :
    ∃ u : State, s.resolveAbort c q = u.abortCtx c r.status ∧ u.regs = s.regs := by
  unfold State.resolveAbort
  simp only [h, hrec, Bool.not_true, Bool.false_eq_true, if_false]
  refine ⟨_, rfl, ?_⟩
  refine (foldl_keeps _ (fun u : State => u.regs) (fun u w => u.failWait_regs w _) _ _).trans ?_
  exact foldl_keeps _ (fun u : State => u.regs) (fun u (e : CmdId × Nat) => u.failWhole_regs e.1 e.2) _ _

theorem State.runs_resolveAbort (h : (s.blot c).closed.contains q = true) {r : BRec} (hlive : s.ctxState c = ctxLive)
    (hrec : (s.blot c).recs.find? (fun r => r.quire == q) = some r) (hst : r.status < 2 ^ 16) :
    Runs (.resolveAbort c q) s (fun t => t.ctxState c = ctxAborting ∧ t.rd F.CTX_STAT_ABORT_STATUS c = r.status ∧
      (t.blot c).closed = [] ∧ (t.blot c).recs = [] ∧ (t.blot c).waiting = []) := by
  obtain ⟨u, heq, hregs⟩ := State.resolveAbort_closed h hrec
  exact ⟨_, congrArg Host.Outcome.next heq, State.abortCtx_blotter ((State.rd_of_regs hregs _ _ _).trans hlive) hst⟩

/-! ### TAIL (R248) -/

theorem State.tailWrite_bad {tail : Nat} (h : s.tailBad c tail = true) : s.tailWrite c tail = s.wr F.XLT_BLOT_PTR_PTR_ERR 1 c := if_pos h

/-- TAIL as it is taken, with FULL. -/
def State.tailTaken (s : State) (c tail : Nat) : State :=
  (s.wr F.XLT_BLOT_PTR_TAIL tail c).wr F.XLT_BLOT_PTR_FULL (b2n ((s.wr F.XLT_BLOT_PTR_TAIL tail c).blotFull c)) c

theorem State.lanesIn_of_noOps (h : s.thr.ops = []) (p : LanePh → Bool) : s.lanesIn c p = [] := by
  rw [State.lanesIn, h]
  rfl

/-- A TAIL that is taken while nothing is stalled changes TAIL and FULL alone. -/
theorem State.tailWrite_taken {tail : Nat} (h : s.tailBad c tail = false) (hops : s.thr.ops = [])
    (hwaits : ∀ w ∈ (s.blot c).waiting, w.quire.isSome = true) : s.tailWrite c tail = s.tailTaken c tail := by
  have hnone : (s.blot c).waiting.filter (fun w => w.quire.isNone) = [] :=
    List.filter_eq_nil_iff.mpr (fun w hw => by simp [Option.isSome_iff_ne_none.mp (hwaits w hw)])
  have hlanes (p : LanePh → Bool) : (s.tailTaken c tail).lanesIn c p = [] := State.lanesIn_of_noOps hops p
  have hblot : (s.tailTaken c tail).blot c = s.blot c := rfl
  unfold State.tailWrite
  rw [h, if_neg Bool.false_ne_true]
  simp only [State.tailTaken] at hlanes hblot ⊢
  rw [hlanes, List.foldl_nil, hblot, hnone, List.foldl_nil]

theorem State.rd_tailTaken (tail : Nat) (f : Fld)
    (hf : f.reg ≠ .XLT_BLOT_PTR ∨ (f.lo + f.wid ≤ 16 ∨ 29 ≤ f.lo) ∧ (f.lo + f.wid ≤ 48 ∨ 49 ≤ f.lo)) :
    (s.tailTaken c tail).rd f c = s.rd f c := by
  rw [State.tailTaken, State.rd_wr_apart _ _ _ _ _ _ (by decide) (hf.imp Ne.symm (fun h => h.2)),
    State.rd_wr_apart _ _ _ _ _ _ (by decide) (hf.imp Ne.symm (fun h => h.1))]

theorem State.tail_tailTaken {tail : Nat} (h : tail < 8192) : (s.tailTaken c tail).rd F.XLT_BLOT_PTR_TAIL c = tail := by
  rw [State.tailTaken, State.rd_wr_apart _ _ _ _ _ _ (by decide) (by decide), State.rd_wr_self _ _ _ _ _ (by decide)]
  exact Nat.mod_eq_of_lt h

/-! ### A slot switched off (R470) -/

/-- A slot whose translation is switched off while no access waits loses its quires and translations. -/
theorem State.xltDisable_idle (hon : s.on F.XLT_CTX_EN c = true) (hops : s.thr.ops = []) (hwaits : (s.blot c).waiting = []) :
    s.xltDisable c = ((s.wr F.XLT_CTX_EN 0 c).dropQuires c).dropXlt c := by
  have hlanes (p : LanePh → Bool) : (s.wr F.XLT_CTX_EN 0 c).lanesIn c p = [] := State.lanesIn_of_noOps hops p
  have hwaiting : ((s.wr F.XLT_CTX_EN 0 c).blot c).waiting = [] := hwaits
  have hwalking (w : Walk) (core : Nat) : (s.wr F.XLT_CTX_EN 0 c).walkLanes w core = [] := by
    simp [State.walkLanes, State.coreOps, hops]
  unfold State.xltDisable
  rw [hon]
  simp only [Bool.not_true, Bool.false_eq_true, if_false, hlanes, hwaiting, List.foldl_nil, List.isEmpty_nil, Bool.and_self, if_true]
  refine congrArg (List.foldl _ _) (List.flatMap_eq_nil_iff.mpr (fun w _ => ?_))
  split
  · exact hwalking _ _
  · rfl

end

/-- Settles O41: the timeout, the two resolves, TAIL, and a slot switched off. -/
theorem quires : Obligations.Quires := by
  unfold Obligations.Quires
  refine ⟨fun s c q hopen => State.runs_quireTimeout hopen,
    fun s c q hclosed => ⟨fun hcores hsrc => congrArg Host.Outcome.next (State.resolveRetry_closed hclosed hcores hsrc),
      fun r hlive hrec hst => State.runs_resolveAbort hclosed hlive hrec hst⟩,
    fun s c q i hclosed haborting haborted hi => ?refused, fun s c tail x hx => ⟨fun hlt hle hops hwaits => ?taken, fun hbad => ?bad⟩,
    fun s c hon hops hwaits => ?off⟩
  case refused =>
    rcases hi with rfl | rfl
    · exact congrArg Host.Outcome.next ((State.resolveRetry_notClosed hclosed).trans (State.resolveErr_sets haborting haborted))
    · exact congrArg Host.Outcome.next ((State.resolveAbort_notClosed hclosed).trans (State.resolveErr_sets haborting haborted))
  case taken =>
    subst hx
    have hgood : s.tailBad c tail = false := by simp [State.tailBad, hlt, hle]
    exact ⟨_, congrArg Host.Outcome.next (State.tailWrite_taken hgood hops hwaits), State.tail_tailTaken hlt,
      State.rd_tailTaken tail _ (by decide), rfl, State.rd_tailTaken tail _ (by decide), rfl, rfl, rfl⟩
  case bad =>
    subst hx
    have hbad' : s.tailBad c tail = true := by simpa [State.tailBad] using hbad.symm
    exact congrArg Host.Outcome.next (State.tailWrite_bad hbad')
  case off =>
    set u := s.wr F.XLT_CTX_EN 0 c with hu
    have hregs := u.regsBut_dropQuires c
    obtain ⟨htlbs, hobj, hkept⟩ := u.dropQuires_keeps c
    have hstats : (u.dropQuires c).ctxStats = s.ctxStats := hkept.trans (s.ctxStats_wr _ _ _ _ (by decide))
    have hblot : ((u.dropQuires c).dropXlt c).blot c = { (u.closeQuire c false).blot c with recs := [], closed := [], waiting := [] } :=
      State.blot_dropQuires u c
    refine ⟨_, congrArg Host.Outcome.next (State.xltDisable_idle hon hops hwaits), ?_, fun x hx => ?_, fun x hx => ?_, fun x hx => ?_,
      ?_, ?_, ?_, fun x hx hc => ?_, State.rd_of_ctxStats hstats _ rfl _ _, hobj⟩
    · rw [State.on, State.rd_of_regs (State.dropXlt_regs _ _), hregs.rd _ (by decide), hu, State.rd_wr_self _ _ _ _ _ (by decide)]
      rfl
    · simpa using (List.mem_filter.mp hx).2
    · simpa using (List.mem_filter.mp hx).2
    · simpa using (List.mem_filter.mp hx).2
    · rw [hblot]
    · rw [hblot]
    · rw [hblot]
      exact u.openQ_closeQuire c false
    · exact List.mem_filter.mpr ⟨htlbs ▸ hx, by simpa using hc⟩

end Sys2Proof.Machine
end

section
/-! SUPPORT. The end of an abort (12_shared_objects.md R256) beside a record of the log that waited for it (17_fault_tolerance.md R355):
CTX_ABORTED writes the record to stack memory. -/

namespace Sys2Proof.Machine

open Sys2Proof

/-- Context 1 is ABORTING with no command left, and the log, which is on, owes the record of the data-loss response that aborted it. -/
def owingState : State :=
  let s := (State.reset.wr F.CTX_STAT_STATE ctxAborting 1).wr F.REC_LOG_BASE_EN 1
  { s with rcv := { s.rcv with logs := [{ s.newRec fCcDirty 3 0 0 with aborted := 2 }] } }

theorem mem_ctxAbortEnd_owingState : (owingState.ctxAbortEnd 1).mem ≠ owingState.mem := by decide +kernel

/-- Refutes O43: the record of a response is written once the last context that it aborted reaches ABORTED, so memory changes. -/
theorem not_releases : ¬ Obligations.Releases := by
  rintro ⟨-, -, -, -, -, -, -, -, hends⟩
  obtain ⟨t, hexec, -, -, -, hmem, -⟩ := hends owingState 1 (by decide +kernel) rfl
  obtain rfl : owingState.ctxAbortEnd 1 = t := Host.Outcome.next.inj hexec
  exact mem_ctxAbortEnd_owingState hmem

end Sys2Proof.Machine
end

section
/-! SUPPORT. K0's operation queue (12_shared_objects.md R252): what the end of an operation changes, and how one is refused. -/

namespace Sys2Proof.Machine

open Sys2Proof

/-! ### The end of an operation -/

/-- `t` is `s` with operations gone from the queue, none of them with an effect in progress: OBJ_SEQ and OBJ_ERR are all that has changed
of the registers. -/
structure State.OpEnds (s t : State) : Prop where
  frame : ∃ r l, t = { s with regs := r, obj := { s.obj with ops := l, busy := false } }
  regs : s.RegsBut [.OBJ_ERR, .OBJ_SEQ] t

theorem State.OpEnds.trans {s t u : State} (h : s.OpEnds t) (k : t.OpEnds u) : s.OpEnds u := by
  obtain ⟨_, _, rfl⟩ := h.frame
  obtain ⟨_, _, rfl⟩ := k.frame
  exact ⟨⟨_, _, rfl⟩, h.regs.trans k.regs⟩

theorem State.opEnds_popOp (s : State) : s.OpEnds s.popOp :=
  ⟨⟨_, _, rfl⟩, ((State.RegsBut.refl _ s).keep rfl).wr _ _ _ _ (by decide)⟩

theorem State.regsBut_objErr (s : State) (seq code : Nat) : s.RegsBut [.OBJ_ERR, .OBJ_SEQ] (s.objErr seq code) :=
  .ite (.refl _ s) ((((State.RegsBut.refl _ s).wr F.OBJ_ERR_SEQ _ 0 0 (by decide)).wr F.OBJ_ERR_CODE _ 0 0 (by decide)).wr
    F.OBJ_ERR_VALID _ 0 0 (by decide))

theorem State.objErr_frame (s : State) (seq code : Nat) : ∃ r, s.objErr seq code = { s with regs := r } := by
  unfold State.objErr
  split
  · exact ⟨_, rfl⟩
  · exact ⟨_, rfl⟩

theorem State.opEnds_refused (s : State) (seq code : Nat) : s.OpEnds (s.objErr seq code).popOp := by
  have hregs := s.regsBut_objErr seq code
  have hpop := (s.objErr seq code).opEnds_popOp
  obtain ⟨r, hr⟩ := s.objErr_frame seq code
  obtain ⟨r', l, hl⟩ := hpop.frame
  refine ⟨⟨r', l, ?_⟩, hregs.trans hpop.regs⟩
  rw [hl, hr]

theorem State.opEnds_flushBad (n : Nat) {s t : State} (h : s.OpEnds t) : s.OpEnds (State.flushBad n t) := by
  induction n generalizing t with
  | zero => exact h
  | succ n ih =>
    unfold State.flushBad
    split
    · exact h
    · split
      · exact ih (h.trans (t.opEnds_refused _ _))
      · split
        · exact ih (h.trans (t.opEnds_refused _ _))
        · exact h

theorem State.opEnds_endOp (s : State) : s.OpEnds s.endOp := State.opEnds_flushBad 64 s.opEnds_popOp

/-- With nothing else queued the end of an operation empties the queue. -/
theorem State.endOp_last {s : State} (h : s.obj.ops.tail = []) : s.endOp = s.popOp := by
  have hnone : s.popOp.obj.ops = [] := h
  rw [State.endOp, State.flushBad, hnone]

section
variable (s : State)

@[simp] theorem State.endOp_mem : s.endOp.mem = s.mem := by obtain ⟨r, l, h⟩ := s.opEnds_endOp.frame; rw [h]
@[simp] theorem State.endOp_lines : s.endOp.lines = s.lines := by obtain ⟨r, l, h⟩ := s.opEnds_endOp.frame; rw [h]
@[simp] theorem State.endOp_hostMem : s.endOp.hostMem = s.hostMem := by obtain ⟨r, l, h⟩ := s.opEnds_endOp.frame; rw [h]
@[simp] theorem State.endOp_stk : s.endOp.stk = s.stk := by obtain ⟨r, l, h⟩ := s.opEnds_endOp.frame; rw [h]
@[simp] theorem State.endOp_cmd : s.endOp.cmd = s.cmd := by obtain ⟨r, l, h⟩ := s.opEnds_endOp.frame; rw [h]
@[simp] theorem State.endOp_syn : s.endOp.syn = s.syn := by obtain ⟨r, l, h⟩ := s.opEnds_endOp.frame; rw [h]
@[simp] theorem State.endOp_thr : s.endOp.thr = s.thr := by obtain ⟨r, l, h⟩ := s.opEnds_endOp.frame; rw [h]
@[simp] theorem State.endOp_ctxs : s.endOp.obj.ctxs = s.obj.ctxs := by obtain ⟨r, l, h⟩ := s.opEnds_endOp.frame; rw [h]
@[simp] theorem State.endOp_mos : s.endOp.obj.mos = s.obj.mos := by obtain ⟨r, l, h⟩ := s.opEnds_endOp.frame; rw [h]
@[simp] theorem State.endOp_graphs : s.endOp.obj.graphs = s.obj.graphs := by obtain ⟨r, l, h⟩ := s.opEnds_endOp.frame; rw [h]
@[simp] theorem State.endOp_saved : s.endOp.obj.saved = s.obj.saved := by obtain ⟨r, l, h⟩ := s.opEnds_endOp.frame; rw [h]
@[simp] theorem State.endOp_saving : s.endOp.obj.saving = s.obj.saving := by obtain ⟨r, l, h⟩ := s.opEnds_endOp.frame; rw [h]
@[simp] theorem State.endOp_busy : s.endOp.obj.busy = false := by obtain ⟨r, l, h⟩ := s.opEnds_endOp.frame; rw [h]

theorem State.endOp_same : SameMemory s s.endOp := ⟨s.endOp_mem, s.endOp_lines, s.endOp_hostMem⟩

theorem State.endOp_rd (f : Fld) (hf : f.reg ∉ [Reg.OBJ_ERR, .OBJ_SEQ]) (i j : Nat) : s.endOp.rd f i j = s.rd f i j :=
  s.opEnds_endOp.regs.rd f hf i j

theorem State.endOp_rdByte (k a : Nat) : s.endOp.rdByte k a = s.rdByte k a := State.rdByte_congr s.endOp_same s.endOp_stk k a

theorem State.endOp_done (h : s.obj.ops.tail = []) :
    s.endOp.rd F.OBJ_SEQ_DONE = (s.rd F.OBJ_SEQ_DONE + 1) % 2 ^ 32 ∧ s.endOp.obj.ops = [] := by
  rw [State.endOp_last h]
  exact ⟨State.rd_wr_self _ _ _ _ _ (by decide), h⟩

end

/-! ### The operation at the head -/

/-- A context that is LIVE takes every operation on its objects (Table 12.3). -/
theorem State.ctxTakes_live {s : State} {c : Nat} (h : s.ctxState c = ctxLive) (op : Nat) : s.ctxTakes c op = true := by
  simp [State.ctxTakes, h]

end Sys2Proof.Machine
end

section
/-! SUPPORT. Whole lines written, and fields of a memory object's entry (12_shared_objects.md R259). -/

namespace Sys2Proof.Machine

open Sys2Proof

/-! ### Whole lines written -/

/-- Whole lines written, whatever their kind, read as they were written, and every other line as before. -/
theorem State.wrLines_whole (k : Nat) {m n : Nat} (hmn : m ≤ n) {s : State} {ln : Nat} {bs : List Byte} (hlen : bs.length = 128 * m)
    (htrip : ∀ i < m, s.tripped (ln + i) = false) :
    (∀ i (hi : i < bs.length), (State.wrLines k n s (128 * ln) bs).rdByte k (128 * ln + i) = bs[i]) ∧
      ∀ j a, a / 128 < ln ∨ ln + m ≤ a / 128 → (State.wrLines k n s (128 * ln) bs).rdByte j a = s.rdByte j a := by
  induction m generalizing n s ln bs with
  | zero =>
    obtain rfl : bs = [] := List.length_eq_zero_iff.mp hlen
    have hnone : State.wrLines k n s (128 * ln) [] = s := by cases n <;> rfl
    rw [hnone]
    exact ⟨fun i hi => absurd hi (Nat.not_lt_zero i), fun _ _ _ => rfl⟩
  | succ m ih =>
    obtain ⟨n, rfl⟩ : ∃ p, n = p + 1 := ⟨n - 1, by omega⟩
    have hmore : bs.isEmpty = false := by
      cases bs with
      | nil => simp at hlen
      | cons => rfl
    have hstep : State.wrLines k (n + 1) s (128 * ln) bs =
        State.wrLines k n (s.wrLine k ln 0 (bs.take 128)) (128 * (ln + 1)) (bs.drop 128) := by
      simp only [State.wrLines, hmore, Bool.false_eq_true, if_false, Nat.mul_div_cancel_left ln (by decide : 0 < 128),
        Nat.mul_mod_right, Nat.sub_zero]
    have htake : (bs.take 128).length = 128 := by rw [List.length_take]; omega
    have hline : s.LineWritten (s.wrLine k ln 0 (bs.take 128)) k ln (bytesFrom 0 (bs.take 128)) :=
      State.wrLine_written k (htrip 0 (Nat.succ_pos m)) (.inl htake) (by omega)
    obtain ⟨hput, hkeep⟩ := ih (n := n) (s := s.wrLine k ln 0 (bs.take 128)) (ln := ln + 1) (bs := bs.drop 128) (by omega)
      (by rw [List.length_drop]; omega)
      (fun i hi => (State.on_of_regs hline.regs _ _ _).trans (Nat.add_right_comm ln i 1 ▸ htrip (i + 1) (by omega)))
    rw [hstep]
    refine ⟨fun i hi => ?_, fun j a ha => (hkeep j a (by omega)).trans (hline.rdByte_ne j (by omega))⟩
    by_cases hfirst : i < 128
    · rw [hkeep k _ (by omega)]
      have hbyte : bytesFrom 0 (bs.take 128) i = some bs[i] := by simp [bytesFrom, hfirst, hi]
      exact hline.rdByte_put hfirst hbyte
    · have hrest := hput (i - 128) (by rw [List.length_drop]; omega)
      have haddr : 128 * (ln + 1) + (i - 128) = 128 * ln + i := by omega
      have hindex : 128 + (i - 128) = i := by omega
      simpa only [haddr, List.getElem_drop, hindex] using hrest

/-- Zeros written from the start of a line on, over `m` whole lines of stacks that run. -/
theorem State.rdByte_zeros {s : State} {pa m : Nat} (hpa : pa % 128 = 0) (htrip : ∀ i < m, s.tripped (pa / 128 + i) = false) {i : Nat}
    (hi : i < 128 * m) : (s.wrBytes devKey pa (zeros (128 * m))).rdByte devKey (pa + i) = 0 := by
  have hlen : (zeros (128 * m)).length = 128 * m := List.length_replicate
  have haddr : 128 * (pa / 128) = pa := by omega
  have hwritten := (State.wrLines_whole devKey (m := m) (n := (zeros (128 * m)).length / 128 + 2) (by omega) hlen htrip).1 i
    (by rw [hlen]; exact hi)
  rw [haddr] at hwritten
  exact hwritten.trans (by simp [zeros])

/-! ### Numbers written within a line -/

section
variable {s : State} {pa n : Nat} (hn : 0 < n) (hin : pa % 128 + n ≤ 128) (hclean : s.linePoison (pa / 128) = .none)
include hn hin hclean

theorem State.wrNat_written (k v : Nat) :
    s.LineWritten (s.wrNat k pa n v) k (pa / 128) (bytesFrom (pa % 128) (leBytes n v)) := by
  have hlen := length_leBytes n v
  have htrip : s.tripped (pa / 128) = false := by
    by_contra h
    rw [Bool.not_eq_false] at h
    simp [State.linePoison, h] at hclean
  have hwithin := s.wrBytes_within k (pa / 128) (off := pa % 128) (bs := leBytes n v)
    (fun e => by rw [e] at hlen; exact hn.ne hlen) (by rw [hlen]; exact hin)
  rw [Nat.div_add_mod] at hwithin
  rw [State.wrNat, hwithin]
  exact State.wrLine_written k htrip (.inr hclean) (by rw [hlen]; exact hin)

theorem State.linePoison_wrNat (k v : Nat) : (s.wrNat k pa n v).linePoison (pa / 128) = .none := by
  have htrip : s.tripped (pa / 128) = false := by
    by_contra h
    rw [Bool.not_eq_false] at h
    simp [State.linePoison, h] at hclean
  exact (State.wrNat_written hn hin hclean k v).linePoison htrip

theorem State.rdNat_wrNat_self (k v : Nat) : (s.wrNat k pa n v).rdNat k pa n = v % 256 ^ n := by
  have hwritten := State.wrNat_written hn hin hclean k v
  have hbytes := hwritten.rdBytes (off := pa % 128) (by rw [length_leBytes]; exact hin) (fun i hi => bytesFrom_add hi)
  rw [Nat.div_add_mod, length_leBytes] at hbytes
  rw [State.rdNat, hbytes, leNat_leBytes]

/-- A number beside the one written, in a line stored under the writer's key. -/
theorem State.rdNat_wrNat_apart {k : Nat} (v : Nat) (hser : ∃ m, mget s.lines (pa / 128) = some m ∧ m.wser = s.keySer k) {a l : Nat}
    (hline : a / 128 = pa / 128) (hl : a % 128 + l ≤ 128) (hap : a + l ≤ pa ∨ pa + n ≤ a) :
    (s.wrNat k pa n v).rdNat k a l = s.rdNat k a l := by
  have hwritten := State.wrNat_written hn hin hclean k v
  refine congrArg leNat (List.map_congr_left (fun i hi => ?_))
  have hi' := List.mem_range.mp hi
  have haddr : a + i = 128 * (pa / 128) + (a % 128 + i) := by omega
  rw [haddr]
  refine hwritten.rdByte_kept (by omega) ?_ hser
  unfold bytesFrom
  split
  · exact List.getElem?_eq_none (by rw [length_leBytes]; omega)
  · rfl

theorem State.rdByte_wrNat_ne (k v j : Nat) {a : Nat} (ha : a / 128 ≠ pa / 128) : (s.wrNat k pa n v).rdByte j a = s.rdByte j a :=
  (State.wrNat_written hn hin hclean k v).rdByte_ne j ha

end

end Sys2Proof.Machine
end

section
/-! SUPPORT. Contexts created, and a CREATE refused (12_shared_objects.md R252, R254-R257). -/

namespace Sys2Proof.Machine

open Sys2Proof

theorem State.poisonOf_eq_none {s : State} {pa n : Nat} : s.poisonOf pa n = .none ↔ ∀ l ∈ linesOf pa n, s.linePoison l = .none := by
  have hkinds (p : Poison) : p = .none ↔ (p == .poison) = false ∧ (p == .lost) = false := by cases p <;> decide
  unfold State.poisonOf
  constructor
  · intro h l hl
    split at h
    · cases h
    · split at h
      · cases h
      · rename_i hp hlost
        simp only [List.any_eq_true, not_exists, not_and, Bool.not_eq_true] at hp hlost
        exact (hkinds _).mpr ⟨hp l hl, hlost l hl⟩
  · intro h
    have hnot (p : Poison) (hp : (Poison.none == p) = false) : (linesOf pa n).any (fun l => s.linePoison l == p) = false := by
      refine List.any_eq_false.mpr (fun l hl => ?_)
      rw [h l hl, hp]
      exact Bool.false_ne_true
    rw [hnot _ (by decide), hnot _ (by decide), if_neg Bool.false_ne_true, if_neg Bool.false_ne_true]

theorem State.rdNat_congr {s t : State} {k : Nat} (h : ∀ a, t.rdByte k a = s.rdByte k a) (a n : Nat) : t.rdNat k a n = s.rdNat k a n :=
  congrArg leNat (List.map_congr_left (fun _ _ => h _))

/-! ### Contexts (R254-R257; 15_interrupts.md R311) -/

/-- The registers of interrupt sources that a CREATE writes. -/
def srcRegs : List Reg := [.INT_SRC_CTL, .INT_TGT_LO, .INT_TGT_HI]

theorem State.regsBut_srcCreate (s : State) (p n : Nat) : s.RegsBut srcRegs (s.srcCreate p n) := by
  unfold State.srcCreate
  extract_lets m owned
  have howned : s.RegsBut srcRegs owned :=
    ((((State.RegsBut.refl _ s).wr F.INT_SRC_CTL_OWNER _ n 0 (by decide)).wr F.INT_SRC_CTL_PRIO _ n 0 (by decide)).wr
      F.INT_SRC_CTL_EN _ n 0 (by decide)).wr F.INT_SRC_CTL_PEND _ n 0 (by decide)
  have hmask := ((howned.wr F.INT_SRC_CTL_ACTIVE 0 n 0 (by decide)).wr F.INT_TGT_LO_TGT (m.toNat % 2 ^ 64) n 0 (by decide)).wr
    F.INT_TGT_HI_TGT (m.toNat / 2 ^ 64) n 0 (by decide)
  exact hmask.keep (State.syncLevels_regs _)

theorem State.sameWork_srcCreate (s : State) (p n : Nat) : s.SameWork (s.srcCreate p n) := by
  simp [State.SameWork, State.srcCreate, State.setMask]

/-- CTX_STAT of a context slot taken: LIVE, its submission numbers from 0. -/
def State.ctxStarted (s : State) (c : Nat) : State :=
  ((s.wr F.CTX_STAT_STATE ctxLive c).wr F.CTX_STAT_ABORT_STATUS stOk c).wr F.CTX_STAT_NEXT_SEQ 0 c

/-- The slot taken, and its status page zeroed. -/
def State.ctxOpened (s : State) (c p : Nat) : State :=
  { s.ctxStarted c with obj := { s.obj with ctxs := aput s.obj.ctxs c ⟨p, 0, none, false⟩ } }
def State.pageZeroed (s : State) (c : Nat) : State := s.wrBytes devKey (s.statusPage c) (zeros 4096)

/-- Its interrupt sources are made. -/
def State.ctxMade (s : State) (c p : Nat) : State :=
  (ctxSrcs c).foldl (fun s n => s.srcCreate p n) ((s.ctxOpened c p).pageZeroed c)

section
variable (s : State) (c p : Nat)

theorem State.ctxOpened_regs : (s.ctxOpened c p).regs = (s.ctxStarted c).regs := rfl

theorem State.regsBut_ctxOpened : s.RegsBut [.CTX_STAT] (s.ctxOpened c p) :=
  ((((State.RegsBut.refl _ s).wr F.CTX_STAT_STATE _ c 0 (by decide)).wr F.CTX_STAT_ABORT_STATUS _ c 0 (by decide)).wr
    F.CTX_STAT_NEXT_SEQ _ c 0 (by decide)).keep (s.ctxOpened_regs c p)

theorem State.ctxState_ctxOpened (i : Nat) : (s.ctxOpened c p).ctxState i = if i = c then ctxLive else s.ctxState i := by
  rw [State.ctxState, State.rd_of_regs (s.ctxOpened_regs c p), State.ctxStarted, State.rd_wr_apart _ _ _ _ _ _ (by decide) (by decide),
    State.rd_wr_apart _ _ _ _ _ _ (by decide) (by decide)]
  split
  · rename_i h
    rw [h]
    exact State.rd_wr_self _ _ _ _ _ (by decide)
  · rename_i h
    exact State.rd_wr_ne _ _ _ _ _ _ _ _ (by simpa using Ne.symm h)

theorem State.nextSeq_ctxOpened : (s.ctxOpened c p).rd F.CTX_STAT_NEXT_SEQ c = 0 := by
  rw [State.rd_of_regs (s.ctxOpened_regs c p), State.ctxStarted]
  exact State.rd_wr_self _ _ _ _ _ (by decide)

theorem State.pageZeroed_frame : ∃ m l, s.pageZeroed c = { s with mem := m, lines := l } := s.wrBytes_frame _ _ _

theorem State.pageZeroed_regs : (s.pageZeroed c).regs = s.regs := by
  obtain ⟨m, l, h⟩ := s.pageZeroed_frame c
  rw [h]

theorem State.rdByte_pageZeroed (htrip : ∀ i < 32, s.tripped (s.statusPage c / 128 + i) = false) {i : Nat} (hi : i < 4096) :
    (s.pageZeroed c).rdByte devKey (s.statusPage c + i) = 0 :=
  State.rdByte_zeros (m := 32) (by unfold State.statusPage; omega) htrip hi

theorem State.statusPage_ctxOpened : (s.ctxOpened c p).statusPage c = s.statusPage c :=
  congrArg (· * 4096) ((s.regsBut_ctxOpened c p).rd F.CTX_CFG_STATUS (by decide) c 0)

theorem State.ctxMade_work : ((s.ctxOpened c p).pageZeroed c).SameWork (s.ctxMade c p) :=
  State.SameWork.foldl _ (fun s n => s.sameWork_srcCreate p n) _ _

theorem State.regsBut_ctxMade : (s.ctxOpened c p).RegsBut srcRegs (s.ctxMade c p) :=
  ((State.RegsBut.refl _ _).keep (State.pageZeroed_regs _ _)).foldl _ (fun s n => s.regsBut_srcCreate p n) _

theorem State.ctxMade_obj : (s.ctxMade c p).obj = (s.ctxOpened c p).obj := by
  obtain ⟨-, -, -, -, hobj, -⟩ := s.ctxMade_work c p
  obtain ⟨m, l, h⟩ := (s.ctxOpened c p).pageZeroed_frame c
  rw [hobj, h]

theorem State.rdByte_ctxMade (htrip : ∀ i < 32, s.tripped (s.statusPage c / 128 + i) = false) {i : Nat} (hi : i < 4096) :
    (s.ctxMade c p).rdByte devKey (s.statusPage c + i) = 0 := by
  have hwork := s.ctxMade_work c p
  rw [State.rdByte_congr hwork.sameMemory hwork.stk, ← s.statusPage_ctxOpened c p]
  refine State.rdByte_pageZeroed _ c (fun j hj => ?_) hi
  rw [s.statusPage_ctxOpened c p]
  exact (congrArg (· == 1) ((s.regsBut_ctxOpened c p).rd F.STK_STAT_TRIP (by decide) _ 0)).trans (htrip j hj)

end

theorem State.ctxCreate_makes {s : State} {o : ObjOp} {d : PartDef} (hhead : s.headOp 0 oCreate = some o)
    (hfree : s.ctxState o.index = ctxFree) (hpart : s.partDef (s.rd F.CTX_CFG_PART o.index) = some d)
    (hswitch : s.switchHolds (s.rd F.CTX_CFG_PART o.index) = false) (hreset : s.rst.parts.contains (s.rd F.CTX_CFG_PART o.index) = false) :
    s.ctxCreate = (s.ctxMade o.index (s.rd F.CTX_CFG_PART o.index)).endOp := by
  simp only [State.ctxCreate, hhead, hfree, hpart, hswitch, hreset, bne_self_eq_false, Option.isNone_some, Bool.or_self, Bool.false_eq_true,
    if_false]
  rfl

theorem State.runs_ctxCreate {s : State} {o : ObjOp} {p : Nat} {d : PartDef} (hhead : s.headOp 0 oCreate = some o)
    (hfree : s.ctxState o.index = ctxFree) (hp : p = s.rd F.CTX_CFG_PART o.index) (hpart : s.partDef p = some d)
    (hswitch : s.switchHolds p = false) (hreset : s.rst.parts.contains p = false)
    (htrip : ∀ i < 32, s.tripped (s.statusPage o.index / 128 + i) = false) :
    Runs .ctxCreate s (fun t => t.ctxState o.index = ctxLive ∧ t.rd F.CTX_STAT_NEXT_SEQ o.index = 0 ∧ t.nextSeq o.index = 0 ∧
      aget t.obj.ctxs o.index = some ⟨p, 0, none, false⟩ ∧ (∀ i < 4096, t.rdByte devKey (s.statusPage o.index + i) = 0) ∧
      (∀ c, c ≠ o.index → t.ctxState c = s.ctxState c) ∧
      (s.obj.ops = [o] → t.rd F.OBJ_SEQ_DONE = (s.rd F.OBJ_SEQ_DONE + 1) % 2 ^ 32 ∧ t.obj.ops = [])) := by
  have hmakes : s.ctxCreate = (s.ctxMade o.index p).endOp := by
    rw [hp] at hpart hswitch hreset ⊢
    exact State.ctxCreate_makes hhead hfree hpart hswitch hreset
  clear hp hpart hswitch hreset hhead hfree
  generalize o.index = c at *
  have hregs := s.regsBut_ctxMade c p
  have hstate (i : Nat) : (s.ctxMade c p).endOp.ctxState i = if i = c then ctxLive else s.ctxState i := by
    rw [State.ctxState, State.endOp_rd _ _ (by decide), hregs.rd _ (by decide)]
    exact s.ctxState_ctxOpened c p i
  have hctx : aget (s.ctxMade c p).endOp.obj.ctxs c = some ⟨p, 0, none, false⟩ := by
    rw [State.endOp_ctxs, State.ctxMade_obj]
    exact aget_aput_self _ _ _
  refine ⟨(s.ctxMade c p).endOp, congrArg Host.Outcome.next hmakes, ?_, ?_, ?_, hctx, fun i hi => ?_,
    fun i hi => ?_, fun hops => ?_⟩
  · rw [hstate, if_pos rfl]
  · rw [State.endOp_rd _ _ (by decide), hregs.rd _ (by decide), State.nextSeq_ctxOpened]
  · rw [State.nextSeq, hctx]
  · rw [State.endOp_rdByte]
    exact s.rdByte_ctxMade c p htrip hi
  · rw [hstate, if_neg hi]
  · have htail : (s.ctxMade c p).obj.ops.tail = [] := by
      rw [State.ctxMade_obj]
      exact congrArg List.tail hops
    obtain ⟨hdone, hempty⟩ := State.endOp_done _ htail
    refine ⟨?_, hempty⟩
    rw [hdone, hregs.rd _ (by decide), (s.regsBut_ctxOpened c p).rd _ (by decide)]

/-- A CREATE of a slot that is not free is refused (R252). -/
theorem State.runs_ctxCreate_refused {s : State} {o : ObjOp} (hhead : s.headOp 0 oCreate = some o) (hfree : s.ctxState o.index ≠ ctxFree)
    (hops : s.obj.ops = [o]) (hvalid : s.on F.OBJ_ERR_VALID = false) :
    Runs .ctxCreate s (fun t => t.rd F.OBJ_ERR_CODE = eState ∧ t.rd F.OBJ_ERR_SEQ = o.seq % 2 ^ 32 ∧ t.on F.OBJ_ERR_VALID = true ∧
      t.rd F.OBJ_SEQ_DONE = (s.rd F.OBJ_SEQ_DONE + 1) % 2 ^ 32 ∧ t.obj.ops = [] ∧ t.ctxState o.index = s.ctxState o.index ∧
      t.obj.ctxs = s.obj.ctxs ∧ SameMemory s t) := by
  set e := s.objErr o.seq eState with he
  have herr : e = ((s.wr F.OBJ_ERR_SEQ o.seq).wr F.OBJ_ERR_CODE eState).wr F.OBJ_ERR_VALID 1 := by
    rw [he, State.objErr, hvalid, if_neg Bool.false_ne_true]
  have htail : e.obj.ops.tail = [] := by
    rw [herr]
    exact congrArg List.tail hops
  have hrefused : s.ctxCreate = e.popOp := by
    simp only [State.ctxCreate, hhead, bne_iff_ne.mpr hfree, if_true]
    exact State.endOp_last htail
  have hrd (f : Fld) (hf : f.reg ≠ .OBJ_SEQ) : e.popOp.rd f = e.rd f := State.rd_wr_apart _ _ _ _ _ _ (by decide) (.inl hf.symm)
  refine ⟨_, congrArg Host.Outcome.next hrefused, ?_, ?_, ?_, ?_, htail, ?_, ?_, ?_⟩
  · rw [hrd _ (by decide), herr, State.rd_wr_apart _ _ _ _ _ _ (by decide) (by decide)]
    exact State.rd_wr_self _ _ _ _ _ (by decide)
  · rw [hrd _ (by decide), herr, State.rd_wr_apart _ _ _ _ _ _ (by decide) (by decide), State.rd_wr_apart _ _ _ _ _ _ (by decide) (by decide)]
    exact State.rd_wr_self _ _ _ _ _ (by decide)
  · rw [State.on, hrd _ (by decide), herr]
    exact State.on_wr_self _ F.OBJ_ERR_VALID true 0 0 (by decide) rfl
  · refine (State.rd_wr_self _ _ _ _ _ (by decide)).trans ?_
    show (e.rd F.OBJ_SEQ_DONE + 1) % 2 ^ 32 = _
    rw [herr, State.rd_wr_apart _ _ _ _ _ _ (by decide) (by decide), State.rd_wr_apart _ _ _ _ _ _ (by decide) (by decide),
      State.rd_wr_apart _ _ _ _ _ _ (by decide) (by decide)]
  · refine ((e.opEnds_popOp.regs.rd _ (by decide) _ _).trans ?_)
    exact (s.regsBut_objErr _ _).rd _ (by decide) _ _
  · rw [herr]; rfl
  · rw [herr]; exact ⟨rfl, rfl, rfl⟩

end Sys2Proof.Machine
end

section
/-! SUPPORT. Queues, memory objects, notes and timelines created (12_shared_objects.md R259; 13_command_submission.md R271;
14_synchronisation.md R293). -/

namespace Sys2Proof.Machine

open Sys2Proof

/-! ### Queues (13_command_submission.md R271) -/

/-- The registers of a queue that begins, with its timeout. -/
def State.swqBegun (s : State) (q tmo : Nat) : State :=
  (((((s.setReg .SWQ_STAT q 0 0).setReg .SWQ_CMPL q 0 0).setReg .SWQ_ERRSEQ q 0 0).setReg .SWQ_STK q 0 0).wr F.SWQ_STAT_STATE 1 q).wr
    F.SWQ_CTL_TMO_MS tmo q

/-- The queue that a descriptor of Table 13.1 describes. -/
def descQueue (c : Nat) (d : List Byte) : Swq :=
  ⟨c, leAt d 0 8, leAt d 8 8, leAt d 20 4, leAt d 24 1, leAt d 25 1, bitsOf (leAt d 27 1) 0 2, bitsOf (leAt d 27 1) 2 2,
    bitsOf (leAt d 27 1) 4 1 == 1, 0, none, 0, none, none, false⟩

theorem descQueue_fields (c : Nat) (d : List Byte) : (descQueue c d).ctx = c ∧ (descQueue c d).ringVa = leAt d 0 8 ∧
    (descQueue c d).cmplVa = leAt d 8 8 ∧ (descQueue c d).ringLog = leAt d 24 1 ∧ (descQueue c d).cmplLog = leAt d 25 1 ∧
    (descQueue c d).stockUs = leAt d 20 4 ∧ (descQueue c d).tail = 0 ∧ (descQueue c d).rel = none ∧ (descQueue c d).die = leAt d 27 1 % 4 := by
  simp [descQueue, bitsOf]

theorem State.swqBegun_rd (s : State) (q tmo : Nat) (w : Swq) (f : Fld) (hf : f.reg ∉ [Reg.OBJ_ERR, .OBJ_SEQ]) (i : Nat) :
    ((s.swqBegun q tmo).setSwq q w).endOp.rd f i = (s.swqBegun q tmo).rd f i := by
  have hregs : ((s.swqBegun q tmo).setSwq q w).regs = (s.swqBegun q tmo).regs := rfl
  rw [State.endOp_rd _ f hf, State.rd_of_regs hregs]

theorem State.runs_swqCreate {s : State} {o : ObjOp} {d : List Byte} (hhead : s.headOp 1 oCreate = some o) (hlive : s.ctxState o.ctx = ctxLive)
    (hstate : s.rd F.SWQ_STAT_STATE o.index = 0) (halign : o.arg % 64 = 0) (htop : o.arg + 64 ≤ stackTop) (hpoison : s.poisonOf o.arg 64 = .none)
    (hd : d = s.rdBytes devKey o.arg 64) (hdesc : descBad d = false) (hctx : leAt d 26 1 = o.ctx) :
    Runs .swqCreate s (fun t => t.rd F.SWQ_STAT_STATE o.index = 1 ∧ t.rd F.SWQ_CTL_TMO_MS o.index = leAt d 16 4 % 2 ^ F.SWQ_CTL_TMO_MS.wid ∧
      (∃ w, t.swq o.index = some w ∧ w.ctx = o.ctx ∧ w.ringVa = leAt d 0 8 ∧ w.cmplVa = leAt d 8 8 ∧ w.ringLog = leAt d 24 1 ∧
        w.cmplLog = leAt d 25 1 ∧ w.stockUs = leAt d 20 4 ∧ w.tail = 0 ∧ w.rel = none ∧ w.die = leAt d 27 1 % 4) ∧
      (∀ q, q ≠ o.index → t.swq q = s.swq q) ∧ SameMemory s t) := by
  have hmakes : s.swqCreate = ((s.swqBegun o.index (leAt d 16 4)).setSwq o.index (descQueue o.ctx d)).endOp := by
    have htop' : ¬ stackTop < o.arg + 64 := by omega
    simp only [State.swqCreate, hhead, State.ctxTakes_live hlive, hstate, halign, htop', hpoison, ← hd, hdesc, hctx, bne_self_eq_false,
      Bool.not_true, Bool.or_self, decide_false, Bool.false_eq_true, if_false]
    rfl
  have hsame : SameMemory s ((s.swqBegun o.index (leAt d 16 4)).setSwq o.index (descQueue o.ctx d)) := by
    simp [SameMemory, State.swqBegun, State.setSwq]
  have hcmd := State.endOp_cmd ((s.swqBegun o.index (leAt d 16 4)).setSwq o.index (descQueue o.ctx d))
  refine ⟨_, congrArg Host.Outcome.next hmakes, ?_, ?_, ⟨descQueue o.ctx d, ?_, descQueue_fields _ _⟩, fun q hq => ?_, ?_⟩
  · rw [State.swqBegun_rd _ _ _ _ _ (by decide), State.swqBegun, State.rd_wr_apart _ _ _ _ _ _ (by decide) (by decide)]
    exact State.rd_wr_self _ _ _ _ _ (by decide)
  · rw [State.swqBegun_rd _ _ _ _ _ (by decide)]
    exact State.rd_wr_self _ _ _ _ _ (by decide)
  · rw [State.swq, hcmd]
    exact aget_aput_self _ _ _
  · rw [State.swq, hcmd]
    exact aget_aput_ne _ _ hq.symm
  · exact hsame.trans (State.endOp_same _)

/-! ### Notes and timelines (14_synchronisation.md R293) -/

theorem State.endOp_sameBut {s t : State} {pa n : Nat} (h : SameBut pa n s t) : SameBut pa n s t.endOp :=
  h.trans ⟨fun _ _ _ => t.endOp_rdByte _ _, t.endOp_hostMem⟩

section
variable (s : State) (c i : Nat)

/-- A note's record made, its value 0, its bytes in the sync store open. -/
def State.noteMade : State :=
  ({ s with syn := { s.syn with notes := aput s.syn.notes i ⟨c, none, false⟩ } }.setReg .NOTE_VAL i 0 0).storeOpen

/-- A timeline's record made, its value 0, its bytes in the sync store open. -/
def State.tlMade : State :=
  ({ s with syn := { s.syn with tls := aput s.syn.tls i ⟨c, none, false⟩ } }.setReg .TL_VAL i 0 0).storeOpen

theorem State.noteMade_regs : (s.noteMade c i).regs = (s.setReg .NOTE_VAL i 0 0).regs := rfl

theorem State.tlMade_regs : (s.tlMade c i).regs = (s.setReg .TL_VAL i 0 0).regs := rfl

theorem State.sameBut_noteMade : SameBut s.syncStore (2 ^ 21) s (s.noteMade c i) := by
  have hopen := ({ s with syn := { s.syn with notes := aput s.syn.notes i ⟨c, none, false⟩ } }.setReg .NOTE_VAL i 0 0).sameBut_storeOpen
  have hbase : (({ s with syn := { s.syn with notes := aput s.syn.notes i ⟨c, none, false⟩ } } : State).setReg .NOTE_VAL i 0 0).syncStore =
      s.syncStore := by
    rw [State.syncStore, State.syncStore, State.rd, State.reg_setReg_ne _ _ _ _ _ _ _ _ (by simp)]
    rfl
  rw [hbase] at hopen
  exact hopen

theorem State.sameBut_tlMade : SameBut s.syncStore (2 ^ 21) s (s.tlMade c i) := by
  have hopen := ({ s with syn := { s.syn with tls := aput s.syn.tls i ⟨c, none, false⟩ } }.setReg .TL_VAL i 0 0).sameBut_storeOpen
  have hbase : (({ s with syn := { s.syn with tls := aput s.syn.tls i ⟨c, none, false⟩ } } : State).setReg .TL_VAL i 0 0).syncStore =
      s.syncStore := by
    rw [State.syncStore, State.syncStore, State.rd, State.reg_setReg_ne _ _ _ _ _ _ _ _ (by simp)]
    rfl
  rw [hbase] at hopen
  exact hopen

end

/-- A field of a register set to 0. -/
theorem State.rd_setReg_zero (s : State) (f : Fld) (i j : Nat) : (s.setReg f.reg i j 0).rd f i j = 0 := by
  simp [State.rd, State.reg_setReg_self, bitsOf]

theorem State.rd_setReg_ne (s : State) (f : Fld) {i i' : Nat} (h : i' ≠ i) (j : Nat) (v : W64) : (s.setReg f.reg i j v).rd f i' j = s.rd f i' j := by
  rw [State.rd, State.reg_setReg_ne _ _ _ _ _ _ _ _ (by simpa using h.symm), State.rd]

theorem State.runs_noteCreate {s : State} {o : ObjOp} (hhead : s.headOp 3 oCreate = some o) (hlive : s.ctxState o.ctx = ctxLive)
    (hnone : aget s.syn.notes o.index = none) :
    Runs .noteCreate s (fun t => aget t.syn.notes o.index = some ⟨o.ctx, none, false⟩ ∧ t.noteVal o.index = 0 ∧
      t.on F.NOTE_VAL_SAT o.index = false ∧ (∀ i, i ≠ o.index → t.noteVal i = s.noteVal i) ∧ SameBut s.syncStore (2 ^ 21) s t) := by
  have hmakes : s.noteCreate = (s.noteMade o.ctx o.index).endOp := by
    simp only [State.noteCreate, hhead, State.ctxTakes_live hlive, hnone, Bool.not_true, Bool.false_eq_true, if_false]
    rfl
  have hrd (f : Fld) (hf : f.reg ∉ [Reg.OBJ_ERR, .OBJ_SEQ]) (i : Nat) :
      (s.noteMade o.ctx o.index).endOp.rd f i = (s.setReg .NOTE_VAL o.index 0 0).rd f i :=
    (State.endOp_rd _ f hf i 0).trans (State.rd_of_regs (s.noteMade_regs o.ctx o.index) _ _ _)
  refine ⟨_, congrArg Host.Outcome.next hmakes, ?_, ?_, ?_, fun i hi => ?_, State.endOp_sameBut (s.sameBut_noteMade _ _)⟩
  · rw [State.endOp_syn]
    exact aget_aput_self _ _ _
  · exact (hrd F.NOTE_VAL_COUNT (by decide) _).trans (s.rd_setReg_zero F.NOTE_VAL_COUNT _ _)
  · rw [State.on, hrd F.NOTE_VAL_SAT (by decide), s.rd_setReg_zero F.NOTE_VAL_SAT]
    rfl
  · exact (hrd F.NOTE_VAL_COUNT (by decide) _).trans (s.rd_setReg_ne F.NOTE_VAL_COUNT hi _ _)

theorem State.runs_timelineCreate {s : State} {o : ObjOp} (hhead : s.headOp 4 oCreate = some o) (hlive : s.ctxState o.ctx = ctxLive)
    (hnone : aget s.syn.tls o.index = none) :
    Runs .timelineCreate s (fun t => aget t.syn.tls o.index = some ⟨o.ctx, none, false⟩ ∧ t.tlVal o.index = 0 ∧
      (∀ i, i ≠ o.index → t.tlVal i = s.tlVal i) ∧ SameBut s.syncStore (2 ^ 21) s t) := by
  have hmakes : s.timelineCreate = (s.tlMade o.ctx o.index).endOp := by
    simp only [State.timelineCreate, hhead, State.ctxTakes_live hlive, hnone, Bool.not_true, Bool.false_eq_true, if_false]
    rfl
  have hrd (i : Nat) : (s.tlMade o.ctx o.index).endOp.tlVal i = (s.setReg .TL_VAL o.index 0 0).rd F.TL_VAL_VALUE i :=
    (State.endOp_rd _ F.TL_VAL_VALUE (by decide) i 0).trans (State.rd_of_regs (s.tlMade_regs o.ctx o.index) _ _ _)
  refine ⟨_, congrArg Host.Outcome.next hmakes, ?_, ?_, fun i hi => ?_, State.endOp_sameBut (s.sameBut_tlMade _ _)⟩
  · rw [State.endOp_syn]
    exact aget_aput_self _ _ _
  · exact (hrd _).trans (s.rd_setReg_zero F.TL_VAL_VALUE _ _)
  · exact (hrd _).trans (s.rd_setReg_ne F.TL_VAL_VALUE hi _ _)

/-! ### Memory objects (R259) -/

theorem State.moAt_div (s : State) (i : Nat) {k : Nat} (hk : k < 32) : (s.moAt i + k) / 128 = s.moAt i / 128 := by
  unfold State.moAt
  omega

theorem State.moAt_mod (s : State) (i : Nat) {k n : Nat} (hk : k + n ≤ 32) : (s.moAt i + k) % 128 + n ≤ 128 := by
  unfold State.moAt
  omega

theorem State.linePoison_of_poisonOf {s : State} {pa n : Nat} (hn : 0 < n) (h : s.poisonOf pa n = .none) : s.linePoison (pa / 128) = .none := by
  refine State.poisonOf_eq_none.mp h _ ?_
  rw [linesOf, if_neg hn.ne']
  exact List.mem_map.mpr ⟨0, List.mem_range.mpr (by omega), Nat.add_zero _⟩

/-- An entry's STATE set, and its references none. -/
def State.moUsed (s : State) (i : Nat) : State := (s.wrNat devKey (s.moAt i + 17) 1 1).wrNat devKey (s.moAt i + 20) 4 0

theorem State.moUsed_regs (s : State) (i : Nat) : (s.moUsed i).regs = s.regs := (State.wrNat_regs _ _ _ _ _).trans (State.wrNat_regs _ _ _ _ _)

theorem State.moUsed_obj (s : State) (i : Nat) : (s.moUsed i).obj = s.obj := by
  obtain ⟨m, l, h⟩ := s.wrBytes_frame devKey (s.moAt i + 17) (leBytes 1 1)
  obtain ⟨m', l', h'⟩ := (s.wrNat devKey (s.moAt i + 17) 1 1).wrBytes_frame devKey (s.moAt i + 20) (leBytes 4 0)
  rw [State.moUsed, State.wrNat, h', State.wrNat, h]

section
variable {s : State} {i : Nat} (hpoison : s.poisonOf (s.moAt i) 32 = .none)
include hpoison

theorem State.linePoison_moAt_add {k : Nat} (hk : k < 32) : s.linePoison ((s.moAt i + k) / 128) = .none := by
  rw [s.moAt_div i hk]
  exact State.linePoison_of_poisonOf (by decide) hpoison

theorem State.linePoison_moStarted : (s.wrNat devKey (s.moAt i + 17) 1 1).linePoison ((s.moAt i + 20) / 128) = .none := by
  rw [s.moAt_div i (k := 20) (by decide), ← s.moAt_div i (k := 17) (by decide)]
  exact State.linePoison_wrNat (by decide) (s.moAt_mod i (by decide)) (State.linePoison_moAt_add hpoison (by decide)) _ _

theorem State.rdNat_moUsed : (s.moUsed i).rdNat devKey (s.moAt i + 17) 1 = 1 := by
  have hlines : (s.moAt i + 17) / 128 = (s.moAt i + 20) / 128 := (s.moAt_div i (by decide)).trans (s.moAt_div i (by decide)).symm
  have hwritten := State.wrNat_written (k := devKey) (v := 1) (by decide) (s.moAt_mod i (k := 17) (n := 1) (by decide))
    (State.linePoison_moAt_add hpoison (by decide))
  have hser : ∃ m, mget (s.wrNat devKey (s.moAt i + 17) 1 1).lines ((s.moAt i + 20) / 128) = some m ∧
      m.wser = (s.wrNat devKey (s.moAt i + 17) 1 1).keySer devKey :=
    ⟨_, hlines ▸ hwritten.line_self, (hwritten.keySer devKey).symm⟩
  rw [State.moUsed, State.rdNat_wrNat_apart (by decide) (s.moAt_mod i (by decide)) (State.linePoison_moStarted hpoison) 0 hser hlines
    (s.moAt_mod i (by decide)) (.inl (by omega))]
  exact State.rdNat_wrNat_self (by decide) (s.moAt_mod i (by decide)) (State.linePoison_moAt_add hpoison (by decide)) _ _

theorem State.rdByte_moUsed {a : Nat} (ha : a / 128 ≠ s.moAt i / 128) (k : Nat) : (s.moUsed i).rdByte k a = s.rdByte k a := by
  rw [State.moUsed, State.rdByte_wrNat_ne (by decide) (s.moAt_mod i (by decide)) (State.linePoison_moStarted hpoison) _ _ _
      (by rw [s.moAt_div i (by decide)]; exact ha),
    State.rdByte_wrNat_ne (by decide) (s.moAt_mod i (by decide)) (State.linePoison_moAt_add hpoison (by decide)) _ _ _
      (by rw [s.moAt_div i (by decide)]; exact ha)]

end

/-- An entry in use, and in K0's list of them. -/
def State.moMade (s : State) (i : Nat) : State := { s.moUsed i with obj := { s.obj with mos := i :: s.obj.mos } }

theorem State.obj_frame (s : State) (x : ObjSt) :
    SameMemory s { s with obj := x } ∧ ({ s with obj := x } : State).stk = s.stk ∧ ({ s with obj := x } : State).regs = s.regs :=
  ⟨⟨rfl, rfl, rfl⟩, rfl, rfl⟩

theorem State.rdByte_moMade (s : State) (i k a : Nat) : (s.moMade i).endOp.rdByte k a = (s.moUsed i).rdByte k a := by
  obtain ⟨hsame, hstk, -⟩ := (s.moUsed i).obj_frame { s.obj with mos := i :: s.obj.mos }
  rw [State.endOp_rdByte, State.moMade, State.rdByte_congr hsame hstk]

theorem State.moAt_moMade (s : State) (i : Nat) : (s.moMade i).endOp.moAt i = s.moAt i := by
  obtain ⟨-, -, hregs⟩ := (s.moUsed i).obj_frame { s.obj with mos := i :: s.obj.mos }
  have hbase : (s.moMade i).endOp.rd F.OBJ_BASE_BASE = s.rd F.OBJ_BASE_BASE :=
    (State.endOp_rd _ _ (by decide) 0 0).trans (State.rd_of_regs (hregs.trans (s.moUsed_regs i)) _ _ _)
  simp only [State.moAt, hbase]

theorem State.runs_memobjCreate {s : State} {o : ObjOp} (hhead : s.headOp 2 oCreate = some o) (htop : s.moAt o.index + 32 ≤ stackTop)
    (hpoison : s.poisonOf (s.moAt o.index) 32 = .none) (hlive : s.ctxState o.ctx = ctxLive) (hctx : s.moCtx o.index = o.ctx)
    (hgen : s.moGen o.index = o.gen) (hstate : s.moState o.index = 0) (hva : s.moVa o.index < 2 ^ 57) (hbytes : s.moBytes o.index ≠ 0)
    (hend : s.moVa o.index + s.moBytes o.index ≤ 2 ^ 57) :
    Runs .memobjCreate s (fun t => t.moState o.index = 1 ∧ o.index ∈ t.obj.mos ∧
      (∀ k a, a / 128 ≠ s.moAt o.index / 128 → t.rdByte k a = s.rdByte k a)) := by
  have hread : s.moUnreadable o.index = false := by simp [State.moUnreadable, hpoison, htop]
  have hentry : (decide (2 ^ 57 ≤ s.moVa o.index) || s.moBytes o.index == 0 || decide (2 ^ 57 < s.moVa o.index + s.moBytes o.index)) = false := by
    simpa [hbytes] using ⟨hva, hend⟩
  have hmakes : s.memobjCreate = (s.moMade o.index).endOp := by
    simp only [State.memobjCreate, hhead, hread, State.ctxTakes_live hlive, hctx, hgen, hstate, hentry, bne_self_eq_false, Bool.not_true,
      Bool.or_self, Bool.false_eq_true, if_false]
    rw [State.moMade, ← State.moUsed, State.moUsed_obj]
  have hmem : o.index ∈ (s.moMade o.index).endOp.obj.mos := by
    rw [State.endOp_mos]
    exact List.mem_cons_self
  refine ⟨_, congrArg Host.Outcome.next hmakes, ?_, hmem, fun k a ha => ?_⟩
  · rw [State.moState, if_pos (List.contains_iff_mem.mpr hmem), State.moAt_moMade,
      State.rdNat_congr (s.rdByte_moMade o.index devKey), State.rdNat_moUsed hpoison]
  · rw [State.rdByte_moMade, State.rdByte_moUsed hpoison ha]

end Sys2Proof.Machine
end

section
/-! SUPPORT. Graphs created and patched (12_shared_objects.md R263-R265). -/

namespace Sys2Proof.Machine

open Sys2Proof

/-- A graph's record at the end of the operation that replaces it. -/
theorem State.graph_setGraph_endOp (s : State) (i : Nat) (g : Graph) : aget (s.setGraph i g).endOp.obj.graphs i = some g := by
  rw [State.endOp_graphs]
  exact aget_aput_self _ _ _

/-! ### Node packets replaced -/

/-- A list with the elements at the indices that entries name replaced. -/
def replaced {α : Type} (es : List (Nat × α)) (l : List α) : List α := es.foldl (fun l e => lset l e.1 e.2) l

section
variable {α : Type} (es : List (Nat × α)) (l : List α)

theorem replaced_length : (replaced es l).length = l.length :=
  foldl_keeps _ List.length (fun _ _ => List.length_set) es l

theorem replaced_other {i : Nat} (hi : i ∉ es.map (fun e => e.1)) : (replaced es l)[i]? = l[i]? := by
  induction es generalizing l with
  | nil => rfl
  | cons e es ih =>
    rw [List.map_cons, List.mem_cons, not_or] at hi
    obtain ⟨hne, hrest⟩ := hi
    exact (ih (lset l e.1 e.2) hrest).trans (List.getElem?_set_ne (Ne.symm hne))

theorem replaced_at (hdup : (es.map (fun e => e.1)).Nodup) (hin : ∀ e ∈ es, e.1 < l.length) :
    ∀ e ∈ es, (replaced es l)[e.1]? = some e.2 := by
  induction es generalizing l with
  | nil => exact fun _ he => absurd he List.not_mem_nil
  | cons d es ih =>
    rw [List.map_cons, List.nodup_cons] at hdup
    obtain ⟨hnew, hdup⟩ := hdup
    intro e he
    rcases List.mem_cons.mp he with rfl | he
    · exact (replaced_other es (lset l e.1 e.2) hnew).trans (List.getElem?_set_self (hin e List.mem_cons_self))
    · exact ih (lset l d.1 d.2) hdup (fun x hx => by rw [lset, List.length_set]; exact hin x (List.mem_cons_of_mem _ hx)) e he

end

/-! ### The operations -/

/-- The version that a graph's creation or patch makes, its objects bound for the context's next number. -/
def State.newVersion (s : State) (c ver : Nat) (nodes : List (List Byte)) (es : List (Nat × Nat)) : GVer :=
  ⟨ver, nodes, es, s.nextSeq c, none, (s.versionRefs c (s.nextSeq c) nodes).1, (s.versionRefs c (s.nextSeq c) nodes).2⟩

def imageEdges (edges : List (List Byte)) : List (Nat × Nat) :=
  edges.map (fun e => (bitsOf (leAt e 0 4) 0 12, bitsOf (leAt e 0 4) 16 12))

section
variable {s : State} {o : ObjOp} {h img : List Byte}

theorem State.graphCreate_makes {nodes edges : List (List Byte)} (hhead : s.headOp 5 oCreate = some o) (hlive : s.ctxState o.ctx = ctxLive)
    (hfree : aget s.obj.graphs o.index = none) (htop : o.arg + 32 ≤ stackTop) (hh : h = s.rdBytes devKey o.arg 32) (himage : imageBad h = false)
    (hpoison : s.poisonOf o.arg 32 = .none) (hend : o.arg + leAt h 10 4 ≤ stackTop) (hclean : s.poisonOf o.arg (leAt h 10 4) = .none)
    (himg : img = s.rdBytes devKey o.arg (leAt h 10 4)) (hnodes : nodes = pieces img 32 64 (leAt h 4 2))
    (hedges : edges = pieces img (32 + 64 * leAt h 4 2) 4 (leAt h 6 4)) (hnode : nodes.any (s.nodeBad o.ctx (s.nextSeq o.ctx)) = false)
    (hedge : edges.any (edgeBad (leAt h 4 2)) = false) (hlist : nodes.any (s.listBad o.ctx) = false)
    (hwalk : nodes.findSome? (s.listWalk o.ctx) = none) (hfits : s.storeFits (leAt h 10 4) = true)
    (hrefs : s.versionHolds (s.versionRefs o.ctx (s.nextSeq o.ctx) nodes).1 = false) :
    s.graphCreate = ((s.graphStored.refAll (s.versionRefs o.ctx (s.nextSeq o.ctx) nodes).1).setGraph o.index
      ⟨o.ctx, [s.newVersion o.ctx 1 nodes (imageEdges edges)], false, false⟩).endOp := by
  simp only [State.graphCreate, hhead, State.ctxTakes_live hlive, hfree, hpoison, ← hh, himage, hclean, ← himg, ← hnodes, ← hedges, hnode, hedge,
    hlist, hwalk, hfits, hrefs, Nat.not_lt.mpr htop, Nat.not_lt.mpr hend, bne_self_eq_false, Bool.not_true, Bool.or_self, decide_false,
    Bool.false_eq_true, if_false]
  rfl

theorem State.graphPatch_makes {g : Graph} {v : GVer} {n : Nat} {es : List (Nat × List Byte)} (hhead : s.headOp 5 oPatch = some o)
    (hlive : s.ctxState o.ctx = ctxLive) (hgraph : aget s.obj.graphs o.index = some g) (hctx : g.ctx = o.ctx) (hrel : g.released = false)
    (hcur : g.vers.find? (fun v => v.stop.isNone) = some v) (hvers : g.vers.length < 16) (htop : o.arg + 32 ≤ stackTop)
    (hpoison : s.poisonOf o.arg 32 = .none) (hh : h = s.rdBytes devKey o.arg 32) (hn : n = leAt h 4 2) (hpatch : patchBad h = false)
    (hend : o.arg + 32 + 72 * n ≤ stackTop) (hclean : s.poisonOf o.arg (32 + 72 * n) = .none) (hver : leAt h 6 4 = v.ver)
    (himg : img = s.rdBytes devKey o.arg (32 + 72 * n)) (hes : es = patchEntries img n)
    (hentry : es.any (fun e => v.nodes.length ≤ e.1 || s.nodeBad o.ctx (s.nextSeq o.ctx) e.2 || s.listBad o.ctx e.2) = false)
    (hzero : (pieces img 32 72 n).any (fun e => !zeroIn e 2 8) = false) (hdup : (es.map (fun e => e.1)).Nodup) (hfits : s.storeFits v.size = true)
    (hwalk : es.findSome? (fun e => s.listWalk o.ctx e.2) = none)
    (hrefs : s.versionHolds (s.versionRefs o.ctx (s.nextSeq o.ctx) (replaced es v.nodes)).1 = false) :
    s.graphPatch = ((s.graphStored.refAll (s.versionRefs o.ctx (s.nextSeq o.ctx) (replaced es v.nodes)).1).setGraph o.index
      { g with vers := s.ceased o.ctx g.vers ++ [s.newVersion o.ctx (v.ver + 1) (replaced es v.nodes) v.edges] }).endOp := by
  rw [replaced] at hrefs
  simp only [State.graphPatch, hhead, State.ctxTakes_live hlive, hgraph, hctx, hrel, hcur, hpoison, ← hh, ← hn, hpatch, hclean, hver, ← himg,
    ← hes, hentry, hzero, hdup, hwalk, hfits, hrefs, Nat.not_lt.mpr htop, Nat.not_lt.mpr hend, Nat.not_le.mpr hvers,
    bne_self_eq_false, Bool.not_true, Bool.or_self, decide_false, decide_true, Bool.false_eq_true, if_false]
  rfl

end

end Sys2Proof.Machine
end

section
/-! CLAIM. Objects come into being (12_shared_objects.md R252-R265). -/

namespace Sys2Proof.Machine

open Sys2Proof

/-- Settles O42: each operation is one equation where its checks hold, and the end of an operation leaves everything but K0's queue and
its registers. -/
theorem creation : Obligations.Creation := by
  unfold Obligations.Creation
  refine ⟨fun _ _ _ _ => State.runs_ctxCreate, fun _ _ => State.runs_ctxCreate_refused, fun _ _ _ => State.runs_swqCreate,
    fun _ _ => State.runs_memobjCreate, fun _ _ => State.runs_noteCreate, fun _ _ => State.runs_timelineCreate, ?_, ?_⟩
  · intro s o h img nodes edges hhead hlive hfree htop hh himage hpoison hend hclean himg hnodes hedges hnode hedge hlist hwalk hfits hrefs
    refine ⟨_, congrArg Host.Outcome.next (State.graphCreate_makes hhead hlive hfree htop hh himage hpoison hend hclean himg hnodes hedges
      hnode hedge hlist hwalk hfits hrefs), _, s.newVersion o.ctx 1 nodes (imageEdges edges), State.graph_setGraph_endOp _ _ _, ?_⟩
    simp [State.newVersion, imageEdges]
  · intro s o g v h img n es hhead hlive hgraph hctx hrel hcur hvers htop hpoison hh hn hpatch hend hclean hver himg hes hentry hzero hdup
      hfits hwalk hrefs
    have hin : ∀ e ∈ es, e.1 < v.nodes.length := by
      intro e he
      have hgood := List.any_eq_false.mp hentry e he
      simp only [Bool.or_eq_true, not_or, decide_eq_true_eq, Nat.not_le] at hgood
      obtain ⟨⟨hlen, -⟩, -⟩ := hgood
      exact hlen
    refine ⟨_, congrArg Host.Outcome.next (State.graphPatch_makes hhead hlive hgraph hctx hrel hcur hvers htop hpoison hh hn hpatch hend hclean
      hver himg hes hentry hzero hdup hfits hwalk hrefs), s.newVersion o.ctx (v.ver + 1) (replaced es v.nodes) v.edges,
      State.graph_setGraph_endOp _ _ _, rfl, rfl, rfl, rfl, replaced_length _ _, replaced_at es v.nodes hdup hin,
      fun i hi => replaced_other es v.nodes hi⟩

end Sys2Proof.Machine
end

section
/-! SUPPORT. Doorbells, slots, and queues' registers (13_command_submission.md R272-R274, R287-R290). -/

namespace Sys2Proof.Machine

open Sys2Proof

/-! ### The mapping order (R274) -/

theorem State.placeQueue_frame (s : State) (q : Nat) :
    ∃ l n, s.placeQueue q = { s with cmd := { s.cmd with swqs := l, order := n } } := by
  unfold State.placeQueue
  split
  · exact ⟨_, _, rfl⟩
  · split
    · exact ⟨_, s.cmd.order, rfl⟩
    · split
      · exact ⟨_, _, rfl⟩
      · exact ⟨_, _, rfl⟩

section
variable (s : State) (q : Nat)

@[simp] theorem State.placeQueue_regs : (s.placeQueue q).regs = s.regs := by obtain ⟨l, n, h⟩ := s.placeQueue_frame q; rw [h]
@[simp] theorem State.placeQueue_mem : (s.placeQueue q).mem = s.mem := by obtain ⟨l, n, h⟩ := s.placeQueue_frame q; rw [h]
@[simp] theorem State.placeQueue_lines : (s.placeQueue q).lines = s.lines := by obtain ⟨l, n, h⟩ := s.placeQueue_frame q; rw [h]
@[simp] theorem State.placeQueue_hostMem : (s.placeQueue q).hostMem = s.hostMem := by obtain ⟨l, n, h⟩ := s.placeQueue_frame q; rw [h]
@[simp] theorem State.placeQueue_obj : (s.placeQueue q).obj = s.obj := by obtain ⟨l, n, h⟩ := s.placeQueue_frame q; rw [h]
@[simp] theorem State.placeQueue_cmds : (s.placeQueue q).cmd.cmds = s.cmd.cmds := by obtain ⟨l, n, h⟩ := s.placeQueue_frame q; rw [h]

@[simp] theorem State.placeQueue_rd (f : Fld) (i j : Nat) : (s.placeQueue q).rd f i j = s.rd f i j :=
  State.rd_of_regs (s.placeQueue_regs q) f i j

theorem State.placeQueue_same : SameMemory s (s.placeQueue q) := ⟨s.placeQueue_mem q, s.placeQueue_lines q, s.placeQueue_hostMem q⟩

/-- A queue's place in the mapping order is all of its record that changes. -/
theorem State.swq_placeQueue {s : State} {q : Nat} {w : Swq} (h : s.swq q = some w) : ∃ e, (s.placeQueue q).swq q = some { w with elig := e } := by
  unfold State.placeQueue
  simp only [h]
  split
  · exact ⟨none, aget_aput_self _ _ _⟩
  · split
    · exact ⟨w.elig, h⟩
    · exact ⟨some s.cmd.order, aget_aput_self _ _ _⟩

end

@[simp] theorem State.setSwq_regs (s : State) (q : Nat) (w : Swq) : (s.setSwq q w).regs = s.regs := rfl

/-! ### Packets accepted (R272, R273) -/

/-- `t` is `s` with `n` packets of queue `q` accepted, its context's next number having been `x.next`. -/
structure State.TakesPackets (s : State) (q c : Nat) (x : Ctx) (n : Nat) (t : State) : Prop where
  ctx : aget t.obj.ctxs c = some { x with next := x.next + n }
  new : ∀ k < n, t.cmdOf ⟨c, x.next + k, 0⟩ = some (newCmd q)
  old : ∀ id : CmdId, (id.ctx ≠ c ∨ id.seq < x.next ∨ x.next + n ≤ id.seq) → t.cmdOf id = s.cmdOf id
  state : t.ctxState c = s.ctxState c
  swqs : t.cmd.swqs = s.cmd.swqs
  regs : s.RegsBut [.CTX_STAT] t
  same : SameMemory s t

theorem State.TakesPackets.zero {s : State} {c : Nat} {x : Ctx} (q : Nat) (h : aget s.obj.ctxs c = some x) : s.TakesPackets q c x 0 s :=
  ⟨h, fun _ hk => absurd hk (Nat.not_lt_zero _), fun _ _ => rfl, rfl, rfl, .refl _ s, rfl, rfl, rfl⟩

theorem State.TakesPackets.trans {s t u : State} {q c m n : Nat} {x : Ctx} (h : s.TakesPackets q c x m t)
    (k : t.TakesPackets q c { x with next := x.next + m } n u) : s.TakesPackets q c x (m + n) u where
  ctx := by rw [k.ctx, Nat.add_assoc]
  new i hi := by
    by_cases hm : i < m
    · rw [k.old _ (.inr (.inl (Nat.add_lt_add_left hm _))), h.new i hm]
    · have hnew := k.new (i - m) (by omega)
      have hseq : x.next + m + (i - m) = x.next + i := by omega
      rw [hseq] at hnew
      exact hnew
  old id hid := by
    rw [k.old id (hid.imp_right (Or.imp (Nat.lt_add_right m) (fun hle => by rw [Nat.add_assoc]; exact hle))),
      h.old id (hid.imp_right (Or.imp_right (fun hle => by omega)))]
  state := k.state.trans h.state
  swqs := k.swqs.trans h.swqs
  regs := h.regs.trans k.regs
  same := h.same.trans k.same

theorem State.takesPackets_accept {s : State} {w : Swq} {x : Ctx} (q : Nat) (hctx : aget s.obj.ctxs w.ctx = some x)
    (hlive : s.ctxState w.ctx = ctxLive) : s.TakesPackets q w.ctx x 1 (s.accept q w) := by
  have hnext : s.nextSeq w.ctx = x.next := by rw [State.nextSeq, hctx]
  have hok : submitFail ctxLive = none := rfl
  have haccept : s.accept q w = (({ s.setCmd ⟨w.ctx, x.next, 0⟩ (newCmd q) with
      obj := { s.obj with ctxs := amod s.obj.ctxs w.ctx (fun y => { y with next := x.next + 1 }) } } : State).wr
        F.CTX_STAT_NEXT_SEQ (x.next + 1) w.ctx) := by
    simp only [State.accept, hnext, hlive, hok, State.setCmd]
  have hcmd : (s.accept q w).cmd = (s.setCmd ⟨w.ctx, x.next, 0⟩ (newCmd q)).cmd := by rw [haccept, State.wr_cmd]
  have hof (id : CmdId) : (s.accept q w).cmdOf id = (s.setCmd ⟨w.ctx, x.next, 0⟩ (newCmd q)).cmdOf id := by
    rw [State.cmdOf, hcmd, State.cmdOf]
  refine ⟨?_, fun k hk => ?_, fun id hid => ?_, ?_, ?_, ?_, ?_⟩
  · rw [haccept, State.wr_obj]
    exact (aget_amod_self _ _ _).trans (congrArg _ hctx)
  · obtain rfl : k = 0 := by omega
    rw [hof]
    exact State.cmdOf_setCmd_self _ _ _
  · rw [hof]
    refine State.cmdOf_setCmd_ne _ _ (fun e => ?_)
    simp [e] at hid
  · rw [haccept]
    exact State.rd_wr_apart _ _ _ _ _ _ (by decide) (by decide)
  · rw [hcmd]; rfl
  · rw [haccept]
    exact ((State.RegsBut.refl _ s).keep rfl).wr _ _ _ _ (by decide)
  · rw [haccept]
    exact ⟨rfl, rfl, rfl⟩

theorem State.takesPackets_acceptN {s : State} {w : Swq} {x : Ctx} (q n : Nat) (hctx : aget s.obj.ctxs w.ctx = some x)
    (hlive : s.ctxState w.ctx = ctxLive) : s.TakesPackets q w.ctx x n (State.acceptN q w n s) := by
  induction n generalizing s x with
  | zero => exact .zero q hctx
  | succ n ih =>
    have hone := State.takesPackets_accept q hctx hlive
    have hrest := hone.trans (ih hone.ctx (hone.state.trans hlive))
    rw [Nat.add_comm 1 n] at hrest
    exact hrest

/-! ### The operations -/

theorem State.runs_doorbell {s : State} {q d n : Nat} {v : W32} {w : Swq} {x : Ctx} (hq : s.swq q = some w) (hdying : s.dying 1 q = false)
    (henq : w.devEnq = false) (hctx : aget s.obj.ctxs w.ctx = some x) (hlive : s.ctxState w.ctx = ctxLive)
    (hd : d = (v.toNat + 2 ^ 32 - s.rd F.SWQ_STAT_HEAD q) % 2 ^ 32) (hforward : (w.tail + 2 ^ 32 - s.rd F.SWQ_STAT_HEAD q) % 2 ^ 32 ≤ d)
    (hring : d ≤ 2 ^ w.ringLog) (hn : n = d - (w.tail + 2 ^ 32 - s.rd F.SWQ_STAT_HEAD q) % 2 ^ 32) :
    Runs (.swqDoorbell q v) s (fun t => (∃ y, t.swq q = some y ∧ y.tail = v.toNat ∧ y.ctx = w.ctx) ∧ t.nextSeq w.ctx = x.next + n ∧
      (∀ k < n, t.cmdOf ⟨w.ctx, x.next + k, 0⟩ = some (newCmd q)) ∧
      (∀ id : CmdId, (id.ctx ≠ w.ctx ∨ id.seq < x.next ∨ x.next + n ≤ id.seq) → t.cmdOf id = s.cmdOf id) ∧
      t.rd F.SWQ_STAT_HEAD q = s.rd F.SWQ_STAT_HEAD q ∧ SameMemory s t) := by
  set u := (State.acceptN q w n s).setSwq q { w with tail := v.toNat }
  have hrings : s.doorbell q v.toNat = u.placeQueue q := by
    simp only [u, State.doorbell, hq, hdying, henq, ← hd, ← hn, Nat.not_lt.mpr hforward, Nat.not_lt.mpr hring, Bool.or_self, decide_false,
      Bool.false_eq_true, if_false]
  have htakes := State.takesPackets_acceptN q n hctx hlive
  have hof (id : CmdId) : (u.placeQueue q).cmdOf id = (State.acceptN q w n s).cmdOf id := by
    rw [State.cmdOf, State.placeQueue_cmds]
    rfl
  obtain ⟨e, he⟩ := State.swq_placeQueue (s := u) (q := q) (w := { w with tail := v.toNat }) (aget_aput_self _ _ _)
  refine ⟨_, congrArg Host.Outcome.next hrings, ⟨_, he, rfl, rfl⟩, ?_, fun k hk => (hof _).trans (htakes.new k hk),
    fun id hid => (hof _).trans (htakes.old id hid), ?_, ?_⟩
  · have hobj : (u.placeQueue q).obj = (State.acceptN q w n s).obj := u.placeQueue_obj q
    rw [State.nextSeq, hobj, htakes.ctx]
  · have hregs : (u.placeQueue q).regs = (State.acceptN q w n s).regs := u.placeQueue_regs q
    rw [State.rd_of_regs hregs, htakes.regs.rd _ (by decide)]
  · have hsame : SameMemory (State.acceptN q w n s) u := ⟨rfl, rfl, rfl⟩
    exact (htakes.same.trans hsame).trans (u.placeQueue_same q)

theorem State.doorbell_gone {s : State} {q : Nat} (h : s.swq q = none ∨ s.dying 1 q = true) (v : Nat) : s.doorbell q v = s := by
  unfold State.doorbell
  split
  · rfl
  · rename_i w hw
    rcases h with hnone | hdying
    · rw [hw] at hnone
      cases hnone
    · exact if_pos hdying

theorem State.doorbell_bad {s : State} {q v : Nat} {w : Swq} (hq : s.swq q = some w) (hdying : s.dying 1 q = false)
    (hbad : w.devEnq = true ∨ 2 ^ w.ringLog < (v + 2 ^ 32 - s.rd F.SWQ_STAT_HEAD q) % 2 ^ 32 ∨
      (v + 2 ^ 32 - s.rd F.SWQ_STAT_HEAD q) % 2 ^ 32 < (w.tail + 2 ^ 32 - s.rd F.SWQ_STAT_HEAD q) % 2 ^ 32) :
    s.doorbell q v = s.wr F.SWQ_STAT_DB_ERR 1 q := by
  simp only [State.doorbell, hq, hdying, Bool.false_eq_true, if_false]
  exact if_pos (by simpa only [Bool.or_eq_true, decide_eq_true_eq, or_assoc] using hbad)

/-- Queue `q` put on slot `k`. -/
def State.slotTaken (s : State) (q k : Nat) : State :=
  ((s.wr F.QSLOT_STAT_SWQ q k).wr F.QSLOT_STAT_MAPPED 1 k).wr F.QSLOT_STAT_CLERK (s.clerkServing (k / 16)) k

section
variable {s : State} {q k : Nat}

theorem State.slotTaken_mapped : (s.slotTaken q k).on F.QSLOT_STAT_MAPPED k = true := by
  rw [State.slotTaken, State.on, State.rd_wr_apart _ _ _ _ _ _ (by decide) (by decide)]
  exact State.on_wr_self _ F.QSLOT_STAT_MAPPED true k 0 (by decide) rfl

theorem State.slotTaken_swq (hq : q < 4096) : (s.slotTaken q k).rd F.QSLOT_STAT_SWQ k = q := by
  rw [State.slotTaken, State.rd_wr_apart _ _ _ _ _ _ (by decide) (by decide), State.rd_wr_apart _ _ _ _ _ _ (by decide) (by decide)]
  exact (State.rd_wr_self _ _ _ _ _ (by decide)).trans (Nat.mod_eq_of_lt hq)

theorem State.slotTaken_swq_ne {j : Nat} (hj : j ≠ k) : (s.slotTaken q k).rd F.QSLOT_STAT_SWQ j = s.rd F.QSLOT_STAT_SWQ j := by
  have hne (f g : Fld) : (f.reg, k, 0) ≠ (g.reg, j, 0) := by simp [hj.symm]
  rw [State.slotTaken, State.rd_wr_ne _ _ _ _ _ _ _ _ (hne _ _), State.rd_wr_ne _ _ _ _ _ _ _ _ (hne _ _),
    State.rd_wr_ne _ _ _ _ _ _ _ _ (hne _ _)]

end

theorem State.runs_queueMap {s : State} {q k : Nat} {w : Swq} (hq : s.swq q = some w) (hk : k < 256) (hdie : k / 64 = w.die)
    (hen : s.on F.QSLOT_CTL_EN k = true) (hfree : s.on F.QSLOT_STAT_MAPPED k = false) (helig : s.eligible q = true)
    (hmapped : s.mapped q = false) (hfirst : s.firstWaiting q w = true) (hawake : s.dom (604 + k / 16) = domOn) (hsmall : q < 4096) :
    Runs (.queueMap q k) s (fun t => t.on F.QSLOT_STAT_MAPPED k = true ∧ t.rd F.QSLOT_STAT_SWQ k = q ∧ t.mapped q = true ∧
      t.swq q = some { w with since := 0, elig := none } ∧ (∀ j, j ≠ k → t.rd F.QSLOT_STAT_SWQ j = s.rd F.QSLOT_STAT_SWQ j) ∧ SameMemory s t) := by
  set u := (s.slotTaken q k).setSwq q { w with since := 0, elig := none }
  have hmaps : s.queueMap q k = u := by
    simp only [State.queueMap, hq, hk, hdie, hen, hfree, helig, hmapped, hfirst, hawake, decide_true, beq_self_eq_true, bne_self_eq_false,
      Bool.not_false, Bool.and_self, Bool.false_eq_true, if_true, if_false, u, State.slotTaken]
  have hregs : u.regs = (s.slotTaken q k).regs := State.setSwq_regs _ _ _
  have hon : u.on F.QSLOT_STAT_MAPPED k = true := (State.on_of_regs hregs _ _ _).trans State.slotTaken_mapped
  have hswq : u.rd F.QSLOT_STAT_SWQ k = q := (State.rd_of_regs hregs _ _ _).trans (State.slotTaken_swq hsmall)
  refine ⟨u, congrArg Host.Outcome.next hmaps, hon, hswq, ?_, aget_aput_self _ _ _,
    fun j hj => (State.rd_of_regs hregs _ _ _).trans (State.slotTaken_swq_ne hj), ?_⟩
  · refine List.any_eq_true.mpr ⟨k, List.mem_range.mpr hk, ?_⟩
    rw [hon, hswq]
    exact beq_self_eq_true q
  · simp [u, SameMemory, State.setSwq, State.slotTaken]

theorem State.runs_queueUnmap {s : State} {k : Nat} (wt hd : Bool) (hmapped : s.on F.QSLOT_STAT_MAPPED k = true)
    (hnone : s.unstarted (s.rd F.QSLOT_STAT_SWQ k) = []) :
    Runs (.queueUnmap k wt hd) s (fun t => t.on F.QSLOT_STAT_MAPPED k = false ∧ t.cmd.cmds = s.cmd.cmds ∧ SameMemory s t) := by
  set u := (s.wr F.QSLOT_STAT_MAPPED 0 k).wr F.QSLOT_STAT_SWQ 0 k
  have hfree : s.queueUnmap k wt hd = u.placeQueue (s.rd F.QSLOT_STAT_SWQ k) := by
    simp only [State.queueUnmap, hmapped, hnone, List.isEmpty_nil, Bool.not_true, Bool.false_eq_true, if_false, if_true]
    split <;> rfl
  have hsame : SameMemory s u := by simp [u, SameMemory]
  refine ⟨_, congrArg Host.Outcome.next hfree, ?_, ?_, hsame.trans (u.placeQueue_same _)⟩
  · rw [State.on, State.placeQueue_rd, State.rd_wr_apart _ _ _ _ _ _ (by decide) (by decide), State.rd_wr_self _ _ _ _ _ (by decide)]
    rfl
  · rw [State.placeQueue_cmds, State.wr_cmd, State.wr_cmd]

theorem State.runs_swqResume {s : State} {q : Nat} (herr : s.rd F.SWQ_STAT_STATE q = 2) :
    Runs (.swqResume q) s (fun t => t.rd F.SWQ_STAT_STATE q = 1 ∧ t.rd F.SWQ_STAT_ERR q = stOk ∧
      t.rd F.SWQ_STAT_HEAD q = s.rd F.SWQ_STAT_HEAD q ∧ t.cmd.cmds = s.cmd.cmds ∧ SameMemory s t) := by
  set u := (s.wr F.SWQ_STAT_STATE 1 q).wr F.SWQ_STAT_ERR stOk q
  have hresumes : s.swqResume q = u.placeQueue q := by
    simp only [State.swqResume, herr, beq_self_eq_true, if_true]
    rfl
  have hsame : SameMemory s u := by simp [u, SameMemory]
  refine ⟨_, congrArg Host.Outcome.next hresumes, ?_, ?_, ?_, ?_, hsame.trans (u.placeQueue_same _)⟩
  · rw [State.placeQueue_rd, State.rd_wr_apart _ _ _ _ _ _ (by decide) (by decide)]
    exact State.rd_wr_self _ _ _ _ _ (by decide)
  · rw [State.placeQueue_rd]
    exact State.rd_wr_self _ _ _ _ _ (by decide)
  · rw [State.placeQueue_rd, State.rd_wr_apart _ _ _ _ _ _ (by decide) (by decide), State.rd_wr_apart _ _ _ _ _ _ (by decide) (by decide)]
  · rw [State.placeQueue_cmds, State.wr_cmd, State.wr_cmd]

theorem State.runs_swqAck {s : State} {q : Nat} (v : W32) (hthere : s.rd F.SWQ_STAT_STATE q ≠ 0) :
    Runs (.swqCmplAck q v) s (fun t => t.rd F.SWQ_CMPL_ACK q = v.toNat ∧ t.rd F.SWQ_CMPL_WRITTEN q = s.rd F.SWQ_CMPL_WRITTEN q ∧
      t.cmd.cmds = s.cmd.cmds ∧ SameMemory s t) := by
  have hacks : s.swqAck q v.toNat = (s.wr F.SWQ_CMPL_ACK v.toNat q).placeQueue q := if_neg (by simpa using hthere)
  have hsame : SameMemory s (s.wr F.SWQ_CMPL_ACK v.toNat q) := by simp [SameMemory]
  refine ⟨_, congrArg Host.Outcome.next hacks, ?_, ?_, ?_, hsame.trans (State.placeQueue_same _ _)⟩
  · rw [State.placeQueue_rd, State.rd_wr_self _ _ _ _ _ (by decide)]
    exact Nat.mod_eq_of_lt v.isLt
  · rw [State.placeQueue_rd, State.rd_wr_apart _ _ _ _ _ _ (by decide) (by decide)]
  · rw [State.placeQueue_cmds, State.wr_cmd]

theorem State.fbClear_refused {s : State} {c : Nat}
    (h : s.cmd.swqs.any (fun e => e.2.ctx == c && s.rd F.SWQ_STAT_STATE e.1 == 2) = true) :
    s.fbClear c = s.wr F.CMPL_FB_CLR_REFUSED 1 c := if_pos h

theorem State.runs_fbClear {s : State} {c : Nat}
    (hok : s.cmd.swqs.any (fun e => e.2.ctx == c && s.rd F.SWQ_STAT_STATE e.1 == 2) = false)
    (hclean : s.linePoison (s.statusPage c / 128) = .none) :
    Runs (.cmplFbClear c) s (fun t => (∀ k < 8, t.rdByte devKey (s.statusPage c + 0x18 + k) = 0) ∧
      (∀ j a, a / 128 ≠ s.statusPage c / 128 → t.rdByte j a = s.rdByte j a) ∧ t.regs = s.regs) := by
  have hclears : s.fbClear c = s.wrNat devKey (s.statusPage c + 0x18) 8 0 := if_neg (by rw [hok]; exact Bool.false_ne_true)
  have hpage : s.statusPage c % 128 = 0 := by unfold State.statusPage; omega
  have hline : (s.statusPage c + 0x18) / 128 = s.statusPage c / 128 := by omega
  have hoff : (s.statusPage c + 0x18) % 128 = 24 := by omega
  have hwritten := State.wrNat_written (s := s) (pa := s.statusPage c + 0x18) (n := 8) (by decide) (by omega) (by rw [hline]; exact hclean)
    devKey 0
  rw [hline, hoff] at hwritten
  refine ⟨_, congrArg Host.Outcome.next hclears, fun k hk => ?_, fun j a ha => hwritten.rdByte_ne j ha, hwritten.regs⟩
  have haddr : s.statusPage c + 0x18 + k = 128 * (s.statusPage c / 128) + (24 + k) := by omega
  rw [haddr]
  refine hwritten.rdByte_put (by omega) (((bytesFrom_add (off := 24) (i := k) (by rw [length_leBytes]; exact hk))).trans (congrArg some ?_))
  exact (by decide : ∀ k (h : k < (leBytes 8 0).length), (leBytes 8 0)[k] = 0) k _

end Sys2Proof.Machine
end

section
/-! SUPPORT. Commands and contexts that are aborted (12_shared_objects.md R256, R267): what owning units have to do stays queued, and a
command that has ended stays as it is. -/

namespace Sys2Proof.Machine

open Sys2Proof

/-- What owning units have to do stays queued, and the commands that `p` picks stay as they are. -/
structure State.Winds (p : CmdId → Cmd → Prop) (s t : State) : Prop where
  ops : s.syn.ops ⊆ t.syn.ops
  cmds : ∀ id c, s.cmdOf id = some c → p id c → t.cmdOf id = some c

section
variable {p : CmdId → Cmd → Prop} {s t u : State}

theorem State.Winds.of_eq (hs : t.syn.ops = s.syn.ops) (hc : t.cmd.cmds = s.cmd.cmds) : s.Winds p t :=
  ⟨by rw [hs]; exact List.Subset.refl _, fun _ _ h _ => by rw [State.cmdOf, hc]; exact h⟩

theorem State.Winds.refl (s : State) : s.Winds p s := .of_eq rfl rfl

theorem State.Winds.trans (h : s.Winds p t) (k : t.Winds p u) : s.Winds p u :=
  ⟨List.Subset.trans h.ops k.ops, fun id c hc hp => k.cmds id c (h.cmds id c hc hp) hp⟩

theorem State.Winds.keep (h : s.Winds p t) (hs : u.syn.ops = t.syn.ops) (hc : u.cmd.cmds = t.cmd.cmds) : s.Winds p u := h.trans (.of_eq hs hc)

theorem State.SameWork.winds (h : s.SameWork t) : s.Winds p t := by
  obtain ⟨-, -, -, -, -, hcmd, hsyn, -⟩ := h
  exact .of_eq (by rw [hsyn]) (by rw [hcmd])

theorem State.Winds.ite {a b : State} {c : Prop} [Decidable c] (h : s.Winds p a) (k : s.Winds p b) : s.Winds p (if c then a else b) := by
  split <;> assumption

theorem State.Winds.foldl {α : Type} (h : s.Winds p t) (f : State → α → State) (hf : ∀ (s : State) (a : α), s.Winds p (f s a)) (l : List α) :
    s.Winds p (l.foldl f t) :=
  List.foldlRecOn l f h (fun _ hu a _ => hu.trans (hf _ a))

theorem State.Winds.wr (h : s.Winds p t) (f : Fld) (v i j : Nat) : s.Winds p (t.wr f v i j) := h.keep rfl rfl

theorem State.Winds.raise (h : s.Winds p t) (n : Nat) : s.Winds p (t.raise n) := h.keep (by simp) (by simp)

theorem State.Winds.wrBytes (h : s.Winds p t) (k pa : Nat) (bs : List Byte) : s.Winds p (t.wrBytes k pa bs) := by
  obtain ⟨m, l, hw⟩ := t.wrBytes_frame k pa bs
  rw [hw]
  exact h.keep rfl rfl

theorem State.Winds.wrNat (h : s.Winds p t) (k pa n v : Nat) : s.Winds p (t.wrNat k pa n v) := h.wrBytes k pa _

theorem State.Winds.modCmd (h : s.Winds p t) {id : CmdId} (f : Cmd → Cmd) (hid : ∀ c, ¬ p id c) : s.Winds p (t.modCmd id f) := by
  refine h.trans ⟨List.Subset.refl _, fun i c hc hp => ?_⟩
  have hne : i ≠ id := fun e => hid c (e ▸ hp)
  exact (aget_amod_ne _ f hne.symm).trans hc

theorem State.Winds.setCmd (h : s.Winds p t) {id : CmdId} (c : Cmd) (hid : ∀ c, ¬ p id c) : s.Winds p (t.setCmd id c) :=
  h.trans ⟨List.Subset.refl _, fun i d hd hp =>
    have hne : i ≠ id := fun e => hid d (e ▸ hp)
    (State.cmdOf_setCmd_ne _ c hne).trans hd⟩

theorem State.Winds.pushSync (h : s.Winds p t) (i : Nat) (o : SyncOp) : s.Winds p (t.pushSync i o) :=
  h.trans ⟨List.subset_append_left _ _, fun _ _ hc _ => hc⟩

end

/-! ### A command ends (R267) -/

section
variable {p : CmdId → Cmd → Prop} (s : State)

theorem State.winds_dropElig (q : Nat) : s.Winds p (s.dropElig q) := .ite (.refl s) (.of_eq rfl rfl)

theorem State.winds_endSend (x st : Nat) : s.Winds p (s.endSend x st) := by
  unfold State.endSend
  split
  · exact .refl s
  · exact .of_eq rfl rfl

theorem State.winds_loseWork (q : Block → Bool) : s.Winds p (s.loseWork q) :=
  State.Winds.keep ((State.Winds.refl s).foldl _ (fun s _ => (s.sameWork_tally _ _ _ _ _).winds) _) rfl rfl

theorem State.winds_dropOps {id : CmdId} (hid : ∀ c, ¬ p id c) : s.Winds p (s.dropOps id) := by
  unfold State.dropOps
  extract_lets thr kept live
  exact (State.Winds.of_eq (s := s) (t := kept) rfl rfl).modCmd _ hid

/-- The abort of a command leaves every other. -/
theorem State.winds_abortOne_apart (st : Nat) (id : CmdId) : s.Winds (fun i _ => i ≠ id) (s.abortOne st id) := by
  have hid : ∀ _ : Cmd, ¬ id ≠ id := fun _ h => h rfl
  unfold State.abortOne
  split
  · exact .refl s
  rename_i c _
  split
  case h_1 => exact .refl s
  case h_2 => exact ((State.Winds.refl s).setCmd _ hid).trans (State.winds_dropElig _ _)
  case h_3 => exact ((State.Winds.refl s).setCmd _ hid).trans (State.winds_dropElig _ _)
  case h_4 =>
    split
    case h_4 => exact ((State.Winds.refl s).setCmd _ hid).pushSync _ _
    case h_5 => exact ((State.Winds.refl s).setCmd _ hid).pushSync _ _
    case h_6 => exact (State.Winds.refl s).setCmd _ hid
    case h_7 =>
      refine .ite (.refl s) ?_
      extract_lets sent dbg disarmed
      have hsent : s.Winds (fun i _ => i ≠ id) sent := by
        simp only [sent]
        split
        · exact s.winds_endSend _ _
        · exact .refl s
      have hlost : s.Winds (fun i _ => i ≠ id) (disarmed.loseWork (fun b => b.cmd == id)) :=
        (hsent.keep (u := disarmed) rfl rfl).trans (disarmed.winds_loseWork _)
      exact (hlost.trans (State.winds_dropOps _ hid)).setCmd _ hid
    all_goals exact .refl s

/-- A command that has ended keeps its own status. -/
theorem State.abortOne_ended {s : State} {id : CmdId} {c : Cmd} (hc : s.cmdOf id = some c) (hph : c.ph = .ending) (st : Nat) :
    s.abortOne st id = s := by
  simp only [State.abortOne, hc, hph]

/-- A command has ended: what is left is its completion. -/
def Cmd.isEnding (_ : CmdId) (c : Cmd) : Prop := c.ph = .ending

theorem State.winds_abortOne (st : Nat) (id : CmdId) : s.Winds Cmd.isEnding (s.abortOne st id) := by
  refine ⟨(s.winds_abortOne_apart st id).ops, fun i c hc hph => ?_⟩
  by_cases hi : i = id
  · subst hi
    rw [State.abortOne_ended hc hph]
    exact hc
  · exact (s.winds_abortOne_apart st id).cmds i c hc hi

theorem State.winds_abortCmd (st : Nat) (id : CmdId) : s.Winds Cmd.isEnding (s.abortCmd st id) :=
  ((State.Winds.refl s).foldl _ (fun s k => s.winds_abortOne st k) _).trans (State.winds_abortOne _ st id)

theorem State.winds_abortCmds (st : Nat) (q : CmdId → Cmd → Bool) : s.Winds Cmd.isEnding (s.abortCmds st q) :=
  (State.Winds.refl s).foldl _ (fun s id => s.winds_abortCmd st id) _

/-! ### A context's work ends (R256) -/

theorem State.winds_endRecv (k : Nat × Nat) (st : Nat) : s.Winds p (s.endRecv k st) := by
  have hdrop : s.Winds p (s.dropRecv k) := by
    unfold State.dropRecv
    split
    · exact .refl s
    · extract_lets fab xlt dropped
      have hdropped : s.Winds p dropped := .of_eq rfl rfl
      exact .ite hdropped (hdropped.wrNat _ _ _ _)
  unfold State.endRecv
  split
  · exact .refl s
  · exact .ite (.refl s) (hdrop.keep rfl rfl)

theorem State.winds_endRecvs (st : Nat) (q : RecvX → Bool) : s.Winds p (s.endRecvs st q) :=
  (State.Winds.refl s).foldl _ (fun s k => s.winds_endRecv k st) _

theorem State.winds_dropRecvUpd (c : Nat) : s.Winds p (s.dropRecvUpd c) := .of_eq rfl rfl

theorem State.winds_dropXlt (c : Nat) : s.Winds p (s.dropXlt c) := .of_eq rfl rfl

theorem State.winds_setBlot (c : Nat) (b : Blot) : s.Winds p (s.setBlot c b) := .of_eq rfl rfl

theorem State.winds_closeQuire (c : Nat) (irq : Bool) : s.Winds p (s.closeQuire c irq) := by
  unfold State.closeQuire
  split
  · exact .refl s
  · extract_lets b marked closed headed filled
    have hmarked : s.Winds p marked := (State.Winds.refl s).wrNat _ _ _ _
    have hfilled : s.Winds p filled := ((hmarked.trans (marked.winds_setBlot _ _)).wr _ _ _ _).wr _ _ _ _
    exact .ite (hfilled.raise _) hfilled

theorem State.winds_dropQuires (c : Nat) : s.Winds p (s.dropQuires c) :=
  (s.winds_closeQuire c false).trans (State.winds_setBlot _ _ _)

theorem State.winds_snapStop (c err : Nat) : s.Winds p (s.snapStop c err) := by
  have hcut (u : State) (x : Snap) : u.Winds p (u.cutEnd c x) := .ite (.refl u) (.ite (.of_eq rfl rfl) (.of_eq rfl rfl))
  have hoff : s.Winds p (s.snapOff c 4) := by
    unfold State.snapOff
    split
    · exact .refl s
    · extract_lets rcv dropped ended
      have hdropped : s.Winds p dropped := .of_eq rfl rfl
      have hended : s.Winds p ended := hdropped.foldl _ (fun s k => s.winds_endSend k _) _
      exact (hended.trans (hcut ended _)).wr _ _ _ _
  exact .ite (.refl s) ((hoff.wr _ _ _ _).raise _)

theorem State.winds_leavesLive (c : Nat) : s.Winds p (s.leavesLive c) := by
  have hdetach : s.Winds p (s.detach c) := .of_eq rfl rfl
  have hdisable (s : State) (d : Nat) : s.Winds p (s.ledDisable d) := .ite (.of_eq rfl rfl) (.refl s)
  exact (State.Winds.ite hdetach (.refl s)).foldl _ (fun s d => (hdisable s d).wr _ _ _ _) _

theorem State.winds_abortCtx (c st : Nat) : s.Winds Cmd.isEnding (s.abortCtx c st) := by
  unfold State.abortCtx
  extract_lets marked reported stamped obj syn emptied ended
  have hmarked : s.Winds Cmd.isEnding marked := ((State.Winds.refl s).wr _ _ _ _).wr _ _ _ _
  have hstamped : s.Winds Cmd.isEnding stamped := ((hmarked.wrNat _ _ _ _).wrNat _ _ _ _).trans (.of_eq rfl rfl)
  clear_value stamped
  have hemptied : s.Winds Cmd.isEnding emptied := hstamped.trans (.of_eq rfl rfl)
  have haborted := hemptied.trans (emptied.winds_abortCmds stAborted (fun id _ => id.ctx == c))
  have hended : s.Winds Cmd.isEnding ended := (haborted.trans (State.winds_dropRecvUpd _ c)).trans (State.winds_endRecvs _ _ _)
  have hquires := (hended.trans (ended.winds_dropQuires c)).trans (State.winds_dropXlt _ c)
  exact .ite (.refl s) ((hquires.trans (State.winds_snapStop _ c 6)).trans (State.winds_leavesLive _ c))

end

/-! ### A timeout (13_command_submission.md R284) -/

/-- A running command with no WAIT registered, not done, ends with a status where it had none. -/
theorem State.abortOne_running {s : State} {id : CmdId} {c : Cmd} (hc : s.cmdOf id = some c) (hph : c.ph = .started) (hwait : c.wait = .idle)
    (hdone : c.done = false) (st : Nat) :
    (s.abortOne st id).cmdOf id = some { c.note st with ph := .ending, noMore := true, again := [] } := by
  simp only [State.abortOne, hc, hph, hwait, hdone, Bool.false_eq_true, if_false]
  exact State.cmdOf_setCmd_self _ _ _

/-- The nodes of a graph launch that are aborted leave the commands of queues. -/
theorem State.winds_abortNodes (s : State) (st : Nat) {l : List CmdId} (hl : ∀ k ∈ l, k.node ≠ 0) :
    s.Winds (fun i _ => i.node = 0) (l.foldl (fun s k => s.abortOne st k) s) :=
  List.foldlRecOn l _ (State.Winds.refl s) (fun u hu k hk => hu.trans
    ⟨(u.winds_abortOne_apart st k).ops, fun i c hc hi => (u.winds_abortOne_apart st k).cmds i c hc (fun e => hl k hk (e ▸ hi))⟩)

theorem State.abortCmd_running {s : State} {id : CmdId} {c : Cmd} (hc : s.cmdOf id = some c) (hph : c.ph = .started) (hnode : id.node = 0)
    (hwait : c.wait = .idle) (hdone : c.done = false) (st : Nat) :
    (s.abortCmd st id).cmdOf id = some { c.note st with ph := .ending, noMore := true, again := [] } := by
  unfold State.abortCmd
  extract_lets nodes
  have hnodes : ∀ k ∈ nodes.map (fun e => e.1), k.node ≠ 0 := by
    intro k hk
    obtain ⟨e, he, rfl⟩ := List.mem_map.mp hk
    simp only [nodes] at he
    split at he
    · obtain ⟨-, hpick⟩ := List.mem_filter.mp he
      simp only [Bool.and_eq_true, bne_iff_ne] at hpick
      obtain ⟨-, hn⟩ := hpick
      exact hn
    · exact absurd he List.not_mem_nil
  exact State.abortOne_running ((s.winds_abortNodes st hnodes).cmds id c hc hnode) hph hwait hdone st

theorem State.runs_commandTimeout {s : State} {id : CmdId} {c : Cmd} (hc : s.cmdOf id = some c) (hph : c.ph = .started) (hnode : id.node = 0)
    (hlive : s.ctxState id.ctx = ctxLive) (hhalt : s.cmdHalted id = false) (hwait : c.wait = .idle) (hdone : c.done = false) :
    Runs (.commandTimeout id) s (fun t => t.ctxState id.ctx = ctxAborting ∧ t.rd F.CTX_STAT_ABORT_STATUS id.ctx = stTimeout ∧
      (∃ k, t.cmdOf id = some k ∧ k.ph = .ending ∧ k.fail = some stTimeout ∧ k.pkt = c.pkt)) := by
  set d : Cmd := { c with fail := some stTimeout }
  set u := (s.setCmd id d).abortCmd stTimeout id
  have htimes : s.timeout id = u.abortCtx id.ctx stTimeout := by
    have hgoes : (c.ph == .started && id.node == 0 && s.ctxState id.ctx != ctxSaved && !s.cmdHalted id &&
        (s.ctxState id.ctx == ctxLive || s.ctxState id.ctx == ctxReleasing)) = true := by
      rw [hph, hnode, hlive, hhalt]
      rfl
    simp only [State.timeout, hc, hgoes, if_true]
    rfl
  have hstats : u.ctxStats = s.ctxStats :=
    ((State.ctxStats_abortOne _ _ _).trans (foldl_keeps _ State.ctxStats (fun v k => v.ctxStats_abortOne _ k) _ _)).trans
      (State.ctxStats_of_regs (State.setCmd_regs _ _ _))
  have hulive : u.ctxState id.ctx = ctxLive := (State.rd_of_ctxStats hstats _ rfl _ _).trans hlive
  have hended : u.cmdOf id = some { d.note stTimeout with ph := .ending, noMore := true, again := [] } :=
    State.abortCmd_running (c := d) (State.cmdOf_setCmd_self _ _ _) hph hnode hwait hdone _
  obtain ⟨hstate, hstatus, -⟩ := State.abortCtx_blotter (st := stTimeout) hulive (by decide)
  exact ⟨_, congrArg Host.Outcome.next htimes, hstate, hstatus, _, (u.winds_abortCtx id.ctx stTimeout).cmds _ _ hended rfl, rfl, rfl, rfl⟩

end Sys2Proof.Machine
end

section
/-! CLAIM. Doorbells, slots, records acknowledged and timeouts (13_command_submission.md R272-R274, R284-R290). -/

namespace Sys2Proof.Machine

open Sys2Proof

/-- Settles O48: a doorbell is an induction on the packets it accepts, the rest one equation each; for a timeout, the abort of its context
finds the command ended and leaves it. -/
theorem queueControl : Obligations.QueueControl := by
  unfold Obligations.QueueControl
  exact ⟨fun _ _ _ _ _ _ _ => State.runs_doorbell, fun _ _ v h => congrArg Host.Outcome.next (State.doorbell_gone h v.toNat),
    fun _ _ _ _ hq hdying hbad => congrArg Host.Outcome.next (State.doorbell_bad hq hdying hbad), fun _ _ _ _ => State.runs_queueMap,
    fun _ _ wt hd => State.runs_queueUnmap wt hd, fun _ _ => State.runs_swqResume, fun _ _ v => State.runs_swqAck v,
    fun _ _ => ⟨fun h => congrArg Host.Outcome.next (State.fbClear_refused h), State.runs_fbClear⟩, fun _ _ _ => State.runs_commandTimeout⟩

end Sys2Proof.Machine
end

section
/-! SUPPORT. An access through a cluster cache, whatever errors its check finds, leaves what owning units have to do queued (09_caches.md
R206, R207; 17_fault_tolerance.md R345-R355). -/

namespace Sys2Proof.Machine

open Sys2Proof

/-- No command is picked: what `Winds` then says is that what owning units have to do stays queued. -/
def noCmds : CmdId → Cmd → Prop := fun _ _ => False

theorem State.Winds.forget {p : CmdId → Cmd → Prop} {s t : State} (h : s.Winds p t) : s.Winds noCmds t := ⟨h.ops, fun _ _ _ hno => hno.elim⟩

section
variable (s : State)

theorem State.Winds.incSat {p : CmdId → Cmd → Prop} {s t : State} (h : s.Winds p t) (f : Fld) (i j : Nat) : s.Winds p (t.incSat f i j) :=
  h.wr _ _ _ _

/-! ### Responses to faults -/

theorem State.winds_failCmd (id : CmdId) (st : Nat) : s.Winds noCmds (s.failCmd id st) :=
  .ite (.refl s) ((State.Winds.refl s).modCmd _ (fun _ h => h))

theorem State.winds_lossAborts (st : Nat) (cs : List Nat) : s.Winds noCmds (s.lossAborts st cs) := by
  refine (State.Winds.refl s).foldl _ (fun s c => ?_) cs
  have hfailed := (State.Winds.refl s).foldl (fun s (e : CmdId × Cmd) => s.failCmd e.1 st) (fun s e => s.winds_failCmd e.1 st)
    ((s.ctxCmds c).filter (fun e => e.2.ph == .started))
  exact hfailed.trans (State.winds_abortCtx _ c st).forget

theorem State.winds_logWrite (r : Rec) : s.Winds noCmds (s.logWrite r) := by
  have htrig (s : State) : s.Winds noCmds s.trigLog := (State.Winds.refl s).foldl _ (fun s d => (s.sameWork_ledFire d).winds) _
  unfold State.logWrite
  split
  · exact .refl s
  · extract_lets h written
    have hwritten : s.Winds noCmds written := (State.Winds.refl s).wrBytes _ _ _
    split
    · exact (State.Winds.refl s).incSat _ _ _
    · exact ((hwritten.wr _ _ _ _).raise _).trans (htrig _)

theorem State.winds_rcv (r : RcvSt) : s.Winds noCmds { s with rcv := r } := .of_eq rfl rfl

theorem State.winds_closeLosses : s.Winds noCmds s.closeLosses := by
  unfold State.closeLosses
  extract_lets closed rcv
  exact (s.winds_rcv _).foldl _ State.winds_logWrite _

theorem State.winds_cutLost (cs : List Nat) : s.Winds noCmds (s.cutLost cs) := by
  have hcut (u : State) (c : Nat) (x : Snap) : u.Winds noCmds (u.cutEnd c x) := .ite (.refl u) (.ite (.of_eq rfl rfl) (.of_eq rfl rfl))
  unfold State.cutLost
  refine (State.Winds.refl s).foldl _ (fun s e => ?_) _
  obtain ⟨c, x⟩ := e
  exact ((s.winds_rcv _).trans (hcut _ c x)).wr _ _ _ _

theorem State.winds_loseBlocks (q : Block → Bool) (st : Nat) : s.Winds noCmds (s.loseBlocks q st).1 := by
  have hset (s : State) (id : CmdId) (c : Cmd) : s.Winds noCmds (s.setCmd id c) := (State.Winds.refl s).setCmd c (fun _ h => h)
  refine State.Winds.foldl (s.winds_loseWork _) _ (fun s b => ?_) _
  unfold State.loseBlock
  split
  · exact .refl s
  · exact .ite (.refl s) (.ite (hset _ _ _) (hset _ _ _))

/-! ### Lines of a cluster cache -/

theorem State.winds_coh (c : CohSt) : s.Winds noCmds { s with coh := c } := .of_eq rfl rfl

theorem State.winds_sendB (m : BMsg) : s.Winds noCmds (s.sendB m) := .ite (.of_eq rfl rfl) (.of_eq rfl rfl)

theorem State.winds_serveCc (cl ln : Nat) : s.Winds noCmds (s.serveCc cl ln) := by
  have hmsg (x : CcLine) (k : Nat) (m : AMsg) : s.Winds noCmds ((s.setCc cl ln x).msgA k ln m) := .of_eq rfl rfl
  have hask (x : CcLine) (m : BMsg) : s.Winds noCmds ((s.setCc cl ln x).sendB m) := (s.sameWork_setCc cl ln x).winds.trans (State.winds_sendB _ m)
  unfold State.serveCc
  split
  · exact .refl s
  split
  · exact .refl s
  · simp only
    split
    · exact hmsg _ _ _
    · exact .ite (hask _ _) (.ite (hmsg _ _ _) (.ite (hmsg _ _ _) (hask _ _)))

theorem State.winds_sendInvs (cl ln : Nat) (v : BitVec 8) (b : Option Nat) : s.Winds noCmds (s.sendInvs cl ln v b) :=
  (s.sameWork_sendInvs cl ln v b).winds

theorem State.Winds.delCc {s t : State} (h : s.Winds noCmds t) (cl ln : Nat) : s.Winds noCmds (t.delCc cl ln) := h.keep rfl rfl

theorem State.Winds.setCc {s t : State} (h : s.Winds noCmds t) (cl ln : Nat) (x : CcLine) : s.Winds noCmds (t.setCc cl ln x) := h.keep rfl rfl

theorem State.Winds.noted {s t : State} (h : s.Winds noCmds t) (n : BNote) : s.Winds noCmds (t.note n) := h.keep rfl rfl

theorem State.winds_answerSnoop (cl ln : Nat) (x : CcLine) (k : Snoop) (rcv : Nat) : s.Winds noCmds (s.answerSnoop cl ln x k rcv) := by
  have hfree (s : State) (x : CcLine) : s.Winds noCmds (s.freeVictim cl ln x) := by
    unfold State.freeVictim
    have hfreed := (s.winds_sendInvs cl ln x.pres none).delCc cl ln
    simp only
    split
    · exact hfreed.keep rfl rfl
    · exact hfreed
  unfold State.answerSnoop
  extract_lets y stay invalidated
  have hstay {t : State} (ht : s.Winds noCmds t) (st : BSt) (pres : BitVec 8) : s.Winds noCmds (stay t st pres) :=
    .ite (ht.trans (hfree _ _)) (.ite (ht.delCc _ _) (ht.setCc _ _ _))
  have hinv := s.winds_sendInvs cl ln y.pres none
  split
  · exact (State.Winds.ite ((hstay (.refl s) _ _).noted _) (hstay (.refl s) _ _)).noted _
  · exact (State.Winds.ite ((hstay hinv _ _).noted _) (hstay hinv _ _)).noted _
  · exact (hstay hinv _ _).noted _
  · exact (hstay hinv _ _).noted _

theorem State.winds_gotRdata (cl ln : Nat) (x : CcLine) (core : Nat) (dirty : Bool) : s.Winds noCmds (s.gotRdata cl ln x core dirty) := by
  unfold State.gotRdata
  extract_lets down y z
  split
  · exact (s.winds_answerSnoop _ _ _ _ _).trans (State.winds_serveCc _ _ _)
  · exact ((State.Winds.refl s).setCc _ _ _).trans (State.winds_serveCc _ _ _)

theorem State.winds_dropCore (core : Nat) (keep : Bool) : s.Winds noCmds (s.dropCore core keep) := by
  unfold State.dropCore
  extract_lets cl dirty waits fix coh emptied returned
  have hemptied : s.Winds noCmds emptied := s.winds_coh _
  have hreturned : s.Winds noCmds returned := by
    refine hemptied.foldl _ (fun s ln => ?_) waits
    split
    · exact s.winds_gotRdata _ _ _ _ _
    · exact .refl s
  exact hreturned.keep rfl rfl

theorem State.winds_flushCluster (cl : Nat) : s.Winds noCmds (s.flushCluster cl) := by
  unfold State.flushCluster
  extract_lets dropped coh noted flushed
  have hdropped : s.Winds noCmds dropped := (State.Winds.refl s).foldl _ (fun s k => s.winds_dropCore k true) _
  clear_value dropped
  have hnoted : s.Winds noCmds noted := hdropped.trans (dropped.winds_coh _)
  have hflushed : s.Winds noCmds flushed := by
    refine hnoted.foldl _ (fun s e => ?_) _
    obtain ⟨ln, x⟩ := e
    exact .ite (.refl s) (.ite ((State.Winds.refl s).delCc _ _) ((State.Winds.refl s).setCc _ _ _))
  have hmore (s : State) : s.Winds noCmds (s.flushMore cl) := by
    refine (State.Winds.refl s).foldl _ (fun s e => ?_) _
    obtain ⟨ln, x⟩ := e
    exact .ite ((((State.Winds.refl s).setCc _ _ _).noted _).trans (State.sameWork_tallyCc _ _ _ _).winds) (.refl s)
  have hover (s : State) : s.Winds noCmds (s.flushOver cl) := .ite (.refl s) (s.winds_coh _)
  exact (hflushed.trans (hmore _)).trans (hover _)

theorem State.winds_clusterOff (cl : Nat) : s.Winds noCmds (s.clusterOff cl) := by
  have hsettle (s : State) : s.Winds noCmds s.gateSettle := by
    unfold State.gateSettle
    refine .ite (.refl s) ?_
    split
    extract_lets err pwr settled reported
    have hreported : s.Winds noCmds reported := .ite (.of_eq rfl rfl) (.of_eq rfl rfl)
    exact .ite (.of_eq rfl rfl) ((hreported.wr _ _ _ _).raise _)
  unfold State.clusterOff
  exact (State.Winds.foldl (s.winds_coh _) _ (fun s d => (State.Winds.refl s).wr _ _ _ _) _).trans (hsettle _)

/-! ### A quarantine for repeated containments (17_fault_tolerance.md R346) -/

theorem State.winds_quarantine (cl cause : Nat) : s.Winds noCmds (s.quarantine cl cause) := by
  have hopen (u : State) (r : Rec) : u.Winds noCmds (u.openRec r) := .of_eq rfl rfl
  have hunits (u : State) : u.Winds noCmds (u.unitsGone cl) := .of_eq rfl rfl
  have hgive (u : State) : u.Winds noCmds (u.giveDead cl) := .of_eq rfl rfl
  have hrehome (u : State) : u.Winds noCmds (u.rehome cl) := u.winds_coh _
  unfold State.quarantine
  extract_lets old mine marked left
  have hmarked : s.Winds noCmds marked :=
    ((((State.Winds.refl s).wr _ _ _ _).incSat _ _ _).raise _).trans (hunits _)
  have hleft : s.Winds noCmds left := hmarked.trans (marked.winds_cutLost _)
  refine .ite (.refl s) ?_
  split
  rename_i lost again failed hlost
  have hlosing := left.winds_loseBlocks mine stQuarantined
  rw [hlost] at hlosing
  have hlost : s.Winds noCmds lost := hleft.trans hlosing
  extract_lets fresh opened rcv listed dropped coh rehomed coh' discarded flushed rcv' ended
  have hlisted : s.Winds noCmds listed := (hlost.trans (hopen lost _)).trans (opened.winds_rcv _)
  have hdropped : s.Winds noCmds dropped := hlisted.foldl _ (fun s k => s.winds_dropCore k false) _
  have hflushed : s.Winds noCmds flushed :=
    ((hlisted.trans (hrehome listed)).trans (rehomed.winds_coh _)).trans (discarded.winds_flushCluster cl)
  clear_value flushed dropped
  have hended : s.Winds noCmds ended :=
    .ite ((hdropped.trans (dropped.winds_coh _)).trans (hgive _)) (.ite (hflushed.trans (flushed.winds_rcv _)) (hflushed.trans (flushed.winds_clusterOff cl)))
  exact hended.trans (ended.sameWork_capFrom old).winds

theorem State.winds_countContain (cl : Nat) : s.Winds noCmds (s.countContain cl) := by
  unfold State.countContain
  extract_lets counted
  have hcounted : s.Winds noCmds counted := (State.Winds.refl s).incSat _ _ _
  exact .ite (hcounted.trans (counted.winds_quarantine cl _)) hcounted

/-! ### What a check finds (09_caches.md R206, R207) -/

theorem State.winds_ccLog (cl addr way core unit : Nat) (dirty : Bool) : s.Winds noCmds (s.ccLog cl addr way core unit dirty) :=
  .ite (.of_eq rfl rfl) (.of_eq rfl rfl)

theorem State.winds_partFatal (cl : Nat) : s.Winds noCmds (s.partFatal cl) := by
  have hopen (u : State) (r : Rec) : u.Winds noCmds (u.openRec r) := .of_eq rfl rfl
  unfold State.partFatal
  extract_lets p cs n aborted r
  exact (((s.winds_lossAborts stPoison cs).trans (hopen _ _)).trans (State.winds_closeLosses _)).trans (State.winds_countContain _ _)

theorem State.winds_poisonLine (ln : Nat) : s.Winds noCmds (s.poisonLine ln) := .of_eq rfl rfl

theorem State.winds_dirtyError (cl ln way core unit : Nat) : s.Winds noCmds (s.dirtyError cl ln way core unit) := by
  unfold State.dirtyError
  extract_lets logged here coh emptied poisoned left
  have hlogged : s.Winds noCmds logged := (s.winds_ccLog _ _ _ _ _ _).incSat _ _ _
  have hemptied : s.Winds noCmds emptied := hlogged.trans (logged.winds_coh _)
  have hpoisoned : s.Winds noCmds poisoned := (hemptied.delCc cl ln).trans (State.winds_poisonLine _ ln)
  clear_value poisoned
  have hleft : s.Winds noCmds left := by
    simp only [left]
    split
    · exact hpoisoned
    · split
      · exact hpoisoned
      · split
        · exact hpoisoned.trans (poisoned.winds_coh _)
        · split
          · exact hpoisoned.trans (poisoned.winds_coh _)
          · exact hpoisoned.trans (poisoned.winds_coh _)
  exact hleft.trans (left.winds_partFatal cl)

theorem State.winds_ccCheck (cl ln : Nat) (found : Found) : s.Winds noCmds (s.ccCheck cl ln found) := by
  unfold State.ccCheck
  split
  · exact .refl s
  · split
    · refine .ite ?_ (.refl s)
      refine State.Winds.trans ?_ (State.winds_ccLog _ _ _ _ _ _ _)
      exact (State.Winds.ite ((s.winds_sendInvs _ _ _ _).delCc _ _) (.refl s)).keep rfl rfl
    · exact .ite (s.winds_dirtyError _ _ _ _ _) (.refl s)
    · exact s.winds_dirtyError _ _ _ _ _
    · exact .refl s

theorem State.winds_finds (l : List (FUnit × Found)) : s.Winds noCmds { s with finds := l } := .of_eq rfl rfl

theorem State.winds_ccFound (cl ln : Nat) (found : Found) : s.Winds noCmds (s.ccFound cl ln found) := by
  unfold State.ccFound
  split
  · exact s.winds_ccCheck _ _ _
  · split
    · rename_i f u htake
      obtain ⟨-, rfl⟩ := s.takeFind_some _ f u htake
      exact (s.winds_finds _).trans (State.winds_ccCheck _ _ _ _)
    · exact .refl s

/-! ### The access -/

theorem State.winds_ccAsk (cl cls ln : Nat) (w : Bool) : s.Winds noCmds (s.ccAsk cl cls ln w).1 := by
  have hfound := s.winds_ccFound cl ln .none
  unfold State.ccAsk
  generalize s.ccFound cl ln .none = t at hfound
  dsimp only
  split
  · split
    · exact hfound
    · split
      · exact hfound.trans (t.sameWork_fillWaits cl ln cls).winds
      · rename_i u way hway
        have hway := hfound.trans (State.sameWork_ccWay hway).winds
        have hcounted := (hway.trans (u.winds_coh { u.coh with vwait := u.coh.vwait.erase (cl, ln) })).trans
          (State.sameWork_tallyCc _ cl 0x101 cls).winds
        exact ((hcounted.trans (State.sameWork_ccFilled _ cl cls _).winds).setCc _ _ _).trans (State.winds_sendB _ _)
  · rename_i x hx
    have hlooked := hfound.trans (t.sameWork_looked cl cls x).winds
    have hinv := hlooked.trans (State.winds_sendInvs _ cl ln x.pres none)
    split
    · exact hfound
    · split
      · split
        · exact hlooked.setCc _ _ _
        · exact hfound.keep rfl rfl
      · split
        · exact hlooked.setCc _ _ _
        · split
          · exact hinv.setCc _ _ _
          · exact (hinv.setCc _ _ _).trans (State.winds_sendB _ _)

theorem State.winds_svcAsk (c die cls : Nat) (lns : List Nat) (w : Bool) : s.Winds noCmds (s.svcAsk c die cls lns w).1 := by
  have hall (cl : Nat) : s.Winds noCmds (s.ccAskAll cl cls lns w).1 := by
    unfold State.ccAskAll
    exact List.foldlRecOn lns _ (motive := fun (p : State × Bool) => s.Winds noCmds p.1) (.refl s)
      (fun p hp ln _ => hp.trans (p.1.winds_ccAsk cl cls ln w))
  have hwake : s.Winds noCmds (s.svcWake c die) := by
    unfold State.svcWake
    split
    · exact .refl s
    · exact .ite ((State.Winds.refl s).wr _ _ _ _) (.refl s)
  unfold State.svcAsk
  split
  · exact .refl s
  · split
    · exact .refl s
    · split
      · exact hall _
      · exact hwake

theorem State.winds_syncAsk (o : Bool × Nat) : s.Winds noCmds (s.syncAsk o).1 := by
  unfold State.syncAsk
  split
  · exact .refl s
  · exact s.winds_svcAsk _ _ _ _ _

end

end Sys2Proof.Machine
end

section
/-! SUPPORT. The destruction of a note or timeline at its owning unit (12_shared_objects.md R268; 14_synchronisation.md R294, R303). -/

namespace Sys2Proof.Machine

open Sys2Proof

/-! ### It takes its place there -/

/-- A destruction waits at the owning unit of its object, whether or not it has had its effect. -/
def State.destroying (s : State) (n : Bool) (i : Nat) : Prop := ∃ b, (i % 4, SyncOp.destroy n i b) ∈ s.syn.ops

section
variable {s t : State} {n : Bool} {i : Nat} (h : s.destroying n i)
include h

theorem State.Winds.destroying {p : CmdId → Cmd → Prop} (k : s.Winds p t) : t.destroying n i := by
  obtain ⟨b, hb⟩ := h
  exact ⟨b, k.ops hb⟩

theorem State.destroying_of_ops (hops : t.syn.ops = s.syn.ops) : t.destroying n i := by
  obtain ⟨b, hb⟩ := h
  exact ⟨b, hops ▸ hb⟩

theorem State.destroying_armApply (m : Bool) (j v w : Nat) : (s.armApply m j v w).destroying n i :=
  State.destroying_of_ops h (State.evalWatch_ops _ _ _)

theorem State.destroying_erase {e : Nat × SyncOp} (he : ∀ b, e.2 ≠ .destroy n i b) :
    ({ s with syn := { s.syn with ops := s.syn.ops.erase e } } : State).destroying n i := by
  obtain ⟨b, hb⟩ := h
  exact ⟨b, (List.mem_erase_of_ne (fun hne => he b (congrArg Prod.snd hne).symm)).mpr hb⟩

/-- Arms alone leave the queue when they are granted. -/
theorem State.destroying_grantArms (k : Nat) : (State.grantArms k s).destroying n i := by
  induction k generalizing s with
  | zero => exact h
  | succ k ih =>
    unfold State.grantArms
    split
    · exact h
    · rename_i e m j v w hfind
      obtain ⟨a, -, ha⟩ := List.exists_of_findSome?_eq_some hfind
      refine ih (State.destroying_armApply (State.destroying_erase h (fun b he => ?_)) m j v w)
      split at ha
      · rename_i harm
        obtain ⟨-, hsome⟩ := Option.ite_none_right_eq_some.mp ha
        obtain rfl : a = e := congrArg Prod.fst (Option.some.inj hsome)
        rw [he] at harm
        cases harm
      · cases ha

theorem State.destroying_applyStay (o : SyncOp) : (s.applyStay o).destroying n i := by
  have hfire (u : State) (m : Bool) (j : Nat) : (u.fireDestroyed m j).syn.ops = u.syn.ops := by
    refine foldl_keeps _ (fun u : State => u.syn.ops) (fun u w => ?_) _ u
    unfold State.fireSoon
    split <;> rfl
  unfold State.applyStay
  split
  · exact State.destroying_of_ops h rfl
  · rename_i m j
    have hasked := State.Winds.destroying h (s.winds_syncAsk (m, j))
    unfold State.withSync
    split
    · rename_i u hu
      rw [hu] at hasked
      obtain ⟨b, hb⟩ := hasked
      set v : State := { u with syn := { u.syn with ops := u.syn.ops.map (fun (e : Nat × SyncOp) =>
        if e.2 == SyncOp.destroy m j false then (e.1, .destroy m j true) else e) } }
      have hmapped : v.destroying n i := by
        by_cases heq : SyncOp.destroy n i b = .destroy m j false
        · refine ⟨true, List.mem_map.mpr ⟨_, hb, ?_⟩⟩
          cases heq
          simp
        · exact ⟨b, List.mem_map.mpr ⟨_, hb, by simp [heq]⟩⟩
      refine State.destroying_of_ops hmapped ((hfire _ m j).trans ?_)
      split <;> rfl
    · rename_i u hu
      rw [hu] at hasked
      exact hasked
  · exact h

theorem State.destroying_grantOps : s.grantOps.destroying n i := by
  unfold State.grantOps
  exact List.foldlRecOn _ _ (motive := fun (u : State) => u.destroying n i) (State.destroying_grantArms h _) (fun _ hu o _ => State.destroying_applyStay hu o)

end

/-! ### Its line is served -/

/-- A write that a cluster cache serves at once finds the line held to be written, with nothing under way for it. -/
theorem State.owned_of_ccAsk {s : State} {cl ln : Nat} (hfinds : s.finds = []) (h : (s.ccAsk cl 2 ln true).2 = true) :
    ∃ x, s.ccLine cl ln = some x ∧ x.st = .O ∧ x.own = none ∧ x.cur = none ∧ x.snoop = none ∧ x.wait = .none := by
  simp only [State.ccAsk, State.ccFound_nil s cl ln hfinds] at h
  split at h
  · split at h
    · cases h
    · split at h <;> cases h
  · rename_i x hx
    split at h
    · cases h
    · rename_i hstable
      simp only [Bool.or_eq_true, not_or, Bool.not_eq_true, bne_eq_false_iff_eq, Option.isSome_eq_false_iff, Option.isNone_iff_eq_none] at hstable
      obtain ⟨⟨⟨hcur, hsnoop⟩, hwait⟩, -⟩ := hstable
      split at h
      · cases h
      · rename_i hown
        simp only [Bool.not_true, Bool.false_eq_true, if_false] at h
        split at h
        · rename_i hst
          exact ⟨x, hx, eq_of_beq hst, hown, hcur, hsnoop, hwait⟩
        · cases h

/-- What the owning unit reads of the state to reach an object's line does not show its own queue. -/
theorem State.syncAsk_withQueue {s u : State} {n : Bool} {i : Nat} (hfinds : s.finds = []) (h : s.syncAsk (n, i) = (u, true))
    (r : List (Nat × SyncOp)) :
    ∃ v, (s.withQueue r).syncAsk (n, i) = (v, true) ∧ (s.withQueue r).SameWork v ∧ (s.withQueue r).RegsBut abortRegs v := by
  have hwork := (s.withQueue r).sameWork_syncAsk (n, i) hfinds
  cases hctx : s.objCtx (n, i) with
  | none =>
    have hask : (s.withQueue r).syncAsk (n, i) = (s.withQueue r, true) := by
      have hctx' : (s.withQueue r).objCtx (n, i) = none := hctx
      simp only [State.syncAsk, hctx']
    exact ⟨_, hask, .rfl' _, .refl _ _⟩
  | some c =>
    simp only [State.syncAsk, hctx, State.svcAsk] at h
    split at h
    · simp at h
    · rename_i cl hsvc
      simp only [List.isEmpty_cons, Bool.false_eq_true, if_false] at h
      split at h
      · rename_i hdom
        have hserved : (s.ccAsk cl 2 (s.rd F.SYNC_BASE_BASE * 2 ^ 14 + Config.syncLine n i % 2 ^ 14) true).2 = true := by
          have htwo := congrArg Prod.snd h
          simpa only [State.ccAskAll, List.foldl_cons, List.foldl_nil, Bool.true_and] using htwo
        obtain ⟨x, hx, hst, hown, hcur, hsnoop, hwait⟩ := State.owned_of_ccAsk hfinds hserved
        have hctx' : (s.withQueue r).objCtx (n, i) = some c := hctx
        have hsvc' : (s.withQueue r).svcCluster c (i % 4) = some cl := hsvc
        obtain ⟨v, hask, hregs⟩ := State.syncAsk_owned (s := s.withQueue r) hctx' hsvc' (eq_of_beq hdom) hx hst hown hcur hsnoop hwait hfinds
        rw [hask] at hwork
        exact ⟨v, hask, hwork, hregs⟩
      · cases h

/-! ### It has its effect -/

/-- The watchers that fire. -/
theorem State.fireSoon_firing (s : State) (b : Bool) (w : Nat) :
    s.syn.firing ⊆ (s.fireSoon b w).syn.firing ∧ ∃ c, (w, c) ∈ (s.fireSoon b w).syn.firing := by
  unfold State.fireSoon
  split
  · rename_i hany
    obtain ⟨⟨x, c⟩, hx, he⟩ := List.any_eq_true.mp hany
    obtain rfl : x = w := eq_of_beq he
    exact ⟨List.Subset.refl _, c, hx⟩
  · exact ⟨List.subset_append_left _ _, b, List.mem_append_right _ (List.mem_singleton.mpr rfl)⟩

theorem State.foldl_fireSoon_firing (b : Bool) (l : List Nat) (s : State) :
    s.syn.firing ⊆ (l.foldl (State.fireSoon · b) s).syn.firing ∧ ∀ w ∈ l, ∃ c, (w, c) ∈ (l.foldl (State.fireSoon · b) s).syn.firing := by
  induction l generalizing s with
  | nil => exact ⟨List.Subset.refl _, fun _ h => absurd h List.not_mem_nil⟩
  | cons a l ih =>
    obtain ⟨hsub, hl⟩ := ih (s.fireSoon b a)
    obtain ⟨hkeep, c, hc⟩ := s.fireSoon_firing b a
    refine ⟨List.Subset.trans hkeep hsub, fun w hw => ?_⟩
    rcases List.mem_cons.mp hw with rfl | hw
    · exact ⟨c, hsub hc⟩
    · exact hl w hw

theorem State.fireDestroyed_firing (s : State) (n : Bool) (i : Nat) :
    ∀ w ∈ s.watching n i, ∃ b, (w.1, b) ∈ (s.fireDestroyed n i).syn.firing :=
  fun _ hw => (State.foldl_fireSoon_firing true _ s).2 _ (List.mem_map_of_mem hw)

theorem State.fireDestroyed_regs (s : State) (n : Bool) (i : Nat) : (s.fireDestroyed n i).regs = s.regs := by
  refine foldl_keeps _ (fun u : State => u.regs) (fun u w => ?_) _ s
  unfold State.fireSoon
  split <;> rfl

/-- The destruction of an object marked as having had its effect. -/
def State.destroyMarked (s : State) (n : Bool) (i : Nat) : State :=
  { s with syn := { s.syn with ops := s.syn.ops.map (fun (e : Nat × SyncOp) =>
    if e.2 == SyncOp.destroy n i false then (e.1, .destroy n i true) else e) } }

/-- The effect of a destruction: a timeline takes the terminal value, and the watchers fire. -/
def State.destroyApplied (s : State) (n : Bool) (i : Nat) : State :=
  (if n then s.destroyMarked n i else (s.destroyMarked n i).putTl terminal i).fireDestroyed n i

/-- A destruction alone in the units' queue has its effect once its line is served. -/
theorem State.grantOps_destroy {s v : State} {n : Bool} {i : Nat}
    (hask : (s.withQueue [(i % 4, .destroy n i false)]).syncAsk (n, i) = (v, true)) :
    (s.withQueue [(i % 4, .destroy n i false)]).grantOps = v.destroyApplied n i := by
  set q := s.withQueue [(i % 4, .destroy n i false)]
  have harms : State.grantArms 1 q = q := by simp [q, State.grantArms, State.withQueue]
  have hfirst : q.firstOp (n, i) = some (.destroy n i false) := by simp [q, State.firstOp, State.withQueue, SyncOp.obj]
  have hstays : q.syn.ops.filter (fun e => e.2.stays && q.firstOp e.2.obj == some e.2) = [(i % 4, .destroy n i false)] := by
    have hops : q.syn.ops = [(i % 4, .destroy n i false)] := rfl
    rw [hops, List.filter_cons_of_pos (by simp [SyncOp.stays, SyncOp.obj, hfirst]), List.filter_nil]
  have hgrant : q.grantOps = q.applyStay (.destroy n i false) := by
    have hlen : q.syn.ops.length = 1 := rfl
    rw [State.grantOps, hlen, harms, hstays]
    rfl
  rw [hgrant]
  exact State.withSync_served hask _

section
variable {s u v : State} {n : Bool} {i : Nat}

theorem State.destroyApplied_fires (hwatch : v.watching n i = s.watching n i) :
    ∀ w ∈ s.watching n i, ∃ b, (w.1, b) ∈ (v.destroyApplied n i).syn.firing := by
  rw [← hwatch]
  cases n
  · exact State.fireDestroyed_firing ((v.destroyMarked false i).putTl terminal i) false i
  · exact State.fireDestroyed_firing (v.destroyMarked true i) true i

theorem State.destroyApplied_tlVal : (v.destroyApplied false i).tlVal i = terminal :=
  (State.rd_of_regs (State.fireDestroyed_regs _ false i) _ _ _).trans (State.tlVal_putTl_self _ (by decide) i)

theorem State.destroyApplied_noteVal : (v.destroyApplied true i).noteVal i = v.noteVal i :=
  State.rd_of_regs ((State.fireDestroyed_regs _ true i).trans rfl) _ _ _

end

/-! ### The operation (R268) -/

/-- DESTROY of a note or timeline: its commands end, and its destruction takes its place at the owning unit. -/
theorem State.objDestroy_sync {s : State} {o : ObjOp} {rel : Option Nat} {irq n : Bool} (hhead : s.desHead = some o)
    (hctx : s.ctxState o.ctx = ctxLive ∨ s.ctxState o.ctx = ctxReleasing) (howner : s.objOwner o.typ o.index = some (o.ctx, rel, irq))
    (htyp : n = true ∧ o.typ = 3 ∨ n = false ∧ o.typ = 4) :
    s.objDestroy = ((s.abortCmds stAborted (fun _ x => s.holds (kindOf o.typ) o.index x)).pushSync o.index
      (.destroy n o.index false)).grantOps.opBusy := by
  have htakes : s.ctxTakes o.ctx oDestroy = true := by
    rcases hctx with h | h <;> simp [State.ctxTakes, h]
  rcases htyp with ⟨rfl, htyp⟩ | ⟨rfl, htyp⟩
  · rw [htyp] at howner
    simp [State.objDestroy, hhead, htakes, howner, htyp, kindOf]
  · rw [htyp] at howner
    simp [State.objDestroy, hhead, htakes, howner, htyp, kindOf]

section
variable {s : State} {o : ObjOp} {rel : Option Nat} {irq n : Bool} (hhead : s.desHead = some o)
  (hctx : s.ctxState o.ctx = ctxLive ∨ s.ctxState o.ctx = ctxReleasing) (howner : s.objOwner o.typ o.index = some (o.ctx, rel, irq))
  (htyp : n = true ∧ o.typ = 3 ∨ n = false ∧ o.typ = 4)
include hhead hctx howner htyp

theorem State.runs_objDestroy_queued : Runs .objDestroy s (fun t => t.obj.busy = true ∧
    ∃ b, (o.index % 4, SyncOp.destroy n o.index b) ∈ t.syn.ops) := by
  have hpushed : ((s.abortCmds stAborted (fun _ x => s.holds (kindOf o.typ) o.index x)).pushSync o.index
      (.destroy n o.index false)).destroying n o.index := ⟨false, List.mem_append_right _ (List.mem_singleton.mpr rfl)⟩
  exact ⟨_, congrArg Host.Outcome.next (State.objDestroy_sync hhead hctx howner htyp), rfl, State.destroying_grantOps hpushed⟩

/-- A destruction that nothing holds up has its effect with the operation. -/
theorem State.objDestroy_applies (hfree : s.cmd.cmds.any (fun e => s.holds (kindOf o.typ) o.index e.2) = false) (hops : s.syn.ops = [])
    (hfinds : s.finds = []) (hserved : ∃ u, s.syncAsk (n, o.index) = (u, true)) :
    ∃ v : State, s.objDestroy = (v.destroyApplied n o.index).opBusy ∧ v.watching n o.index = s.watching n o.index ∧
      s.RegsBut abortRegs v := by
  have hnone : s.abortCmds stAborted (fun _ x => s.holds (kindOf o.typ) o.index x) = s := by
    have hpick : s.cmd.cmds.filter (fun e => s.holds (kindOf o.typ) o.index e.2) = [] :=
      List.filter_eq_nil_iff.mpr (fun e he => by simpa using List.any_eq_false.mp hfree e he)
    rw [State.abortCmds, hpick]
    rfl
  have hpush : s.pushSync o.index (.destroy n o.index false) = s.withQueue [(o.index % 4, .destroy n o.index false)] := by
    rw [State.pushSync, hops]
    rfl
  obtain ⟨u, hu⟩ := hserved
  obtain ⟨v, hask, hwork, hregs⟩ := State.syncAsk_withQueue hfinds hu [(o.index % 4, .destroy n o.index false)]
  obtain ⟨-, -, -, -, -, -, hsyn, -⟩ := hwork
  refine ⟨v, ?_, State.watching_of_syn hsyn n o.index, ((State.RegsBut.refl _ s).keep rfl).trans hregs⟩
  rw [State.objDestroy_sync hhead hctx howner htyp, hnone, hpush, State.grantOps_destroy hask]

end

end Sys2Proof.Machine
end

section
/-! SUPPORT. Contexts destroyed, saved and restored (12_shared_objects.md R254, R258, R267). -/

namespace Sys2Proof.Machine

open Sys2Proof

/-! ### A context is destroyed (R267) -/

/-- The context DESTROYING, detached, and its work over. -/
def State.ctxEnded (s : State) (c : Nat) : State :=
  (((((s.wr F.CTX_STAT_STATE ctxDestroying c).snapStop c 6).leavesLive c).abortCmds stAborted (fun id _ => id.ctx == c)).dropRecvUpd
    c).endRecvs stAborted (fun r => r.ctx == c)

theorem State.ctxStats_ctxEnded (s : State) (c : Nat) : (s.ctxEnded c).ctxStats = (s.wr F.CTX_STAT_STATE ctxDestroying c).ctxStats := by
  have hrecvs (u : State) : ((u.dropRecvUpd c).endRecvs stAborted (fun r => r.ctx == c)).ctxStats = u.ctxStats :=
    State.ctxStats_of_regs (by simp)
  rw [State.ctxEnded, hrecvs, State.ctxStats_abortCmds, State.ctxStats_leavesLive, State.ctxStats_snapStop]

theorem State.ctxDestroy_ends {s : State} {o : ObjOp} (hhead : s.headOp 0 oDestroy = some o) (hthere : s.ctxState o.index ≠ ctxFree) :
    s.ctxDestroy = (((s.ctxEnded o.index).dropQuires o.index).dropXlt o.index).opBusy := by
  simp only [State.ctxDestroy, hhead, beq_eq_false_iff_ne.mpr hthere, Bool.false_eq_true, if_false]
  rfl

theorem State.opBusy_regs (s : State) : s.opBusy.regs = s.regs := rfl

theorem State.mem_tlbs_dropXlt {s : State} {c : Nat} : ∀ x ∈ (s.dropXlt c).opBusy.xlt.tlbs, x.ctx ≠ c :=
  fun _ hx => by simpa using (List.mem_filter.mp hx).2

theorem State.blot_opBusy (s : State) (c : Nat) : (s.dropXlt c).opBusy.blot c = s.blot c := s.blot_dropXlt c

theorem State.ctxStats_endsXlt (s : State) (c : Nat) : ((s.dropQuires c).dropXlt c).opBusy.ctxStats = s.ctxStats := by
  obtain ⟨-, -, hquires⟩ := s.dropQuires_keeps c
  rw [State.ctxStats_of_regs (State.opBusy_regs _), State.ctxStats_of_regs (State.dropXlt_regs _ _), hquires]

theorem State.runs_ctxDestroy {s : State} {o : ObjOp} (hhead : s.headOp 0 oDestroy = some o) (hthere : s.ctxState o.index ≠ ctxFree) :
    Runs .ctxDestroy s (fun t => t.ctxState o.index = ctxDestroying ∧ t.obj.busy = true ∧ (∀ x ∈ t.xlt.tlbs, x.ctx ≠ o.index) ∧
      (t.blot o.index).recs = [] ∧ (t.blot o.index).waiting = []) := by
  refine ⟨_, congrArg Host.Outcome.next (State.ctxDestroy_ends hhead hthere), ?_, rfl, State.mem_tlbs_dropXlt, ?_, ?_⟩
  · rw [State.ctxState, State.rd_of_ctxStats ((State.ctxStats_endsXlt _ _).trans (s.ctxStats_ctxEnded _)) _ rfl]
    exact State.rd_wr_self _ _ _ _ _ (by decide)
  · rw [State.blot_opBusy, State.blot_dropQuires]
  · rw [State.blot_opBusy, State.blot_dropQuires]

/-! ### Its slot becomes FREE (R254) -/

/-- The end of a slot whose objects and commands are gone. -/
def State.slotFreed (s : State) (c : Nat) : State :=
  ((ctxSrcs c).foldl State.srcClear ((s.dropQuires c).dropXlt c)).wr F.CTX_STAT_STATE ctxFree c

theorem State.slotFreed_obj (s : State) (c : Nat) : (s.slotFreed c).obj = s.obj := by
  have hclear (u : State) (n : Nat) : (u.srcClear n).obj = u.obj := by
    simp only [State.srcClear, State.syncLevels_obj, State.wr_obj]
    split <;> rfl
  obtain ⟨-, hquires, -⟩ := s.dropQuires_keeps c
  rw [State.slotFreed, State.wr_obj]
  exact (foldl_keeps _ (fun u : State => u.obj) hclear _ _).trans hquires

theorem State.slotFreed_state (s : State) (c : Nat) : (s.slotFreed c).ctxState c = ctxFree := State.rd_wr_self _ _ _ _ _ (by decide)

theorem State.ctxGone_slot (s : State) (c : Nat) : ∃ u : State, s.ctxGone c = u.slotFreed c ∧ aget u.obj.ctxs c = none := by
  unfold State.ctxGone
  extract_lets destroyed rcv cmd syn obj emptied
  exact ⟨emptied, rfl, aget_adel_self _ _⟩

theorem State.runs_destroyDone_ctx {s : State} {o : ObjOp} {r : List ObjOp} (hops : s.obj.ops = o :: r) (hbusy : s.obj.busy = true)
    (hop : o.op = oDestroy) (htyp : o.typ = 0) (hnone : s.ctxCmds o.index = []) :
    Runs (.destroyDone .ctx o.index) s (fun t => t.ctxState o.index = ctxFree ∧ aget t.obj.ctxs o.index = none ∧ t.obj.busy = false) := by
  have hdone : s.destroyDone .ctx o.index = (s.ctxGone o.index).endOp := by
    simp [State.destroyDone, hops, hbusy, hop, htyp, hnone, kindOf]
  obtain ⟨u, hgone, hctx⟩ := s.ctxGone_slot o.index
  rw [hgone] at hdone
  refine ⟨_, congrArg Host.Outcome.next hdone, ?_, ?_, State.endOp_busy _⟩
  · exact (State.endOp_rd _ _ (by decide) _ _).trans (u.slotFreed_state o.index)
  · rw [State.endOp_ctxs, State.slotFreed_obj]
    exact hctx

/-! ### SAVE (R258) -/

theorem State.ctxSave_begins {s : State} {o : ObjOp} (hhead : s.headOp 0 oSave = some o) (hlive : s.ctxState o.index = ctxLive)
    (hsaving : s.isSaving o.index = false) (hstock : s.stockGoing o.index = false) :
    exec .ctxSave s = .next { s with obj := { s.obj with busy := true, saving := s.obj.saving ++ [o.index] } } := by
  have hbegins : s.ctxSave = { s with obj := { s.obj with busy := true, saving := s.obj.saving ++ [o.index] } } := by
    simp only [State.ctxSave, hhead, hlive, hsaving, hstock, bne_self_eq_false, Bool.or_self, Bool.false_eq_true, if_false]
    rfl
  exact congrArg Host.Outcome.next hbegins

theorem State.sameWork_ledCtxGone (s : State) (c : Nat) : s.SameWork (s.ledCtxGone c) := by
  have hdisable (u : State) (d : Nat) : u.SameWork (u.ledDisable d) :=
    .ite _ (((State.sameWork_wr _ _ _ _ _).trans (State.sameWork_setLed _ _ _)).trans (State.sameWork_ledBusy _ d)) (.rfl' u)
  exact State.SameWork.foldl _ (fun u d => (hdisable u d).trans (State.sameWork_wr _ _ _ _ _)) _ s

theorem State.ctxStats_ledCtxGone (s : State) (c : Nat) : (s.ledCtxGone c).ctxStats = s.ctxStats := by
  have hdisable (u : State) (d : Nat) : (u.ledDisable d).ctxStats = u.ctxStats := by
    refine State.ctxStats_ite ((State.ctxStats_ledBusy _ d).trans ((State.ctxStats_of_regs (State.setLed_regs _ d _)).trans ?_)) rfl
    exact u.ctxStats_wr F.LED_CFG_EN 0 d 0 (by decide)
  exact foldl_keeps _ State.ctxStats (fun u d => (State.ctxStats_wr _ F.LED_STAT_ERR 1 d 0 (by decide)).trans (hdisable u d)) _ s

/-- `t` is what the save of context `c` leaves: its blocks off their cores and kept, its waits kept, its slot SAVED. -/
structure State.Saves (s : State) (c : Nat) (t : State) : Prop where
  state : t.ctxState c = ctxSaved
  saving : t.obj.saving = s.obj.saving.filter (fun x => x != c)
  blocks : t.thr.blocks = s.thr.blocks.filter (fun e => !(e.2.cmd.ctx == c))
  kept : t.obj.saved = s.obj.saved ++ (s.ctxBlocks c).map (fun e => (c, s.saveBlock e.1 e.2))
  waiters : t.syn.waiters = s.syn.waiters.filter (fun w => w.cmd.ctx != c)
  waits : t.syn.saved = s.syn.saved ++ s.savedWait c

/-- Waits marked as saved. -/
def State.waitsMarked (s : State) (ws : List Waiter) : State := ws.foldl (fun s w => s.modCmd w.cmd (fun k => { k with wait := .saved })) s

/-- A slot SAVED, its save area open, its ledgers stopped. -/
def State.slotSaved (s : State) (c n : Nat) : State :=
  ((s.openRange (s.rd F.CTX_CSAVE_BASE c * 65536) n).wr F.CTX_STAT_STATE ctxSaved c).ledCtxGone c

section
variable (s : State)

theorem State.waitsMarked_keeps (ws : List Waiter) :
    (s.waitsMarked ws).obj = s.obj ∧ (s.waitsMarked ws).syn = s.syn ∧ (s.waitsMarked ws).thr = s.thr := by
  unfold State.waitsMarked
  exact ⟨foldl_keeps _ (fun u : State => u.obj) (fun _ _ => by rfl) ws s, foldl_keeps _ (fun u : State => u.syn) (fun _ _ => by rfl) ws s,
    foldl_keeps _ (fun u : State => u.thr) (fun _ _ => by rfl) ws s⟩

theorem State.slotSaved_keeps (c n : Nat) :
    (s.slotSaved c n).obj = s.obj ∧ (s.slotSaved c n).syn = s.syn ∧ (s.slotSaved c n).thr = s.thr := by
  obtain ⟨-, -, -, -, hobj, -, hsyn, hthr, -⟩ := State.sameWork_ledCtxGone ((s.openRange (s.rd F.CTX_CSAVE_BASE c * 65536) n).wr
    F.CTX_STAT_STATE ctxSaved c) c
  exact ⟨hobj, hsyn, hthr⟩

theorem State.slotSaved_state (c n : Nat) : (s.slotSaved c n).ctxState c = ctxSaved :=
  (State.rd_of_ctxStats (State.ctxStats_ledCtxGone _ c) F.CTX_STAT_STATE rfl c 0).trans (State.rd_wr_self _ _ _ _ _ (by decide))

theorem State.saves_saveNow (c : Nat) : s.Saves c (s.saveNow c) := by
  unfold State.saveNow
  extract_lets blks saved ws keys dropped marked mx syn obj emptied
  obtain ⟨hobj, hsyn, hthr⟩ := dropped.waitsMarked_keeps ws
  obtain ⟨hobj', hsyn', hthr'⟩ := emptied.slotSaved_keeps c (emptied.saveBytes c)
  have hmobj : marked.obj = s.obj := hobj
  have hmsyn : marked.syn = s.syn := hsyn
  have hmthr : marked.thr.blocks = s.thr.blocks.filter (fun e => !(e.2.cmd.ctx == c)) := congrArg (fun t => t.blocks) hthr
  refine ⟨emptied.slotSaved_state c _, ?_, ?_, ?_, ?_, ?_⟩
  · refine (congrArg (fun o => o.saving) hobj').trans ?_
    simp only [emptied, hmobj]
  · exact (congrArg (fun t => t.blocks) hthr').trans hmthr
  · refine (congrArg (fun o => o.saved) hobj').trans ?_
    simp only [emptied, hmobj]
    rfl
  · refine (congrArg (fun o => o.waiters) hsyn').trans ?_
    simp only [emptied, hmsyn]
  · refine (congrArg (fun o => o.saved) hsyn').trans ?_
    simp only [emptied, hmsyn]
    rfl

end

theorem State.Saves.endOp {s t : State} {c : Nat} (h : s.Saves c t) : s.Saves c t.endOp where
  state := (State.endOp_rd _ _ (by decide) _ _).trans h.state
  saving := by rw [State.endOp_saving, h.saving]
  blocks := by rw [State.endOp_thr, h.blocks]
  kept := by rw [State.endOp_saved, h.kept]
  waiters := by rw [State.endOp_syn, h.waiters]
  waits := by rw [State.endOp_syn, h.waits]

theorem State.runs_ctxSaveDone {s : State} {c : Nat} (hsaving : s.isSaving c = true) (hready : s.saveReady c = true) :
    Runs (.ctxSaveDone c) s (fun t => t.ctxState c = ctxSaved ∧ t.isSaving c = false ∧ t.ctxBlocks c = [] ∧
      t.obj.saved = s.obj.saved ++ (s.ctxBlocks c).map (fun e => (c, s.saveBlock e.1 e.2)) ∧ (∀ w ∈ t.syn.waiters, w.cmd.ctx ≠ c) ∧
      t.syn.saved = s.syn.saved ++ s.savedWait c) := by
  have hdone : ∃ t, s.ctxSaveDone c = t ∧ s.Saves c t := by
    simp only [State.ctxSaveDone, hsaving, hready, Bool.not_true, Bool.false_eq_true, if_true, if_false]
    split
    · exact ⟨_, rfl, (s.saves_saveNow c).endOp⟩
    · exact ⟨_, rfl, s.saves_saveNow c⟩
  obtain ⟨t, ht, hsaves⟩ := hdone
  refine ⟨t, congrArg Host.Outcome.next ht, hsaves.state, ?_, ?_, hsaves.kept, fun w hw => ?_, hsaves.waits⟩
  · rw [State.isSaving, hsaves.saving]
    simp
  · rw [State.ctxBlocks, hsaves.blocks, List.filter_filter]
    simp
  · rw [hsaves.waiters] at hw
    simpa using (List.mem_filter.mp hw).2

/-! ### RESTORE (R258) -/

/-- A context LIVE again, with its waits to register. -/
def State.slotRestored (s : State) (c : Nat) : State :=
  (({ s with obj := { s.obj with restoring := s.obj.restoring.filter (fun x => x != c) } } : State).wr F.CTX_STAT_STATE ctxLive c).restoreWaits c

theorem State.restoreWaits_keeps (s : State) (c : Nat) :
    (s.restoreWaits c).regs = s.regs ∧ (s.restoreWaits c).syn.saved = s.syn.saved.filter (fun w => w.cmd.ctx != c) := by
  unfold State.restoreWaits
  exact ⟨foldl_keeps _ (fun u : State => u.regs) (fun _ _ => by rfl) _ _, foldl_keeps _ (fun u : State => u.syn.saved) (fun _ _ => by rfl) _ _⟩

theorem State.slotRestored_state (s : State) (c : Nat) : (s.slotRestored c).ctxState c = ctxLive := by
  obtain ⟨hregs, -⟩ := State.restoreWaits_keeps
    (({ s with obj := { s.obj with restoring := s.obj.restoring.filter (fun x => x != c) } } : State).wr F.CTX_STAT_STATE ctxLive c) c
  exact (State.rd_of_regs hregs _ _ _).trans (State.rd_wr_self _ _ _ _ _ (by decide))

theorem State.slotRestored_saved (s : State) (c : Nat) : (s.slotRestored c).syn.saved = s.syn.saved.filter (fun w => w.cmd.ctx != c) :=
  (State.restoreWaits_keeps _ c).2

/-- A context without saved blocks needs no core. -/
theorem State.restoreCtx_nil {s : State} {c : Nat} (hnone : s.obj.saved.filter (fun b => b.1 == c) = []) (hfit : s.waitsFit c = true) :
    ∃ u : State, s.restoreCtx c [] = some (u.slotRestored c) ∧ u.syn = s.syn := by
  refine ⟨{ s with obj := { s.obj with saved := s.obj.saved.filter (fun b => !(b.1 == c && false)) } }, ?_, rfl⟩
  simp only [State.restoreCtx, hnone, hfit, List.map_nil, List.length_nil, lt_irrefl, decide_false, Bool.not_true, Bool.false_and, Bool.or_self,
    Bool.false_eq_true, if_false]
  rfl

theorem State.ctxRestore_live {s u : State} {o : ObjOp} {l : List Nat} (hcut : s.obj.restoring = []) (hhead : s.headOp 0 oRestore = some o)
    (hsaved : s.ctxState o.index = ctxSaved) (hu : s.restoreCtx o.index l = some u) (hlive : u.ctxState o.index = ctxLive) :
    s.ctxRestore l = u.endOp := by
  simp only [State.ctxRestore, hcut, hhead, hsaved, hu, hlive, bne_self_eq_false, beq_self_eq_true, Bool.false_eq_true, if_false, if_true]

theorem State.runs_ctxRestore_nil {s : State} {o : ObjOp} (hcut : s.obj.restoring = []) (hhead : s.headOp 0 oRestore = some o)
    (hsaved : s.ctxState o.index = ctxSaved) (hnone : s.obj.saved.filter (fun b => b.1 == o.index) = []) (hfit : s.waitsFit o.index = true) :
    Runs (.ctxRestore []) s (fun t => t.ctxState o.index = ctxLive ∧ (∀ w ∈ s.syn.saved, w.cmd.ctx = o.index → w ∉ t.syn.saved)) := by
  obtain ⟨u, hu, hsyn⟩ := State.restoreCtx_nil hnone hfit
  have hrestores := State.ctxRestore_live hcut hhead hsaved hu (u.slotRestored_state _)
  refine ⟨_, congrArg Host.Outcome.next hrestores, ?_, fun w _ hw hmem => ?_⟩
  · exact (State.endOp_rd _ _ (by decide) _ _).trans (u.slotRestored_state _)
  · rw [State.endOp_syn, State.slotRestored_saved] at hmem
    simpa [hw] using (List.mem_filter.mp hmem).2

end Sys2Proof.Machine
end

section
/-! SUPPORT. Queues, notes and timelines that cease to exist (12_shared_objects.md R268): K0's queue and its count stay, and memory where no
host signal is queued for them. -/

namespace Sys2Proof.Machine

open Sys2Proof

/-! ### What leaves K0's queue -/

/-- `t` has the operations of K0's queue and its count as in `s`, and memory where `m`. -/
structure State.KeepsQueue (m : Prop) (s t : State) : Prop where
  ops : t.obj.ops = s.obj.ops
  done : ∀ i j, t.reg .OBJ_SEQ i j = s.reg .OBJ_SEQ i j
  same : m → SameMemory s t

section
variable {m : Prop} {s t u : State}

theorem State.KeepsQueue.refl (s : State) : s.KeepsQueue m s := ⟨rfl, fun _ _ => rfl, fun _ => ⟨rfl, rfl, rfl⟩⟩

theorem State.KeepsQueue.trans (h : s.KeepsQueue m t) (k : t.KeepsQueue m u) : s.KeepsQueue m u :=
  ⟨k.ops.trans h.ops, fun i j => (k.done i j).trans (h.done i j), fun hm => (h.same hm).trans (k.same hm)⟩

theorem State.KeepsQueue.mono {p : Prop} (h : s.KeepsQueue m t) (hp : p → m) : s.KeepsQueue p t := ⟨h.ops, h.done, fun hm => h.same (hp hm)⟩

theorem State.KeepsQueue.ite {a b : State} {c : Prop} [Decidable c] (h : s.KeepsQueue m a) (k : s.KeepsQueue m b) :
    s.KeepsQueue m (if c then a else b) := by split <;> assumption

theorem State.KeepsQueue.foldl {α : Type} (h : s.KeepsQueue m t) (f : State → α → State) (hf : ∀ (s : State) (a : α), s.KeepsQueue m (f s a))
    (l : List α) : s.KeepsQueue m (l.foldl f t) :=
  List.foldlRecOn l f h (fun _ hu a _ => hu.trans (hf _ a))

theorem State.KeepsQueue.setReg (h : s.KeepsQueue m t) (r : Reg) (i j : Nat) (v : W64) (hr : r ≠ .OBJ_SEQ) :
    s.KeepsQueue m (t.setReg r i j v) :=
  h.trans ⟨rfl, fun _ _ => t.reg_setReg_ne _ _ _ _ _ _ _ (fun e => hr (congrArg Prod.fst e)), fun _ => ⟨rfl, rfl, rfl⟩⟩

theorem State.KeepsQueue.wr (h : s.KeepsQueue m t) (f : Fld) (v i j : Nat) (hf : f.reg ≠ .OBJ_SEQ) : s.KeepsQueue m (t.wr f v i j) :=
  h.setReg f.reg i j _ hf

theorem State.KeepsQueue.raise (h : s.KeepsQueue m t) (n : Nat) : s.KeepsQueue m (t.raise n) :=
  h.trans ⟨by rw [State.raise_obj],
    fun i j => ((State.RegsBut.refl [.INT_SRC_CTL, .INT_ISL] t).raise n (by decide) (by decide)) _ (by decide) i j, fun _ => t.raise_same n⟩

theorem State.keepsQueue_syn (s : State) (y : SyncSt) : s.KeepsQueue m { s with syn := y } := ⟨rfl, fun _ _ => rfl, fun _ => ⟨rfl, rfl, rfl⟩⟩

theorem State.keepsQueue_cmd (s : State) (c : CmdSt) : s.KeepsQueue m { s with cmd := c } := ⟨rfl, fun _ _ => rfl, fun _ => ⟨rfl, rfl, rfl⟩⟩

end

/-! ### Watchers -/

theorem State.fireSoon_frame (s : State) (b : Bool) (w : Nat) : ∃ l, s.fireSoon b w = { s with syn := { s.syn with firing := l } } := by
  unfold State.fireSoon
  split
  · exact ⟨s.syn.firing, rfl⟩
  · exact ⟨_, rfl⟩

theorem State.evalWatch_frame (s : State) (n : Bool) (i : Nat) : ∃ l, s.evalWatch n i = { s with syn := { s.syn with firing := l } } := by
  unfold State.evalWatch
  refine List.foldlRecOn _ _ (motive := fun (u : State) => ∃ l, u = { s with syn := { s.syn with firing := l } }) ⟨s.syn.firing, rfl⟩ ?_
  rintro u ⟨l, rfl⟩ w -
  obtain ⟨l', h⟩ := State.fireSoon_frame { s with syn := { s.syn with firing := l } } (!n && s.tlVal i == terminal) w
  exact ⟨l', h⟩

theorem State.armApply_frame (s : State) (n : Bool) (i v w : Nat) :
    ∃ l a, s.armApply n i v w = { s with syn := { s.syn with firing := l, armed := a } } := by
  obtain ⟨l, h⟩ := State.evalWatch_frame ({ s with syn := { s.syn with
    firing := s.syn.firing.filter (fun f => f.1 != w), armed := aput s.syn.armed w (n, i, v) } }) n i
  exact ⟨l, _, h⟩

/-- Arms that are granted leave the queue of the units, and change nothing but the watchers. -/
theorem State.grantArms_frame (k : Nat) (s : State) : ∃ y, State.grantArms k s = { s with syn := y } ∧ y.ops ⊆ s.syn.ops := by
  induction k generalizing s with
  | zero => exact ⟨s.syn, rfl, List.Subset.refl _⟩
  | succ k ih =>
    unfold State.grantArms
    split
    · exact ⟨s.syn, rfl, List.Subset.refl _⟩
    · rename_i e n i v w _
      obtain ⟨l, a, happly⟩ := State.armApply_frame { s with syn := { s.syn with ops := s.syn.ops.erase e } } n i v w
      obtain ⟨y, hy, hsub⟩ := ih ({ s with syn := { s.syn with ops := s.syn.ops.erase e } }.armApply n i v w)
      rw [happly] at hy hsub
      exact ⟨y, by rw [happly, hy], List.Subset.trans hsub List.erase_subset⟩

/-- Where no operation stays at its unit, arms alone have their effect. -/
theorem State.grantOps_frame {s : State} (h : ∀ e ∈ s.syn.ops, e.2.stays = false) : ∃ y, s.grantOps = { s with syn := y } := by
  obtain ⟨y, hy, hsub⟩ := State.grantArms_frame s.syn.ops.length s
  have hnone : y.ops.filter (fun e => e.2.stays && (State.grantArms s.syn.ops.length s).firstOp e.2.obj == some e.2) = [] :=
    List.filter_eq_nil_iff.mpr (fun e he => by simp [h e (hsub he)])
  refine ⟨y, ?_⟩
  have hops : (State.grantArms s.syn.ops.length s).syn.ops = y.ops := by rw [hy]
  simp only [State.grantOps, hops, hnone, List.map_nil, List.foldl_nil]
  exact hy

/-! ### A queue ceases to exist -/

theorem State.keepsQueue_swqGone {s : State} (h : ∀ e ∈ s.syn.ops, e.2.stays = false) (q : Nat) : s.KeepsQueue True (s.swqGone q) := by
  have hstock : s.KeepsQueue True (s.stockRelease q) := by
    unfold State.stockRelease
    extract_lets mine syn left
    have hleft : s.KeepsQueue True left := s.keepsQueue_syn _
    have hcleared := hleft.foldl (fun s n => s.wr F.NOTE_VAL_HELD 0 n) (fun s n => (State.KeepsQueue.refl s).wr _ _ _ _ (by decide)) mine
    have hops : (mine.foldl (fun s n => s.wr F.NOTE_VAL_HELD 0 n) left).syn = left.syn :=
      foldl_keeps _ (fun u : State => u.syn) (fun _ _ => by rfl) mine left
    obtain ⟨y, hy⟩ := State.grantOps_frame (s := mine.foldl (fun s n => s.wr F.NOTE_VAL_HELD 0 n) left)
      (fun e he => h e (List.mem_of_mem_filter (hops ▸ he)))
    rw [hy]
    exact hcleared.trans (State.keepsQueue_syn _ _)
  unfold State.swqGone
  extract_lets zeroed paired cmd gone
  have hzeroed : s.KeepsQueue True zeroed :=
    ((hstock.setReg _ _ _ _ (by decide)).setReg _ _ _ _ (by decide)).setReg _ _ _ _ (by decide)
  have hpaired : s.KeepsQueue True paired :=
    ((hzeroed.setReg _ _ _ _ (by decide)).setReg _ _ _ _ (by decide)).foldl _
      (fun u k => (State.KeepsQueue.refl u).setReg _ _ _ _ (by decide)) _
  have hgone : s.KeepsQueue True gone := hpaired.trans (paired.keepsQueue_cmd _)
  exact hgone.foldl _ (fun u k => ((State.KeepsQueue.refl u).wr _ _ _ _ (by decide)).wr _ _ _ _ (by decide)) _

theorem State.swq_swqGone (s : State) (q : Nat) : (s.swqGone q).swq q = none := by
  unfold State.swqGone
  extract_lets zeroed paired cmd gone
  have hcmd (l : List Nat) : (l.foldl (fun (u : State) k => (u.wr F.QSLOT_STAT_MAPPED 0 k).wr F.QSLOT_STAT_SWQ 0 k) gone).cmd = gone.cmd :=
    foldl_keeps _ (fun u : State => u.cmd) (fun _ _ => by rfl) l gone
  rw [State.swq, hcmd]
  exact aget_adel_self _ _

/-! ### Signals queued for an object that is freed (14_synchronisation.md R294, R302) -/

section
variable (s : State)

theorem State.keepsQueue_modCmd {m : Prop} (id : CmdId) (f : Cmd → Cmd) : s.KeepsQueue m (s.modCmd id f) := s.keepsQueue_cmd _

theorem State.keepsQueue_evalWatch {m : Prop} (n : Bool) (i : Nat) : s.KeepsQueue m (s.evalWatch n i) := by
  obtain ⟨l, h⟩ := s.evalWatch_frame n i
  rw [h]
  exact s.keepsQueue_syn _

theorem State.keepsQueue_storeOpen : s.KeepsQueue False s.storeOpen := ⟨rfl, fun _ _ => rfl, False.elim⟩

theorem State.keepsQueue_putTl (v i : Nat) : s.KeepsQueue False (s.putTl v i) :=
  ((State.KeepsQueue.refl s).wr _ _ _ _ (by decide)).trans (State.keepsQueue_storeOpen _)

theorem State.keepsQueue_putNote (v i : Nat) : s.KeepsQueue False (s.putNote v i) :=
  ((State.KeepsQueue.refl s).wr _ _ _ _ (by decide)).trans (State.keepsQueue_storeOpen _)

theorem State.keepsQueue_syncErr {m : Prop} (f : Fld) (hf : f.reg ≠ .OBJ_SEQ) : s.KeepsQueue m (s.syncErr f) :=
  ((State.KeepsQueue.refl s).wr _ _ _ _ hf).raise _

theorem State.keepsQueue_hostReport {m : Prop} (f w : Fld) (i : Nat) (hf : f.reg ≠ .OBJ_SEQ) (hw : w.reg ≠ .OBJ_SEQ) :
    s.KeepsQueue m ((if s.on f then s else s.wr w i).syncErr f) :=
  (State.KeepsQueue.ite (.refl s) ((State.KeepsQueue.refl s).wr _ _ _ _ hw)).trans (State.keepsQueue_syncErr _ f hf)

theorem State.keepsQueue_wakeTimeline (i : Nat) : s.KeepsQueue False (s.wakeTimeline i) :=
  (s.keepsQueue_syn _).foldl _ (fun u _ => u.keepsQueue_modCmd _ _) _

theorem State.keepsQueue_wakeNote (i k : Nat) : s.KeepsQueue False (State.wakeNote i k s) := by
  induction k generalizing s with
  | zero => exact .refl s
  | succ k ih =>
    unfold State.wakeNote
    split
    · exact .refl s
    · refine .ite (State.KeepsQueue.trans ?_ (ih _)) (.refl s)
      exact (((s.keepsQueue_syn _).trans (State.keepsQueue_putNote _ _ _)).trans (State.keepsQueue_modCmd _ _ _)).trans
        (State.keepsQueue_evalWatch _ _ _)

theorem State.keepsQueue_signalTl (i v : Nat) {err : State → State} (herr : ∀ u, State.KeepsQueue False u (err u)) :
    s.KeepsQueue False (s.signalTl i v err) :=
  .ite (((s.keepsQueue_putTl v i).trans (State.keepsQueue_evalWatch _ _ _)).trans (State.keepsQueue_wakeTimeline _ _))
    (.ite (s.keepsQueue_evalWatch _ _) ((herr s).trans (State.keepsQueue_evalWatch _ _ _)))

theorem State.keepsQueue_signalNote (i c : Nat) {err : State → State} (herr : ∀ u, State.KeepsQueue False u (err u)) :
    s.KeepsQueue False (s.signalNote i c err) := by
  have hwake {t : State} (h : s.KeepsQueue False t) :
      s.KeepsQueue False (State.wakeNote i (t.syn.waiters.length + 1) (t.evalWatch true i)) :=
    (h.trans (t.keepsQueue_evalWatch _ _)).trans (State.keepsQueue_wakeNote _ _ _)
  exact .ite (s.keepsQueue_evalWatch _ _) (.ite (hwake (s.keepsQueue_putNote _ _))
    (hwake (((s.keepsQueue_putNote _ _).wr _ _ _ _ (by decide)).trans (herr _))))

theorem State.keepsQueue_applyHost (n : Bool) (i v : Nat) : s.KeepsQueue False (s.applySignal (.host n i v)) := by
  cases n
  · exact .ite (s.keepsQueue_signalTl i v (fun u => u.keepsQueue_hostReport _ _ i (by decide) (by decide))) (s.keepsQueue_syncErr _ (by decide))
  · exact .ite (s.keepsQueue_signalNote i v (fun u => u.keepsQueue_hostReport _ _ i (by decide) (by decide))) (s.keepsQueue_syncErr _ (by decide))

theorem State.keepsQueue_lastOps (n : Bool) (i : Nat) :
    s.KeepsQueue (∀ e ∈ s.syn.ops, ∀ v, e.2 ≠ .host n i v) (s.lastOps n i) := by
  have hgoes : s.KeepsQueue False (s.lastOps n i) := by
    unfold State.lastOps
    refine List.foldlRecOn _ _ (motive := fun (p : State × Bool) => s.KeepsQueue False p.1) (.refl s) (fun p hp o _ => ?_)
    split
    · rename_i _ _ _ hhost
      rw [hhost]
      exact hp.trans (.ite (State.keepsQueue_syncErr _ _ (by decide)) (State.keepsQueue_applyHost _ _ _ _))
    · exact hp
    · exact hp
  have hstays (h : ∀ e ∈ s.syn.ops, ∀ v, e.2 ≠ .host n i v) : s.lastOps n i = s := by
    unfold State.lastOps
    refine List.foldlRecOn _ _ (motive := fun (p : State × Bool) => p.1 = s) rfl (fun p hp o ho => ?_)
    obtain ⟨hin, hobj⟩ := List.mem_filter.mp ho
    split
    · rename_i m j v hhost
      rw [hhost] at hobj
      obtain ⟨rfl, rfl⟩ := Prod.mk.inj (eq_of_beq hobj)
      exact absurd hhost (h o hin v)
    · exact hp
    · exact hp
  exact ⟨hgoes.ops, hgoes.done, fun h => by rw [hstays h]; exact ⟨rfl, rfl, rfl⟩⟩

/-! ### A note or timeline ceases to exist -/

theorem State.skipPairs_keeps (i : Nat) : s.KeepsQueue True (s.skipPairs i) ∧ (s.skipPairs i).syn = s.syn := by
  unfold State.skipPairs
  extract_lets names
  refine List.foldlRecOn _ _ (motive := fun (u : State) => s.KeepsQueue True u ∧ u.syn = s.syn) ⟨.refl s, rfl⟩ (fun u hu e _ => ?_)
  obtain ⟨q, w⟩ := e
  obtain ⟨hqueue, hsyn⟩ := hu
  dsimp only
  split
  · rename_i k _
    split
    · exact ⟨hqueue, hsyn⟩
    · set v := (k.pairs.filter names).foldl (fun s p => s.setBit F.SWQ_STK_BADPAIR q p.1) u
      have hset : u.KeepsQueue True v := (State.KeepsQueue.refl u).foldl _ (fun t p => (State.KeepsQueue.refl t).wr _ _ _ _ (by decide)) _
      have hkeep : v.syn = u.syn := foldl_keeps _ (fun t : State => t.syn) (fun _ _ => by rfl) _ u
      exact ⟨(hqueue.trans hset).trans (v.keepsQueue_cmd _), hkeep.trans hsyn⟩
  · exact ⟨hqueue, hsyn⟩

theorem State.loseRef_keeps {m : Prop} (r : ObjKind × Nat) : s.KeepsQueue m (s.loseRef r) ∧ (s.loseRef r).syn = s.syn :=
  ⟨⟨rfl, fun _ _ => rfl, fun _ => ⟨rfl, rfl, rfl⟩⟩, rfl⟩

/-- Arms applied to an object that is gone change nothing but the watchers. -/
theorem State.foldl_armApply_keeps {m : Prop} (n : Bool) (i : Nat) (l : List (Nat × Nat)) :
    s.KeepsQueue m (l.foldl (fun s a => s.armApply n i a.1 a.2) s) ∧
      (l.foldl (fun s a => s.armApply n i a.1 a.2) s).syn.notes = s.syn.notes ∧
      (l.foldl (fun s a => s.armApply n i a.1 a.2) s).syn.tls = s.syn.tls := by
  refine List.foldlRecOn _ _ (motive := fun (u : State) => s.KeepsQueue m u ∧ u.syn.notes = s.syn.notes ∧ u.syn.tls = s.syn.tls)
    ⟨.refl s, rfl, rfl⟩ (fun u hu a _ => ?_)
  obtain ⟨hqueue, hnotes, htls⟩ := hu
  obtain ⟨l', r, h⟩ := u.armApply_frame n i a.1 a.2
  rw [h]
  exact ⟨hqueue.trans (u.keepsQueue_syn _), hnotes, htls⟩

/-- The object's record and queue gone. -/
def State.syncDropped (n : Bool) (i : Nat) : State :=
  { s with syn := { s.syn with
    notes := if n then adel s.syn.notes i else s.syn.notes
    tls := if n then s.syn.tls else adel s.syn.tls i
    ops := s.syn.ops.filter (fun o => o.2.obj != (n, i)) } }

/-- Its value gone with it. -/
def State.syncCleared (n : Bool) (i : Nat) : State := if n then (s.skipPairs i).setReg .NOTE_VAL i 0 0 else s.setReg .TL_VAL i 0 0

theorem State.syncCleared_keeps (n : Bool) (i : Nat) : s.KeepsQueue True (s.syncCleared n i) ∧ (s.syncCleared n i).syn = s.syn := by
  obtain ⟨hqueue, hsyn⟩ := s.skipPairs_keeps i
  unfold State.syncCleared
  split
  · exact ⟨hqueue.setReg _ _ _ _ (by decide), hsyn⟩
  · exact ⟨(State.KeepsQueue.refl s).setReg _ _ _ _ (by decide), rfl⟩

/-- A note or timeline that is freed leaves K0's queue, and memory where no host signal is queued for it; its record is gone. -/
theorem State.syncGone_keeps (n : Bool) (i : Nat) : s.KeepsQueue (∀ e ∈ s.syn.ops, ∀ v, e.2 ≠ .host n i v) (s.syncGone n i) ∧
    (n = true → aget (s.syncGone n i).syn.notes i = none) ∧ (n = false → aget (s.syncGone n i).syn.tls i = none) := by
  have hgone : ∃ (arms : List (Nat × Nat)) (k : ObjKind), s.syncGone n i =
      arms.foldl (fun s a => s.armApply n i a.1 a.2) ((((s.lastOps n i).syncDropped n i).syncCleared n i).loseRef (k, i)) := ⟨_, _, rfl⟩
  obtain ⟨arms, k, hgone⟩ := hgone
  set d := (s.lastOps n i).syncDropped n i with hd
  have hdropped := (s.keepsQueue_lastOps n i).trans ((s.lastOps n i).keepsQueue_syn d.syn)
  obtain ⟨hcleared, hcsyn⟩ := d.syncCleared_keeps n i
  obtain ⟨hlost, hlsyn⟩ := (d.syncCleared n i).loseRef_keeps (m := True) (k, i)
  obtain ⟨harmed, hnotes, htls⟩ := ((d.syncCleared n i).loseRef (k, i)).foldl_armApply_keeps (m := True) n i arms
  rw [hgone, hnotes, htls, hlsyn, hcsyn]
  refine ⟨hdropped.trans (((hcleared.trans hlost).trans harmed).mono (fun _ => trivial)), ?_, ?_⟩
  · rintro rfl
    exact aget_adel_self _ _
  · rintro rfl
    exact aget_adel_self _ _

end

/-! ### DESTROY_DONE (R268) -/

theorem State.KeepsQueue.runs_destroyDone {m : Prop} {s g : State} {o : ObjOp} {r : List ObjOp} {k : ObjKind} (hops : s.obj.ops = o :: r)
    (hkeeps : s.KeepsQueue m g) (hdone : s.destroyDone k o.index = g.endOp) (howner : g.objOwner o.typ o.index = none)
    (htyp : o.typ = 1 ∨ o.typ = 3 ∨ o.typ = 4) :
    Runs (.destroyDone k o.index) s (fun t => t.objOwner o.typ o.index = none ∧ t.obj.busy = false ∧ (m → SameMemory s t) ∧
      (r = [] → t.obj.ops = [] ∧ t.rd F.OBJ_SEQ_DONE = (s.rd F.OBJ_SEQ_DONE + 1) % 2 ^ 32)) := by
  have hsame : g.endOp.objOwner o.typ o.index = g.objOwner o.typ o.index := by
    rcases htyp with h | h | h <;> simp only [h, State.objOwner, State.swq, State.endOp_cmd, State.endOp_syn]
  refine ⟨_, congrArg Host.Outcome.next hdone, hsame.trans howner, g.endOp_busy, fun hm => (hkeeps.same hm).trans g.endOp_same, fun hr => ?_⟩
  have htail : g.obj.ops.tail = [] := by
    rw [hkeeps.ops, hops, hr]
    rfl
  obtain ⟨hcount, hempty⟩ := g.endOp_done htail
  refine ⟨hempty, ?_⟩
  rw [hcount, State.rd, State.rd, hkeeps.done]

theorem State.runs_destroyDone {s : State} {o : ObjOp} {r : List ObjOp} {k : ObjKind} (hops : s.obj.ops = o :: r) (hbusy : s.obj.busy = true)
    (hop : o.op = oDestroy) (hk : k = .note ∧ o.typ = 3 ∨ k = .timeline ∧ o.typ = 4 ∨ k = .swq ∧ o.typ = 1)
    (hfree : s.cmd.cmds.any (fun e => s.holds k o.index e.2) = false) (hstays : k = .swq → ∀ e ∈ s.syn.ops, e.2.stays = false)
    (hfirst : k ≠ .swq → s.firstOp (k == .note, o.index) = some (.destroy (k == .note) o.index true)) :
    Runs (.destroyDone k o.index) s (fun t => t.objOwner o.typ o.index = none ∧ t.obj.busy = false ∧
      ((∀ e ∈ s.syn.ops, ∀ v, e.2 ≠ .host (k == .note) o.index v) → SameMemory s t) ∧
      (r = [] → t.obj.ops = [] ∧ t.rd F.OBJ_SEQ_DONE = (s.rd F.OBJ_SEQ_DONE + 1) % 2 ^ 32)) := by
  rcases hk with ⟨rfl, htyp⟩ | ⟨rfl, htyp⟩ | ⟨rfl, htyp⟩
  · have hdone : s.destroyDone .note o.index = (s.syncGone true o.index).endOp := by
      have hf : s.firstOp (true, o.index) = some (.destroy true o.index true) := hfirst (by decide)
      simp [State.destroyDone, hops, hbusy, hop, htyp, kindOf, hfree, hf, State.objGone, State.noteGone]
    obtain ⟨hkeeps, hnote, -⟩ := s.syncGone_keeps true o.index
    refine hkeeps.runs_destroyDone hops hdone ?_ (by simp [htyp])
    simp [htyp, State.objOwner, hnote rfl]
  · have hdone : s.destroyDone .timeline o.index = (s.syncGone false o.index).endOp := by
      have hf : s.firstOp (false, o.index) = some (.destroy false o.index true) := hfirst (by decide)
      have hkind : (ObjKind.timeline == ObjKind.note) = false := by decide
      simp [State.destroyDone, hops, hbusy, hop, htyp, kindOf, hfree, hkind, hf, State.objGone, State.tlGone]
    obtain ⟨hkeeps, -, htl⟩ := s.syncGone_keeps false o.index
    refine hkeeps.runs_destroyDone hops hdone ?_ (by simp [htyp])
    simp [htyp, State.objOwner, htl rfl]
  · have hdone : s.destroyDone .swq o.index = (s.swqGone o.index).endOp := by
      simp [State.destroyDone, hops, hbusy, hop, htyp, kindOf, hfree, State.objGone]
    refine ((State.keepsQueue_swqGone (hstays rfl) o.index).mono (fun _ => trivial)).runs_destroyDone hops hdone ?_ (by simp [htyp])
    simp [htyp, State.objOwner, s.swq_swqGone]

end Sys2Proof.Machine
end

section
/-! CLAIM. Objects destroyed, contexts saved and restored (12_shared_objects.md R258, R267-R269; 14_synchronisation.md R303). -/

namespace Sys2Proof.Machine

open Sys2Proof

/-- Settles O44: whatever an access to the sync store meets, the destruction stays in the units' queue; the other clauses are an equation for
each operation. -/
theorem destroyAndSave : Obligations.DestroyAndSave := by
  unfold Obligations.DestroyAndSave
  refine ⟨fun _ _ => State.runs_ctxDestroy, fun s o irq rel hhead hctx howner => ⟨fun htyp => ?_, fun hfree hops hfinds hserved =>
    ⟨fun htyp => ?_, fun htyp => ?_⟩⟩, fun _ _ _ _ => State.runs_destroyDone, fun _ _ _ => State.runs_destroyDone_ctx,
    fun _ _ => State.ctxSave_begins, fun _ _ => State.runs_ctxSaveDone, fun s o hcut hhead hsaved =>
    ⟨State.runs_ctxRestore_nil hcut hhead hsaved, fun l u hu hlive =>
      congrArg Host.Outcome.next (State.ctxRestore_live hcut hhead hsaved hu hlive)⟩⟩
  · refine State.runs_objDestroy_queued hhead hctx howner ?_
    rcases htyp with h | h <;> simp [h]
  · rw [htyp] at hserved
    obtain ⟨v, heq, hwatch, -⟩ := State.objDestroy_applies hhead hctx howner (.inr ⟨rfl, htyp⟩) hfree hops hfinds hserved
    exact ⟨_, congrArg Host.Outcome.next heq, State.destroyApplied_tlVal, State.destroyApplied_fires hwatch⟩
  · rw [htyp] at hserved
    obtain ⟨v, heq, hwatch, hregs⟩ := State.objDestroy_applies hhead hctx howner (.inl ⟨rfl, htyp⟩) hfree hops hfinds hserved
    exact ⟨_, congrArg Host.Outcome.next heq, State.destroyApplied_noteVal.trans (hregs.rd _ (by decide) _ _), State.destroyApplied_fires hwatch⟩

end Sys2Proof.Machine
end
